-- ==== Sys2Proof/Word.lean ====
section
/-! DEFINITION. The word types of the module and the sparse-map type that memories and register files use.
Only types and their plainest arithmetic stand here; everything a test could show wrong is under Machine/. -/

namespace Sys2Proof

/-- One byte. -/
abbrev Byte := BitVec 8

/-- A 32-bit word: a register of BAR0 (R541), a lane of the vector engine (R159). -/
abbrev Word := BitVec 32

/-- A 64-bit word: a G or P register (Table 06.2), a counter, a meridian count. -/
abbrev DWord := BitVec 64

/-- A sequence of bytes, lowest address first. -/
abbrev Bytes := List Byte

/-- A SHA-512 digest (R583), the first byte of the digest in the most significant bits. -/
abbrev Digest := BitVec 512

/-- A 32-byte key (R582), byte 0 in the least significant bits. -/
abbrev Key := BitVec 256

/-- A 64-byte Ed25519 signature (R582), byte 0 in the least significant bits. -/
abbrev Signature := BitVec 512

/-- A sparse map from natural-number keys, kept in one canonical form: keys strictly rising and no entry
equal to the map's default value. Its operations are in Machine/Map.lean. A map to bytes is a
`List Host.Cell`. -/
abbrev SMap (α : Type) := List (Nat × α)

/-- A physical tile number, die × 16 + cluster × 4 + position (R11). -/
abbrev TileNo := Fin 128

/-- A stack number, die × 4 + position (R11). -/
abbrev StackNo := Fin 32

/-- A G register number (Table 06.2). -/
abbrev GReg := Fin 32

/-- A P register number (Table 06.2). -/
abbrev PReg := Fin 64

/-- A V register number (Table 06.2). -/
abbrev VReg := Fin 64

/-- An M register number (Table 06.2). -/
abbrev MReg := Fin 16

/-- An L register number (Table 06.2). -/
abbrev LReg := Fin 4

end Sys2Proof
end

