-- ==== Sys2Proof/Machine/Library.lean ====
section
/-! DEFINITION. The entries of the resident routine library (R214 to R218, R624, R625). -/

namespace Sys2Proof.Machine

/-- A parameter of a routine (Table 06.12): its name, its KIND (0 count, 1 scratchpad byte address, 2 region number, 3 INT64
value, 4 FP32 value), MIN and MAX. -/
structure RoutineParam where
  name : String
  kind : Nat
  lo : Nat
  hi : Nat
  deriving DecidableEq, Repr

/-- An access stream of a routine (R625): KIND (0 read, 1 write, 2 merge write), the parameter register that holds the base
address, LINES, and the expressions START, COUNT, CADENCE and STRIDE. -/
structure RoutineAccess where
  kind : Nat
  base : Nat
  lines : Nat
  start : String
  count : String
  cadence : String
  stride : String
  deriving DecidableEq, Repr

/-- A routine of the library directory (R624): its parameters stand in G20 upward, and `cycles` is the expression of its
cycle count. -/
structure Routine where
  id : BitVec 16
  name : String
  /-- [0] matrix array; [1] vector engine; [2] reduction unit. -/
  engines : BitVec 3
  loops : Nat
  params : List RoutineParam
  cycles : String
  accesses : List RoutineAccess
  deriving DecidableEq, Repr

end Sys2Proof.Machine
end

