-- ==== Sys2Proof/Syntax.lean ====
section
/-! DEFINITION. The commands of the module: one constructor of `Instr` for each row of the table of
operations and events, with the operands the row takes. A command is a host access, a Berno command, an
operation that a bundle's slot issues on a tile, an event of one of the module's units, or an event on
its pins, links and supplies. Operand types come first, family by family. -/

namespace Sys2Proof

/-! ### Host interface operands -/

/-- The two command paths (R523). -/
inductive Path where
  | pcie | mctp
  deriving DecidableEq, Repr

/-- The fields of a committed packet's header that firmware uses (Table 15.5). The opcode and the body
are the command's own operands. -/
structure Hdr where
  path : Path
  major : Byte
  minor : Byte
  seq : Word
  /-- FLAGS[3:0], the MSI-X vector of the reply. -/
  vector : BitVec 4
  /-- FLAGS[4], NO_REPLY. -/
  noReply : Bool
  jobId : BitVec 16
  ringIndex : Word
  session : Word
  deriving DecidableEq, Repr

/-- Body of SESSION_OPEN and SESSION_TAKE (R524). -/
structure OpenBody where
  versionMin : BitVec 16
  versionMax : BitVec 16
  /-- 0x01 owner, 0x02 observer. -/
  kind : Byte
  eventVector : Byte
  coalesce : BitVec 16
  hostTag : DWord
  deriving DecidableEq, Repr

/-- Body of LOAD_IMAGE and VERIFY_IMAGE (Table 15.10). -/
structure LoadBody where
  handle : Byte
  imageAddr : DWord
  placeBase : DWord
  placeLimit : DWord
  deriving DecidableEq, Repr

/-- Body of DMA_START (Table 15.11). -/
structure DmaBody where
  channel : Byte
  /-- 0 host to HBM, 1 HBM to host. -/
  dir : Byte
  options : BitVec 16
  hostAddr : DWord
  hbmAddr : DWord
  length : DWord
  needBy : DWord
  deriving DecidableEq, Repr

/-- A host access through BAR4 (R512): a load of a number of bytes or a store of bytes, at a window offset. -/
inductive ApertureOp where
  | load (offset len : Nat)
  | store (offset : Nat) (data : Bytes)
  deriving DecidableEq, Repr

/-- One entry of a RUN patch list (Table 06.7). -/
structure PatchEntry where
  value : DWord
  reg : Byte
  select : Byte
  target : BitVec 16
  deriving DecidableEq, Repr

/-- Body of RUN before the patch list (Table 15.13). -/
structure RunBody where
  flags : BitVec 16
  hangExp : Byte
  jobTag : BitVec 16
  jobSeed : DWord
  firstStep : Word
  stepLimit : Word
  deriving DecidableEq, Repr

/-- Body of the ANNOUNCE_MEMBERSHIP kinds without KIND (Table 15.14). -/
structure AnnounceBody where
  memberEpoch : Word
  tE : Word
  tableAddr : DWord
  deriving DecidableEq, Repr

/-- Body of SET_DOMAIN (Table 15.14). -/
structure DomainBody where
  version : Byte
  /-- [0] witness by chain, [1] witness by host. -/
  paths : Byte
  witnessId : Word
  witnessKey : Key
  deriving DecidableEq, Repr

/-- A LEASE_REPLY of Table 13.4. -/
structure LeaseReplyMsg where
  pairId : Word
  holder : Word
  epoch : Word
  /-- 0x00 granted, 0x01 held by the twin, 0x02 stale epoch. -/
  result : Byte
  notBefore : DWord
  nonce : DWord
  signature : Signature
  deriving DecidableEq, Repr

/-- An SPDM 1.3 request of Table 18.5, by its kind; `other` is every request the module does not support. -/
inductive SpdmRequest where
  | getVersion
  | getCapabilities
  | negotiateAlgorithms
  | getDigests
  | getCertificate (slot : Byte) (offset length : BitVec 16)
  | challenge (slot : Byte) (nonce : Key)
  | getMeasurements (index : Byte) (signed : Bool) (nonce : Key)
  | other (code : Byte)
  deriving DecidableEq, Repr

/-- The objects of READ_SYNC (Table 15.16). -/
inductive SyncObject where
  | tile | semaphore | barrier | watch | recvEndpoint | sendEndpoint
  deriving DecidableEq, Repr

/-- Why a run ends (R77, Table 15.12). -/
inductive EndCause where
  | complete | stepLimit | stop | fault
  deriving DecidableEq, Repr

/-! ### The loader's reading of an image body (R230: the body's encoding is private) -/

/-- A region declaration (R244). -/
structure RegionDecl where
  base : Nat
  length : Nat
  /-- Class W rather than class A (R246). -/
  classW : Bool
  writable : Bool
  deriving DecidableEq, Repr

/-- The far module of a port channel (R396). -/
inductive FarModule where
  | rankOffset (k : Nat)
  | twin
  | moduleId (id : BitVec 20)
  deriving DecidableEq, Repr

/-- One end of a channel: a logical tile of this image, or a port end (Table 08.1). -/
inductive ChanEnd where
  | tile (logical : Nat) (ep : Fin 64)
  | port (far : FarModule) (farLogical : Nat) (farEp : Fin 64)
  deriving DecidableEq, Repr

/-- The kinds of receive endpoint (Table 08.1). -/
inductive EpKind where
  | plain | combining | filtered
  deriving DecidableEq, Repr

/-- A channel declaration (Table 08.1). -/
structure ChanDecl where
  send : ChanEnd
  recv : ChanEnd
  msgSize : Nat
  depth : Nat
  kind : EpKind
  tolerant : Bool
  needBy : Nat
  context : Option (Fin 64)
  vc : Fin 8
  deriving DecidableEq, Repr

/-- Combine operations (Table 08.3). -/
inductive CombineOp where
  | addInt | maxInt | orWord | addFp32
  deriving DecidableEq, Repr

/-- Arrival formats of a combining endpoint (Table 08.3). -/
inductive ArrivalFmt where
  | int32 | int16 | int24 | signBits | int8 | word32 | fp32
  deriving DecidableEq, Repr

/-- What a filtered endpoint accepts (Table 12.5): LEVEL, KIND, the context, the group size and the
receiver's own digit at that level. -/
structure FilterDecl where
  level : Fin 8
  kind : Fin 8
  context : Fin 64
  deriving DecidableEq, Repr

/-- A combining endpoint declaration (R290, R426). -/
structure CombDecl where
  logical : Nat
  ep : Fin 64
  slots : Nat
  elems : Nat
  op : CombineOp
  fmt : ArrivalFmt
  filter : Option FilterDecl
  deriving DecidableEq, Repr

/-- Barrier scopes in the coding of R304: 0 cluster, 1 die, 2 module, 3 pair, 4 domain. -/
inductive BarrierScope where
  | cluster | die | module | pair | domain
  deriving DecidableEq, Repr

/-- A barrier declaration (R301), with the logical tiles that take part on this module. -/
structure BarrierDecl where
  id : Fin 16
  scope : BarrierScope
  participants : List Nat
  /-- The step barrier of R444. -/
  isStepBarrier : Bool
  deriving DecidableEq, Repr

/-- A watch declaration (R298). -/
structure WatchDecl where
  logical : Nat
  handle : Fin 32
  target : Nat
  deriving DecidableEq, Repr

/-- The backup sources of a reduction context (Table 12.1). -/
inductive BackupKind where
  | none | twin | declared
  deriving DecidableEq, Repr

/-- A reduction context declaration (Table 12.1). -/
structure ContextDecl where
  context : Fin 64
  vc : Fin 8
  s1 : Bool
  backup : BackupKind
  norm : Bool
  /-- GROUPS: number, bucket count and bucket size of each parameter group. -/
  groups : List (Nat × Nat × Nat)
  /-- TILES: the logical tiles that hold partials and own buckets. -/
  tiles : List Nat
  deriving DecidableEq, Repr

/-- A section of an image and the band it must land in (R325), with the P register that takes its address. -/
structure SectionDecl where
  /-- A code section rather than a data section (R234). -/
  isCode : Bool
  size : Nat
  /-- Its bytes as the loader writes them, tile numbers rewritten (R234); the rest of `size` is 0. -/
  data : Bytes
  mode : Fin 3
  classW : Bool
  /-- The logical tile (none for all) and P register of the declared address register (R223). -/
  reg : Option (Option Nat × PReg)
  deriving DecidableEq, Repr

/-- Role of a state slot (Table 10.3). -/
inductive SlotRole where
  | readWrite | readOnly | passive
  deriving DecidableEq, Repr

/-- Grain of a state slot (Table 10.3). -/
inductive SlotGrain where
  | full | compact | blockTable
  deriving DecidableEq, Repr

/-- A state slot of a plan entry (Table 10.3). -/
structure PlanSlot where
  tensorId : Word
  base : Nat
  grain : SlotGrain
  role : SlotRole
  /-- Elements of the whole tensor, where the image gives it (R348's compact-range test). -/
  tensorElems : Option Nat
  deriving DecidableEq, Repr

/-- Working copy formats (Table 10.3, FLAGS[4:3]). -/
inductive CopyFmt where
  | none | bf16 | fp16 | e4m3
  deriving DecidableEq, Repr

/-- An update plan entry (Table 10.3). -/
structure PlanEntry where
  group : Nat
  program : Nat
  mirrored : Bool
  preconditioned : Bool
  s1 : Bool
  copy : CopyFmt
  elemFirst : Nat
  elemCount : Nat
  gradBase : Nat
  gate : Nat
  bucketElems : Nat
  markFirst : Nat
  copyBase : Nat
  scalarLines : Nat
  scalarBase : Nat
  needOffset : Word
  slots : List PlanSlot
  deriving DecidableEq, Repr

/-- An update plan (Table 10.2). -/
structure UpdatePlan where
  markLines : Nat
  markBase : Nat
  gateBase : Nat
  firstStep : Nat
  entries : List PlanEntry
  deriving DecidableEq, Repr

/-! ### Vector-engine operands (also the chain operations of an update program, R346) -/

/-- Element formats of an operand or result stream (Table 05.1). -/
inductive Fmt where
  | fp32 | bf16 | fp16 | e4m3 | e5m2
  | mxfp8e4m3 | mxfp8e5m2 | mxfp6e2m3 | mxfp6e3m2 | mxfp4 | fp4
  | int32 | int16 | int8
  deriving DecidableEq, Repr

/-- A parameter of an engine operation: it comes from a G or P register, or from the operation's own encoding. -/
inductive Src where
  | g (r : GReg)
  | p (r : PReg)
  | imm (v : DWord)
  deriving DecidableEq, Repr

/-- One dimension of a stream: a count and a byte stride (R163). -/
structure Dim where
  count : Src
  stride : Src
  deriving DecidableEq, Repr

/-- Where a microscaled or FP4 stream takes its scale (Table 05.1). -/
inductive ScaleSrc where
  | none
  /-- One E8M0 byte for each 32 elements, from this address on. -/
  | block (addr : Src)
  /-- The FP32 tensor scale in a G register (R87). -/
  | tensor (g : GReg)
  deriving DecidableEq, Repr

/-- An operand or result stream (R163). -/
structure StreamArg where
  base : Src
  fmt : Fmt
  dims : List Dim
  broadcast : Bool
  isUnsigned : Bool
  scale : ScaleSrc
  region : Fin 64
  deriving DecidableEq, Repr

/-- A pass operand: a stream, a G register, a V register, or (stream a only) the array drain (R163, R164). -/
inductive Operand where
  | stream (s : StreamArg)
  | g (r : GReg)
  | v (r : VReg)
  | drain
  deriving DecidableEq, Repr

/-- A mask source (R173). -/
inductive MaskSrc where
  | m (r : MReg)
  | stream (s : StreamArg)
  | chain
  deriving DecidableEq, Repr

/-- A stage input (R169): an operand stream, the output named by a position, a G or V register. -/
inductive StageIn where
  | a | b | c
  | out (pos : Fin 9)
  | g (r : GReg)
  | v (r : VReg)
  deriving DecidableEq, Repr

/-- Conditions of the compare stages (R622). -/
inductive Cond where
  | eq | ne | lt | le | gt | ge
  deriving DecidableEq, Repr

/-- Rounding of an FP32 to INT32 conversion (Table 05.2). -/
inductive IntRound where
  | nearestEven | towardZero | floor
  deriving DecidableEq, Repr

/-- Shuffle patterns (Table 05.5). -/
inductive Shuffle where
  | rotate | reverse | butterfly | broadcast | interleave | deinterleave
  deriving DecidableEq, Repr

/-- Narrow types of pack and unpack (R184). -/
inductive PackFmt where
  | fp16 | bf16 | e4m3 | e5m2 | e2m1 | int16 | int8 | int4
  deriving DecidableEq, Repr

/-- Stage operations (Table 05.2, R622). -/
inductive StageOp where
  | copy | select | and | or | xor | not | shl | shr | sar | popcount
  | iadd | isub | imin (uns : Bool) | imax (uns : Bool) | iabs | ineg | icmp (c : Cond) (uns : Bool) | iclamp (uns : Bool)
  | mulLow | mulHigh (uns : Bool)
  | fmin | fmax | fabs | fneg | copysign | fcmp (c : Cond) | fclamp | classTest (set : BitVec 10)
  | fadd | fsub | fmul | ffma
  | toInt (r : IntRound) | toFp | round (f : PackFmt) (nonSaturating : Bool) | bitCopy
  | shuffle (p : Shuffle) (param : GReg)
  | pack (f : PackFmt) (nonSaturating : Bool) | unpack (f : PackFmt) (half : Fin 8) (signed : Bool)
  | permute
  | fdiv | fsqrt | fexp | flog | frsqrt | ftanh | ferf
  deriving DecidableEq, Repr

/-- A stage of a pass (R169, R173, R174). -/
structure Stage where
  op : StageOp
  in1 : StageIn
  in2 : Option StageIn
  in3 : Option StageIn
  /-- The selector mask of `select` (R622). -/
  sel : Option MaskSrc
  mask : Option MaskSrc
  /-- A masked-off lane takes 0 rather than the first input (R174). -/
  maskedZero : Bool
  deriving DecidableEq, Repr

/-- Where a pass's result goes (R163, R175, R186, R623). -/
inductive ResultDest where
  | stream (s : StreamArg)
  /-- V[base + v] for vector v. -/
  | vrange (base : VReg)
  /-- A single V register keeps the last vector. -/
  | vlast (r : VReg)
  | g (r : GReg)
  /-- The chain mask of the last vector. -/
  | m (r : MReg)
  /-- The chain mask, as a mask stream. -/
  | maskStream (s : StreamArg)
  deriving DecidableEq, Repr

/-- A result of a pass. -/
structure Result where
  src : StageIn
  dest : ResultDest
  mask : Option MaskSrc
  /-- The OCP non-saturating option of an FP8 write (R88). -/
  nonSaturating : Bool
  deriving DecidableEq, Repr

/-- The end of a check shot (R117, R118): the product, the output tile's index, and the scratchpad addresses of the array's
result and of the reference, each 256 × 256 FP32 values. The encoding of a schedule is private; a pass that ends a
check shot carries it. -/
structure CheckShot where
  product : Word
  index : Word
  result : Src
  reference : Src
  deriving DecidableEq, Repr

/-- A vector-engine pass (R162). -/
structure Pass where
  n : Src
  tail : Option Src
  a : Operand
  b : Option Operand
  c : Option Operand
  stages : List Stage
  results : List Result
  check : Option CheckShot := none
  deriving DecidableEq, Repr

/-- Reduction operations (Table 05.6). -/
inductive RedOp where
  | sum | sumSquares | max | min | argmax
  deriving DecidableEq, Repr

/-- An operand of an update-program stage (R350). -/
inductive UpeIn where
  | grad
  | slot (i : Fin 6)
  | k (i : Fin 16)
  | step
  | temp (i : Fin 64)
  /-- The value of a reduction for the element's group (R351). -/
  | red (i : Fin 8)
  deriving DecidableEq, Repr

/-- A stage of an update program: an element-wise chain operation into a core vector register (R346, R350). -/
structure UpeStage where
  op : StageOp
  in1 : UpeIn
  in2 : Option UpeIn
  in3 : Option UpeIn
  dest : Fin 64
  deriving DecidableEq, Repr

/-- A reduction inside an update program (R351): its own stages, the value it reduces, and the elements of a group. -/
structure UpeReduction where
  stages : List UpeStage
  src : UpeIn
  op : RedOp
  isInt : Bool
  groupElems : Nat
  deriving DecidableEq, Repr

/-- A refresh of a preconditioned tensor (R369, R370): every how many steps, the order of a block, the slots of the
statistics and of the inverse, and the tensor's declared values. -/
structure Refresh where
  every : Nat
  order : Nat
  stats : Fin 6
  inverse : Fin 6
  /-- The pivot floor φ and the damping ratio ρ, FP32 (R369). -/
  floor : Word := 0x35800000
  ratio : Word := 0x3B800000
  /-- The refresh runs INV_ROOT with this p in place of FACTOR_SOLVE. -/
  root : Option (Fin 9) := none
  deriving DecidableEq, Repr

/-- An update program: its reductions, its chain passes flattened into one list, the slots it writes and its
working-copy output (R350). -/
structure UpdateProgram where
  reductions : List UpeReduction
  stages : List UpeStage
  writes : List (Fin 6 × UpeIn)
  copyOut : UpeIn
  refresh : Option Refresh
  /-- Bytes of code memory it takes (R348). -/
  codeBytes : Nat
  deriving DecidableEq, Repr

/-- What the loader's private decoder reads in an image's body. -/
structure ImageBody where
  /-- The verifier accepts the schedule (R238). -/
  verifierAccepts : Bool
  /-- Routine IDs the image imports (R231 step 5). -/
  imports : List (BitVec 16)
  /-- Code lines of each logical tile's code section (R225). -/
  codeLines : Nat
  regions : List (Nat × Fin 64 × RegionDecl)
  /-- Hold area in KiB (R253). -/
  holdKiB : Nat
  sems : List (Nat × Fin 64 × BitVec 16)
  /-- Declared signallers of a semaphore (Table 08.7): the tile's own sync slot, or a descriptor's completions. -/
  signallers : List (Nat × Fin 64 × Option (Fin 32))
  pInit : List (Nat × PReg × DWord)
  /-- Pairs of P registers whose initial values are a window's writer mask, tiles 0 to 63 and 64 to 127, as logical tiles
  (R234, R257). -/
  masks : List (Nat × PReg × PReg)
  groups : List (Nat × List Nat)
  channels : List ChanDecl
  combs : List CombDecl
  barriers : List BarrierDecl
  watches : List WatchDecl
  contexts : List ContextDecl
  sections : List SectionDecl
  /-- Contractions: whether the order is sequential (R58), and the logical tiles that take a part (R59). -/
  contractions : List (Bool × List Nat)
  programs : List UpdateProgram
  plans : List (StackNo × UpdatePlan)
  parcelSize : Word
  parcels : Word
  contributions : Word
  gradFormat : Byte
  stateGrain : Byte
  inputs : List (DWord × Digest)
  deriving DecidableEq, Repr

/-! ### Tile operands -/

/-- An upset that the error-correcting codes meet as an operation issues: in the line of its bundle, corrected or not
(R229), in the routine store at a bundle of the routine that it calls (R229), or in a scratchpad line, where it stays until the
line is written and every read of the line meets it (R248). -/
inductive EccFinding where
  | none
  | istoreCorrected
  | istoreDouble
  | routineCorrected
  | routineDouble (offset : Nat)
  | scratchUpset (line : Nat) (uncorrectable : Bool)
  deriving DecidableEq, Repr

/-- The condition of a wait point as the bundle encodes it (Table 06.1, Table 08.2). -/
inductive WaitOn where
  | sem (s : Fin 64) (v : BitVec 16)
  | take (s : Fin 64) (v : BitVec 16)
  | message (ep : Fin 64)
  | credit (ep : Fin 64)
  | arrived (ep : Fin 64) (slot : Src) (k : Nat)
  | barrier (b : Fin 16)
  | watch (h : Fin 32)
  deriving DecidableEq, Repr

/-- A wait point of a bundle (R205): its index and its condition. -/
structure WaitPoint where
  wp : Fin 1024
  on : WaitOn
  deriving DecidableEq, Repr

/-- Where a slot operation is issued: the tile, the address of its bundle (R237) and the bundle's wait points, on which the
whole bundle depends (R198, R206). A wait operation's own wait point need not stand in the list. -/
structure Iss where
  tile : TileNo
  bundle : Word
  ecc : EccFinding := .none
  waits : List WaitPoint := []
  deriving DecidableEq, Repr

/-- Array modes (R128). -/
inductive ArrayMode where
  | standard | extended | diagonal
  deriving DecidableEq, Repr

/-- Accumulation of a feed (R149). -/
inductive Accumulation where
  | flat
  /-- Tree mode of depth D, 1, 2, 4, 8 or 16 (R151). -/
  | tree (depth : Nat)
  deriving DecidableEq, Repr

/-- Operand of SET_MODE (Table 04.6). -/
structure ModeArg where
  mode : ArrayMode
  inFmt : Fmt
  wFmt : Fmt
  accum : Accumulation
  scaleA : GReg
  scaleW : GReg
  deriving DecidableEq, Repr

/-- Operand of LOAD_WEIGHTS (Table 04.6). -/
structure LoadArg where
  addr : Src
  stride : Src
  scaleAddr : Src
  k : Src
  diagonal : Bool
  region : Fin 64
  deriving DecidableEq, Repr

/-- Image-walk parameters (Table 04.9). -/
structure Walk where
  addr : Src
  n : Nat
  h : Nat
  w : Nat
  c : Nat
  kh : Nat
  kw : Nat
  strideV : Nat
  strideH : Nat
  dilV : Nat
  dilH : Nat
  padTop : Nat
  padLeft : Nat
  oh : Nat
  ow : Nat
  region : Fin 64
  deriving DecidableEq, Repr

/-- Where a feed takes its input rows (Table 04.6). -/
inductive FeedSrc where
  | rows (addr stride : Src) (region : Fin 64)
  | endpoint (ep : Fin 64)
  | walk (w : Walk)
  deriving DecidableEq, Repr

/-- Operand of FEED (Table 04.6). `pass` is the pass of an extended-mode row (R132), 0 to 2. -/
structure FeedArg where
  src : FeedSrc
  m : Src
  base : Src
  chunk : Src
  overwrite : Bool
  pass : Fin 3
  deriving DecidableEq, Repr

/-- Operand of FINISH_TREE (Table 04.6). -/
structure FinishArg where
  base : Src
  rows : Src
  n : Src
  deriving DecidableEq, Repr

/-- Where a drain delivers its rows (R154). -/
inductive DrainDest where
  | scratch (addr : Src) (region : Fin 64)
  | vector
  | endpoint (ep : Fin 64)
  deriving DecidableEq, Repr

/-- Operand of DRAIN (Table 04.6). -/
structure DrainArg where
  base : Src
  rows : Src
  fmt : Fmt
  dest : DrainDest
  deriving DecidableEq, Repr

/-- Engines of the matrix array (Table 04.6); `whole` is the set-mode operation's. -/
inductive ArrayEngine where
  | whole | loader | feeder | accum | drain
  deriving DecidableEq, Repr

/-- Tap of a reduction (Table 05.6). -/
inductive Tap where
  | a
  | out (pos : Fin 9)
  deriving DecidableEq, Repr

/-- Destination of a reduction (Table 05.6). -/
inductive RedDest where
  | stream (base : Src) (region : Fin 64)
  | g (r : GReg)
  deriving DecidableEq, Repr

/-- A reduction (Table 05.6). `group` is the lane group's base-2 logarithm less 5: 32, 64, 128 or 256 lanes. -/
structure Reduction where
  tap : Tap
  op : RedOp
  isInt : Bool
  group : Fin 4
  segment : Src
  mean : Option GReg
  mask : Option MaskSrc
  dest : RedDest
  deriving DecidableEq, Repr

/-- Destination of a FINAL combine (R291). -/
inductive CombineDest where
  | stream (s : StreamArg)
  | v (base : VReg)
  deriving DecidableEq, Repr

/-- Operand of a combine pass (R291). `final` is none for ACCUMULATE. -/
structure CombineArg where
  ep : Fin 64
  slot : Src
  k : Nat
  final : Option CombineDest
  deriving DecidableEq, Repr

/-- A scalar-slot operand: a G, P or L register, or an immediate of up to 32 bits, sign-extended (Table 06.4). -/
inductive ScalarSrc where
  | g (r : GReg)
  | p (r : PReg)
  | l (r : LReg)
  | imm (v : Word)
  deriving DecidableEq, Repr

/-- A scalar-slot destination. -/
inductive ScalarDst where
  | g (r : GReg)
  | p (r : PReg)
  | l (r : LReg)
  deriving DecidableEq, Repr

/-- Two-operand scalar operations (Table 06.4). -/
inductive Alu where
  | add | sub | and | or | xor | shl | shr | sar
  | cmp (c : Cond) (uns : Bool)
  | min (uns : Bool) | max (uns : Bool)
  deriving DecidableEq, Repr

/-- Two-operand mask operations (Table 06.4). -/
inductive MaskOp where
  | and | or | xor
  deriving DecidableEq, Repr

/-- Scalar-slot operations of latency 1 (Table 06.4). -/
inductive ScalarOp where
  | alu (f : Alu) (d : ScalarDst) (a b : ScalarSrc)
  | not (d : ScalarDst) (a : ScalarSrc)
  /-- The first operand where `c` is non-zero, the second where it is zero. -/
  | select (d : ScalarDst) (a b c : ScalarSrc)
  | move (d : ScalarDst) (a : ScalarSrc)
  | maskSet (d : MReg)
  | maskClear (d : MReg)
  | maskNot (d a : MReg)
  | maskCopy (d a : MReg)
  | mask (f : MaskOp) (d a b : MReg)
  /-- A G register's 64 bits into one 64-lane group. -/
  | maskFromG (d : MReg) (g : GReg) (group : Fin 4)
  deriving DecidableEq, Repr

/-- Lane insert or extract (Table 06.4). -/
inductive LaneOp where
  | insert (v : VReg) (lane : Fin 256) (g : GReg)
  | extract (g : GReg) (v : VReg) (lane : Fin 256)
  deriving DecidableEq, Repr

/-- Fields that SETUP writes (Table 07.4); each is a parameter of the operation. -/
structure SetupArg where
  dir : Src
  persistent : Src
  elem : Src
  hbmBase : Src
  /-- COUNT0 to COUNT4, encoded as count − 1. -/
  counts : List Src
  strides : List Src
  ringBase : Src
  ringSize : Src
  ringRegion : Src
  segSize : Src
  remoteTile : Src
  remoteBase : Src
  needBy : Src
  needStep : Src
  doneSem : Src
  readySem : Src
  deriving DecidableEq, Repr

/-- Operand of FILL (R255). -/
structure FillArg where
  value : GReg
  addr : Src
  length : Src
  region : Fin 64
  sem : Fin 64
  deriving DecidableEq, Repr

/-- Operand of COPY (R255). -/
structure CopyArg where
  source : Src
  target : Src
  length : Src
  sourceRegion : Fin 64
  targetRegion : Fin 64
  sem : Fin 64
  deriving DecidableEq, Repr

/-- Operand of CODE_PREFETCH (R226). -/
structure PrefetchArg where
  line : Src
  count : Src
  needBy : Src
  sem : Fin 64
  deriving DecidableEq, Repr

/-- Operand of WINDOW_OPEN (R257). -/
structure WindowArg where
  base : Src
  length : Src
  maskLo : Src
  maskHi : Src
  deriving DecidableEq, Repr

/-- Operand of SEND_G and SEND_V (Table 08.2): G base or V base and count, status and slot registers. -/
structure SendArg where
  ep : Fin 64
  status : Option GReg
  slot : Option GReg
  /-- The wait point of a send that waits for credit. -/
  wp : Fin 1024
  deriving DecidableEq, Repr

/-- A unit of a tile that can hang (Table 08.6), with the number that names it within its unit. -/
inductive HangUnit where
  | waitPoint (wp : Fin 1024)
  | feeder
  | drain
  | descriptor (d : Fin 32)
  | postSend (i : Fin 8)
  | transfer (tag : Fin 256)
  deriving DecidableEq, Repr

/-! ### Module-side operands -/

/-- The directed die-to-die links, 2 × link + direction, links in the order of R22 (CLK_CROSS, Table 16.6). DESIGN CHOICE (log entry
112): direction 0 goes from the die that R22 writes first to the other, direction 1 comes back; the spec does not say which is 0. -/
abbrev LinkDir := Fin 28

/-- A compute region (R483): D0 to D7 are 0 to 7, port dies P0 and P1 are 8 and 9 (CLK_STRETCH, Table 16.6). -/
abbrev Region := Fin 10

/-- A chain port 0 to 15 or tie port 16 to 19, in the numbering of PORT_RESET less the gap (Table 15.14). -/
abbrev PortNo := Fin 20

/-- Device kinds of a capability word (R390). -/
inductive DeviceKind where
  | cy1 | cy2 | switch
  deriving DecidableEq, Repr

/-- Lanes a port comes up with (R407). -/
inductive LaneMode where
  | eight | fourLow | fourHigh
  deriving DecidableEq, Repr

/-- Capability words of the partner (R390). -/
structure Capability where
  kind : DeviceKind
  /-- Bitmap of supported versions, bit v for version v. -/
  versions : Byte
  /-- 0xF_FFFF when none is assigned. -/
  moduleId : BitVec 20
  deriving DecidableEq, Repr

/-- A control flit (R381). -/
structure ControlFlit where
  /-- Cumulative acknowledgement: every packet before this LSEQ is acknowledged. -/
  ack : BitVec 16
  nak : Option (BitVec 16)
  /-- Link-level credit, in 64 B units, granted for C0, C1 and C2 (or for each virtual channel of C2). -/
  c0 : Nat
  c1 : Nat
  c2 : List Nat
  deriving DecidableEq, Repr

/-- A packet as received: its bytes and whether its FEC codewords could be decoded (R382). -/
structure RawPacket where
  data : Bytes
  fecOk : Bool
  deriving DecidableEq, Repr

/-- Failed halves of a port at link down (R407). -/
inductive LaneFailure where
  | lowHalf | highHalf | bothHalves
  deriving DecidableEq, Repr

/-- What a controller finds in a codeword it reads (R327, R328). -/
inductive HbmError where
  /-- No error, or an error corrected under the class's code. -/
  | none
  | corrected (coreDie : Fin 16)
  /-- Which 8-byte codeword of a class A burst is in error. -/
  | uncorrectable (word : Fin 8)
  deriving DecidableEq, Repr

/-- Readings of one supply sample (R578): the input in mV, and whether it has stayed above 49.5 V for 100 ms. -/
structure SupplyReading where
  millivolt : Nat
  above100ms : Bool
  deriving DecidableEq, Repr

/-- Temperatures in 1/16 °C: the hottest tile junction and the hottest stack (R562), and the coolant's (R618). -/
structure ThermalReading where
  tileMax : Int
  stackMax : Int
  coolantIn : Int
  coolantOut : Int
  deriving DecidableEq, Repr

/-- What one 1 ms window gives the margin policy (R493). -/
structure MarginReading where
  /-- Lowest margin code of each cluster and of each port die: 32 and 2 of them. -/
  codes : List (Fin 64)
  /-- Stretched periods of each region in the window, ten of them. -/
  stretched : List Nat
  deriving DecidableEq, Repr

/-- What a FLASH_OPERATION_DONE finishes (R579). -/
inductive FlashOp where
  | program | erase
  deriving DecidableEq, Repr

/-- What firmware moves to a new owner in DATA packets of job tag 0 (R446): bytes of a slot of a tensor from a byte of its canonical
serialisation on. -/
structure MovedState where
  tensorId : Word
  start : Nat
  data : Bytes
  deriving DecidableEq, Repr

/-- Contents of an MGMT packet (R470, R446, R80). -/
inductive MgmtMsg where
  /-- Epoch notice: a pair and its epoch (R470). -/
  | epochNotice (pair : BitVec 19) (epoch : Word)
  /-- Fingerprints of another owner's fragments for the record module (R80): step and records. -/
  | fingerprints (step : Word) (records : List Bytes)
  /-- A LEASE_REQUEST on its way to the witness through this module's host (R464). -/
  | leaseRequest (message : Bytes)
  /-- A relayed lease reply (R464). -/
  | leaseReply (r : LeaseReplyMsg)
  /-- A member's report that its share of a state transfer is complete (R444). -/
  | transferComplete (rank : Nat)
  /-- The logical-to-physical tile table of a far module's image (R393). -/
  | tileTable (moduleId : BitVec 20) (tiles : List TileNo)
  deriving DecidableEq, Repr

/-- What firmware sees of a calibration run (R576): the values measured and whether all lie within factory limits. -/
structure CalResult where
  withinLimits : Bool
  store : SMap Byte
  deriving DecidableEq, Repr

/-- A BAR0 access width: 4 bytes with byte enables, or 8 bytes (R541, R542). -/
structure RegWrite where
  addr : Nat
  value : DWord
  eight : Bool
  byteEnable : BitVec 8
  deriving DecidableEq, Repr

/-- A command of the module, one constructor for each row of the table of operations and events. -/
inductive Instr where
  -- rings and paths
  /-- A host write of bytes at an offset of BAR2 (R516), and what the loader's private decoder reads if the
  packet it commits names a container. -/
  | inboxCommit (offset : Nat) (data : Bytes) (body : Option ImageBody)
  /-- An assembled MCTP message carrying a Berno packet (R540). -/
  | mctpMessage (packet : Bytes) (body : Option ImageBody)
  | outboxReplyWrite
  | coalescingIntervalExpiry (vector : Fin 16)
  -- 0x00xx
  | sessionOpen (h : Hdr) (b : OpenBody)
  | sessionClose (h : Hdr)
  | nop (h : Hdr)
  | identify (h : Hdr)
  | sessionTake (h : Hdr) (b : OpenBody)
  -- 0x01xx
  | loadImage (h : Hdr) (b : LoadBody) (body : Option ImageBody)
  | verifyImage (h : Hdr) (b : LoadBody) (body : Option ImageBody)
  | unloadImage (h : Hdr) (handle : Byte)
  | listImages (h : Hdr)
  -- 0x02xx
  | dmaStart (h : Hdr) (b : DmaBody)
  /-- A channel's running transfer finishes; what it read of host memory comes with the event: the data for host to HBM,
  the scatter list, if any, for HBM to host. -/
  | dmaComplete (channel : Fin 16) (hostData : Bytes)
  | dmaAbort (h : Hdr) (channel : Byte)
  | dmaStatus (h : Hdr) (channel : Byte)
  | apertureMove (h : Hdr) (base : DWord)
  | apertureAccess (op : ApertureOp)
  | memoryLayout (h : Hdr) (firstBand count : Byte) (bands : List (Byte × Byte))
  | bandZeroingDone (band : Fin 80)
  -- 0x03xx
  | run (h : Hdr) (b : RunBody) (patches : List PatchEntry)
  | stop (h : Hdr)
  | step (h : Hdr) (mask : BitVec 128) (bundles : Word)
  | stepBundlesDone (tile : TileNo)
  | jobConfig (h : Hdr) (checkT closure lead : Byte)
  | runStatus (h : Hdr)
  | runEnd (cause : EndCause)
  -- 0x04xx
  | setModuleId (h : Hdr) (id : Word)
  | setDomain (h : Hdr) (b : DomainBody)
  | setPairMode (h : Hdr) (mode : Byte)
  | announceInitialMembership (h : Hdr) (b : AnnounceBody)
  | announcePlannedChange (h : Hdr) (b : AnnounceBody)
  | announceForcedChange (h : Hdr) (b : AnnounceBody)
  | withdrawChange (h : Hdr) (memberEpoch : Word)
  | leaseDeliver (h : Hdr) (r : LeaseReplyMsg)
  | portReset (h : Hdr) (port : Byte)
  | quarantineClear (h : Hdr)
  | linkStatus (h : Hdr)
  -- 0x05xx and 0x06xx
  | calibrate (h : Hdr) (scope : Word) (r : CalResult)
  | calExport (h : Hdr) (offset : Word)
  | calImport (h : Hdr) (offset total : Word) (chunk : Bytes)
  | powerPolicy (h : Hdr) (targetB capB : Byte) (inputLimit : Word)
  | spdm (h : Hdr) (r : SpdmRequest)
  | enrolBuildKey (h : Hdr) (index : Byte) (key : Key)
  | revokeBuildKey (h : Hdr) (index : Byte)
  | signingEnforce (h : Hdr) (on : Byte)
  | fwWrite (h : Hdr) (offset : Word) (chunk : Bytes)
  | fwActivate (h : Hdr) (digest : Digest)
  -- 0x07xx
  | haltTiles (h : Hdr) (mask : BitVec 128)
  | resumeTiles (h : Hdr) (mask : BitVec 128)
  | readSync (h : Hdr) (object : SyncObject) (tile number : BitVec 16)
  | syncHaltTile (h : Hdr) (tile : BitVec 16) (value : Word)
  | syncResumeTile (h : Hdr) (tile : BitVec 16) (value : Word)
  | syncSetCount (h : Hdr) (tile number : BitVec 16) (value : Word)
  | syncAddArrivals (h : Hdr) (tile number : BitVec 16) (value : Word)
  | syncReleaseRound (h : Hdr) (tile number : BitVec 16) (value : Word)
  | syncFireWatch (h : Hdr) (tile number : BitVec 16) (value : Word)
  | syncDisarmWatch (h : Hdr) (tile number : BitVec 16) (value : Word)
  | syncResetEndpoint (h : Hdr) (tile number : BitVec 16) (value : Word)
  | readTileState (h : Hdr) (tile : BitVec 16) (set index : Byte)
  -- 0x08xx
  | readTelemetry (h : Hdr) (block : BitVec 16) (offset : Word)
  | readRecord (h : Hdr) (runIndex offset : Word)
  | readEventLog (h : Hdr) (start finish : DWord) (offset : Word)
  | readFaults (h : Hdr) (offset : Word)
  | readRoutines (h : Hdr) (offset : Word)
  | readCheckHist (h : Hdr) (tile : BitVec 16)
  | readFlags (h : Hdr) (tile : BitVec 16)
  | subscribe (h : Hdr) (mask : DWord)
  -- BAR0
  | registerWrite (w : RegWrite)
  | ctrlEnWrite (addr : Nat) (en : Bool)
  | ctrlMonArmWrite (addr : Nat) (arm : Bool)
  | monumentWrite (addr : Nat) (value : Word)
  /-- A read of a _LO register by the host (false) or by firmware (true). -/
  | splitLoRead (byFirmware : Bool) (addr : Nat)
  | splitLoWrite (addr : Nat) (value : Word)
  | splitHiWrite (addr : Nat) (value : Word)
  | w1cWrite (addr : Nat) (value : Word)
  | postedWriteApplied (addr : Nat)
  /-- The background recomputation; `upset` flips stored configuration bits first (byte offset and mask). -/
  | cfgCrcRecompute (addr : Nat) (upset : List (Nat × Byte))
  -- matrix slot
  | setMode (i : Iss) (a : ModeArg)
  | loadWeights (i : Iss) (a : LoadArg)
  | feed (i : Iss) (a : FeedArg)
  | finishTree (i : Iss) (a : FinishArg)
  | drain (i : Iss) (a : DrainArg)
  | pendingArrayOpStart (tile : TileNo) (engine : ArrayEngine)
  | arrayFreeze (tile : TileNo)
  -- vector and reduction slots
  | vectorPass (i : Iss) (p : Pass)
  | pendingPassStart (tile : TileNo)
  | reduction (i : Iss) (r : Reduction)
  | reductionSegmentResult (tile : TileNo)
  | combine (i : Iss) (a : CombineArg)
  | faultStop
  -- scalar slot
  | scalarOp (i : Iss) (op : ScalarOp)
  | scalarMultiply (i : Iss) (d : ScalarDst) (a b : ScalarSrc)
  | readLoopIndex (i : Iss) (d : ScalarDst) (level : Fin 4)
  | scalarLoad (i : Iss) (d : ScalarDst) (addr : ScalarSrc) (region : Fin 64)
  | scalarStore (i : Iss) (a : ScalarSrc) (addr : ScalarSrc) (region : Fin 64)
  | pBlockLoad (i : Iss) (first : PReg) (addr : ScalarSrc) (region : Fin 64)
  | laneInsertExtract (i : Iss) (op : LaneOp)
  | loopStart (i : Iss) (l : LReg) (last : Word)
  | loopBodyEnd (tile : TileNo)
  | routineCall (i : Iss) (id : BitVec 16)
  | routineReturn (tile : TileNo)
  | istoreMissFill (tile : TileNo) (line : Nat)
  -- stream slot and stream engine
  | setup (i : Iss) (d : Fin 32) (a : SetupArg)
  | start (i : Iss) (d : Fin 32)
  | rearm (i : Iss) (d : Fin 32) (base : Src) (last : Bool)
  | phase (i : Iss) (compute : Bool)
  | fill (i : Iss) (a : FillArg)
  | copy (i : Iss) (a : CopyArg)
  | fillCopyDone (tile : TileNo)
  | codePrefetch (i : Iss) (a : PrefetchArg)
  | prefetchLineArrival (tile : TileNo)
  | windowOpen (i : Iss) (w : Fin 16) (a : WindowArg)
  | windowClose (i : Iss) (w : Fin 16)
  | postSend (i : Iss) (d : Fin 32) (segment : Src) (ep : Fin 64) (g : GReg)
  | postSendDispatch (tile : TileNo)
  | readyTake (tile : TileNo) (d : Fin 32)
  | transferIssue (tile : TileNo)
  | transferComplete (tile : TileNo) (tag : Fin 256)
  | inboundDataArrival (tile : TileNo)
  | holdAreaWrite (tile : TileNo)
  | remoteWriteJudged (tile : TileNo)
  | windowViolation (writer : TileNo)
  -- channel slot and channels
  | sendG (i : Iss) (a : SendArg) (g : GReg)
  | sendV (i : Iss) (a : SendArg) (v : VReg) (count : Fin 4)
  | recvG (i : Iss) (ep : Fin 64) (g : GReg) (wp : Fin 1024)
  | recvV (i : Iss) (ep : Fin 64) (v : VReg) (count : Fin 4) (wp : Fin 1024)
  | recvDrop (i : Iss) (ep : Fin 64) (wp : Fin 1024)
  | waitArrived (i : Iss) (ep : Fin 64) (slot : Src) (k : Nat) (wp : Fin 1024)
  | epReset (i : Iss) (ep : Fin 64)
  | epOpen (i : Iss) (ep : Fin 64)
  | messageArrival (tile : TileNo) (ep : Fin 64)
  | creditArrival (tile : TileNo) (ep : Fin 64)
  | closingNoticeArrival (tile : TileNo) (ep : Fin 64)
  | openingNoticeArrival (tile : TileNo) (ep : Fin 64)
  | discardReportArrival (tile : TileNo) (ep : Fin 64)
  -- sync slot and sync units
  | signal (i : Iss) (s : Fin 64) (n : BitVec 16)
  | wait (i : Iss) (s : Fin 64) (v : BitVec 16) (take : Bool) (wp : Fin 1024)
  | watchReg (i : Iss) (handle : Fin 32) (s : Fin 64) (v : BitVec 16)
  | watchRegArrival (waiter : TileNo) (handle : Fin 32)
  | watchFiredArrival (waiter : TileNo) (handle : Fin 32)
  | watchWait (i : Iss) (handle : Fin 32) (wp : Fin 1024)
  | arrive (i : Iss) (b : Fin 16)
  | bwait (i : Iss) (b : Fin 16) (wp : Fin 1024)
  | barrierCounterArrival (b : Fin 16)
  | barrierReleaseArrival (b : Fin 16)
  -- hangs
  | hang (tile : TileNo) (u : HangUnit)
  | hangReport
  -- die-to-die links
  | scheduleFlitError (link : LinkDir)
  | d2dMemoryRetry (link : LinkDir)
  -- memory side
  | hbmRequestIntake (stack : StackNo)
  | hbmReadReturn (stack : StackNo) (err : HbmError)
  | refresh (stack : StackNo) (channel : Fin 32)
  | phyTracking (stack : StackNo) (channel : Fin 32)
  | patrolScrub (stack : StackNo) (err : HbmError)
  | stackStatusRead (stack : StackNo) (temp : Int)
  | gatedRead (stack : StackNo)
  | markWrite (stack : StackNo)
  | updatePassComplete (stack : StackNo) (entry : Nat)
  | fingerprintRecord (stack : StackNo)
  | stepDigestFormed (step : Word)
  -- ports
  | linkBringup (port : PortNo) (lanes : LaneMode) (cap : Capability)
  | controlFlit (port : PortNo) (f : ControlFlit)
  | retryTimeout (port : PortNo)
  | chainPacketReceive (port : PortNo) (p : RawPacket)
  | data (port : PortNo)
  | credit (port : PortNo)
  | close (port : PortNo)
  | openNotice (port : PortNo)
  | noEndpoint (port : PortNo)
  | barrierArrive (port : PortNo)
  | barrierRelease (port : PortNo)
  /-- A SYNC packet is taken; the ingress stamp is the meridian, and a reply's four stamps are in the packet. -/
  | sync (port : PortNo) (ingress : DWord)
  | mgmt (port : PortNo) (m : MgmtMsg)
  | syncExchangeTimer
  | creditFlush (port : PortNo)
  | linkDown (port : PortNo) (f : LaneFailure)
  | linkRetrainTimer (port : PortNo) (ok : Option LaneMode)
  | heartbeatTimer
  | heartbeat (port : PortNo)
  | twinLost
  | closure (port : PortNo)
  | leaseRenewTimer
  | leaseReply (r : LeaseReplyMsg)
  | leaseTermEnd
  | epochSwitch
  /-- Firmware's transfer of state at a membership change: the new plans, the moved bytes of each stack, and
  the canonical digest formed over them. -/
  | stateTransfer (plans : List (StackNo × UpdatePlan)) (moved : List (StackNo × Nat × Bytes)) (digest : Digest)
  -- clocks
  | stretchToken (region : Region) (period : Fin 16) (s : Fin 5)
  | targetToken (base : Fin 16) (first : DWord)
  | baseChange
  | crossingSlip (link : LinkDir)
  | marginPolicy (r : MarginReading)
  | rootLock
  | rootUnlock
  | datumPulse
  | meridianCompare
  -- autonomous policies
  | thermalPolicy (r : ThermalReading)
  | inputPowerWindow (watts : Nat)
  | logCommit (ok : Bool)
  | supplySample (r : SupplyReading)
  | flashOperationDone (op : FlashOp)
  | powerFailReset
  | inputLoss
  | powerUp
  | mrst
  | resetRelease
  | perst
  | flr
  | i3cLoss
  | boot
  | rollbackAdvance
  | replicaMarginStretch (region : Region) (codes : List (Fin 64))
  /-- PCIe link training settles on a rate (in GT/s) and a width. -/
  | pcieLinkTraining (rate width : Nat)
  deriving DecidableEq, Repr

end Sys2Proof
end

