-- ==== Sys2Proof/Config.lean ====
section
/-! DEFINITION. What the spec leaves open or to the implementation: free values (opaque, so that no proof sees a
value) and the model's own constants that a log entry names. -/

namespace Sys2Proof

/-- A free 64-bit value, applied to the state's counter of free values (log entry 1). -/
opaque Config.freeDWord : Nat → DWord

/-- A free 32-bit value (log entry 1). -/
opaque Config.freeWord : Nat → Word

/-- A free byte (log entry 1). -/
opaque Config.freeByte : Nat → Byte

/-- A free truth value (log entry 1). -/
opaque Config.freeBit : Nat → Bool

/-- A free 256-bit mask (log entry 1). -/
opaque Config.freeMask : Nat → BitVec 256

/-- What a lane holds in the vector engine where the spec gives it no value (a lane that is not read, an operand for which the
operation's result is not stated), by the bundle, how many bundles the tile has issued, the vector and an index: a fixed
function of the program's course (R45; log entries 7, 55). -/
opaque Config.openLane : Word → Nat → Nat → Nat → Word

/-- The chain mask of a vector before a compare has set it, by the same (log entry 55). -/
opaque Config.openMask : Word → Nat → Nat → BitVec 256

/-- What an infinity or NaN becomes in E2M1, which has neither (Table 03.1; log entry 98). -/
opaque Config.packSpecial : Word → BitVec 4

/-- The severity that the log gives an event code outside class 0 (the spec gives the four levels and no table;
log entry 2). -/
opaque Config.severity : BitVec 16 → Fin 4

/-- What the reserved bits of a register read as (R543: unspecified; log entry 3). -/
opaque Config.reservedBits : Nat → Word

/-- The code line that holds a bundle (R230: the encoding of a schedule is private; log entry 4). -/
opaque Config.bundleLine : Word → Nat

/-- The certificate chain of slot 0 (Table 18.4), which the spec describes and does not list, from the firmware digest and
rollback count of the AK certificate's extension and the AK's public key (log entry 5). -/
opaque Config.certificateChain : Digest → Nat → Key → Bytes

/-- The bytes that an SPDM response carries beyond its header and its signed or measured values, for a request code
(log entry 5). -/
opaque Config.spdmFrame : Nat → Bytes

/-- The message that an SPDM response signs, from its request code and the values that it carries (DSP0274; log entry 5). -/
opaque Config.spdmMessage : Nat → Bytes → Bytes

/-- The 1 KiB header of a calibration set (Table 17.8 gives no layout), from the origin, the meridian, the firmware version,
the scopes written and the store written over (log entry 33). -/
opaque Config.calHeader : Byte → DWord → Word → Word → SMap Byte → Bytes

/-- What a CALIBRATE measures that a packet asks for: the values are the hardware's (log entry 1). -/
opaque Config.measuredCal : Nat → SMap Byte

/-- The access streams of a routine of Table 06.6 (R625; log entry 6). -/
opaque Config.routineAccesses : BitVec 16 → List Machine.RoutineAccess

/-- The ROM routines that Table 06.6 does not list (R214, R218; log entry 6). -/
opaque Config.romRoutines : List Machine.Routine

/-- The routines of a library patch, from the bytes in the patch RAM (R214; log entry 6). -/
opaque Config.patchRoutines : SMap Byte → List Machine.Routine

/-- The scratchpad bytes that a routine writes whose function the spec does not give, from its ID, its parameters and
the scratchpad it reads (R47: a fixed function; log entry 6). -/
opaque Config.routineWrites : BitVec 16 → List DWord → SMap Byte → List (Nat × Byte)

/-- The registers G20 to G31, V48 to V63 and M12 to M15 that a routine leaves (R216: it may overwrite them; R47: a fixed
function), by its ID, its parameters, the kind of register (0 G, 1 V, 2 M), its number and the lane (log entry 6). -/
opaque Config.routineRegs : BitVec 16 → List DWord → SMap Byte → Nat → Nat → Nat → BitVec 256

/-- The offset of the bundle that makes an access of a routine, by ID, access stream and access (R237; log entry 6). -/
opaque Config.routineOffset : BitVec 16 → Nat → Nat → Nat

/-- What an MX conversion gives where the spec states nothing: index 0 the scale byte of a block, then its elements (log
entry 6). -/
opaque Config.openMx : List Word → Nat → Byte

/-- What the factorisation of a symmetric matrix of an order leaves, its words row by row, none where a pivot lies below the
floor or is not finite (R369: FP32 in a fixed order that the spec does not give; log entry 11). -/
opaque Config.factorise : Nat → List Word → Word → Option (List Word)

/-- The inverse p-th root of a matrix of an order, its words row by row (INV_ROOT of Table 06.6, whose operations the spec does not
give; log entry 11). -/
opaque Config.inverseRoot : Nat → Nat → List Word → List Word

/-- RMS_NORM multiplies by the norm's weight before the row's inverse (R218 does not say which multiply comes first; log
entry 6). -/
opaque Config.rmsWeightFirst : Bool

/-- The sticky flags that a routine's inner operations raise where the spec does not give the operations (R179; log
entry 6). -/
opaque Config.routineFlags : BitVec 16 → List DWord → SMap Byte → BitVec 6

/-- The trim that firmware asks for at an offset from its parent, in 0.25 ppm steps (R405 gives only its bound; log
entry 18). -/
opaque Config.trimFor : Int → Int

/-- The payload of an MGMT packet (Table 11.4 gives its length and no layout; log entry 14). -/
opaque Config.mgmtBytes : MgmtMsg → Bytes

/-- The payload of firmware's DATA packet that carries moved state (R446 gives what is moved and no layout; log entry 119). -/
opaque Config.movedBytes : MovedState → Bytes

/-- V_MIN of a rail at a base, in steps of 6.25 mV, from the calibration store (R493, Table 17.8; log entry 23). -/
opaque Config.railMin : SMap Byte → Nat → Nat → Nat

/-- V_MAX of a rail at a base, in steps of 6.25 mV, from the calibration store (R493, Table 17.8; log entry 23). -/
opaque Config.railMax : SMap Byte → Nat → Nat → Nat

/-- The critical code that a calibration store holds (R488, Table 17.8; log entry 23). -/
opaque Config.criticalCode : SMap Byte → Fin 64

/-! ### What manufacture left in the module (log entry 36) -/

/-- ROOT_KEY_HASH (Table 18.1). -/
opaque Config.rootKeyHash : Digest

/-- UDS (Table 18.1). -/
opaque Config.uds : Key

/-- DIK_SEED (Table 18.1). -/
opaque Config.dikSeed : Key

/-- SERIAL. -/
opaque Config.serial : BitVec 128

/-- The boot ROM's digest (Table 18.6). -/
opaque Config.bootRomDigest : Digest

/-- Version of the routine ROM. -/
opaque Config.routineRom : Word

/-- Firmware image A in flash (Table 17.1). -/
opaque Config.flashA : SMap Byte

/-- Firmware image B in flash (Table 17.1). -/
opaque Config.flashB : SMap Byte

/-- The calibration store as factory test wrote it (R574). -/
opaque Config.factoryCal : SMap Byte

end Sys2Proof
end

