-- ==== Sys2Proof/Machine/Catalogue.lean ====
section
/-! DEFINITION. The routines of Table 06.6 as entries of the library directory (R218, R624). -/

namespace Sys2Proof.Machine

/-- A count parameter. -/
def RoutineParam.count (name : String) (lo hi : Nat) : RoutineParam := { name := name, kind := 0, lo := lo, hi := hi }

/-- A scratchpad address parameter. -/
def RoutineParam.addr (name : String) : RoutineParam := { name := name, kind := 1, lo := 0, hi := 0x17FFFFF }

/-- The parameter that names the region of a routine's accesses. -/
def RoutineParam.region : RoutineParam := { name := "region", kind := 2, lo := 0, hi := 63 }

/-- An INT64 parameter. -/
def RoutineParam.int (name : String) : RoutineParam := { name := name, kind := 3, lo := 0, hi := 2 ^ 64 - 1 }

/-- An FP32 parameter. -/
def RoutineParam.fp (name : String) : RoutineParam := { name := name, kind := 4, lo := 0, hi := 2 ^ 32 - 1 }

/-- The routines of Table 06.6: counts, ranges and cycle counts are the table's; the engines, the loop levels and the parameters
after the counts are the model's (log entry 6), and so is what the access streams list. -/
def Routine.common : List Routine :=
  [
    { id := 0x0101, name := "SOFTMAX_ROW", engines := 0b110, loops := 2,
      params := [.count "m" 1 8192, .count "v" 1 256, .addr "src", .addr "dst", .region],
      cycles := "3*m*v+2*ceil_log2(v)-ceil_div(m,256)+47+T_exp",
      accesses := Config.routineAccesses 0x0101 },
    { id := 0x0102, name := "LAYER_NORM", engines := 0b110, loops := 2,
      params := [.count "m" 1 8192, .count "v" 1 256, .addr "src", .addr "dst", .addr "gamma", .addr "beta", .addr "work", .fp "eps", .region],
      cycles := "3*m*v+4*ceil_log2(v)-ceil_div(m,256)+64+T_rsqrt",
      accesses := Config.routineAccesses 0x0102 },
    { id := 0x0103, name := "RMS_NORM", engines := 0b110, loops := 2,
      params := [.count "m" 1 8192, .count "v" 1 256, .addr "src", .addr "dst", .addr "gamma", .addr "work", .fp "elems", .fp "eps",
        .count "format" 0 1, .region],
      cycles := "2*m*v+2*ceil_log2(v)-ceil_div(m,256)+50+T_rsqrt",
      accesses := Config.routineAccesses 0x0103 },
    { id := 0x0201, name := "ACT_GELU", engines := 0b010, loops := 1,
      params := [.count "n" 1 16777216, .addr "src", .addr "dst", .region],
      cycles := "n+13+T_erf",
      accesses := Config.routineAccesses 0x0201 },
    { id := 0x0202, name := "ACT_SILU", engines := 0b010, loops := 1,
      params := [.count "n" 1 16777216, .addr "src", .addr "dst", .region],
      cycles := "n+24+T_exp",
      accesses := Config.routineAccesses 0x0202 },
    { id := 0x0203, name := "ACT_TANH", engines := 0b010, loops := 1,
      params := [.count "n" 1 16777216, .addr "src", .addr "dst", .region],
      cycles := "n+5+T_tanh",
      accesses := Config.routineAccesses 0x0203 },
    { id := 0x0301, name := "CVT_SR_FP8", engines := 0b010, loops := 1,
      params := [.count "n" 1 16777216, .addr "src", .addr "dst", .count "format" 0 1, .count "option" 0 1, .int "tensor", .int "step", .int "first", .int "parcel", .region],
      cycles := "6*n+30",
      accesses := Config.routineAccesses 0x0301 },
    { id := 0x0302, name := "CVT_SR_G16", engines := 0b110, loops := 1,
      params := [.count "n" 1 16777216, .addr "src", .addr "leaves", .addr "scales", .addr "observed", .int "tensor", .int "step", .int "first", .int "parcel", .count "contribs" 1 16777216, .count "last" 1 256, .region],
      cycles := "6*n+34",
      accesses := Config.routineAccesses 0x0302 },
    { id := 0x0303, name := "CVT_SR_S1", engines := 0b110, loops := 1,
      params := [.count "n" 1 16777216, .addr "src", .addr "error", .addr "bits", .addr "scales", .addr "observed", .int "tensor", .int "step", .int "first", .int "parcel", .count "last" 1 256, .region],
      cycles := "8*n+38",
      accesses := Config.routineAccesses 0x0303 },
    { id := 0x0304, name := "CVT_MX", engines := 0b110, loops := 1,
      params := [.count "n" 1 16777216, .addr "src", .addr "dst", .addr "scales", .count "format" 0 4, .count "option" 0 1, .region],
      cycles := "2*n+19",
      accesses := Config.routineAccesses 0x0304 },
    { id := 0x0401, name := "COMBINE_SLOTS", engines := 0b010, loops := 2,
      params := [.count "k" 2 64, .count "n" 1 16777216, .addr "src", .addr "dst", .region],
      cycles := "k*n+9",
      accesses := Config.routineAccesses 0x0401 },
    { id := 0x0402, name := "TOP_K", engines := 0b110, loops := 2,
      params := [.count "n" 1 16777216, .count "k" 1 256, .addr "src", .addr "values", .addr "indices", .region],
      cycles := "2*n*ceil_div(k,32)+12*ceil_log2(k)+30",
      accesses := Config.routineAccesses 0x0402 },
    { id := 0x0403, name := "SORT_KEYS", engines := 0b010, loops := 2,
      params := [.count "n" 1 4096, .addr "keys", .addr "payload", .region],
      cycles := "(8+ceil_log2(n))*(9+ceil_log2(n)) div 2*(n+9)",
      accesses := Config.routineAccesses 0x0403 },
    { id := 0x0501, name := "KEYED_HASH", engines := 0b010, loops := 1,
      params := [.count "n" 1 16777216, .addr "a", .addr "b", .addr "dst", .int "key", .region],
      cycles := "n+26",
      accesses := Config.routineAccesses 0x0501 },
    { id := 0x0601, name := "FACTOR_SOLVE", engines := 0b111, loops := 2,
      params := [.count "b" 1 16, .addr "matrix", .addr "dst", .addr "status", .fp "floor", .fp "ratio", .region],
      cycles := "4*(96*b*b*b+640*b*b+300)+512*b*b+200",
      accesses := Config.routineAccesses 0x0601 },
    { id := 0x0602, name := "INV_ROOT", engines := 0b111, loops := 2,
      params := [.count "b" 1 16, .count "p" 2 8, .addr "matrix", .addr "dst", .region],
      cycles := "12*(512*b*b*b+80)",
      accesses := Config.routineAccesses 0x0602 } ]

end Sys2Proof.Machine
end

