-- ==== Sys2Proof/Machine/State.lean ====
section
/-! DEFINITION. The state of the module as plain data: the eight compute dies' tiles, the networks'
messages in flight, the 32 stacks with their controllers and update engines, the ports, the pair, the
domain, the clocks, the host interface, the registers of BAR0, the management processor's stores and the
supply, with the queue of waiting commands. Maps are sparse (`SMap`): an unlisted key reads as the default
that the accessors of Machine/Ops.lean give it. -/

namespace Sys2Proof.Machine

/-! ### A tile -/

/-- The sequencer registers of Table 06.2. V holds lane i of register r at key r × 256 + i. -/
structure Regs where
  g : SMap DWord
  p : SMap DWord
  v : SMap Word
  m : SMap (BitVec 256)
  l : SMap Word
  deriving DecidableEq, Repr

/-- An active hardware loop (R208 to R213): the body's bundles, the latched count and the iteration index. -/
structure LoopFrame where
  first : Word
  last : Word
  count : Word
  index : Word
  deriving DecidableEq, Repr

/-- A resident routine in progress (R215): its ID, its parameters G20 to G31, the run cycle of its call and its cycle
count C. -/
structure RoutineRun where
  id : BitVec 16
  params : List DWord
  call : Nat
  cycles : Nat
  deriving DecidableEq, Repr

/-- The condition of a wait point (Table 06.1, Table 08.2). -/
inductive WaitCond where
  | sem (s : Fin 64) (v : BitVec 16)
  /-- A WAIT with TAKE, which must also find its value as it issues (R295). -/
  | take (s : Fin 64) (v : BitVec 16)
  | message (ep : Fin 64)
  | credit (ep : Fin 64)
  | arrived (ep : Fin 64) (slot : Nat) (k : Nat)
  | barrier (b : Fin 16)
  | watch (h : Fin 32)
  deriving DecidableEq, Repr

/-- A wait that holds the tile's next bundle (R206). `since` and `sinceMt` are the run cycle and meridian at
which the block began, `gated` says the clocks are gated and `waking` that this is the wake cc (R306), `ready` that
the condition held at the start of the cc, `hung` that its HANG was raised (R315). -/
structure Blocked where
  wp : Fin 1024
  cond : WaitCond
  bundle : Word
  since : DWord
  sinceMt : DWord
  gated : Bool
  waking : Bool
  ready : Bool
  hung : Bool
  deriving DecidableEq, Repr

/-- A block that may become a HANG (R315): the run cycle and the meridian at which it began, and whether its HANG
was raised. -/
structure BlockTime where
  cycle : DWord
  mt : DWord
  hung : Bool
  deriving DecidableEq, Repr

/-- Where a feed takes its rows, with its parameters sampled (Table 04.6). -/
inductive FeedFrom where
  | rows (addr stride : Nat) (region : Fin 64)
  | endpoint (ep : Fin 64)
  | walk (w : Walk) (addr : Nat)
  deriving DecidableEq, Repr

/-- Where a drain delivers its rows, with its parameters sampled (R154). -/
inductive DrainTo where
  | scratch (addr : Nat) (region : Fin 64)
  | vector
  | endpoint (ep : Fin 64)
  deriving DecidableEq, Repr

/-- An array operation with its parameters sampled (R138): register operands already read. -/
inductive ArrayOp where
  | setMode (a : ModeArg)
  | load (addr stride scaleAddr : Nat) (k : Nat) (diagonal : Bool) (region : Fin 64)
  | feed (src : FeedFrom) (m base chunk : Nat) (overwrite : Bool) (pass : Nat)
  | finish (base rows n : Nat)
  | drain (base rows : Nat) (fmt : Fmt) (dest : DrainTo)
  deriving DecidableEq, Repr

/-- A byte range that an operation reads or writes, with its region, the cc of its first line and the lines already
read in this vector before it (R165). `checked` is the part of it that the region is judged on: lanes that are masked off or
beyond the tail are not checked (R177). -/
structure RangeUse where
  region : Nat
  addr : Nat
  len : Nat
  checked : Option (Nat × Nat)
  cycle : Nat
  lineOffset : Nat
  isWrite : Bool
  isMerge : Bool
  slot : Byte
  group : Nat
  bundle : Word
  deriving DecidableEq, Repr

/-- An input row of the array: its element codes and its scale bytes. -/
structure RowData where
  elems : List Nat
  scales : List Byte
  deriving DecidableEq, Repr

/-- A running operation of an array engine (R138), issued as number `seq` of the array's operations. `due` is the time at which
its next row moves, in half cc from run cycle 0, since two rows of FP4 enter in one cc; `row` counts the rows moved. Rows are
read from the scratchpad before they enter (Table 07.3): `read` counts those whose reads have been fixed, `readDue` is the time
at which the next one would enter with no extra read, `reads` are the fixed reads still to be made with the row of each, `entry`
the times at which the rows read enter, and `got` what the reads have brought, row by row. `hold` counts the freeze cc that the
drain's rate still asks for and `out` is the message that its rows fill (R157). `g` is the tensor-scale product of a feed
(R131). -/
structure ArrayRun where
  bundle : Word
  seq : Nat
  op : ArrayOp
  due : Nat
  row : Nat
  read : Nat
  readDue : Nat
  reads : List (Nat × RangeUse)
  entry : List Nat
  got : SMap Byte
  hold : Nat
  out : Bytes
  g : Word
  deriving DecidableEq, Repr

/-- An engine of the array (R138): its running operation, its pending operation with the place in the order of issue and the
bundle that issued it, and the freeze of R140 as the tick sees it. -/
structure EngineState where
  running : Option ArrayRun
  pending : Option (Nat × Word × ArrayOp)
  block : Option BlockTime
  deriving DecidableEq, Repr

/-- A write of the accumulate stage on its way (R126, R152, R153): the cc from which it is readable, the place in the order of
issue of the feed that made it, none for a finish, and the cells. -/
structure AccWrite where
  ready : Nat
  fed : Option Nat
  cells : List (Nat × Word)
  deriving DecidableEq, Repr

/-- The matrix array and the accumulator store (R123 to R158). Weights hold the element's code at key
row × 256 + column, and so does the accumulator; in extended mode its rows from 1,920 on are the wide staging area
(R134). -/
structure ArrayState where
  mode : ArrayMode
  inFmt : Fmt
  wFmt : Fmt
  accum : Accumulation
  /-- The G registers of the FP4 tensor scales. -/
  scaleA : GReg
  scaleW : GReg
  weights : SMap Word
  /-- E8M0 column scales, block × 256 + column (Table 04.4). -/
  wScales : SMap Byte
  /-- Valid weight rows (R137). -/
  validRows : Nat
  acc : SMap Word
  accLate : List AccWrite
  whole : EngineState
  loader : EngineState
  feeder : EngineState
  accumStage : EngineState
  drainEngine : EngineState
  /-- Operations issued so far: the order in which pending ones stand. -/
  issued : Nat
  /-- Rows the drain has handed to the vector engine's first stream (R164), oldest first. -/
  drained : List (List Word)
  /-- An access of the array has raised a contract fault: what it writes from there on is open (R236). -/
  isOpen : Bool
  deriving DecidableEq, Repr

/-- One lane vector of a pass at a tap: 256 lanes of 32 bits and which of them are active. -/
structure LaneVec where
  lanes : List Word
  active : List Bool
  deriving DecidableEq, Repr

/-- A node of a reduction: the value, the index of argmax, whether any lane is active below it, and flags. -/
structure RedVal where
  bits : DWord
  index : Word
  live : Bool
  flags : BitVec 6
  deriving DecidableEq, Repr

/-- A vector pass or a combine with its operands sampled at issue (R185, R186): the registers of its cc. -/
inductive VecOp where
  | pass (p : Pass) (samp : Regs)
  | combine (a : CombineArg) (samp : Regs)
  deriving DecidableEq, Repr

/-- A pass of the vector engine, pending or running (R165, R166): the bundle that issued it, the reduction attached to it
(R189), the vector now fetched and its cc of that vector, the scratchpad lines already read for that vector, of its reduction the
vectors of the segment so far and the segments done, and the messages that a combine has taken. -/
structure VecRun where
  bundle : Word
  op : VecOp
  red : Option (Reduction × Regs)
  /-- The tile's count of bundles at its issue. -/
  serial : Nat
  vec : Nat
  cyc : Nat
  seen : SMap Byte
  part : List (List RedVal)
  segs : Nat
  msgs : List Bytes
  deriving DecidableEq, Repr

/-- What a result on its way changes when it becomes readable. -/
inductive LateEff where
  | scratch (runs : List (Nat × Bytes))
  /-- A mask stream's vector: the bits, and those that are written (R175). -/
  | bits (addr : Nat) (bits mask : BitVec 256)
  | scalar (d : ScalarDst) (v : DWord)
  | p (first : Nat) (vals : List DWord)
  | v (reg lane : Nat) (vals : List (Word × Bool))
  | m (reg : Nat) (v mask : BitVec 256)
  /-- Elements of a combining slot, from one on (R291, R292). -/
  | slot (ep : Fin 64) (slot first : Nat) (vals : List Word)
  /-- The end of a FINAL combine: the slot is 0 and its tag closes (R292, R427). -/
  | slotEnd (ep : Fin 64) (slot : Nat)
  | check (c : CheckShot) (regs : Regs)
  deriving DecidableEq, Repr

/-- A result on its way (R170, R195, R204): the cc from which it is readable, its place among the results of one cc (R187: 0
vector engine, 1 reduction unit, 2 scalar slot), the slot and bundle of its operation, what it changes, and the bank accesses
that it makes, the `cycle` of each counting the cc from the access to `ready`. `isOpen` says that its operation has raised a
contract fault, so that the values are free (R236). -/
structure Late where
  ready : Nat
  order : Nat
  slot : Byte
  bundle : Word
  eff : LateEff
  uses : List RangeUse
  isOpen : Bool
  deriving DecidableEq, Repr

/-- The vector engine and the reduction unit (R159 to R196). -/
structure VectorState where
  running : Option VecRun
  pending : Option VecRun
  /-- A reduction whose pass has not been issued yet in its bundle, with its registers (R189). -/
  waitingRed : Option (Word × Reduction × Regs)
  /-- Segment results that the reduction unit holds until the cc of their write (R195). -/
  redDue : List Late
  /-- An access of the vector engine has raised a contract fault: what it writes from there on is open (R236). -/
  isOpen : Bool
  deriving DecidableEq, Repr

/-- The freeze of the current cc (R139): none, still to be counted, or counted. -/
inductive FreezeCc where
  | none | due | counted
  deriving DecidableEq, Repr

/-- A window (R256). -/
structure Window where
  base : Nat
  length : Nat
  writers : BitVec 128
  isOpen : Bool
  deriving DecidableEq, Repr

/-- Segments of a descriptor since a SETUP (R268): how many are done, and the length and completed bytes of each that
has begun, by segment number. -/
structure SegCount where
  gen : Nat
  sem : Nat
  done : Nat
  bytes : SMap Nat
  len : SMap Nat
  deriving DecidableEq, Repr

/-- A stream descriptor (Table 07.4) with its run-time state (R262 to R278). -/
structure Descriptor where
  dir : Nat
  persistent : Bool
  elemCode : Nat
  hbmBase : Nat
  counts : List Nat
  strides : List Int
  ringBase : Nat
  ringSize : Nat
  ringRegion : Nat
  segSize : Nat
  remoteTile : Nat
  remoteBase : Nat
  needBy : Nat
  needStep : Nat
  doneSem : Nat
  readySem : Nat
  /-- A SETUP has been made in the run (R262). -/
  isSetup : Bool
  /-- A pass is in progress. -/
  running : Bool
  /-- Bundle that issued START or the last REARM (R237). -/
  bundle : Word
  activeBase : Nat
  shadow : Option (Nat × Bool × DWord × Word)
  /-- The pass now supplied is the last (R276). -/
  lastPass : Bool
  deadlineBase : DWord
  /-- Bytes of the pass already issued, in pass order. -/
  position : Nat
  /-- Byte offset in the ring at which the next transfer's local side lies. -/
  ringPos : Nat
  /-- Segments of earlier passes since SETUP (R268). -/
  segBase : Nat
  /-- READY_SEM has been taken for the segment now issuing (R269). -/
  readyTaken : Bool
  /-- The segments since the last SETUP, and those of earlier SETUPs that have transfers outstanding. -/
  segs : SegCount
  oldSegs : List SegCount
  overrun : Bool
  /-- The cc from which the pass in progress issues (R272). -/
  opens : Nat
  /-- It awaits READY_SEM (R269), seen by the tick. -/
  block : Option BlockTime
  deriving DecidableEq, Repr

/-- A transfer that holds a tag (R265, R266). -/
structure Transfer where
  desc : Fin 32
  /-- SETUP that its segment number counts from. -/
  gen : Nat
  segment : Nat
  /-- Its first byte's place in its segment, which orders the transfers of one segment (R278). -/
  offset : Nat
  dir : Nat
  hbmAddr : Nat
  localAddr : Nat
  remoteTile : Nat
  len : Nat
  deadline : DWord
  bundle : Word
  /-- Its data is written, acknowledged or refused: TRANSFER_COMPLETE may free the tag. -/
  done : Bool
  block : BlockTime
  deriving DecidableEq, Repr

/-- Inbound data for a tile (R253): a return of a direction-0 transfer, or a remote write; a write over the schedule
network has no deadline. -/
inductive Inbound where
  | read (tag : Fin 256) (addr : Nat) (data : Bytes) (deadline : Option DWord)
  | remote (writer : TileNo) (tag : Fin 256) (addr : Nat) (data : Bytes) (deadline : Option DWord)
  deriving DecidableEq, Repr

/-- A running fill or copy (R255): its range, the value of a fill or the source of a copy, and its semaphore; it ends with its
last cc. -/
structure FillRun where
  addr : Nat
  length : Nat
  source : Option Nat
  value : DWord
  sem : Fin 64
  bundle : Word
  /-- Its last cc. -/
  ends : Nat
  /-- The range is written and the semaphore has its completion. -/
  done : Bool
  deriving DecidableEq, Repr

/-- A code prefetch in flight (R226): lines still to arrive. -/
structure Prefetch where
  lines : List Nat
  sem : Fin 64
  bundle : Word
  needBy : DWord
  deriving DecidableEq, Repr

/-- A post-completion send not yet sent (R313). -/
structure PostSend where
  desc : Fin 32
  segment : Nat
  ep : Fin 64
  payload : Bytes
  bundle : Word
  /-- Its segment was done at the start of the cc. -/
  ready : Bool
  /-- It awaits credit, seen by the tick. -/
  block : Option BlockTime
  deriving DecidableEq, Repr

/-- A send endpoint (R280, R309). -/
structure SendEp where
  declared : Bool
  closed : Bool
  credit : Nat
  discards : Nat
  msgSize : Nat
  depth : Nat
  tolerant : Bool
  kind : EpKind
  dest : ChanEnd
  /-- Resolved destination inside the module, or the far module and tile of a port channel. -/
  destTile : Nat
  destEp : Fin 64
  farModule : BitVec 20
  context : Option (Fin 64)
  vc : Fin 8
  /-- Bound port (R397, R453), none while no port is up. -/
  port : Option PortNo
  cseq : BitVec 16
  /-- CSEQ, slot and bundle of the last DEPTH sends over the port, newest first: what a NOENDPOINT may name (R237, R398). -/
  sent : List (BitVec 16 × Byte × Word)
  deriving DecidableEq, Repr

/-- Where a message came from (R288). -/
inductive MsgOrigin where
  | tile (t : TileNo) (ep : Fin 64)
  | port (p : PortNo) (module : BitVec 20) (t : TileNo) (ep : Fin 64)
  deriving DecidableEq, Repr

/-- A message held at a receive endpoint or in flight to it. -/
structure Msg where
  origin : MsgOrigin
  /-- Slot register of the send (R285): the slot number, or the contribution identity (R424). -/
  slot : DWord
  data : Bytes
  /-- Bytes the array feeder has consumed (R156). -/
  used : Nat
  /-- A filtered endpoint has accepted it (R426). -/
  accepted : Bool
  /-- The slot and bundle that sent it (R237). -/
  sentBy : Byte × Word
  /-- The run cycle of its send while it is in flight, then that in which it became complete (R286, R288). -/
  cycle : Nat
  deriving DecidableEq, Repr

/-- A combining slot's filter state (R426). -/
structure SlotTags where
  closed : Option (BitVec 24 × BitVec 26)
  opened : Option (BitVec 24 × BitVec 26)
  map : BitVec 64
  deriving DecidableEq, Repr

/-- A receive endpoint (R280, R290, R308, R426). -/
structure RecvEp where
  declared : Bool
  kind : EpKind
  closed : Bool
  msgSize : Nat
  msgs : List Msg
  discards : Nat
  filterDiscards : Nat
  slots : Nat
  elems : Nat
  op : CombineOp
  fmt : ArrivalFmt
  filter : Option FilterDecl
  /-- Slot element e of slot s at key s × 1024 + e. -/
  values : SMap Word
  tags : SMap SlotTags
  /-- Next expected CSEQ of each port channel, by (module × 2^13 + tile × 64 + endpoint) (R389). -/
  cseq : SMap (BitVec 16)
  /-- The senders of its channels. -/
  senders : List MsgOrigin
  /-- Need-by offsets of its port channels (Table 08.1), under the keys of `cseq`. -/
  needBy : SMap Nat
  deriving DecidableEq, Repr

/-- A watch entry at its target (R299), by waiting tile and handle. -/
structure WatchEntry where
  target : Nat
  sem : Fin 64
  value : BitVec 16
  generation : BitVec 4
  armed : Bool
  declared : Bool
  /-- Generation of the waiter's latest WATCH_REG and the fired flag (R300). -/
  lastGen : BitVec 4
  fired : Bool
  deriving DecidableEq, Repr

/-- A tile's counts for a barrier (R302): arrivals and releases seen. -/
structure BarrierCounts where
  a : Word
  r : Word
  deriving DecidableEq, Repr

/-- An access of a compute engine to a scratchpad line in a run cycle (R242): `group` tells the writes of one vector from
others (R168). -/
structure Access where
  cycle : Nat
  addr : Nat
  line : Nat
  isWrite : Bool
  isMerge : Bool
  slot : Byte
  group : Nat
  bundle : Word
  deriving DecidableEq, Repr

/-- A contract fault that an access raises (R237, R242). -/
structure AccessFault where
  code : BitVec 16
  slot : Byte
  more : Bool
  bundle : Word
  offending : Nat
  detail : Nat
  deriving DecidableEq, Repr

/-- What the conditions of wait points are judged on: the state at the start of a cc (R206, Table 08.4). -/
structure WaitView where
  sems : SMap (BitVec 16)
  sends : SMap SendEp
  recvs : SMap RecvEp
  watches : SMap WatchEntry
  barriers : SMap BarrierCounts
  deriving DecidableEq, Repr

/-- A tile. -/
structure Tile where
  /-- TCB_LOGICAL: the logical index, none when the tile is not in the image. -/
  logical : Option Nat
  holdAreaCode : BitVec 4
  regs : Regs
  samp : Regs
  /-- The bundle that issued last, the run cycle of its issue, and the next bundle in order. -/
  cur : Option Word
  issuedAt : Option DWord
  nextBundle : Word
  /-- The slots of the bundle that issued last whose operations have come. -/
  slotsIn : List Byte
  /-- The model's own count of the bundles issued in the run (no register of the tile): it tells the free values of one
  bundle's passes apart. -/
  serial : Nat
  loops : List LoopFrame
  /-- The loops of the bundle that issued last have been resolved (R211). -/
  resolved : Bool
  routine : Option RoutineRun
  blocked : List Blocked
  halted : Bool
  faulted : Bool
  /-- Bundles a STEP still lets it issue, none outside a STEP (R532). -/
  stepping : Option Word
  computePhase : Bool
  phaseNext : Option Bool
  /-- The run cycle from which the phase has been in force. -/
  phaseFrom : Nat
  istore : SMap Nat
  istoreHeld : Option Nat
  prefetches : List Prefetch
  /-- Prefetched lines that have come over the memory network, with their need-by cycles. -/
  codeIn : List (Nat × DWord)
  stall : SMap DWord
  held : DWord
  freeze : DWord
  miss : DWord
  holdFull : DWord
  eccW : Word
  eccA : Word
  eccIstore : Word
  flags : BitVec 6
  checkHist : SMap Word
  checkEvents : Nat
  scratch : SMap Byte
  /-- Lines that hold an error: whether it is beyond the code's correcting power (R248). -/
  upsets : SMap Bool
  /-- The compute accesses of this cc that rows have made, and those of the two cc before (R242). -/
  plan : List RangeUse
  /-- Results on their way, in the order in which their operations made them. -/
  late : List Late
  freezeNow : FreezeCc
  regions : SMap RegionDecl
  array : ArrayState
  vector : VectorState
  windows : SMap Window
  /-- The windows as they stood in the cc before (R260), and the changes that take effect in the next. -/
  windowsBefore : SMap Window
  windowsNext : List (Nat × Window)
  descs : SMap Descriptor
  tags : SMap Transfer
  /-- The cc in which a transfer issued last (R267), and the cc in which inbound data was written last with its bytes (R253). -/
  transferAt : Option Nat
  landed : Nat × Nat
  holdArea : List Inbound
  inbound : List Inbound
  refusals : Word
  fillRuns : List FillRun
  postSends : List PostSend
  sends : SMap SendEp
  recvs : SMap RecvEp
  sems : SMap (BitVec 16)
  watches : SMap WatchEntry
  barriers : SMap BarrierCounts
  /-- What wait conditions found at the start of the cc (R206). -/
  atStart : WaitView
  deriving DecidableEq, Repr

/-! ### Networks inside the module -/

/-- A channel message in flight to a receive endpoint inside the module. -/
structure FlightMsg where
  dest : TileNo
  ep : Fin 64
  msg : Msg
  deriving DecidableEq, Repr

/-- A notice in flight to a send endpoint: a credit, a closing or opening notice, or a discard report (R287, R308 to R311). -/
structure Notice where
  tile : TileNo
  ep : Fin 64
  /-- Of a discard report: the slot and bundle of the discarded send (R237). -/
  sentBy : Byte × Word
  deriving DecidableEq, Repr

/-- A barrier message inside the module (R303): level of the counter it goes to and which counter. -/
structure BarrierMsg where
  barrier : Fin 16
  level : BarrierScope
  unit : Nat
  round : Word
  deriving DecidableEq, Repr

/-- A barrier counter (R303): expected arrivals and two phase banks. -/
structure BarrierCounter where
  expected : Nat
  bank0 : Nat
  bank1 : Nat
  /-- Rounds already released. -/
  round : Word
  deriving DecidableEq, Repr

/-- Schedule-network and stretch-net traffic in flight. -/
structure NetState where
  msgs : List FlightMsg
  credits : List Notice
  closings : List Notice
  openings : List Notice
  discards : List Notice
  watchRegs : List (TileNo × Fin 32 × Fin 64 × BitVec 16 × BitVec 4)
  watchFires : List (TileNo × Fin 32 × BitVec 4)
  /-- Remote writes under way to a tile, not yet judged (R258). -/
  remotes : List (TileNo × Inbound)
  /-- Refusals on their way back: writer, tag, destination, address (R259). -/
  refusals : List (TileNo × Fin 256 × Nat × Nat)
  barrierUp : List BarrierMsg
  barrierDown : List BarrierMsg
  /-- Counters by scope level × 2^10 + unit × 16 + barrier. -/
  counters : SMap BarrierCounter
  deriving DecidableEq, Repr

/-! ### Memory side -/

/-- Who sent a memory request. -/
inductive Requester where
  | tile (t : TileNo) (tag : Fin 256)
  /-- A code prefetch of a tile, for one line (R226). -/
  | code (t : TileNo) (line : Nat)
  | dma (channel : Fin 16)
  | aperture
  | update
  deriving DecidableEq, Repr

/-- A memory request on its way to a controller or in its intake (R339): a read or a write of bytes at an HBM address. -/
structure HbmReq where
  who : Requester
  isWrite : Bool
  addr : Nat
  len : Nat
  data : Bytes
  deadline : Option DWord
  /-- For direction 3: the remote write that the data becomes. -/
  remote : Option (TileNo × Nat)
  /-- A read that has entered met a listed codeword (R331): its stack and address. -/
  poison : Option (Nat × Nat)
  deriving DecidableEq, Repr

/-- A gated read that a controller holds (R365): the request, and the value of each gate line that has been returned, by
the line's stack address. -/
structure GateRead where
  req : HbmReq
  got : SMap DWord
  deriving DecidableEq, Repr

/-- State of an update-plan entry (R355). -/
structure EntryState where
  running : Bool
  t : Nat
  /-- Completed step, none before the first completion. -/
  completed : Option Nat
  deadline : Option DWord
  deriving DecidableEq, Repr

/-- A write into the mark area that has reached the engine and not yet acted (R354, R355): its line, the step number in it,
what the line held before, and the deadline of the write. -/
structure Mark where
  line : Nat
  value : DWord
  before : DWord
  deadline : Option DWord
  deriving DecidableEq, Repr

/-- One stack: its controller and its update engine (R320 to R377). -/
structure Stack where
  trained : Bool
  /-- 16 ms refresh windows (R336). -/
  fastRefresh : Bool
  fastNext : Bool
  failedDies : BitVec 16
  poison : List Nat
  poisonFull : Bool
  corrA : Word
  corrW : Word
  uncorr : Word
  /-- Meridian times of the last corrections of each core die, newest first (R332). -/
  dieCorr : SMap (List DWord)
  scrubAddr : Nat
  scrubCorrected : Nat
  /-- A 1 h patrol pass (R564). -/
  scrubFast : Bool
  scrubWriteBack : Option Nat
  temp : Int
  intake : List HbmReq
  heldGates : List GateRead
  /-- The 32 ms window and the refresh window now running (R335, R336), the next refresh of each channel in it, and the
  refreshes issued. -/
  window32 : Nat
  refreshWindow : Nat
  refreshIndex : SMap Nat
  refreshCount : Nat
  /-- Milliseconds up to which each channel has made its PHY tracking sequence (Table 09.4). -/
  tracking : SMap Nat
  plan : Option UpdatePlan
  entries : SMap EntryState
  marksIgnored : Word
  gateIgnored : Word
  upeFlags : BitVec 6
  /-- Marks that entered the intake buffer and reached the engine, not yet acted on, oldest first. -/
  marks : List Mark
  fingerprints : List Bytes
  /-- DAMPED and KEPT of each preconditioned tensor (R370), by tensor ID. -/
  status : SMap (BitVec 2)
  deriving DecidableEq, Repr

/-- The memory side of the module. -/
structure MemState where
  hbm : SMap Byte
  /-- Bands: mode in [1:0], class in [2] (R324). -/
  bands : SMap (BitVec 3)
  /-- Bands being zeroed: requests to them wait in the network. -/
  zeroing : List Nat
  net : List HbmReq
  stackMap : SMap Stack
  /-- Fingerprint records that reached the management processor (R372). -/
  records : List Bytes
  /-- Fingerprint records of other owners (R80): module, step and records. -/
  foreign : List (Nat × Word × List Bytes)
  programs : List UpdateProgram
  retries : SMap Word
  deriving DecidableEq, Repr

/-! ### Ports, pair and domain -/

/-- A chain packet decoded by Table 11.2 and Table 11.3. -/
structure Packet where
  ptype : BitVec 4
  version : BitVec 4
  cls : Byte
  dstModule : BitVec 20
  srcModule : BitVec 20
  dstEp : BitVec 16
  srcEp : BitVec 16
  jobId : BitVec 16
  slot : Byte
  hops : Byte
  pairEpoch : Word
  memberEpoch : Word
  lseq : BitVec 16
  cseq : BitVec 16
  contrib : DWord
  payload : Bytes
  /-- The run cycle in which a port accepted it, from which its need-by offset counts (R38; no field of the packet). -/
  entered : DWord
  deriving DecidableEq, Repr

/-- Port states (CPT_STATE, Table 16.8). -/
inductive LinkState where
  | down | training | eightLanes | fourLanes
  deriving DecidableEq, Repr

/-- A chain or tie port (R378 to R408, R450 to R453). -/
structure Port where
  state : LinkState
  /-- The half in use on four lanes: false lanes 0–3, true lanes 4–7. -/
  upperHalf : Bool
  /-- Halves that hold a failed lane: bit 0 lanes 0–3, bit 1 lanes 4–7 (R407). -/
  failed : BitVec 2
  version : BitVec 4
  partner : Option Capability
  miswired : Bool
  retries : DWord
  discType : Word
  discEpoch : Word
  discCseq : Word
  discJob : Word
  lastHb : Word
  /-- Next LSEQ to send, and the packets unacknowledged, oldest first, with how often each was sent. -/
  txSeq : BitVec 16
  unacked : List (Packet × Nat)
  /-- Packets that wait for link credit or for the port, in order. -/
  egress : List Packet
  rxSeq : BitVec 16
  /-- A negative acknowledgement is outstanding for this LSEQ (R382). -/
  nakFor : Option (BitVec 16)
  /-- Accepted packets not yet handled. -/
  accepted : List Packet
  creditC0 : Nat
  creditC1 : Nat
  creditC2 : SMap Nat
  /-- The virtual channel of C2 that is served next (R387). -/
  vcNext : Nat
  /-- End-to-end credits pending return, by sending module, with tile and endpoint (R388). -/
  pendingCredits : List (BitVec 20 × TileNo × Fin 64)
  deriving DecidableEq, Repr

/-- Pair modes (R455). -/
inductive PairMode where
  | mirror | shadow | solo
  deriving DecidableEq, Repr

/-- Roles of Table 13.2. -/
inductive Role where
  | holder | secondary | suspended | fenced | solo
  deriving DecidableEq, Repr

/-- A membership in force or announced (R395, R415, R443, R534). -/
structure Membership where
  epoch : Word
  shape : List Nat
  /-- Module IDs in increasing order. -/
  members : List Nat
  deriving DecidableEq, Repr

/-- An announced change (R443, R447). -/
structure Change where
  membership : Membership
  epochs : List (Nat × Word)
  tE : Word
  forced : Bool
  /-- The state transfer has been made (R446). -/
  transferred : Bool
  deriving DecidableEq, Repr

/-- A heartbeat as received (Table 13.2). -/
structure HeartbeatMsg where
  mode : Byte
  role : Byte
  hbSeq : Word
  pairEpoch : Word
  holder : BitVec 20
  leaseEnd : DWord
  lastStep : Word
  closedStep : Word
  deriving DecidableEq, Repr

/-- The pair: mode, lease, heartbeats and closure checks (R450 to R479). -/
structure PairState where
  mode : PairMode
  role : Role
  epoch : Word
  /-- Epoch granted by a fence, in force from NOT_BEFORE (R467). -/
  nextEpoch : Option (Word × DWord)
  hbSeq : Word
  lastHb : Option HeartbeatMsg
  lastHbAt : DWord
  twinLost : Bool
  modeMismatch : Bool
  /-- End of the term the holder counts (R465), and the requests not yet answered: KIND, nonce and send time. -/
  leaseEnd : DWord
  asked : List (Byte × DWord × DWord)
  /-- The meridian up to which the secondary has authority (R468). -/
  authorityEnd : DWord
  /-- Packets held while suspended, with their ports, in order (R472). -/
  heldPackets : List (PortNo × Packet)
  quarantined : Bool
  /-- Digests of this module's own view, by step: mirrored slice digest or contribution digest. -/
  ownDigests : SMap Digest
  /-- Level-1 messages sent for the parcels of the pair (R461): step, covered rank, context, KIND, POSITION and CRC-64. -/
  contribs : List (Nat × Nat × Nat × Nat × Nat × DWord)
  /-- The twin's digests that came before the own one, with KIND. -/
  twinDigests : SMap (Byte × Digest)
  closedStep : Word
  /-- The last step whose closure check was skipped, all ones for none (R463). -/
  skippedStep : Word
  closureFailed : Bool
  deriving DecidableEq, Repr

/-- The domain: ID, versions, membership, epochs, synchronisation and barriers (R380 to R406, R626). -/
structure DomainState where
  moduleId : Option (BitVec 20)
  version : BitVec 4
  witnessChain : Bool
  witnessHost : Bool
  witnessId : Word
  witnessKey : Key
  membership : Option Membership
  /-- Memberships that changes of the run have replaced, newest first, each with the first step of the one that replaced it
  (R63, R80). -/
  past : List (Nat × Membership)
  change : Option Change
  epochs : SMap Word
  /-- Far-module tile tables (R393), by module ID. -/
  tileTables : List (Nat × List TileNo)
  transferReports : List Nat
  /-- The release of a membership change's step barrier, withheld at the top aggregator (R444). -/
  heldRelease : Option (Fin 16 × Word)
  /-- Aggregator banks by level × 2^5 + barrier × 2 + bank (R401), and pair counters at level 0. -/
  banks : SMap Nat
  /-- The last 16 SYNC exchanges: offset and round-trip excess (R404), newest first. -/
  exchanges : List (Int × Int)
  exchangeNo : Word
  unlockedRun : Nat
  meridianLocked : Bool
  ports : SMap Port
  deriving DecidableEq, Repr

/-! ### Clocks -/

/-- A compute region (R483 to R491). -/
structure RegionState where
  count : DWord
  stretch : Nat
  /-- Stretches that tokens gave to periods not yet begun, by period number modulo 16 (R489). -/
  ahead : SMap Nat
  deferred : DWord
  stretched : DWord
  deriving DecidableEq, Repr

/-- Clocks and meridian time (R480 to R507). -/
structure ClockState where
  rootLocked : Bool
  needsMrst : Bool
  base : Nat
  target : Nat
  cap : Nat
  trim : Int
  wantTrim : Int
  regions : SMap RegionState
  nextBase : Option (Nat × DWord)
  /-- Stretch tokens under way: receiving region, period number modulo 16, stretch (R489). -/
  tokens : List (Nat × Nat × Nat)
  /-- Lowest and highest wait seen at each crossing since the last datum (R498). -/
  crossings : SMap (Nat × Nat)
  /-- The FIFO of each crossing, oldest entry first (R495): the number of the sending period that tags an entry, and the cc that it
  waits before its release. The entries' traffic stands in the lists of the networks. -/
  fifos : SMap (List (DWord × Nat))
  meridian : DWord
  /-- The copies of the other dies, where they differ from `meridian` (R504), by die. -/
  copies : SMap DWord
  meridianRuns : Bool
  /-- Ticks for which a backward correction still holds the meridian (R506). -/
  holdTicks : Nat
  /-- The next datum starts the meridian at 0 (R501). -/
  meridianFresh : Bool
  rootPhase : Nat
  datumReq : Bool
  criticalCode : Nat
  rails : SMap Nat
  quietWindows : Nat
  marginCapped : Bool
  deriving DecidableEq, Repr

/-! ### Host interface -/

/-- A session (R523, R524). -/
structure Session where
  id : Word
  owner : Bool
  version : BitVec 16
  nextSeq : Word
  eventVector : BitVec 4
  coalesce : BitVec 16
  hostTag : DWord
  mask : DWord
  deriving DecidableEq, Repr

/-- A reply or unsolicited packet waiting in firmware (R518). -/
structure Reply where
  path : Path
  opcode : BitVec 16
  seq : Word
  final : Bool
  unsolicited : Bool
  vector : BitVec 4
  jobId : BitVec 16
  status : BitVec 16
  /-- Negotiated version of its header, [15:8] major and [7:0] minor. -/
  version : BitVec 16
  body : Bytes
  deriving DecidableEq, Repr

/-- A DMA transfer (R529). -/
structure Dma where
  hdr : Hdr
  body : DmaBody
  deriving DecidableEq, Repr

/-- A loaded image (R231). -/
structure Image where
  jobId : BitVec 16
  ltId : BitVec 16
  flags : BitVec 16
  eciVersion : BitVec 16
  tiles : List TileNo
  imageDigest : Digest
  eciDigest : Digest
  signerKey : Key
  signatureVerified : Bool
  /-- Its container header. -/
  head : Bytes
  placeBase : Nat
  sectionBases : List Nat
  body : ImageBody
  deriving DecidableEq, Repr

/-- What the module keeps of a job (R531, R527). -/
structure Job where
  tag : BitVec 16
  seed : DWord
  checkT : Nat
  closureContinue : Bool
  lead : Nat
  records : List Bytes
  started : Bool
  deriving DecidableEq, Repr

/-- An interrupted vector of the coalescing rule (R519). -/
structure Vectors where
  /-- MSI-X messages signalled so far, newest last. -/
  signalled : List (Fin 16)
  /-- Vectors inside a coalescing interval, and those held back. -/
  inInterval : List (Fin 16)
  heldBack : List (Fin 16)
  table : SMap Word
  pba : BitVec 16
  deriving DecidableEq, Repr

/-- The host interface (R509 to R540). -/
structure HostState where
  /-- STATE of the ring state line (Table 15.4). -/
  ringState : Word
  linkRate : Nat
  linkWidth : Nat
  inbox : SMap Byte
  outbox : SMap Byte
  inDone : Word
  outWritten : Word
  inSlot : Nat
  outSlot : Nat
  /-- Aligned 8-byte places of the inbox that a write has covered since their last packet committed (R516). -/
  covered : List Nat
  /-- Slots in use of the outbox, oldest packet first, and packets acknowledged (R518). -/
  outLive : List Nat
  acked : Word
  pcie : Option Session
  mctp : Option Session
  nextSession : Word
  waiting : List Reply
  mctpSent : List Reply
  unsolicitedDropped : Word
  vectors : Vectors
  mctpOutstanding : Nat
  apertureBase : Nat
  /-- Completions of host loads through BAR4, newest last; none is a poisoned completion (R512). -/
  apertureReads : List (Option Bytes)
  dmaRunning : SMap Dma
  dmaQueue : List (Nat × Dma)
  /-- Memory writes to the host that its DMA has made: host address and bytes, newest last. -/
  hostWrites : List (DWord × Bytes)
  images : SMap Image
  jobs : SMap Job
  runEnded : List Reply
  deriving DecidableEq, Repr

/-- States of a run (MCB_STATE.RUN). -/
inductive RunState where
  | idle | running | suspended
  deriving DecidableEq, Repr

/-- A fault record (Table 06.10), before packing. -/
structure FaultRec where
  tile : BitVec 16
  code : BitVec 16
  slot : Byte
  more : Bool
  inRoutine : Bool
  bundle : Word
  runCycle : DWord
  meridian : DWord
  offending : DWord
  detail : DWord
  deriving DecidableEq, Repr

/-- A completed step's entry of the record (Table 02.7). -/
structure StepEntry where
  step : Word
  memberEpoch : Word
  stallCc : DWord
  saturated : Word
  digestPresent : Bool
  solveFlag : Bool
  sliceDigest : Digest
  stepDigest : Digest
  deriving DecidableEq, Repr

/-- The run in progress or the last one (R66, R531). -/
structure RunRec where
  state : RunState
  hdr : Option Hdr
  handle : Fin 16
  relaxed : Bool
  a1Compat : Bool
  hangLimit : DWord
  firstStep : Word
  stepLimit : Word
  jobId : BitVec 16
  /-- Start count of every region (R486); run cycle is the region count less this. -/
  c0 : DWord
  missOccurred : Bool
  arrivalOrder : Bool
  faults : List FaultRec
  steps : List StepEntry
  /-- Parcel IDs that the module executes, as first ID and count: its own range and in shadow mode its partner's (R63). -/
  parcels : List (Nat × Nat)
  /-- Set bits of each word of reduced saturation flags that the module has seen, by step, context and position (R100). -/
  tallies : SMap Nat
  /-- Held totals of all tiles at the last step entry. -/
  heldMark : DWord
  hangs : Nat
  hangAt : DWord
  hangReported : Bool
  /-- The step barrier's round whose arrival is withheld until a closure check has passed (R463). -/
  withheld : Option (Fin 16 × Word)
  deriving DecidableEq, Repr

/-! ### Registers of BAR0 -/

/-- The stored part of a block (Table 16.2): header fields, configuration bytes, shadows and the posted write. -/
structure Block where
  en : Bool
  monArm : Bool
  wign : Bool
  cfgDrift : Bool
  wlost : Bool
  /-- CFG_CRC and MONUMENT have differed since they last agreed (R554). -/
  drifted : Bool
  crc : Word
  monument : Word
  cfg : SMap Byte
  /-- Firmware's own copy of what it last wrote (R566). -/
  copy : SMap Byte
  hostShadow : Option (Nat × Word)
  fwShadow : Option (Nat × Word)
  writeShadow : Option (Nat × Word)
  posted : Option RegWrite
  deriving DecidableEq, Repr

/-! ### Management processor, security and supply -/

/-- An event-log entry (Table 17.5). -/
structure LogEntry where
  meridian : DWord
  seq : Word
  code : BitVec 16
  cls : Byte
  severity : Fin 4
  deferred : Bool
  source : BitVec 16
  jobId : BitVec 16
  step : Word
  payload : Bytes
  deriving DecidableEq, Repr

/-- A command that writes non-volatile memory and waits in the deferred-write ring (R579). -/
inductive NvWrite where
  /-- A measured set and the scopes that it replaces. -/
  | calSet (store : SMap Byte) (scopes : Word)
  | calChunk (offset total : Nat) (chunk : Bytes)
  | enrol (index : Fin 8) (key : Key)
  | revoke (index : Fin 8)
  | enforce (on : Bool)
  | fwChunk (offset : Nat) (data : Bytes)
  | fwActivate (digest : Digest)
  | rollback (count : Nat)
  deriving DecidableEq, Repr

/-- The management processor: log, flash, calibration store, telemetry (R558 to R581). -/
structure MgpState where
  sramSplit : BitVec 4
  sramInForce : BitVec 4
  logRing : List LogEntry
  logSeq : Word
  committed : List LogEntry
  overflowEpisode : Bool
  overflowCount : Word
  retired : Nat
  calStore : SMap Byte
  calStaging : SMap Byte
  calValid : Bool
  calImport : Bytes
  /-- Writes in the deferred-write ring, with the command that each answers. -/
  deferred : List (Option Hdr × NvWrite)
  deferredBytes : Nat
  flashBusy : Bool
  powerRing : List Bytes
  marginRing : List Bytes
  retainedMeridian : DWord
  powerFailed : Bool
  throttling : Bool
  powerLimited : Bool
  thermalOff : Bool
  /-- A throttle is being released (R562). -/
  releasing : Bool
  coolWindows : Nat
  underLimit : Nat
  /-- The meridian at which the log was last committed (R573). -/
  lastCommit : DWord
  /-- Deferral has been left and its writes wait for the flash operation under way (R579). -/
  restoring : Bool
  deriving DecidableEq, Repr

/-- A firmware image in flash (Table 18.2): its bytes. -/
structure FwImage where
  data : SMap Byte
  deriving DecidableEq, Repr

/-- The security block and firmware images (R582 to R600). -/
structure SecState where
  rootKeyHash : Digest
  rollback : Nat
  uds : Key
  dikSeed : Key
  lifecycle : BitVec 4
  imageA : FwImage
  imageB : FwImage
  /-- The running image: false A, true B. -/
  runningB : Bool
  fallback : Bool
  recovery : Bool
  booted : Bool
  bootedAt : DWord
  latched : Digest
  fwVersion : Word
  routineRom : Word
  patchRam : SMap Byte
  bootRomDigest : Digest
  keys : SMap Key
  enforce : Bool
  fwFault : Bool
  deriving DecidableEq, Repr

/-- Supply states (PWR_SUPPLY[1:0]). -/
inductive SupplyState where
  | normal | deferring | halting
  deriving DecidableEq, Repr

/-- Power, reset and pins (R601 to R610). -/
structure PowerState where
  vin : Nat
  pin : Nat
  tileMax : Int
  hbmMax : Int
  inputLimit : Nat
  supply : SupplyState
  low485 : Nat
  low460 : Nat
  keepAlive : Bool
  portDies : Bool
  computeDies : Bool
  hbmRails : Bool
  pwrgd : Bool
  inReset : Bool
  mrstN : Bool
  perstN : Bool
  ref100 : Bool
  deriving DecidableEq, Repr

/-- What is fused or fixed at manufacture (R1 to R9, R584, R524). -/
structure Fuses where
  /-- Stepping A1 rather than B0 (R7). -/
  steppingA1 : Bool
  enabled : BitVec 128
  serial : BitVec 128
  deriving DecidableEq, Repr

/-- The state of the module. -/
structure State where
  fuses : Fuses
  tiles : SMap Tile
  net : NetState
  mem : MemState
  domain : DomainState
  pair : PairState
  clock : ClockState
  host : HostState
  run : RunRec
  blocks : SMap Block
  hostLock : Bool
  hostWign : Word
  mgp : MgpState
  sec : SecState
  power : PowerState
  routines : List Routine
  /-- The model's own counter of free values drawn (no register of the module). -/
  freeCtr : Nat
  /-- Commands waiting, first in, first out. -/
  pending : List Instr
  deriving DecidableEq, Repr


/-! ### Stops -/

/-- Why a step stops with a fault. Every constructor is raised only where the spec calls the outcome undefined and
gives no effect (R238 with Table 06.11, R544): the hardware goes on with undefined results, and the model stops.
That is safe: nothing can be proved of what the hardware does from there. -/
inductive Fault where
  /-- An encoding outside the defined set reaches issue (Table 06.11 row 1). Raised by every tile slot operation
  whose operands are not well formed. Safe. -/
  | encodingOutsideSet
  /-- An operation issued to an engine that holds a pending operation (Table 06.11 row 2). Raised by the matrix and
  vector slot operations. Safe. -/
  | engineHoldsPending
  /-- A V register range passing V63 (Table 06.11 row 5). Raised by SEND_V, RECV_V, VECTOR_PASS and COMBINE. Safe. -/
  | vRangePassesV63
  /-- A loop start at nesting depth 4 or a routine call at depth 3 or more (Table 06.11 row 7). Raised by LOOP_START
  and ROUTINE_CALL. Safe. -/
  | nestingTooDeep
  /-- A routine call while an engine it declares is busy (Table 06.11 row 8). Raised by ROUTINE_CALL. Safe. -/
  | routineEngineBusy
  /-- A routine parameter outside the MIN and MAX of its directory entry (Table 06.11 row 9). Raised by
  ROUTINE_CALL. Safe. -/
  | routineParameterRange
  /-- An array access meets an access of a resident routine in one bank in one cc (Table 06.11 row 10). Raised by the step of
  an empty queue, which ends a cc. Safe. -/
  | arrayMeetsRoutine
  /-- A stage input or tap that names a position giving no output (Table 06.11 row 11). Raised by VECTOR_PASS and
  REDUCTION. Safe. -/
  | positionGivesNoOutput
  /-- A reserved field is written with another value than the one just read (R544). Raised by the rows that write a
  register of BAR0. Safe. -/
  | reservedFieldChanged
  deriving DecidableEq, Repr

/-- Why a step is refused. -/
inductive Refusal where
  /-- The command has no meaning in the model. Raised by an arm of `exec` only. Safe. -/
  | notModelled (mnemonic : String)
  deriving DecidableEq, Repr

/-! ### Values at reset -/

/-- Registers all zero. -/
def Regs.zero : Regs := { g := [], p := [], v := [], m := [], l := [] }

/-- An engine of the array with nothing to do. -/
def EngineState.idle : EngineState := { running := none, pending := none, block := none }

/-- The array at reset. -/
def ArrayState.reset : ArrayState :=
  { mode := .standard, inFmt := .fp32, wFmt := .fp32, accum := .flat, scaleA := 0, scaleW := 0,
    weights := [], wScales := [], validRows := 0, acc := [], accLate := [],
    whole := .idle, loader := .idle, feeder := .idle, accumStage := .idle, drainEngine := .idle, issued := 0,
    drained := [], isOpen := false }

/-- The vector engine and the reduction unit at reset. -/
def VectorState.reset : VectorState := { running := none, pending := none, waitingRed := none, redDue := [], isOpen := false }

/-- Nothing has been seen. -/
def WaitView.empty : WaitView := { sems := [], sends := [], recvs := [], watches := [], barriers := [] }

/-- A tile at reset (Table 16.7: every register 0, the hold area code 6). -/
def Tile.reset : Tile :=
  { logical := none, holdAreaCode := 6, regs := .zero, samp := .zero, cur := none, issuedAt := none, nextBundle := 0, slotsIn := [], serial := 0,
    loops := [], resolved := false, routine := none, blocked := [], halted := false, faulted := false, stepping := none,
    computePhase := false, phaseNext := none, phaseFrom := 0, istore := [], istoreHeld := none, prefetches := [], codeIn := [],
    stall := [], held := 0, freeze := 0, miss := 0, holdFull := 0, eccW := 0, eccA := 0, eccIstore := 0, flags := 0,
    checkHist := [], checkEvents := 0, scratch := [], upsets := [], plan := [], late := [], freezeNow := .none,
    regions := [], array := .reset, vector := .reset, windows := [], windowsBefore := [], windowsNext := [], descs := [],
    tags := [], transferAt := none, landed := (0, 0), holdArea := [], inbound := [], refusals := 0, fillRuns := [], postSends := [], sends := [],
    recvs := [], sems := [], watches := [], barriers := [], atStart := .empty }

/-- A descriptor that no SETUP has written. -/
def Descriptor.reset : Descriptor :=
  { dir := 0, persistent := false, elemCode := 0, hbmBase := 0, counts := [], strides := [], ringBase := 0,
    ringSize := 0, ringRegion := 0, segSize := 0, remoteTile := 0, remoteBase := 0, needBy := 0, needStep := 0,
    doneSem := 0xFF, readySem := 0xFF, isSetup := false, running := false, bundle := 0, activeBase := 0,
    shadow := none, lastPass := false, deadlineBase := 0, position := 0, ringPos := 0, segBase := 0,
    readyTaken := false, segs := { gen := 0, sem := 0, done := 0, bytes := [], len := [] },
    oldSegs := [], overrun := false, opens := 0, block := none }

/-- A send endpoint that no image declares. -/
def SendEp.reset : SendEp :=
  { declared := false, closed := false, credit := 0, discards := 0, msgSize := 0, depth := 0, tolerant := false,
    kind := .plain, dest := .tile 0 0, destTile := 0xFFFF, destEp := 0, farModule := 0, context := none, vc := 0,
    port := none, cseq := 0, sent := [] }

/-- A receive endpoint that no image declares. -/
def RecvEp.reset : RecvEp :=
  { declared := false, kind := .plain, closed := false, msgSize := 0, msgs := [], discards := 0,
    filterDiscards := 0, slots := 0, elems := 0, op := .addInt, fmt := .int32, filter := none, values := [],
    tags := [], cseq := [], senders := [], needBy := [] }

/-- A watch entry that no image declares. -/
def WatchEntry.reset : WatchEntry :=
  { target := 0, sem := 0, value := 0, generation := 0, armed := false, declared := false, lastGen := 0,
    fired := false }

/-- A tile's counts for a barrier at the start of a run. -/
def BarrierCounts.zero : BarrierCounts := { a := 0, r := 0 }

/-- The networks at reset: nothing in flight. -/
def NetState.reset : NetState :=
  { msgs := [], credits := [], closings := [], openings := [], discards := [], watchRegs := [], watchFires := [],
    remotes := [], refusals := [], barrierUp := [], barrierDown := [], counters := [] }

/-- A stack at reset (Table 16.8: every register 0). -/
def Stack.reset : Stack :=
  { trained := false, fastRefresh := false, fastNext := false, failedDies := 0, poison := [], poisonFull := false,
    corrA := 0, corrW := 0, uncorr := 0, dieCorr := [], scrubAddr := 0, scrubCorrected := 0, scrubFast := false,
    scrubWriteBack := none, temp := 0, intake := [], heldGates := [], window32 := 0, refreshWindow := 0, refreshIndex := [], refreshCount := 0,
    tracking := [], plan := none, entries := [], marksIgnored := 0, gateIgnored := 0, upeFlags := 0, marks := [],
    fingerprints := [], status := [] }

/-- The memory side at reset: every band die-local of class A (R324), nothing listed. -/
def MemState.reset : MemState :=
  { hbm := [], bands := [], zeroing := [], net := [], stackMap := [], records := [], foreign := [],
    programs := [], retries := [] }

/-- A port at reset: down (Table 16.8). -/
def Port.reset : Port :=
  { state := .down, upperHalf := false, failed := 0, version := 0, partner := none, miswired := false, retries := 0,
    discType := 0, discEpoch := 0, discCseq := 0, discJob := 0, lastHb := 0, txSeq := 0, unacked := [],
    egress := [], rxSeq := 0, nakFor := none, accepted := [], creditC0 := 0, creditC1 := 0, creditC2 := [],
    vcNext := 0, pendingCredits := [] }

/-- The domain at reset: no module ID (R14), domain version 2 (R390), no membership (R626). -/
def DomainState.reset : DomainState :=
  { moduleId := none, version := 2, witnessChain := false, witnessHost := false, witnessId := 0, witnessKey := 0,
    membership := none, past := [], change := none, epochs := [], tileTables := [], transferReports := [], heldRelease := none, banks := [],
    exchanges := [], exchangeNo := 0, unlockedRun := 0, meridianLocked := false, ports := [] }

/-- The pair at reset: solo mode, no lease. -/
def PairState.reset : PairState :=
  { mode := .solo, role := .solo, epoch := 0, nextEpoch := none, hbSeq := 0, lastHb := none, lastHbAt := 0,
    twinLost := false, modeMismatch := false, leaseEnd := 0, asked := [], authorityEnd := 0,
    heldPackets := [], quarantined := false, ownDigests := [], contribs := [], twinDigests := [], closedStep := 0xFFFFFFFF, skippedStep := 0xFFFFFFFF,
    closureFailed := false }

/-- A compute region at reset. -/
def RegionState.reset : RegionState := { count := 0, stretch := 0, ahead := [], deferred := 0, stretched := 0 }

/-- The clocks at reset: the root PLL not yet locked, B = 8 (Table 16.6), a datum pulse required (R500). -/
def ClockState.reset : ClockState :=
  { rootLocked := false, needsMrst := false, base := 8, target := 8, cap := 12, trim := 0, wantTrim := 0,
    regions := [], nextBase := none, tokens := [], crossings := [], fifos := [], meridian := 0, copies := [], meridianRuns := false, holdTicks := 0,
    meridianFresh := true, rootPhase := 0, datumReq := true, criticalCode := 4, rails := [], quietWindows := 0,
    marginCapped := false }

/-- The MSI-X vectors at reset. -/
def Vectors.reset : Vectors := { signalled := [], inInterval := [], heldBack := [], table := [], pba := 0 }

/-- The host interface at reset: no session, STATE 0 (Table 15.4), the aperture at 0 (R512). -/
def HostState.reset : HostState :=
  { ringState := 0, linkRate := 0, linkWidth := 0, inbox := [], outbox := [], inDone := 0, outWritten := 0,
    inSlot := 0, outSlot := 0, covered := [], outLive := [], acked := 0, pcie := none, mctp := none, nextSession := 1,
    waiting := [], mctpSent := [], unsolicitedDropped := 0, vectors := .reset, mctpOutstanding := 0,
    apertureBase := 0, apertureReads := [], dmaRunning := [], dmaQueue := [], hostWrites := [], images := [],
    jobs := [], runEnded := [] }

/-- No run. -/
def RunRec.reset : RunRec :=
  { state := .idle, hdr := none, handle := 0, relaxed := false, a1Compat := false, hangLimit := 0x10000000,
    firstStep := 0, stepLimit := 0, jobId := 0, c0 := 0, missOccurred := false, arrivalOrder := false, faults := [],
    steps := [], parcels := [], tallies := [], heldMark := 0, hangs := 0, hangAt := 0, hangReported := false, withheld := none }

/-- A block at reset: disabled, its configuration bytes zero. -/
def Block.reset : Block :=
  { en := false, monArm := false, wign := false, cfgDrift := false, wlost := false, drifted := false, crc := 0,
    monument := 0, cfg := [], copy := [], hostShadow := none, fwShadow := none, writeShadow := none,
    posted := none }

/-- The management processor at reset: nothing logged, the calibration store as factory test left it (log entry 36) and
valid. -/
def MgpState.reset : MgpState :=
  { sramSplit := 0, sramInForce := 0, logRing := [], logSeq := 0, committed := [], overflowEpisode := false,
    overflowCount := 0, retired := 0, calStore := Config.factoryCal, calStaging := [], calValid := true, calImport := [],
    deferred := [], deferredBytes := 0, flashBusy := false, powerRing := [], marginRing := [],
    retainedMeridian := 0, powerFailed := false, throttling := false, powerLimited := false, thermalOff := false, releasing := false,
    coolWindows := 0, underLimit := 0, lastCommit := 0, restoring := false }

/-- The security block at reset: firmware not started; fuses and flash as manufacture left them (log entry 36). -/
def SecState.reset : SecState :=
  { rootKeyHash := Config.rootKeyHash, rollback := 0, uds := Config.uds, dikSeed := Config.dikSeed,
    lifecycle := 0b0011, imageA := { data := Config.flashA }, imageB := { data := Config.flashB }, runningB := false, fallback := false, recovery := false, booted := false,
    bootedAt := 0, latched := 0, fwVersion := 0, routineRom := Config.routineRom, patchRam := [], bootRomDigest := Config.bootRomDigest, keys := [],
    enforce := false, fwFault := false }

/-- The supply and the pins right after reset release: every rail on, MRST_N and PERST_N high, an input limit of
7,200 W (Table 16.6). -/
def PowerState.reset : PowerState :=
  { vin := 54000, pin := 0, tileMax := 0, hbmMax := 0, inputLimit := 7200, supply := .normal, low485 := 0,
    low460 := 0, keepAlive := true, portDies := true, computeDies := true, hbmRails := true, pwrgd := true,
    inReset := false, mrstN := true, perstN := true, ref100 := true }

/-- A CY2-A128 of stepping B0. -/
def Fuses.reset : Fuses := { steppingA1 := false, enabled := BitVec.allOnes 128, serial := Config.serial }

/-- The module right after reset: MRST_N has risen and the internal reset is released (R605); the root PLL has not
yet locked, firmware has not started, and no run, session or image exists. -/
def State.reset : State :=
  { fuses := .reset, tiles := [], net := .reset, mem := .reset, domain := .reset, pair := .reset, clock := .reset,
    host := .reset, run := .reset, blocks := [], hostLock := false, hostWign := 0, mgp := .reset, sec := .reset,
    power := .reset, routines := Routine.common ++ Config.romRoutines, freeCtr := 0, pending := [] }

end Sys2Proof.Machine
end

