-- ==== Sys2Proof/Machine/Map.lean ====
section
/-! DEFINITION. Sparse maps: lookup, insertion, removal, and the byte accesses built on them. A map is a list of
pairs with keys strictly rising; a map with a default value lists no entry equal to the default. -/

namespace Sys2Proof.Machine

/-- The entry of a key, if listed. -/
def mfind {α : Type} : SMap α → Nat → Option α
  | [], _ => none
  | (a, v) :: r, k => if a = k then some v else mfind r k

/-- Insert or replace an entry, keeping the keys rising. -/
def mset {α : Type} : SMap α → Nat → α → SMap α
  | [], k, v => [(k, v)]
  | (a, w) :: r, k, v =>
    if k < a then (k, v) :: (a, w) :: r
    else if k = a then (k, v) :: r
    else (a, w) :: mset r k v

/-- Remove a key. -/
def merase {α : Type} : SMap α → Nat → SMap α
  | [], _ => []
  | (a, w) :: r, k => if a = k then r else (a, w) :: merase r k

/-- The value of a key in a map with default `d`. -/
def mget {α : Type} (d : α) (m : SMap α) (k : Nat) : α := (mfind m k).getD d

/-- Set the value of a key in a map with default `d`; the default removes the entry. -/
def mput {α : Type} [DecidableEq α] (d : α) (m : SMap α) (k : Nat) (v : α) : SMap α :=
  if v = d then merase m k else mset m k v

/-- Keys strictly rising. -/
def mrising {α : Type} : SMap α → Bool
  | [] => true
  | [_] => true
  | (a, _) :: (b, w) :: r => decide (a < b) && mrising ((b, w) :: r)

/-- The canonical form of a map with default `d`. -/
def mwf {α : Type} [DecidableEq α] (d : α) (m : SMap α) : Bool :=
  mrising m && m.all (fun e => decide (e.2 ≠ d))

/-- A byte memory: an unlisted byte reads 0. -/
abbrev Memory := SMap Byte

/-- The canonical form of a memory. -/
def memWf (m : Memory) : Bool := mwf 0 m

/-- Read one byte. -/
def readByte (m : Memory) (a : Nat) : Byte := mget 0 m a

/-- Write one byte. -/
def writeByte (m : Memory) (a : Nat) (b : Byte) : Memory := mput 0 m a b

/-- Read `n` bytes from `a` up. -/
def readBytes (m : Memory) (a : Nat) : Nat → Bytes
  | 0 => []
  | n + 1 => readByte m a :: readBytes m (a + 1) n

/-- Write bytes from `a` up. -/
def writeBytes (m : Memory) (a : Nat) : Bytes → Memory
  | [] => m
  | b :: bs => writeBytes (writeByte m a b) (a + 1) bs

/-- Remove every listed byte of [a, a + n): the range reads 0. -/
def zeroRange (m : Memory) (a n : Nat) : Memory := m.filter (fun e => e.1 < a || a + n ≤ e.1)

/-- Little-endian value of bytes. -/
def leNat : Bytes → Nat
  | [] => 0
  | b :: bs => b.toNat + 256 * leNat bs

/-- The low `n` bytes of a value, little-endian. -/
def leBytes : Nat → Nat → Bytes
  | 0, _ => []
  | n + 1, v => BitVec.ofNat 8 v :: leBytes n (v / 256)

/-- Big-endian value of bytes. -/
def beNat (bs : Bytes) : Nat := leNat bs.reverse

/-- The low `n` bytes of a value, big-endian. -/
def beBytes (n v : Nat) : Bytes := (leBytes n v).reverse

/-- `n` zero bytes. -/
def zeros (n : Nat) : Bytes := List.replicate n 0

/-- `n` bytes of a list from offset `o`, zero beyond its end. -/
def slice (bs : Bytes) (o n : Nat) : Bytes := ((bs.drop o).take n) ++ zeros (n - ((bs.drop o).take n).length)

/-- Pad a list to `n` bytes with zeros, or cut it to `n`. -/
def padTo (n : Nat) (bs : Bytes) : Bytes := slice bs 0 n

/-- Quotient rounded up. -/
def ceilDiv (a b : Nat) : Nat := (a + b - 1) / b

/-- The least k with 2^k ≥ n. -/
def ceilLog2 (n : Nat) : Nat := if n ≤ 1 then 0 else Nat.log2 (n - 1) + 1

/-- A saturating counter step: a counter stays at all ones (R545). -/
def satInc {w : Nat} (c : BitVec w) : BitVec w := if c = BitVec.allOnes w then c else c + 1

/-- A saturating counter addition (R545). -/
def satAdd {w : Nat} (c : BitVec w) (n : Nat) : BitVec w :=
  if c.toNat + n < 2 ^ w then BitVec.ofNat w (c.toNat + n) else BitVec.allOnes w

end Sys2Proof.Machine
end

