-- ==== Sys2Proof/Machine/Crypto.lean ====
section
/-! DEFINITION. The checks, digests and signatures the spec names: CRC-32C (R553, R513), CRC-64/ECMA-182 (R371),
SHA-512 (R583), HMAC-SHA-512 (Table 18.3), Ed25519 (R582) and the Philox generator (R114). -/

namespace Sys2Proof.Machine

/-! ### Cyclic redundancy checks -/

/-- One bit of the reflected CRC-32C register. -/
def crc32cBit (c : Word) : Word := if c.getLsbD 0 then (c >>> 1) ^^^ 0x82F63B78 else c >>> 1

/-- One byte into the CRC-32C register. -/
def crc32cByte (c : Word) (b : Byte) : Word :=
  crc32cBit (crc32cBit (crc32cBit (crc32cBit (crc32cBit (crc32cBit (crc32cBit (crc32cBit
    (c ^^^ b.setWidth 32))))))))

/-- CRC-32C of RFC 3720: initial value and final XOR all ones, reflected (R553). -/
def crc32c (bs : Bytes) : Word := (bs.foldl crc32cByte 0xFFFFFFFF) ^^^ 0xFFFFFFFF

/-- One bit of the CRC-64/ECMA-182 register. -/
def crc64Bit (c : DWord) : DWord := if c.getLsbD 63 then (c <<< 1) ^^^ 0x42F0E1EBA9EA3693 else c <<< 1

/-- One byte into the CRC-64/ECMA-182 register. -/
def crc64Byte (c : DWord) (b : Byte) : DWord :=
  crc64Bit (crc64Bit (crc64Bit (crc64Bit (crc64Bit (crc64Bit (crc64Bit (crc64Bit
    (c ^^^ ((b.setWidth 64) <<< 56)))))))))

/-- CRC-64/ECMA-182: initial value 0, not reflected, no final XOR (R371). -/
def crc64 (bs : Bytes) : DWord := bs.foldl crc64Byte 0

/-! ### SHA-512 -/

/-- The 80 round constants of SHA-512 (FIPS 180-4), five to a number, the first of them in its highest bits. -/
def sha512Rows : List Nat :=
  [0x428A2F98D728AE227137449123EF65CDB5C0FBCFEC4D3B2FE9B5DBA58189DBBC3956C25BF348B538,
   0x59F111F1B605D019923F82A4AF194F9BAB1C5ED5DA6D8118D807AA98A303024212835B0145706FBE,
   0x243185BE4EE4B28C550C7DC3D5FFB4E272BE5D74F27B896F80DEB1FE3B1696B19BDC06A725C71235,
   0xC19BF174CF692694E49B69C19EF14AD2EFBE4786384F25E30FC19DC68B8CD5B5240CA1CC77AC9C65,
   0x2DE92C6F592B02754A7484AA6EA6E4835CB0A9DCBD41FBD476F988DA831153B5983E5152EE66DFAB,
   0xA831C66D2DB43210B00327C898FB213FBF597FC7BEEF0EE4C6E00BF33DA88FC2D5A79147930AA725,
   0x06CA6351E003826F142929670A0E6E7027B70A8546D22FFC2E1B21385C26C9264D2C6DFC5AC42AED,
   0x53380D139D95B3DF650A73548BAF63DE766A0ABB3C77B2A881C2C92E47EDAEE692722C851482353B,
   0xA2BFE8A14CF10364A81A664BBC423001C24B8B70D0F89791C76C51A30654BE30D192E819D6EF5218,
   0xD69906245565A910F40E35855771202A106AA07032BBD1B819A4C116B8D2D0C81E376C085141AB53,
   0x2748774CDF8EEB9934B0BCB5E19B48A8391C0CB3C5C95A634ED8AA4AE3418ACB5B9CCA4F7763E373,
   0x682E6FF3D6B2B8A3748F82EE5DEFB2FC78A5636F43172F6084C87814A1F0AB728CC702081A6439EC,
   0x90BEFFFA23631E28A4506CEBDE82BDE9BEF9A3F7B2C67915C67178F2E372532BCA273ECEEA26619C,
   0xD186B8C721C0C207EADA7DD6CDE0EB1EF57D4F7FEE6ED17806F067AA72176FBA0A637DC5A2C898A6,
   0x113F9804BEF90DAE1B710B35131C471B28DB77F523047D8432CAAB7B40C724933C9EBE0A15C9BEBC,
   0x431D67C49C100D4C4CC5D4BECB3E42B6597F299CFC657E2A5FCB6FAB3AD6FAEC6C44198C4A475817]

/-- The round constants, in the order of the rounds. -/
def sha512K : List DWord :=
  sha512Rows.flatMap (fun r => [4, 3, 2, 1, 0].map (fun j => BitVec.ofNat 64 (r / 2 ^ (64 * j))))

/-- Initial hash value of SHA-512. -/
def sha512Init : List DWord :=
  [0x6a09e667f3bcc908, 0xbb67ae8584caa73b, 0x3c6ef372fe94f82b, 0xa54ff53a5f1d36f1,
   0x510e527fade682d1, 0x9b05688c2b3e6c1f, 0x1f83d9abfb41bd6b, 0x5be0cd19137e2179]

/-- Small sigma 0. -/
def sha512s0 (x : DWord) : DWord := x.rotateRight 1 ^^^ x.rotateRight 8 ^^^ x >>> 7
/-- Small sigma 1. -/
def sha512s1 (x : DWord) : DWord := x.rotateRight 19 ^^^ x.rotateRight 61 ^^^ x >>> 6
/-- Large sigma 0. -/
def sha512S0 (x : DWord) : DWord := x.rotateRight 28 ^^^ x.rotateRight 34 ^^^ x.rotateRight 39
/-- Large sigma 1. -/
def sha512S1 (x : DWord) : DWord := x.rotateRight 14 ^^^ x.rotateRight 18 ^^^ x.rotateRight 41

/-- The rest of the message schedule, newest word first: each new word comes from the words 2, 7, 15 and 16 back. -/
def sha512Extend : Nat → List DWord → List DWord
  | 0, w => w
  | n + 1, w =>
    sha512Extend n
      ((sha512s1 (w.getD 1 0) + w.getD 6 0 + sha512s0 (w.getD 14 0) + w.getD 15 0) :: w)

/-- The eight working variables. -/
structure Sha512Vars where
  a : DWord
  b : DWord
  c : DWord
  d : DWord
  e : DWord
  f : DWord
  g : DWord
  h : DWord

/-- One round with constant and schedule word. -/
def sha512Round (v : Sha512Vars) (kw : DWord × DWord) : Sha512Vars :=
  let t1 := v.h + sha512S1 v.e + ((v.e &&& v.f) ^^^ (~~~ v.e &&& v.g)) + kw.1 + kw.2
  let t2 := sha512S0 v.a + ((v.a &&& v.b) ^^^ (v.a &&& v.c) ^^^ (v.b &&& v.c))
  { a := t1 + t2, b := v.a, c := v.b, d := v.c, e := v.d + t1, f := v.e, g := v.f, h := v.g }

/-- The compression of one block of sixteen words into the eight chaining words. -/
def sha512Block (h : List DWord) (words : List DWord) : List DWord :=
  let w := (sha512Extend 64 words.reverse).reverse
  let v0 : Sha512Vars := { a := h.getD 0 0, b := h.getD 1 0, c := h.getD 2 0, d := h.getD 3 0,
                           e := h.getD 4 0, f := h.getD 5 0, g := h.getD 6 0, h := h.getD 7 0 }
  let v := (sha512K.zip w).foldl sha512Round v0
  [v0.a + v.a, v0.b + v.b, v0.c + v.c, v0.d + v.d, v0.e + v.e, v0.f + v.f, v0.g + v.g, v0.h + v.h]

/-- Big-endian 64-bit words of a byte list. -/
def beWords : Nat → Bytes → List DWord
  | 0, _ => []
  | n + 1, bs => BitVec.ofNat 64 (beNat (bs.take 8)) :: beWords n (bs.drop 8)

/-- Compress `n` blocks. -/
def sha512Blocks : Nat → List DWord → Bytes → List DWord
  | 0, h, _ => h
  | n + 1, h, bs => sha512Blocks n (sha512Block h (beWords 16 bs)) (bs.drop 128)

/-- SHA-512 (FIPS 180-4) as 64 bytes (R583). -/
def sha512Bytes (msg : Bytes) : Bytes :=
  let l := msg.length
  let padded := msg ++ [0x80] ++ zeros ((111 + 128 - l % 128) % 128) ++ beBytes 16 (8 * l)
  (sha512Blocks (padded.length / 128) sha512Init padded).flatMap (fun w => beBytes 8 w.toNat)

/-- SHA-512 as a digest, first byte most significant. -/
def sha512 (msg : Bytes) : Digest := BitVec.ofNat 512 (beNat (sha512Bytes msg))

/-- The bytes of a digest, in order. -/
def digestBytes (d : Digest) : Bytes := beBytes 64 d.toNat

/-- The bytes of a key, in order (byte 0 in the least significant bits). -/
def keyBytes (k : Key) : Bytes := leBytes 32 k.toNat

/-- The bytes of a signature, in order. -/
def signatureBytes (s : Signature) : Bytes := leBytes 64 s.toNat

/-- HMAC-SHA-512 with a key of at most 128 bytes. -/
def hmacSha512 (key msg : Bytes) : Bytes :=
  let k := padTo 128 key
  sha512Bytes (k.map (fun b => b ^^^ 0x5C) ++ sha512Bytes (k.map (fun b => b ^^^ 0x36) ++ msg))

/-! ### Ed25519 -/

/-- The field prime 2^255 − 19. -/
def edP : Nat := 2 ^ 255 - 19
/-- The group order. -/
def edL : Nat := 2 ^ 252 + 27742317777372353535851937790883648493

/-- Power modulo the prime by repeated squaring, over the low `n` bits of the exponent. -/
def edPow : Nat → Nat → Nat → Nat
  | 0, _, _ => 1
  | n + 1, b, e =>
    let r := edPow n (b * b % edP) (e / 2)
    if e % 2 = 1 then r * b % edP else r

/-- Inverse modulo the prime. -/
def edInv (a : Nat) : Nat := edPow 256 a (edP - 2)

/-- The curve constant d = −121665 / 121666. -/
def edD : Nat := (edP - 121665) * edInv 121666 % edP

/-- A point in projective coordinates. -/
structure EdPoint where
  x : Nat
  y : Nat
  z : Nat

/-- The neutral element. -/
def EdPoint.zero : EdPoint := { x := 0, y := 1, z := 1 }

/-- Point addition, complete on the twisted Edwards curve. -/
def edAdd (p q : EdPoint) : EdPoint :=
  let a := p.z * q.z % edP
  let b := a * a % edP
  let c := p.x * q.x % edP
  let d := p.y * q.y % edP
  let e := edD * (c * d % edP) % edP
  let f := (b + edP - e) % edP
  let g := (b + e) % edP
  let xy := ((p.x + p.y) % edP) * ((q.x + q.y) % edP) % edP
  { x := a * f % edP * ((xy + 2 * edP - c - d) % edP) % edP,
    y := a * g % edP * ((d + c) % edP) % edP,
    z := f * g % edP }

/-- Scalar multiplication over the low `n` bits of the scalar. -/
def edMul : Nat → Nat → EdPoint → EdPoint
  | 0, _, _ => EdPoint.zero
  | n + 1, k, p =>
    let r := edMul n (k / 2) (edAdd p p)
    if k % 2 = 1 then edAdd p r else r

/-- The x coordinate of sign `odd` for a y coordinate, if there is one. -/
def edRecoverX (y : Nat) (odd : Nat) : Option Nat :=
  let y2 := y * y % edP
  let u := (y2 + edP - 1) % edP
  let v := (edD * y2 + 1) % edP
  let x2 := u * edInv v % edP
  let r := edPow 256 x2 ((edP + 3) / 8)
  let x := if r * r % edP = x2 then r else r * edPow 256 2 ((edP - 1) / 4) % edP
  if x * x % edP = x2 then
    if x = 0 && odd = 1 then none
    else some (if x % 2 = odd then x else edP - x)
  else none

/-- Decode a point; none for an encoding that is not canonical (R582). -/
def edDecode (bs : Bytes) : Option EdPoint :=
  let n := leNat bs
  let y := n % 2 ^ 255
  if edP ≤ y then none
  else (edRecoverX y (n / 2 ^ 255)).map (fun x => { x := x, y := y, z := 1 })

/-- Encode a point. -/
def edEncode (p : EdPoint) : Bytes :=
  let zi := edInv p.z
  let x := p.x * zi % edP
  let y := p.y * zi % edP
  leBytes 32 (y + (x % 2) * 2 ^ 255)

/-- The base point. -/
def edBase : EdPoint :=
  let y := 4 * edInv 5 % edP
  { x := (edRecoverX y 0).getD 0, y := y, z := 1 }

/-- Equality of points. -/
def edEq (p q : EdPoint) : Bool :=
  p.x * q.z % edP == q.x * p.z % edP && p.y * q.z % edP == q.y * p.z % edP

/-- Verify a pure Ed25519 signature by the conditions of R582. -/
def ed25519Verify (key : Key) (msg : Bytes) (sig : Signature) : Bool :=
  let r := leBytes 32 sig.toNat
  let s := sig.toNat / 2 ^ 256
  match edDecode (keyBytes key), edDecode r with
  | some a, some rp =>
    decide (s < edL) &&
      edEq (edMul 256 s edBase)
        (edAdd rp (edMul 256 (leNat (sha512Bytes (r ++ keyBytes key ++ msg)) % edL) a))
  | _, _ => false

/-- The clamped scalar and the second half of the hashed seed (RFC 8032). -/
def edExpand (seed : Key) : Nat × Bytes :=
  let h := sha512Bytes (keyBytes seed)
  let a := leNat (h.take 32)
  (a % 2 ^ 254 / 8 * 8 + 2 ^ 254, h.drop 32)

/-- Public key of a seed. -/
def ed25519Public (seed : Key) : Key :=
  BitVec.ofNat 256 (leNat (edEncode (edMul 256 (edExpand seed).1 edBase)))

/-- Sign with a seed as the RFC 8032 private key. -/
def ed25519Sign (seed : Key) (msg : Bytes) : Signature :=
  let (a, tail) := edExpand seed
  let r := leNat (sha512Bytes (tail ++ msg)) % edL
  let rb := edEncode (edMul 256 r edBase)
  let k := leNat (sha512Bytes (rb ++ keyBytes (ed25519Public seed) ++ msg)) % edL
  BitVec.ofNat 512 (leNat (rb ++ leBytes 32 ((r + k * a) % edL)))

/-! ### Philox -/

/-- One round of Philox4x32 on counter words and key words. -/
def philoxRound (c : Word × Word × Word × Word) (k : Word × Word) : Word × Word × Word × Word :=
  let p0 := 0xD2511F53 * c.1.toNat
  let p1 := 0xCD9E8D57 * c.2.2.1.toNat
  (BitVec.ofNat 32 (p1 / 2 ^ 32) ^^^ c.2.1 ^^^ k.1, BitVec.ofNat 32 p1,
   BitVec.ofNat 32 (p0 / 2 ^ 32) ^^^ c.2.2.2 ^^^ k.2, BitVec.ofNat 32 p0)

/-- `n` rounds, the key bumped after each. -/
def philoxRounds : Nat → Word × Word × Word × Word → Word × Word → Word × Word × Word × Word
  | 0, c, _ => c
  | n + 1, c, k => philoxRounds n (philoxRound c k) (k.1 + 0x9E3779B9, k.2 + 0xBB67AE85)

/-- Philox4x32-10 (R114). -/
def philox (key : Word × Word) (ctr : Word × Word × Word × Word) : Word × Word × Word × Word :=
  philoxRounds 10 ctr key

end Sys2Proof.Machine
end

