-- ==== Sys2Proof/Machine/Ops.lean ====
section
/-! DEFINITION. The named operations over the state that every family uses: its parts, the registers of a tile,
free values, the event log, contract faults, replies, and the rule by which a bundle's operation issues. -/

namespace Sys2Proof.Machine

/-- An outcome of a step. -/
abbrev Res := Host.Outcome State Fault Refusal

/-! ### Parts of the state -/

/-- The tile of a number. -/
def State.tile (s : State) (t : Nat) : Tile := mget Tile.reset s.tiles t
/-- Put a tile. -/
def State.setTile (s : State) (t : Nat) (x : Tile) : State := { s with tiles := mset s.tiles t x }
/-- Change a tile. -/
def State.modTile (s : State) (t : Nat) (f : Tile → Tile) : State := s.setTile t (f (s.tile t))

/-- A stack. -/
def State.stack (s : State) (k : Nat) : Stack := mget Stack.reset s.mem.stackMap k
/-- Put a stack. -/
def State.setStack (s : State) (k : Nat) (x : Stack) : State :=
  { s with mem := { s.mem with stackMap := mset s.mem.stackMap k x } }
/-- Change a stack. -/
def State.modStack (s : State) (k : Nat) (f : Stack → Stack) : State := s.setStack k (f (s.stack k))

/-- A chain port (0 to 15) or tie port (16 to 19). -/
def State.port (s : State) (p : Nat) : Port := mget Port.reset s.domain.ports p
/-- Put a port. -/
def State.setPort (s : State) (p : Nat) (x : Port) : State :=
  { s with domain := { s.domain with ports := mset s.domain.ports p x } }
/-- Change a port. -/
def State.modPort (s : State) (p : Nat) (f : Port → Port) : State := s.setPort p (f (s.port p))

/-- A compute region. -/
def State.region (s : State) (r : Nat) : RegionState := mget RegionState.reset s.clock.regions r
/-- Change a compute region. -/
def State.modRegion (s : State) (r : Nat) (f : RegionState → RegionState) : State :=
  { s with clock := { s.clock with regions := mset s.clock.regions r (f (s.region r)) } }

/-- A register block at reset, by its number: a TCB holds the hold-area code 6, every other configuration is 0
(Table 16.7), and CFG_CRC is that of the configuration (R553). -/
def Block.resetOf (b : Nat) : Block :=
  let cfg : SMap Byte := if 128 ≤ b ∧ b % 4 = 0 then [(0x104, 6)] else []
  { Block.reset with cfg := cfg, copy := cfg, crc := crc32c (readBytes cfg 0x100 0x700) }

/-- A register block, by the number RegMap.lean gives it. -/
def State.block (s : State) (b : Nat) : Block := (mfind s.blocks b).getD (Block.resetOf b)
/-- Change a register block. -/
def State.modBlock (s : State) (b : Nat) (f : Block → Block) : State :=
  { s with blocks := mset s.blocks b (f (s.block b)) }

/-- The HBM bytes. -/
def State.setHbm (s : State) (m : Memory) : State := { s with mem := { s.mem with hbm := m } }
/-- Write HBM bytes. -/
def State.writeHbm (s : State) (a : Nat) (bs : Bytes) : State := s.setHbm (writeBytes s.mem.hbm a bs)
/-- Read HBM bytes. -/
def State.readHbm (s : State) (a n : Nat) : Bytes := readBytes s.mem.hbm a n

/-- A tile is enabled by fuse (R5). -/
def State.enabled (s : State) (t : Nat) : Bool := s.fuses.enabled.getLsbD t

/-- The enabled tiles in increasing number. -/
def State.enabledTiles (s : State) : List Nat := (List.range 128).filter s.enabled

/-- Tile numbers of the image that runs. -/
def State.imageTiles (s : State) : List Nat := (List.range 128).filter (fun t => (s.tile t).logical.isSome)

/-- The physical tile of a logical index. -/
def State.physTile (s : State) (l : Nat) : Option Nat :=
  (List.range 128).find? (fun t => (s.tile t).logical == some l)

/-- Change every tile that the map lists. -/
def State.mapTiles (s : State) (f : Tile → Tile) : State :=
  { s with tiles := s.tiles.map (fun e => (e.1, f e.2)) }

/-! ### Free values -/

/-- Advance the counter of free values. -/
def State.drawn (s : State) (n : Nat) : State := { s with freeCtr := s.freeCtr + n }

/-- The next `n` free bytes. -/
def freeBytes (ctr : Nat) : Nat → Bytes
  | 0 => []
  | n + 1 => Config.freeByte ctr :: freeBytes (ctr + 1) n

/-! ### Registers of a tile -/

/-- G register. -/
def Regs.getG (r : Regs) (i : Nat) : DWord := mget 0 r.g i
/-- P register. -/
def Regs.getP (r : Regs) (i : Nat) : DWord := mget 0 r.p i
/-- L register. -/
def Regs.getL (r : Regs) (i : Nat) : Word := mget 0 r.l i
/-- M register. -/
def Regs.getM (r : Regs) (i : Nat) : BitVec 256 := mget 0 r.m i
/-- Lane of a V register. -/
def Regs.getV (r : Regs) (i lane : Nat) : Word := mget 0 r.v (i * 256 + lane)
/-- Set a G register. -/
def Regs.setG (r : Regs) (i : Nat) (v : DWord) : Regs := { r with g := mset r.g i v }
/-- Set a P register. -/
def Regs.setP (r : Regs) (i : Nat) (v : DWord) : Regs := { r with p := mset r.p i v }
/-- Set an L register. -/
def Regs.setL (r : Regs) (i : Nat) (v : Word) : Regs := { r with l := mset r.l i v }
/-- Set an M register. -/
def Regs.setM (r : Regs) (i : Nat) (v : BitVec 256) : Regs := { r with m := mset r.m i v }
/-- Set a lane of a V register. -/
def Regs.setV (r : Regs) (i lane : Nat) (v : Word) : Regs := { r with v := mset r.v (i * 256 + lane) v }

/-- The 256 lanes of a V register. -/
def Regs.vec (r : Regs) (i : Nat) : List Word := (List.range 256).map (r.getV i)

/-- Write lanes of a V register from lane `lane` on, those whose flag is set. -/
def Regs.writeLanes (r : Regs) (i lane : Nat) : List (Word × Bool) → Regs
  | [] => r
  | (w, on) :: rest => Regs.writeLanes (if on then r.setV i lane w else r) i (lane + 1) rest

/-- Change the registers of a tile. -/
def Tile.modRegs (t : Tile) (f : Regs → Regs) : Tile := { t with regs := f t.regs }

/-! ### The run -/

/-- A run is active (running or suspended). -/
def State.runActive (s : State) : Bool := s.run.state == .running || s.run.state == .suspended

/-- The run cycle (R66): compute cycles since the run's start, the same in every region. -/
def State.runCycle (s : State) : DWord := (s.region 0).count - s.run.c0

/-- The image of the run. -/
def State.runImage (s : State) : Option Image := mfind s.host.images s.run.handle.val

/-- The job of the run. -/
def State.runJob (s : State) : Option Job := mfind s.host.jobs s.run.jobId.toNat

/-- The module ID, 0 where none is assigned. -/
def State.moduleIdNat (s : State) : Nat := (s.domain.moduleId.map (·.toNat)).getD 0

/-- The step in progress: the run's first step plus the steps completed. -/
def State.currentStep (s : State) : Word := s.run.firstStep + BitVec.ofNat 32 s.run.steps.length

/-! ### The event log (R570 to R573) -/

/-- An event: its class and its place in the class's list (Table 17.7). -/
abbrev Event := Nat × Nat

/-- The code of an event (R572). -/
def eventCode (e : Event) : BitVec 16 := BitVec.ofNat 16 ((e.1 + 1) * 256 + e.2)

/-- The 128 bytes of a log entry (Table 17.5). -/
def LogEntry.bytes (e : LogEntry) (continues : Bool) : Bytes :=
  let flags := e.severity.val + (if continues then 4 else 0) + (if e.deferred then 8 else 0)
  let front := leBytes 8 e.meridian.toNat ++ leBytes 4 e.seq.toNat ++ leBytes 2 e.code.toNat ++ [e.cls] ++
    [BitVec.ofNat 8 flags] ++ leBytes 2 e.source.toNat ++ leBytes 2 e.jobId.toNat ++ leBytes 4 e.step.toNat ++
    padTo 100 e.payload
  front ++ leBytes 4 (crc32c front).toNat

/-- Cut a payload into pieces of 100 bytes, at least one. -/
def payloadPieces : Nat → Bytes → List Bytes
  | 0, bs => [bs]
  | n + 1, bs => if bs.length ≤ 100 then [bs] else bs.take 100 :: payloadPieces n (bs.drop 100)

/-- Index of the oldest entry of the lowest severity (R573). -/
def lowestSeverity (ring : List LogEntry) : Nat :=
  let least := ring.foldl (fun m e => min m e.severity.val) 3
  ring.findIdx (fun e => e.severity.val == least)

/-- Enter an entry in the RAM ring; a full ring loses the oldest entry of the lowest severity (R573). -/
def MgpState.push (m : MgpState) (e : LogEntry) : MgpState :=
  if m.logRing.length < 4096 then { m with logRing := m.logRing ++ [e], overflowEpisode := false }
  else { m with logRing := m.logRing.eraseIdx (lowestSeverity m.logRing) ++ [e], overflowEpisode := true,
                overflowCount := satInc m.overflowCount }

/-- An unsolicited packet for a session; beyond 1,024 waiting it is dropped and counted (R518). -/
def HostState.postUnsolicited (h : HostState) (path : Path) (opcode : BitVec 16) (vector : BitVec 4)
    (body : Bytes) : HostState :=
  let q : Option Session := match path with
    | .pcie => h.pcie
    | .mctp => h.mctp
  let r : Reply := { path := path, opcode := opcode, seq := 0, final := true, unsolicited := true, vector := vector,
                     jobId := 0, status := 0, version := (q.map (·.version)).getD 0, body := body }
  match path with
  | .mctp => { h with mctpSent := h.mctpSent ++ [r] }
  | .pcie =>
    if (h.waiting.filter (·.unsolicited)).length < 1024 then { h with waiting := h.waiting ++ [r] }
    else { h with unsolicitedDropped := satInc h.unsolicitedDropped }

/-- Post to the sessions whose mask selects a class (R539). -/
def HostState.postEvent (h : HostState) (cls : Nat) (body : Bytes) : HostState :=
  let one (h : HostState) (path : Path) (x : Option Session) : HostState :=
    match x with
    | some q => if q.mask.getLsbD cls then h.postUnsolicited path 0x8880 q.eventVector body else h
    | none => h
  one (one h .pcie h.pcie) .mctp h.mctp

/-- Write one event to the log, with a code, class and severity, and post it (R570, R539). -/
def State.logCode (s : State) (code : BitVec 16) (cls : Nat) (severity : Fin 4) (source : BitVec 16)
    (payload : Bytes) : State :=
  let pieces := payloadPieces 16 payload
  let mk (p : Bytes) : LogEntry :=
    { meridian := s.clock.meridian, seq := s.mgp.logSeq, code := code, cls := BitVec.ofNat 8 cls,
      severity := severity, deferred := false, source := source,
      jobId := if s.runActive then s.run.jobId else 0,
      step := if s.runActive then s.currentStep else 0xFFFFFFFF, payload := p }
  let mgp := { (pieces.foldl (fun m p => m.push (mk p)) s.mgp) with logSeq := s.mgp.logSeq + 1 }
  let mgp := if mgp.overflowEpisode && !s.mgp.overflowEpisode then
      { (mgp.push { mk [] with code := eventCode (11, 1), cls := 11, severity := Config.severity (eventCode (11, 1)),
                               seq := mgp.logSeq, payload := leBytes 4 mgp.overflowCount.toNat }) with
        logSeq := mgp.logSeq + 1 }
    else mgp
  { s with mgp := mgp, host := s.host.postEvent cls ((mk (pieces.headD [])).bytes (decide (1 < pieces.length))) }

/-- Raise an event. -/
def State.event (s : State) (e : Event) (source : BitVec 16) (payload : Bytes) : State :=
  s.logCode (eventCode e) e.1 (Config.severity (eventCode e)) source payload

/-- Event-source field: block code and instance (Table 17.5). -/
def srcOf (block inst : Nat) : BitVec 16 := BitVec.ofNat 16 (block + 256 * inst)

/-! ### Contract faults (R235 to R237) -/

/-- Codes of Table 06.9. -/
def cfBankConflict : BitVec 16 := 1
/-- SCRATCHPAD_BOUND. -/
def cfScratchpadBound : BitVec 16 := 2
/-- WINDOW_VIOLATION. -/
def cfWindowViolation : BitVec 16 := 3
/-- ISTORE_MISS. -/
def cfIstoreMiss : BitVec 16 := 4
/-- SEMAPHORE_OVERFLOW. -/
def cfSemaphoreOverflow : BitVec 16 := 5
/-- BARRIER_OVERRUN. -/
def cfBarrierOverrun : BitVec 16 := 6
/-- CLOSED_ENDPOINT. -/
def cfClosedEndpoint : BitVec 16 := 7
/-- STREAM_DESCRIPTOR. -/
def cfStreamDescriptor : BitVec 16 := 8

/-- The fault address of a routine's bundle: `offset` bundles from the routine's start (R237). -/
def routineBundle (id : BitVec 16) (offset : Nat) : Word := 0xF0000000 + (id.setWidth 32 <<< 12) + BitVec.ofNat 32 offset

/-- Merge a condition of the same cc into a tile's record: the lowest code stays, FLAGS[0] is set (R236). -/
def mergeFault (fs : List FaultRec) (f : FaultRec) : List FaultRec :=
  fs.map (fun g =>
    if g.tile = f.tile && g.runCycle = f.runCycle then
      (if f.code < g.code then { f with more := true } else { g with more := true })
    else g)

/-- Raise a contract fault on a tile: it issues no further bundle and writes one record (R236); `more` says that further
conditions hold in the same cc. -/
def State.raiseContract (s : State) (t : Nat) (code : BitVec 16) (slot : Byte) (more : Bool) (bundle : Word)
    (offending detail : DWord) : State :=
  let f : FaultRec :=
    { tile := BitVec.ofNat 16 t, code := code, slot := slot, more := more,
      inRoutine := (s.tile t).routine.isSome, bundle := bundle, runCycle := s.runCycle,
      meridian := s.clock.meridian, offending := offending, detail := detail }
  if s.runActive then
    if (s.tile t).faulted then { s with run := { s.run with faults := mergeFault s.run.faults f } }
    else { (s.modTile t (fun x => { x with faulted := true })) with
           run := { s.run with faults := s.run.faults ++ [f] } }
  else s

/-- Raise one contract fault on a tile. -/
def State.contractFault (s : State) (t : Nat) (code : BitVec 16) (slot : Byte) (bundle : Word)
    (offending detail : DWord) : State := s.raiseContract t code slot false bundle offending detail

/-- The 48 bytes of a fault record (Table 06.10). -/
def FaultRec.bytes (f : FaultRec) : Bytes :=
  leBytes 2 f.tile.toNat ++ leBytes 2 f.code.toNat ++ [f.slot] ++
  [BitVec.ofNat 8 ((if f.more then 1 else 0) + (if f.inRoutine then 2 else 0))] ++ zeros 2 ++
  leBytes 4 f.bundle.toNat ++ zeros 4 ++ leBytes 8 f.runCycle.toNat ++ leBytes 8 f.meridian.toNat ++
  leBytes 8 f.offending.toNat ++ leBytes 8 f.detail.toNat

/-- Records in the order of R236: by run cycle, then by tile number. -/
def insertFault (f : FaultRec) : List FaultRec → List FaultRec
  | [] => [f]
  | g :: r =>
    if f.runCycle < g.runCycle || (f.runCycle == g.runCycle && f.tile < g.tile) then f :: g :: r
    else g :: insertFault f r

/-- All fault records of the run, ordered (R236). -/
def State.orderedFaults (s : State) : List FaultRec := s.run.faults.foldl (fun acc f => insertFault f acc) []

/-! ### Slots (Table 06.1) -/

/-- Slot numbers in the order of Table 06.1. -/
def slotMatrix : Byte := 0
/-- Vector slot. -/
def slotVector : Byte := 1
/-- Reduction slot. -/
def slotReduction : Byte := 2
/-- Stream slot. -/
def slotStream : Byte := 3
/-- Channel slot. -/
def slotChannel : Byte := 4
/-- Sync slot. -/
def slotSync : Byte := 5
/-- Scalar slot. -/
def slotScalar : Byte := 6
/-- No slot. -/
def slotNone : Byte := 0xFF

/-! ### Issue of a bundle's operation (R197 to R201, R206, R227) -/

/-- The bundle is the one that issues in this cc: its first operation has begun it. -/
def inBundle (s : State) (i : Iss) : Bool :=
  (s.tile i.tile.val).cur == some i.bundle && (s.tile i.tile.val).issuedAt == some s.runCycle

/-- The tile may issue this bundle in this cc (R198, R199): the bundle is next in order, none has issued in the cc, and the
tile is neither faulted, debug-halted (but for a STEP), inside a routine, held at a missing line nor frozen by its array
(R140). -/
def mayBegin (s : State) (i : Iss) : Bool :=
  let t := s.tile i.tile.val
  !t.faulted && t.routine.isNone && t.istoreHeld.isNone && t.freezeNow == .none && t.nextBundle == i.bundle &&
  t.issuedAt != some s.runCycle &&
  (!t.halted || (match t.stepping with
    | some n => n != 0
    | none => false))

/-- The tile may go on to this bundle: a run is running, the tile is in the image, and the bundle issues in this cc or may
begin. -/
def mayIssue (s : State) (i : Iss) : Bool :=
  s.run.state == .running && (s.tile i.tile.val).logical.isSome && s.enabled i.tile.val &&
  (inBundle s i || mayBegin s i)

/-- The bundle's line is in the instruction store (R227). -/
def storeHolds (t : Tile) (b : Word) : Bool :=
  mfind t.istore (Config.bundleLine b % 2048) == some (Config.bundleLine b)

/-- The bundle's line is absent: the contract fault ISTORE_MISS in STRICT mode, a held bundle in RELAXED (R227). -/
def missLine (s : State) (i : Iss) : State :=
  let line := Config.bundleLine i.bundle
  if s.run.relaxed then
    { (s.modTile i.tile.val (fun t => { t with istoreHeld := some line })) with
      run := { s.run with missOccurred := true } }
  else
    s.contractFault i.tile.val cfIstoreMiss slotNone i.bundle (BitVec.ofNat 64 line) (BitVec.ofNat 64 (line % 2048))

/-- Windows that a stream-slot operation of the bundle before has changed take effect (R257). -/
def applyWindows (w : SMap Window) : List (Nat × Window) → SMap Window
  | [] => w
  | (k, x) :: r => applyWindows (mset w k x) r

/-- A new cc begins at run cycle `now`: the phase and window changes of the cc before take effect (R250, R257), and a
remote write of the new cc is judged by the windows as they stood before (R260). -/
def Tile.turn (t : Tile) (now : Nat) : Tile :=
  { t with computePhase := t.phaseNext.getD t.computePhase, phaseNext := none,
           phaseFrom := match t.phaseNext with
             | some p => if p = t.computePhase then t.phaseFrom else now
             | none => t.phaseFrom,
           windowsBefore := t.windows, windows := applyWindows t.windows t.windowsNext, windowsNext := [] }

/-- Begin a bundle in the cc `now`: every slot samples the registers as they stand now (R200), and the bundle's waits are
over. -/
def Tile.begin (t : Tile) (now : DWord) (b : Word) : Tile :=
  { t with cur := some b, issuedAt := some now, nextBundle := b + 1, slotsIn := [], serial := t.serial + 1, resolved := false,
           samp := t.regs, blocked := [], stepping := t.stepping.map (fun n => n - 1), vector := { t.vector with waitingRed := none } }

/-- A result of an operation of this bundle goes on its way (R170, R195, R204). -/
def Tile.addLate (t : Tile) (l : Late) : Tile := { t with late := t.late ++ [l] }

/-! ### Replies (R513, R514, R521) -/

/-- OK. -/
def stOk : BitVec 16 := 0x0000
/-- ACCEPTED. -/
def stAccepted : BitVec 16 := 0x0001
/-- BAD_OPCODE. -/
def stBadOpcode : BitVec 16 := 0x0100
/-- BAD_LENGTH. -/
def stBadLength : BitVec 16 := 0x0101
/-- BAD_VERSION. -/
def stBadVersion : BitVec 16 := 0x0102
/-- BAD_CRC. -/
def stBadCrc : BitVec 16 := 0x0103
/-- BUSY. -/
def stBusy : BitVec 16 := 0x0200
/-- DENIED. -/
def stDenied : BitVec 16 := 0x0300
/-- DEFERRED_LOW_SUPPLY. -/
def stDeferred : BitVec 16 := 0x0400
/-- PROGRAM_REJECTED. -/
def stRejected : BitVec 16 := 0x0500
/-- CONTRACT_FAULT. -/
def stContractFault : BitVec 16 := 0x0600
/-- CLOSED. -/
def stClosed : BitVec 16 := 0x0700
/-- CALIBRATION_INVALID. -/
def stCalInvalid : BitVec 16 := 0x0800

/-- The session of a path. -/
def State.session (s : State) (p : Path) : Option Session :=
  match p with
  | .pcie => s.host.pcie
  | .mctp => s.host.mctp

/-- Change the session of a path. -/
def State.setSession (s : State) (p : Path) (x : Option Session) : State :=
  match p with
  | .pcie => { s with host := { s.host with pcie := x } }
  | .mctp => { s with host := { s.host with mctp := x } }

/-- The path of the owner session, if any (R523). -/
def State.ownerPath (s : State) : Option Path :=
  if (s.host.pcie.map (·.owner)).getD false then some .pcie
  else if (s.host.mctp.map (·.owner)).getD false then some .mctp
  else none

/-- Hand a reply to firmware's outgoing list: over MCTP it returns at once, and a final one ends an outstanding command
(R540). -/
def State.postReply (s : State) (r : Reply) : State :=
  match r.path with
  | .pcie => { s with host := { s.host with waiting := s.host.waiting ++ [r] } }
  | .mctp => { s with host := { s.host with
      mctpSent := s.host.mctpSent ++ [r], mctpOutstanding := s.host.mctpOutstanding - (if r.final then 1 else 0) } }

/-- The session that a command came in is still open (R525); a command outside a session carries 0. -/
def State.sessionAlive (s : State) (h : Hdr) : Bool :=
  h.session == 0 || (match s.session h.path with
    | some q => q.id == h.session
    | none => false)

/-- The version of a path's replies: the session's, or the command's own outside a session (Table 15.5). -/
def State.replyVersion (s : State) (h : Hdr) : BitVec 16 :=
  match s.session h.path with
  | some q => q.version
  | none => h.major ++ h.minor

/-- The answer to a packet at hand: none under NO_REPLY (R521). -/
def State.answer (s : State) (h : Hdr) (opcode status : BitVec 16) (final : Bool) (body : Bytes) : State :=
  if h.noReply then s
  else s.postReply
    { path := h.path, opcode := opcode ||| 0x8000, seq := h.seq, final := final, unsolicited := false,
      vector := h.vector, jobId := h.jobId, status := status, version := s.replyVersion h, body := body }

/-- A reply to a command: none where its session has ended (R525). -/
def State.reply (s : State) (h : Hdr) (opcode status : BitVec 16) (final : Bool) (body : Bytes) : State :=
  if s.sessionAlive h then s.answer h opcode status final body else s

/-- The body of a failure reply (R514). -/
def failBody (field reason value : Nat) : Bytes := leBytes 2 field ++ leBytes 2 reason ++ leBytes 4 value

/-- A final reply OK with a body. -/
def State.ok (s : State) (h : Hdr) (opcode : BitVec 16) (body : Bytes) : State := s.reply h opcode stOk true body

/-- A final failure reply. -/
def State.fail (s : State) (h : Hdr) (opcode status : BitVec 16) (field reason value : Nat) : State :=
  s.reply h opcode status true (failBody field reason value)

/-- A final failure reply with no field at fault. -/
def State.failPlain (s : State) (h : Hdr) (opcode status : BitVec 16) : State := s.fail h opcode status 0xFFFF 0 0

/-! ### Numbers of the module -/

/-- A run configuration's latency table: A1 values in A1 compatibility mode or on an A1 module (R74). -/
def State.ltA1 (s : State) : Bool := s.fuses.steppingA1 || s.run.a1Compat

/-- Latency of exp and log (Table 02.4). -/
def State.tExp (s : State) : Nat := if s.ltA1 then 8 else 6
/-- Latency of tanh and erf. -/
def State.tTanh (s : State) : Nat := if s.ltA1 then 9 else 7
/-- Latency of rsqrt. -/
def State.tRsqrt (s : State) : Nat := if s.ltA1 then 6 else 5

/-- The units of the port dies (Table 01.2). -/
inductive PortUnit where
  | port (p : PortNo)
  | pcie | management | security | moduleBarrier
  deriving DecidableEq, Repr

/-- The port die on which a unit lies (R20, Table 01.2): 0 for P0, 1 for P1. -/
def PortUnit.die : PortUnit → Nat
  | .port p => if p.val < 16 then p.val / 8 else (p.val - 16) / 2
  | .pcie | .management | .security => 0
  | .moduleBarrier => 1

/-- The place of a unit among those of its port die: ports by number, and the PCIe endpoint after them (R39). -/
def PortUnit.order : PortUnit → Nat
  | .port p => p.val
  | .pcie => 20
  | .management => 21
  | .security => 22
  | .moduleBarrier => 23

/-- A flow's place at a merge point of the memory network, its keys in the order in which they are compared. -/
abbrev FlowKey := List Nat

/-- A deadline as a key: a flow that has none ranks after all that have one (R38). -/
def deadlineKey (d : Option DWord) : Nat := (d.map (·.toNat)).getD (2 ^ 64)

/-- The key of a tile's transfer: deadline, tile, stream, segment, offset in the segment (R278); tile flows go before port-die
flows of equal deadline (R39). -/
def tileKey (deadline : Option DWord) (tile stream segment offset : Nat) : FlowKey :=
  [deadlineKey deadline, 0, tile, stream, segment, offset]

/-- The key of a port-die flow: deadline, port die, unit (R39). -/
def portKey (deadline : Option DWord) (u : PortUnit) : FlowKey := [deadlineKey deadline, 1, u.die, u.order]

/-- One key goes before another. -/
def keyLess : FlowKey → FlowKey → Bool
  | a :: as, b :: bs => decide (a < b) || (a == b && keyLess as bs)
  | [], _ :: _ => true
  | _, [] => false

/-- The item that goes first at a merge point, and its place among the items that the point holds; the earlier entry where all
keys are equal (R37, R279). -/
def firstKeyed {α : Type} (key : α → FlowKey) : List α → Option (Nat × α)
  | [] => none
  | x :: rest =>
    match firstKeyed key rest with
    | some (k, y) => if keyLess (key y) (key x) then some (k + 1, y) else some (0, x)
    | none => some (0, x)

/-- Cluster of a tile. -/
def clusterOf (t : Nat) : Nat := t / 4
/-- Die of a tile. -/
def dieOf (t : Nat) : Nat := t / 16

end Sys2Proof.Machine
end

