-- ==== Sys2Proof/Machine/Planner.lean ====
section
/-! DEFINITION. The schedule network's routes, latencies and slot tables (R27, R29 to R34, R233, R620): the planner with which
the loader places the channel flows of an image. -/

namespace Sys2Proof.Machine

/-- A directed link that a slot table names a sender for (R33, R620). -/
inductive SlotLink where
  | tileOut (tile : Nat)
  | tileIn (tile : Nat)
  | mesh (die source target : Nat)
  /-- A cluster router's port into the link to another die. -/
  | linkPort (die target cluster : Nat)
  | dieToDie (source target : Nat)
  deriving DecidableEq, Repr

/-- Cluster position of a tile in its die. -/
def clusterPos (t : Nat) : Nat := t % 16 / 4

/-- The cluster positions that a flit visits inside its source die: along the mesh row, then along the column (R620). -/
def meshPath (a b : Nat) : List Nat :=
  let corner := a / 2 * 2 + b % 2
  [a] ++ (if corner = a then [] else [corner]) ++ (if b = corner then [] else [b])

/-- Numbers from `a` towards `b`, one at a time, both included. -/
def towards (a b : Nat) : List Nat :=
  if a ≤ b then (List.range (b - a + 1)).map (a + ·) else (List.range (a - b + 1)).map (a - ·)

/-- The dies that a flow visits: along the source row to the destination's column, then across on that column's link (R27). -/
def diePath (a b : Nat) : List Nat :=
  (towards (a % 4) (b % 4)).map (fun c => a / 4 * 4 + c) ++ (if a / 4 = b / 4 then [] else [b])

/-- Router hops of a flow between two tiles (R34). -/
def flowHops (a b : Nat) : Nat := (meshPath (clusterPos a) (clusterPos b)).length - 1

/-- Die-to-die crossings of a flow between two tiles (R34). -/
def flowCrossings (a b : Nat) : Nat := (diePath (dieOf a) (dieOf b)).length - 1

/-- The latency of the schedule network from a send to its first flit at the destination, in cc (R34). -/
def flowLatency (a b : Nat) : Nat := 3 + flowHops a b + 12 * flowCrossings a b

/-- The links of a flow in order, each with the cc after the source's slot in which the flit is on it: one for each hop and 12 for
each crossing (log entry 110). -/
def routeLinks (a b : Nat) : List (SlotLink × Nat) :=
  let mp := meshPath (clusterPos a) (clusterPos b)
  let dp := diePath (dieOf a) (dieOf b)
  let hops := mp.length - 1
  [(.tileOut a, 0)] ++
  ((mp.zip mp.tail).zipIdx.map (fun e => (SlotLink.mesh (dieOf a) e.1.1 e.1.2, e.2))) ++
  (match dp with
   | d :: d' :: _ => [(SlotLink.linkPort d d' (clusterPos b), hops)]
   | _ => []) ++
  ((dp.zip dp.tail).zipIdx.map (fun e => (SlotLink.dieToDie e.1.1 e.1.2, hops + 12 * e.2))) ++
  [(.tileIn b, hops + 12 * (dp.length - 1))]

/-- The slot in which a flit that leaves in slot `slot` is on a link, `cc` compute cycles later: a frame is 64 slots, two to a cc
(R29). -/
def slotAt (slot cc : Nat) : Nat := (slot + 2 * cc) % 64

/-- A link and a slot that a flow holds. -/
abbrev SlotUse := SlotLink × Nat

/-- What a flow that leaves in a slot holds along its route. -/
def slotUses (a b slot : Nat) : List SlotUse := (routeLinks a b).map (fun e => (e.1, slotAt slot e.2))

/-- A flow may leave in a slot: along its route no link's slot is slot 0 or another flow's (R31, R33). -/
def slotFits (used : List SlotUse) (a b slot : Nat) : Bool :=
  (slotUses a b slot).all (fun u => u.2 != 0 && !used.contains u)

/-- The slots of the flows, in the order of the image's channels: each takes the lowest slot that fits, none where the flows do not
fit in slots 1 to 63 (R233; log entry 110). -/
def planSlots : List (Nat × Nat) → List SlotUse → Option (List Nat)
  | [], _ => some []
  | (a, b) :: rest, used =>
    match (List.range 64).find? (slotFits used a b) with
    | none => none
    | some k => (planSlots rest (used ++ slotUses a b k)).map (k :: ·)

/-- The longest wait for a flow's one slot of a frame: a send just after its slot waits for the next frame's (R29). -/
def slotWait : Nat := 31

/-- The channel flows of an image inside the module, as physical tiles. -/
def channelFlows (b : ImageBody) (tiles : List TileNo) : List (Nat × Nat) :=
  let phys (l : Nat) : Nat := ((tiles[l]?).map (·.val)).getD 0
  b.channels.filterMap (fun c =>
    match c.send, c.recv with
    | .tile l _, .tile l' _ => some (phys l, phys l')
    | _, _ => none)

/-- The flows fit in the slots, and every flow's latency and slot wait stay within ROUTE_BOUND (R233). -/
def routesFit (b : ImageBody) (tiles : List TileNo) (bound : Nat) : Bool :=
  let flows := channelFlows b tiles
  (planSlots flows []).isSome && flows.all (fun f => decide (flowLatency f.1 f.2 + slotWait ≤ bound))

end Sys2Proof.Machine
end

