-- ==== Sys2Proof/Machine/PortOps.lean ====
section
/-! DEFINITION. Operations over the chain and tie ports: the membership's numbers (R415, R416, R626), the packet
layout with its CRCs (Table 11.2, Table 11.3), and the egress of a port (R386, R387, R391, R452, R472, R474). -/

namespace Sys2Proof.Machine

/-! ### Events of Table 17.7 -/

/-- HANG. -/
def evHang : Event := (1, 1)
/-- HANG_REPORT. -/
def evHangReport : Event := (1, 2)
/-- CHECK_SHOT_DIVERGENCE. -/
def evCheckDivergence : Event := (2, 1)
/-- CHECK_SHOT_SUPPRESSED. -/
def evCheckSuppressed : Event := (2, 2)
/-- HBM_POISON_FULL. -/
def evPoisonFull : Event := (3, 1)
/-- HBM_DIE_FAILED. -/
def evDieFailed : Event := (3, 2)
/-- HBM_POISON_READ. -/
def evPoisonRead : Event := (3, 3)
/-- HBM_SCRUB_UNCORRECTABLE. -/
def evScrubUncorrectable : Event := (3, 4)
/-- CHAIN_DEGRADED. -/
def evChainDegraded : Event := (4, 1)
/-- CHAIN_DOWN. -/
def evChainDown : Event := (4, 2)
/-- CHAIN_VERSION_LOW. -/
def evVersionLow : Event := (4, 3)
/-- TIE_DEGRADED. -/
def evTieDegraded : Event := (4, 4)
/-- TIE_PORT_DOWN. -/
def evTiePortDown : Event := (4, 5)
/-- TIE_MISWIRED. -/
def evTieMiswired : Event := (4, 6)
/-- PCIE_DEGRADED. -/
def evPcieDegraded : Event := (4, 7)
/-- TWIN_LOST. -/
def evTwinLost : Event := (5, 1)
/-- TWIN_TAKEOVER. -/
def evTwinTakeover : Event := (5, 2)
/-- TIE_MODE_MISMATCH. -/
def evModeMismatch : Event := (5, 3)
/-- CLOSURE_MISMATCH. -/
def evClosureMismatch : Event := (5, 4)
/-- QUARANTINE. -/
def evQuarantine : Event := (5, 5)
/-- REDUCTION_STRAY. -/
def evReductionStray : Event := (6, 1)
/-- MEMBERSHIP_CHANGE. -/
def evMembershipChange : Event := (6, 2)
/-- MERIDIAN_UNLOCKED. -/
def evMeridianUnlocked : Event := (7, 1)
/-- MERIDIAN_LOCKED. -/
def evMeridianLocked : Event := (7, 2)
/-- CFG_DRIFT. -/
def evCfgDrift : Event := (8, 1)
/-- DEBUG_WRITE. -/
def evDebugWrite : Event := (8, 2)
/-- SUPPLY_LOW. -/
def evSupplyLow : Event := (9, 1)
/-- SUPPLY_RESTORED. -/
def evSupplyRestored : Event := (9, 2)
/-- THERMAL_THROTTLE. -/
def evThermalThrottle : Event := (9, 3)
/-- THERMAL_RELEASE. -/
def evThermalRelease : Event := (9, 4)
/-- POWER_LIMIT. -/
def evPowerLimit : Event := (9, 5)
/-- CAL_WRITTEN. -/
def evCalWritten : Event := (9, 6)
/-- MARGIN_CAPPED. -/
def evMarginCapped : Event := (9, 7)
/-- LOG_SECTOR_RETIRED. -/
def evLogSectorRetired : Event := (11, 2)

/-! ### The membership -/

/-- The module IDs of the membership in force, the module alone before the first announcement (R626). -/
def State.members (s : State) : List Nat := (s.domain.membership.map (·.members)).getD [s.moduleIdNat]

/-- The membership epoch in force (R626: 0 before the first). -/
def State.memberEpoch (s : State) : Word := (s.domain.membership.map (·.epoch)).getD 0

/-- The reduction shape in force (R415). -/
def State.shape (s : State) : List Nat := (s.domain.membership.map (·.shape)).getD []

/-- The module's rank in a list of members (R63). -/
def rankIn (members : List Nat) (m : Nat) : Nat := (members.filter (fun x => decide (x < m))).length

/-- The module's own rank. -/
def State.ownRank (s : State) : Nat := rankIn s.members s.moduleIdNat

/-- The parcels that a rank of M modules executes of P per step, as first ID and count: P div M, and one more for each of the first
P mod M ranks (R63). -/
def parcelRange (P M rank : Nat) : Nat × Nat :=
  (rank * (P / M) + min rank (P % M), P / M + (if rank < P % M then 1 else 0))

/-- The parcel to which sample j of a step's input order belongs, with S samples in a parcel (R61). -/
def parcelOfSample (S j : Nat) : Nat := j / S

/-- The level-ℓ digit of a rank (R416); level 1 is the first entry of the shape. -/
def digitOf (shape : List Nat) (level rank : Nat) : Nat :=
  rank / ((shape.take (level - 1)).foldl (· * ·) 1) % (shape.getD (level - 1) 1)

/-- The rank that owns bucket b of a parameter group with n buckets, among M ranks (R417). -/
def bucketOwner (n M b : Nat) : Nat := b * M / n

/-- The parcels of the module in the membership in force, of P per step: its own range, and in shadow mode its partner's as backup
worker (R63). -/
def State.parcelsOf (s : State) (P : Nat) : List (Nat × Nat) :=
  let M := s.members.length
  parcelRange P M s.ownRank ::
    (if s.pair.mode = .shadow ∧ s.members.contains (s.moduleIdNat ^^^ 1) = true then
      [parcelRange P M (rankIn s.members (s.moduleIdNat ^^^ 1))] else [])

/-- The run's parcels follow the membership in force (R63, R65). -/
def State.assignParcels (s : State) : State :=
  match s.runImage with
  | some im => { s with run := { s.run with parcels := s.parcelsOf im.body.parcels.toNat } }
  | none => s

/-- The module ID of a rank. -/
def State.memberOfRank (s : State) (r : Nat) : Nat := s.members.getD r 0

/-- The twin's module ID (R12). -/
def State.twinId (s : State) : Nat := s.moduleIdNat ^^^ 1

/-- The epoch-table entry of a pair; before the first announcement only the own pair is listed (R395, R626). -/
def State.epochEntry (s : State) (pair : Nat) : Option Word :=
  match s.domain.membership with
  | some _ => mfind s.domain.epochs pair
  | none => if pair = s.moduleIdNat / 2 then some (mget s.pair.epoch s.domain.epochs pair) else none

/-! ### Packets (Table 11.2, Table 11.3) -/

/-- The class of a packet type (Table 11.4, Table 13.1). -/
def packetClass (ptype : Nat) : Nat :=
  if ptype = 1 then 2 else if ptype = 8 ∨ ptype = 9 ∨ ptype = 10 then 0 else 1

/-- DST_EP or SRC_EP of a tile and endpoint. -/
def epField (t ep : Nat) : BitVec 16 := BitVec.ofNat 16 (t + 128 * ep)

/-- Header bytes 0x00 to 0x2B with given HOPS and LSEQ. -/
def Packet.front (p : Packet) (hops : Byte) (lseq : BitVec 16) : Bytes :=
  [BitVec.ofNat 8 (p.ptype.toNat * 16 + p.version.toNat), p.cls] ++ leBytes 2 p.payload.length ++
  leBytes 4 p.dstModule.toNat ++ leBytes 4 p.srcModule.toNat ++ leBytes 2 p.dstEp.toNat ++ leBytes 2 p.srcEp.toNat ++
  leBytes 2 p.jobId.toNat ++ [p.slot, hops] ++ leBytes 4 p.pairEpoch.toNat ++ leBytes 4 p.memberEpoch.toNat ++
  leBytes 2 lseq.toNat ++ leBytes 2 p.cseq.toNat ++ leBytes 8 p.contrib.toNat ++ zeros 4

/-- HCRC: over bytes 0x00 to 0x2B with HOPS and LSEQ taken as 0. -/
def Packet.hcrc (p : Packet) : Word := crc32c (p.front 0 0)

/-- The 48-byte header. -/
def Packet.header (p : Packet) : Bytes := p.front p.hops p.lseq ++ leBytes 4 p.hcrc.toNat

/-- PCRC: over header and payload with HOPS and LSEQ taken as 0. -/
def Packet.pcrc (p : Packet) : Word := crc32c (p.front 0 0 ++ leBytes 4 p.hcrc.toNat ++ p.payload)

/-- The packet's bytes on a link. -/
def Packet.bytes (p : Packet) : Bytes :=
  p.header ++ p.payload ++ leBytes 4 p.pcrc.toNat ++ leBytes 2 p.payload.length ++ leBytes 2 p.lseq.toNat ++ zeros 8

/-- A little-endian field of a byte list. -/
def fieldAt (bs : Bytes) (o n : Nat) : Nat := leNat (slice bs o n)

/-- The packet that bytes spell, its CRCs not yet checked. -/
def packetOf (bs : Bytes) : Packet :=
  { ptype := BitVec.ofNat 4 (fieldAt bs 0 1 / 16), version := BitVec.ofNat 4 (fieldAt bs 0 1),
    cls := BitVec.ofNat 8 (fieldAt bs 1 1), dstModule := BitVec.ofNat 20 (fieldAt bs 4 4),
    srcModule := BitVec.ofNat 20 (fieldAt bs 8 4), dstEp := BitVec.ofNat 16 (fieldAt bs 12 2),
    srcEp := BitVec.ofNat 16 (fieldAt bs 14 2), jobId := BitVec.ofNat 16 (fieldAt bs 16 2),
    slot := BitVec.ofNat 8 (fieldAt bs 18 1), hops := BitVec.ofNat 8 (fieldAt bs 19 1),
    pairEpoch := BitVec.ofNat 32 (fieldAt bs 20 4), memberEpoch := BitVec.ofNat 32 (fieldAt bs 24 4),
    lseq := BitVec.ofNat 16 (fieldAt bs 28 2), cseq := BitVec.ofNat 16 (fieldAt bs 30 2),
    contrib := BitVec.ofNat 64 (fieldAt bs 32 8), payload := slice bs 48 (bs.length - 64), entered := 0 }

/-- HCRC and PCRC of received bytes check (R382): the bytes are those of the packet they spell. -/
def packetGood (bs : Bytes) : Bool := decide (64 ≤ bs.length) && decide ((packetOf bs).bytes = bs)

/-- Data flits of a packet (R380). -/
def Packet.flits (p : Packet) : Nat := ceilDiv (64 + p.payload.length) 64

/-- The job-ID field of the running job for a context: tag and context in version 2, 0 in version 1 (R412). -/
def State.jobField (s : State) (context : Nat) : BitVec 16 :=
  if s.domain.version = 2 then BitVec.ofNat 16 ((((s.runJob).map (·.tag.toNat)).getD 0) * 64 + context) else 0

/-- A packet of this module: its class, epochs and version for a port (R391, R469). -/
def State.mkPacket (s : State) (port ptype dst : Nat) (dstEp srcEp : BitVec 16) (payload : Bytes) : Packet :=
  { ptype := BitVec.ofNat 4 ptype,
    version := if 16 ≤ port then 1 else if ptype = 8 ∨ ptype = 9 then (s.port port).version else s.domain.version,
    cls := BitVec.ofNat 8 (packetClass ptype), dstModule := BitVec.ofNat 20 dst,
    srcModule := BitVec.ofNat 20 s.moduleIdNat, dstEp := dstEp, srcEp := srcEp,
    jobId := if ptype = 8 ∨ ptype = 9 ∨ ptype = 10 then 0 else s.jobField 0, slot := 0, hops := 0,
    pairEpoch := s.pair.epoch, memberEpoch := s.memberEpoch, lseq := 0, cseq := 0, contrib := 0, payload := payload, entered := 0 }

/-! ### Ports -/

/-- A port is up. -/
def Port.up (p : Port) : Bool := p.state == .eightLanes || p.state == .fourLanes

/-- The chain ports that are up, in increasing order. -/
def State.upChain (s : State) : List Nat := (List.range 16).filter (fun p => (s.port p).up)

/-- The tie ports that are up. -/
def State.upTie (s : State) : List Nat := ((List.range 4).map (16 + ·)).filter (fun p => (s.port p).up)

/-- The port of a channel ordinal to a far module (R397, R453); with no port up, the first one. -/
def State.boundPort (s : State) (tie : Bool) (far ordinal : Nat) : Nat :=
  let ups := if tie then s.upTie else s.upChain
  ups.getD ((far + ordinal) % ups.length) (if tie then 16 else 0)

/-- The ordinal of a far channel's send end: far logical tile × 64 + far send endpoint (R388). Without a table of the
far module its physical number stands in. -/
def State.farOrdinal (s : State) (m t ep : Nat) : Nat :=
  let table := mget [] s.domain.tileTables m
  let l := table.findIdx (fun x => x.val == t)
  (if l < table.length then l else t) * 64 + ep

/-- The port of a channel's reverse packets (R388). -/
def State.reversePort (s : State) (p m t ep : Nat) : Nat := s.boundPort (decide (16 ≤ p)) m (s.farOrdinal m t ep)

/-- A tie port carries traffic (R452): both ends CY2, version 1, IDs assigned and each other's XOR 1. -/
def State.tieCarries (s : State) (p : Nat) : Bool :=
  match (s.port p).partner, s.domain.moduleId with
  | some c, some m => c.kind == .cy2 && c.versions.getLsbD 1 && c.moduleId.toNat == m.toNat ^^^ 1
  | _, _ => false

/-- A type that a suspended module holds (R472). -/
def heldType (ptype : Nat) : Bool := decide (1 ≤ ptype ∧ ptype ≤ 4) || ptype == 6 || ptype == 7

/-- A fenced module, or one in orderly halt, sends only SYNC, MGMT, heartbeats and NOENDPOINT (R474, R580). -/
def State.restricted (s : State) : Bool := s.pair.role == .fenced || s.power.supply == .halting

/-- NOENDPOINT, SYNC, MGMT or HEARTBEAT. -/
def freeType (ptype : Nat) : Bool := ptype == 5 || ptype == 8 || ptype == 9 || ptype == 10

/-- A port carries packets of a type now: it is up, an ID is assigned (R14), and its version allows it (R391). -/
def State.portCarries (s : State) (p ptype : Nat) : Bool :=
  (s.port p).up && s.domain.moduleId.isSome && (!s.restricted || freeType ptype) &&
  (if 16 ≤ p then s.tieCarries p
   else (s.port p).version == s.domain.version || ptype == 8 || ptype == 9)

/-- Bytes that the retry buffer of a port holds (R382). -/
def Port.retryBytes (p : Port) : Nat := (p.unacked.map (fun e => 64 + e.1.payload.length)).sum

/-- The virtual channel of a packet. -/
def Packet.vc (p : Packet) : Nat := p.cls.toNat / 4 % 8

/-- Link credit of a class or virtual channel. -/
def Port.credit (p : Port) (cls vc : Nat) : Nat :=
  match cls with
  | 0 => p.creditC0
  | 1 => p.creditC1
  | _ => mget 0 p.creditC2 vc

/-- Take link credit. -/
def Port.takeCredit (p : Port) (cls vc n : Nat) : Port :=
  match cls with
  | 0 => { p with creditC0 := p.creditC0 - n }
  | 1 => { p with creditC1 := p.creditC1 - n }
  | _ => { p with creditC2 := mset p.creditC2 vc (mget 0 p.creditC2 vc - n) }

/-- Index of the first packet of a class (and virtual channel) in the egress list, where its flits have credit and the
retry buffer has room. -/
def Port.readyAt (p : Port) (carries : Nat → Bool) (cls vc : Nat) : Option Nat :=
  let i := p.egress.findIdx (fun k => decide (packetClass k.ptype.toNat = cls) && decide (cls ≠ 2 ∨ k.vc = vc) &&
    carries k.ptype.toNat)
  match p.egress[i]? with
  | some k =>
    if k.flits ≤ p.credit cls vc ∧ p.retryBytes + 64 + k.payload.length ≤ 2 ^ 20 then some i else none
  | none => none

/-- The next packet to leave: C0 before C1 before C2, and the virtual channels of C2 in turn (R387). -/
def Port.nextOut (p : Port) (carries : Nat → Bool) : Option Nat :=
  match p.readyAt carries 0 0 with
  | some i => some i
  | none =>
    match p.readyAt carries 1 0 with
    | some i => some i
    | none => ((List.range 8).map (fun k => (p.vcNext + k) % 8)).findSome? (fun v => p.readyAt carries 2 v)

/-- Send what can be sent, at most `fuel` packets: each takes the next LSEQ and enters the retry buffer. -/
def Port.pump (carries : Nat → Bool) : Nat → Port → Port
  | 0, p => p
  | fuel + 1, p =>
    match p.nextOut carries with
    | none => p
    | some i =>
      match p.egress[i]? with
      | none => p
      | some k =>
        let cls := packetClass k.ptype.toNat
        Port.pump carries fuel
          { (p.takeCredit cls k.vc k.flits) with
            egress := p.egress.eraseIdx i, unacked := p.unacked ++ [({ k with lseq := p.txSeq }, 1)],
            txSeq := p.txSeq + 1, vcNext := if cls = 2 then (k.vc + 1) % 8 else p.vcNext }

/-- Send what a port can send. -/
def State.pumpPort (s : State) (p : Nat) : State :=
  s.modPort p (fun x => x.pump (s.portCarries p) x.egress.length)

/-- Give a packet to a port: held while suspended, dropped where the module may not send it, else into egress. -/
def State.sendOn (s : State) (p : Fin 20) (k : Packet) : State :=
  if s.domain.moduleId.isNone then s
  else if s.pair.role == .suspended && heldType k.ptype.toNat then
    { s with pair := { s.pair with heldPackets := s.pair.heldPackets ++ [(p, k)] } }
  else if s.restricted && !freeType k.ptype.toNat then s
  else (s.modPort p.val (fun x => { x with egress := x.egress ++ [k] })).pumpPort p.val

/-- A port number from a natural number. -/
def portNo (p : Nat) : PortNo := Fin.ofNat 20 p

/-- The lowest-numbered up chain port, port 0 where none is up (R401, R403). -/
def State.lowestChain (s : State) : PortNo := portNo (s.upChain.headD 0)
/-- The lowest-numbered up tie port. -/
def State.lowestTie (s : State) : PortNo := portNo (s.upTie.headD 16)

/-! ### Management messages -/

/-- Bytes padded with zeros to a multiple of 32. -/
def pad32 (bs : Bytes) : Bytes := padTo (ceilDiv bs.length 32 * 32) bs

/-- A tile table, the one management message that may take the tie link (R393). -/
def isTileTable : MgmtMsg → Bool
  | .tileTable _ _ => true
  | _ => false

/-- Send a management message (Table 11.4, Table 13.1): on the lowest-numbered up chain port, the twin's too (R15), but a tile table
for the twin over the tie link while it is up (R393; log entry 22). -/
def State.sendMgmt (s : State) (dst : Nat) (m : MgmtMsg) : State :=
  let p := if dst = s.twinId ∧ s.upTie ≠ [] ∧ isTileTable m = true then s.lowestTie else s.lowestChain
  s.sendOn p (s.mkPacket p.val 9 dst 0 0 (pad32 (Config.mgmtBytes m)))

/-- The other members of the membership, and the twin where it is no member. -/
def State.farMembers (s : State) : List Nat :=
  (s.members ++ [s.twinId]).dedup.filter (fun m => m != s.moduleIdNat)

/-- The physical tile of each logical tile of the running image, sent to every far module (R393; log entry 22). -/
def State.sendTileTable (s : State) : State :=
  let tiles := ((s.runImage.map (·.tiles)).getD [])
  s.farMembers.foldl (fun s m => s.sendMgmt m (.tileTable (BitVec.ofNat 20 s.moduleIdNat) tiles)) s

/-! ### End-to-end credit of port channels (R388) -/

/-- Entries of a CREDIT packet: one per sending tile and endpoint, with its count. -/
def creditEntries : List (TileNo × Fin 64) → List (Nat × Nat) → List (Nat × Nat)
  | [], acc => acc
  | (t, e) :: r, acc =>
    let key := t.val + 128 * e.val
    if acc.any (fun x => x.1 == key) then
      creditEntries r (acc.map (fun x => if x.1 = key then (key, x.2 + 1) else x))
    else creditEntries r (acc ++ [(key, 1)])

/-- Send the credits of a port that are pending for one module in one CREDIT packet. -/
def State.flushCredits (s : State) (p : PortNo) (m : BitVec 20) : State :=
  let pend := (s.port p.val).pendingCredits
  let mine := pend.filter (fun e => e.1 == m)
  if mine = [] then s
  else
    let entries := creditEntries (mine.map (fun e => (e.2.1, e.2.2))) []
    let payload := pad32 ((entries.take 64).flatMap (fun e => leBytes 4 (e.1 + 2 ^ 13 * e.2)))
    (s.modPort p.val (fun x => { x with pendingCredits := pend.filter (fun e => e.1 != m) })).sendOn p
      (s.mkPacket p.val 2 m.toNat 0 0 payload)

/-- A credit of a port channel becomes pending at its reverse port; 64 for one module go at once. -/
def State.pendCredit (s : State) (p : PortNo) (m : BitVec 20) (t : TileNo) (ep : Fin 64) : State :=
  let q := portNo (s.reversePort p.val m.toNat t.val ep.val)
  let s := s.modPort q.val (fun x => { x with pendingCredits := x.pendingCredits ++ [(m, t, ep)] })
  if 64 ≤ ((s.port q.val).pendingCredits.filter (fun e => e.1 == m)).length then s.flushCredits q m else s

/-- A reverse packet of a port channel: CREDIT apart, CLOSE, OPEN or NOENDPOINT to the channel's send end. -/
def State.sendReverse (s : State) (p : PortNo) (ptype : Nat) (m : BitVec 20) (t : TileNo) (ep : Fin 64)
    (here hereEp : Nat) (payload : Bytes) : State :=
  let q := portNo (s.reversePort p.val m.toNat t.val ep.val)
  s.sendOn q (s.mkPacket q.val ptype m.toNat (epField t.val ep.val) (epField here hereEp) payload)

end Sys2Proof.Machine
end

