-- ==== Sys2Proof/Machine/ChanOps.lean ====
section
/-! DEFINITION. Channels, semaphores, watches and waits as operations that the slots, the stream engine, the arrivals
and the debug commands share (R205 to R207, R280 to R312, R424 to R427). -/

namespace Sys2Proof.Machine

/-! ### Parts of a tile -/

/-- A send endpoint. -/
def Tile.send (t : Tile) (e : Nat) : SendEp := mget SendEp.reset t.sends e
/-- Put a send endpoint. -/
def Tile.setSend (t : Tile) (e : Nat) (x : SendEp) : Tile := { t with sends := mset t.sends e x }
/-- A receive endpoint. -/
def Tile.recv (t : Tile) (e : Nat) : RecvEp := mget RecvEp.reset t.recvs e
/-- Put a receive endpoint. -/
def Tile.setRecv (t : Tile) (e : Nat) (x : RecvEp) : Tile := { t with recvs := mset t.recvs e x }
/-- A semaphore's count. -/
def Tile.sem (t : Tile) (k : Nat) : BitVec 16 := mget 0 t.sems k
/-- Put a semaphore's count. -/
def Tile.setSem (t : Tile) (k : Nat) (v : BitVec 16) : Tile := { t with sems := mset t.sems k v }
/-- A tile's counts for a barrier. -/
def Tile.barrier (t : Tile) (b : Nat) : BarrierCounts := mget BarrierCounts.zero t.barriers b
/-- Put a tile's counts for a barrier. -/
def Tile.setBarrier (t : Tile) (b : Nat) (x : BarrierCounts) : Tile := { t with barriers := mset t.barriers b x }
/-- A watch entry of the waiting tile. -/
def Tile.watch (t : Tile) (h : Nat) : WatchEntry := mget WatchEntry.reset t.watches h
/-- Put a watch entry. -/
def Tile.setWatch (t : Tile) (h : Nat) (x : WatchEntry) : Tile := { t with watches := mset t.watches h x }

/-! ### Watches and semaphores (R295 to R300) -/

/-- An armed watch whose semaphore holds its value fires (R299). -/
def State.watchHits (s : State) (w : WatchEntry) : Bool :=
  w.armed && decide (w.value ≤ (s.tile w.target).sem w.sem.val)

/-- The end of a cc judges every watch entry: the entries that fire disarm, and their fires travel to the waiters (R297, R299,
R300). -/
def State.judgeWatches (s : State) : State :=
  { s with
    tiles := s.tiles.map (fun e => (e.1, { e.2 with watches := e.2.watches.map (fun w =>
      (w.1, if s.watchHits w.2 then { w.2 with armed := false } else w.2)) })),
    net := { s.net with watchFires := s.net.watchFires ++ s.tiles.flatMap (fun e =>
      (e.2.watches.filter (fun w => s.watchHits w.2)).map (fun w => (Fin.ofNat 128 e.1, Fin.ofNat 32 w.1, w.2.generation))) } }

/-- Add to a semaphore: a count above 65,535 raises SEMAPHORE_OVERFLOW (R296), and the free value stands for the count
that an overflowing addition leaves (R236). -/
def State.semAdd (s : State) (t k n : Nat) (slot : Byte) (bundle : Word) : State :=
  let c := (s.tile t).sem k
  if c.toNat + n ≤ 65535 then
    s.modTile t (fun x => x.setSem k (BitVec.ofNat 16 (c.toNat + n)))
  else
    ((s.contractFault t cfSemaphoreOverflow slot bundle (BitVec.ofNat 64 k) (c.setWidth 64)).modTile t
      (fun x => x.setSem k ((Config.freeWord s.freeCtr).setWidth 16))).drawn 1

/-! ### Contribution identity (R424, R425) -/

/-- Fields of a contribution identity (Table 12.4). -/
def cidContributor (c : DWord) : Nat := c.toNat % 64
/-- KIND. -/
def cidKind (c : DWord) : Nat := c.toNat / 2 ^ 8 % 8
/-- LEVEL. -/
def cidLevel (c : DWord) : Nat := c.toNat / 2 ^ 11 % 8
/-- POSITION. -/
def cidPosition (c : DWord) : BitVec 26 := (c >>> 14).setWidth 26
/-- STEP. -/
def cidStep (c : DWord) : BitVec 24 := (c >>> 40).setWidth 24

/-- The round tag (STEP, POSITION). -/
abbrev RoundTag := BitVec 24 × BitVec 26

/-- Newer, by STEP in serial-number arithmetic and then by POSITION (R425). -/
def tagNewer (a b : RoundTag) : Bool :=
  if a.1 = b.1 then decide (b.2 < a.2) else decide ((a.1 - b.1).toNat < 2 ^ 23)

/-! ### Receive endpoints -/

/-- The combining slot that a message goes to (R290, R424). -/
def slotOf (r : RecvEp) (m : Msg) : Nat :=
  (match r.kind with
   | .filtered => (cidPosition m.slot).toNat
   | _ => m.slot.toNat) % max 1 r.slots

/-- The unconsumed complete messages of a slot, oldest first; on a filtered endpoint the accepted ones (R427). -/
def slotMsgs (r : RecvEp) (slot : Nat) : List Msg :=
  r.msgs.filter (fun m => slotOf r m == slot && (r.kind != .filtered || m.accepted))

/-- Outcomes of Table 12.5. -/
inductive Judgement where
  | stray | late | accept | duplicate | oldStray | wait
  deriving DecidableEq, Repr

/-- A slot's tags at run start: no tag open, the closed tag older than every tag (R426). -/
def SlotTags.start : SlotTags := { closed := none, opened := none, map := 0 }

/-- Judge a message by Table 12.5, with the level's group size and the receiver's own digit. -/
def judge (f : FilterDecl) (g own : Nat) (tags : SlotTags) (c : DWord) : Judgement :=
  let tag : RoundTag := (cidStep c, cidPosition c)
  if cidLevel c ≠ f.level.val ∨ cidKind c ≠ f.kind.val ∨ g ≤ cidContributor c ∨ cidContributor c = own then .stray
  else if (match tags.closed with
      | some k => !tagNewer tag k
      | none => false) then .late
  else
    match tags.opened with
    | none => .accept
    | some o =>
      if tag = o then (if tags.map.getLsbD (cidContributor c) then .duplicate else .accept)
      else if tagNewer tag o then .wait
      else .oldStray

/-- Tags after an accepted message. -/
def SlotTags.accept (t : SlotTags) (c : DWord) : SlotTags :=
  { t with opened := some (cidStep c, cidPosition c), map := t.map ||| (1 <<< cidContributor c) }

/-- Group size at a level of the membership in force; 0 beyond its levels. -/
def State.levelGroup (s : State) (level : Nat) : Nat := if level = 0 then 0 else s.shape.getD (level - 1) 0

/-! ### Credits and notices (R287, R308 to R311) -/

/-- A message buffer frees: its credit goes back to the sender. -/
def State.creditBack (s : State) (m : MsgOrigin) : State :=
  match m with
  | .tile t ep => { s with net := { s.net with credits := s.net.credits ++ [{ tile := t, ep := ep, sentBy := (0xFF, 0) }] } }
  | .port p m t ep => s.pendCredit p m t ep

/-- A closing notice to a sender. -/
def State.closeTo (s : State) (t : TileNo) (e : Nat) (o : MsgOrigin) : State :=
  match o with
  | .tile t' ep => { s with net := { s.net with closings := s.net.closings ++ [{ tile := t', ep := ep, sentBy := (0xFF, 0) }] } }
  | .port p m t' ep => s.sendReverse p 3 m t' ep t.val e []

/-- An opening notice to a sender. -/
def State.openTo (s : State) (t : TileNo) (e : Nat) (o : MsgOrigin) : State :=
  match o with
  | .tile t' ep => { s with net := { s.net with openings := s.net.openings ++ [{ tile := t', ep := ep, sentBy := (0xFF, 0) }] } }
  | .port p m t' ep => s.sendReverse p 4 m t' ep t.val e []

/-- The discard report of a message inside the module (R310). -/
def State.reportDiscard (s : State) (m : Msg) : State :=
  match m.origin with
  | .tile t ep =>
    { s with net := { s.net with discards := s.net.discards ++ [{ tile := t, ep := ep, sentBy := m.sentBy }] } }
  | .port _ _ _ _ => s

/-- Source field of an event of a tile's channel interface. -/
def srcChi (t : Nat) : BitVec 16 := srcOf 5 t
/-- Source field of an event of a tile. -/
def srcTile (t : Nat) : BitVec 16 := srcOf 2 t

/-- Judge one message of a filtered endpoint: the endpoint's new slot tags, and whether the message is kept. -/
def State.judgeOne (s : State) (t : TileNo) (e : Nat) (m : Msg) : State × Option Msg :=
  let r := (s.tile t.val).recv e
  match r.filter with
  | none => (s, some { m with accepted := true })
  | some f =>
    let slot := slotOf r m
    let tags := mget SlotTags.start r.tags slot
    let count (s : State) : State :=
      (s.modTile t.val (fun x => x.setRecv e { x.recv e with filterDiscards := (x.recv e).filterDiscards + 1 })).creditBack
        m.origin
    let strayEvent (s : State) : State :=
      s.event evReductionStray (srcChi t.val) (leBytes 2 t.val ++ leBytes 2 e ++ leBytes 8 m.slot.toNat)
    match judge f (s.levelGroup f.level.val) (digitOf s.shape f.level.val s.ownRank) tags m.slot with
    | .accept =>
      (s.modTile t.val (fun x => x.setRecv e { x.recv e with tags := mset (x.recv e).tags slot (tags.accept m.slot) }),
       some { m with accepted := true })
    | .wait => (s, some m)
    | .late | .duplicate => (count s, none)
    | .stray | .oldStray => (strayEvent (count s), none)

/-- The place of a message among those that become complete in one cc (R288): tiles by number and send endpoint, then port
arrivals in the order of R39. -/
def MsgOrigin.key : MsgOrigin → FlowKey
  | .tile t ep => [0, t.val, ep.val]
  | .port p _ _ _ => [1, (PortUnit.port p).die, (PortUnit.port p).order]

/-- Put a complete message behind those of earlier cc and those of its own cc that go before it (R288). -/
def putMsg (m : Msg) : List Msg → List Msg
  | [] => [m]
  | x :: r => if x.cycle = m.cycle ∧ keyLess m.origin.key x.origin.key = true then m :: x :: r else x :: putMsg m r

/-- A complete message reaches an open receive endpoint in this cc (R286, R288, R426). -/
def State.deliver (s : State) (t : TileNo) (e : Nat) (m : Msg) : State :=
  let put (s : State) (m : Msg) : State :=
    s.modTile t.val (fun x => x.setRecv e { x.recv e with msgs := putMsg { m with cycle := s.runCycle.toNat } (x.recv e).msgs })
  match ((s.tile t.val).recv e).kind with
  | .filtered =>
    match s.judgeOne t e m with
    | (s', some m') => put s' m'
    | (s', none) => s'
  | _ => put s m

/-- The waiting messages of a slot are judged again in arrival order after a FINAL combine (R427). -/
def State.rejudge (s : State) (t : TileNo) (e slot : Nat) : List Msg → State
  | [] => s
  | m :: rest =>
    let put (s : State) (m : Msg) : State :=
      s.modTile t.val (fun x => x.setRecv e { x.recv e with msgs := (x.recv e).msgs ++ [m] })
    let r := (s.tile t.val).recv e
    if slotOf r m = slot ∧ m.accepted = false then
      match s.judgeOne t e m with
      | (s', some m') => State.rejudge (put s' m') t e slot rest
      | (s', none) => State.rejudge s' t e slot rest
    else State.rejudge (put s m) t e slot rest

/-- Judge the waiting messages of a slot: the list is emptied and refilled in order. -/
def State.rejudgeSlot (s : State) (t : TileNo) (e slot : Nat) : State :=
  let ms := ((s.tile t.val).recv e).msgs
  State.rejudge (s.modTile t.val (fun x => x.setRecv e { x.recv e with msgs := [] })) t e slot ms

/-- A complete message from a tile of the module arrives: a reset endpoint discards it and reports (R308 to R310). -/
def State.arrive (s : State) (t : TileNo) (e : Nat) (m : Msg) : State :=
  if ((s.tile t.val).recv e).closed then
    (s.modTile t.val (fun x => x.setRecv e { x.recv e with discards := (x.recv e).discards + 1 })).reportDiscard m
  else s.deliver t e m

/-- Discard reports of the messages that a reset endpoint held. -/
def State.reportAll (s : State) : List Msg → State
  | [] => s
  | m :: r => State.reportAll (s.reportDiscard m) r

/-- Closing notices to a list of senders. -/
def State.closeAll (s : State) (t : TileNo) (e : Nat) : List MsgOrigin → State
  | [] => s
  | o :: r => State.closeAll (s.closeTo t e o) t e r

/-- Opening notices to a list of senders. -/
def State.openAll (s : State) (t : TileNo) (e : Nat) : List MsgOrigin → State
  | [] => s
  | o :: r => State.openAll (s.openTo t e o) t e r

/-- Reset of a receive endpoint (R308): messages discarded and counted, channels CLOSED, slots 0, filter state as at run
start, closing notices to every sender. -/
def State.resetRecv (s : State) (t : TileNo) (e : Nat) : State :=
  let r := (s.tile t.val).recv e
  if r.declared then
    let s1 := s.setTile t.val ((s.tile t.val).setRecv e
      { r with discards := r.discards + r.msgs.length, msgs := [], closed := true, values := [], tags := [] })
    (s1.reportAll r.msgs).closeAll t e r.senders
  else s

/-- Opening of a CLOSED receive endpoint (R311). -/
def State.openRecv (s : State) (t : TileNo) (e : Nat) : State :=
  let r := (s.tile t.val).recv e
  if r.declared && r.closed then
    (s.setTile t.val ((s.tile t.val).setRecv e { r with msgs := [], closed := false, cseq := [] })).openAll t e r.senders
  else s

/-! ### Sends (R285, R309, R310, R424) -/

/-- DETAIL of a CLOSED_ENDPOINT: the destination tile, or 0x8000 plus the port number (R310). -/
def closedDetail (x : SendEp) : DWord :=
  if !x.declared then 0xFFFF
  else
    match x.port with
    | some p => BitVec.ofNat 64 (0x8000 + p.val)
    | none => BitVec.ofNat 64 x.destTile

/-- Raise CLOSED_ENDPOINT for a send endpoint. -/
def State.closedFault (s : State) (t : TileNo) (e : Nat) (slot : Byte) (bundle : Word) : State :=
  s.contractFault t.val cfClosedEndpoint slot bundle (BitVec.ofNat 64 e) (closedDetail ((s.tile t.val).send e))

/-- Note a level-1 message of the step for the contribution digest (R461): the covered rank is the own rank or the
twin's, by CONTRIBUTOR. -/
def State.noteContrib (s : State) (context : Option (Fin 64)) (slot : Option DWord) (data : Bytes) : State :=
  match context, slot with
  | some c, some cid =>
    let own := s.ownRank
    let twin := rankIn s.members s.twinId
    let rank := if cidContributor cid = digitOf s.shape 1 own then some own
      else if s.members.contains s.twinId ∧ cidContributor cid = digitOf s.shape 1 twin then some twin else none
    match rank with
    | some r =>
      if cidLevel cid = 1 then
        { s with pair := { s.pair with contribs := s.pair.contribs ++
          [((cidStep cid).toNat, r, c.val, cidKind cid, (cidPosition cid).toNat, crc64 data)] } }
      else s
    | none => s
  | _, _ => s

/-- Set bits of a byte list. -/
def bitsSet (bs : Bytes) : Nat := (bs.map (fun b => ((List.range 8).filter b.getLsbD).length)).sum

/-- The module sees reduced saturation flags of a step: a word is counted once (R100, R430). -/
def State.noteTally (s : State) (step context position : Nat) (flags : Bytes) : State :=
  { s with run := { s.run with
      tallies := mset s.run.tallies ((step % 2 ^ 24) * 2 ^ 32 + (context % 64) * 2 ^ 26 + position) (bitsSet flags) } }

/-- A message of the all-gather that carries reduced saturation flags (Table 12.4, R431). -/
def State.noteGather (s : State) (context : Nat) (c : DWord) (data : Bytes) : State :=
  if cidLevel c = 0 ∧ cidKind c = 2 then s.noteTally (cidStep c).toNat context (cidPosition c).toNat data else s

/-- A send of data on an endpoint: discarded and counted where the channel is CLOSED (R309), a fault where it is not
declared or not tolerant (R310); else a message takes a credit. `slot` is the slot register, if the send names one. The
answer is the send's status. -/
def State.sendData (s : State) (t : TileNo) (e : Fin 64) (slot : Option DWord) (data : Bytes) (slotNo : Byte)
    (bundle : Word) : State × Bool :=
  let x := (s.tile t.val).send e.val
  if !x.declared then (s.closedFault t e.val slotNo bundle, true)
  else if x.closed then
    let s1 := s.setTile t.val ((s.tile t.val).setSend e.val { x with discards := x.discards + 1 })
    (if x.tolerant then s1 else s1.closedFault t e.val slotNo bundle, true)
  else
    let s1 := s.setTile t.val ((s.tile t.val).setSend e.val { x with credit := x.credit - 1, cseq := x.cseq + 1 })
    match x.dest with
    | .tile _ _ =>
      let m : Msg := { origin := .tile t e, slot := slot.getD 0, data := data, used := 0, accepted := false, sentBy := (slotNo, bundle),
                       cycle := s.runCycle.toNat }
      ({ s1 with net := { s1.net with msgs := s1.net.msgs ++
          [{ dest := Fin.ofNat 128 x.destTile, ep := x.destEp, msg := m }] } }, false)
    | .port _ _ _ =>
      let p := x.port.getD 0
      let s1 := s1.modTile t.val (fun y => y.setSend e.val { y.send e.val with
        sent := ((x.cseq, slotNo, bundle) :: x.sent).take x.depth })
      let s1 := (s1.noteContrib x.context slot data).noteGather ((x.context.map (·.val)).getD 0) (slot.getD 0) data
      let base := s1.mkPacket p.val 1 x.farModule.toNat (epField x.destTile x.destEp.val) (epField t.val e.val) data
      (s1.sendOn p
        { base with
          cls := if p.val < 16 ∧ s.domain.version = 1 then BitVec.ofNat 8 (2 + 4 * x.vc.val) else 2,
          jobId := s.jobField ((x.context.map (·.val)).getD 0), cseq := x.cseq, contrib := slot.getD 0,
          slot := if x.kind = .combining then (slot.getD 0).setWidth 8 else 0 }, false)

/-- Send endpoint has credit, or completes without one (R309). -/
def SendEp.sendable (x : SendEp) : Bool := !x.declared || x.closed || decide (0 < x.credit)

/-! ### Waits (R205 to R207, R295, R306) -/

/-- The condition of a wait on a tile. -/
def condHolds (t : Tile) : WaitCond → Bool
  | .sem k v | .take k v => decide (v ≤ t.sem k.val)
  | .message e => !(t.recv e.val).msgs.isEmpty
  | .credit e => (t.send e.val).sendable
  | .arrived e slot k => decide (k ≤ (slotMsgs (t.recv e.val) slot).length)
  | .barrier b => (t.barrier b.val).r == (t.barrier b.val).a
  | .watch h => (t.watch h.val).fired

/-- A wait that gates the clocks (R306, R307). -/
def condGates : WaitCond → Bool
  | .sem _ _ | .take _ _ => true
  | _ => false

/-- What wait conditions find. -/
def Tile.view (t : Tile) : WaitView :=
  { sems := t.sems, sends := t.sends, recvs := t.recvs, watches := t.watches, barriers := t.barriers }

/-- The tile as it stood at the start of the cc, for wait conditions. -/
def Tile.started (t : Tile) : Tile :=
  { t with sems := t.atStart.sems, sends := t.atStart.sends, recvs := t.atStart.recvs, watches := t.atStart.watches,
           barriers := t.atStart.barriers }

/-- What a wait that takes something must also find as it issues: a WAIT with TAKE its value (R295), a send the credit that a
post-send of this cc has left (R285, R313). Every other wait is judged at the start of the cc alone. -/
def takeHolds (t : Tile) : WaitCond → Bool
  | .take k v => decide (v ≤ t.sem k.val)
  | .credit e => (t.send e.val).sendable
  | _ => true

end Sys2Proof.Machine
end

