-- ==== Sys2Proof/Machine/Float.lean ====
section
/-! DEFINITION. Floating-point formats and exact arithmetic with one rounding to nearest even: the formats of
Table 03.1, the canonical NaNs of R90, the conversions of R88, the flags of R179 and R180. Every operation forms
its exact result as an integer times a power of two (with a sticky bit where the value is not such a number) and
rounds once. -/

namespace Sys2Proof.Machine

/-! ### Flags of R179, in their order from bit 0 -/

/-- The six flags. -/
abbrev FpFlags := BitVec 6
/-- Invalid. -/
def fInvalid : FpFlags := 1
/-- Divide by zero. -/
def fDivZero : FpFlags := 2
/-- Overflow. -/
def fOverflow : FpFlags := 4
/-- Underflow. -/
def fUnderflow : FpFlags := 8
/-- Inexact. -/
def fInexact : FpFlags := 16
/-- Integer overflow (reduction unit only, R180). -/
def fIntOverflow : FpFlags := 32

/-! ### Formats -/

/-- What a format's all-ones exponent field holds. -/
inductive TopField where
  /-- Infinities and NaNs, as IEEE 754-2019. -/
  | ieee
  /-- Numbers, with the single NaN code S.1111.111 (E4M3). -/
  | ocpE4m3
  /-- Numbers only (the elements of MXFP6, MXFP4 and FP4). -/
  | finite
  deriving DecidableEq, Repr

/-- A binary floating-point format: exponent bits, mantissa bits and what the top field holds. -/
structure FloatFmt where
  eb : Nat
  mb : Nat
  top : TopField
  deriving DecidableEq, Repr

/-- binary32. -/
def fmtFp32 : FloatFmt := { eb := 8, mb := 23, top := .ieee }
/-- BF16. -/
def fmtBf16 : FloatFmt := { eb := 8, mb := 7, top := .ieee }
/-- binary16. -/
def fmtFp16 : FloatFmt := { eb := 5, mb := 10, top := .ieee }
/-- OCP E4M3. -/
def fmtE4m3 : FloatFmt := { eb := 4, mb := 3, top := .ocpE4m3 }
/-- OCP E5M2. -/
def fmtE5m2 : FloatFmt := { eb := 5, mb := 2, top := .ieee }
/-- E2M3 elements of MXFP6. -/
def fmtE2m3 : FloatFmt := { eb := 2, mb := 3, top := .finite }
/-- E3M2 elements of MXFP6. -/
def fmtE3m2 : FloatFmt := { eb := 3, mb := 2, top := .finite }
/-- E2M1 elements of MXFP4 and FP4. -/
def fmtE2m1 : FloatFmt := { eb := 2, mb := 1, top := .finite }
/-- binary64, for the wide staging area. -/
def fmtFp64 : FloatFmt := { eb := 11, mb := 52, top := .ieee }

/-- Exponent bias. -/
def FloatFmt.bias (f : FloatFmt) : Nat := 2 ^ (f.eb - 1) - 1

/-- Least exponent of a normal number. -/
def FloatFmt.emin (f : FloatFmt) : Int := 1 - (f.bias : Int)

/-- Greatest exponent of a finite number. -/
def FloatFmt.emax (f : FloatFmt) : Int :=
  match f.top with
  | .ieee => (2 ^ f.eb : Int) - 2 - f.bias
  | _ => (2 ^ f.eb : Int) - 1 - f.bias

/-- Integer significand of the largest finite number. -/
def FloatFmt.maxSig (f : FloatFmt) : Nat :=
  match f.top with
  | .ocpE4m3 => 2 ^ (f.mb + 1) - 2
  | _ => 2 ^ (f.mb + 1) - 1

/-- Position of the sign bit. -/
def FloatFmt.signPos (f : FloatFmt) : Nat := f.eb + f.mb

/-- Bits of the largest finite magnitude. -/
def FloatFmt.maxBits (f : FloatFmt) : Nat :=
  f.maxSig + ((f.emax + f.bias).toNat - 1) * 2 ^ f.mb

/-- Bits of +∞ (ieee formats). -/
def FloatFmt.infBits (f : FloatFmt) : Nat := (2 ^ f.eb - 1) * 2 ^ f.mb

/-- The canonical NaN (R90). -/
def FloatFmt.nanBits (f : FloatFmt) : Nat :=
  match f.top with
  | .ocpE4m3 => 2 ^ (f.eb + f.mb) - 1
  | _ => (2 ^ f.eb - 1) * 2 ^ f.mb + 2 ^ (f.mb - 1)

/-- A decoded value: NaN (signalling or quiet), an infinity, or ± m × 2^e. -/
inductive FVal where
  | nan (signaling : Bool)
  | inf (neg : Bool)
  | num (neg : Bool) (m : Nat) (e : Int)
  deriving DecidableEq, Repr

/-- Decode the bits of a format. -/
def fDecode (f : FloatFmt) (bits : Nat) : FVal :=
  let neg := bits / 2 ^ f.signPos % 2 == 1
  let field := bits / 2 ^ f.mb % 2 ^ f.eb
  let mant := bits % 2 ^ f.mb
  let number : FVal :=
    if field = 0 then .num neg mant (f.emin - f.mb)
    else .num neg (2 ^ f.mb + mant) ((field : Int) - f.bias - f.mb)
  match f.top with
  | .ieee =>
    if field = 2 ^ f.eb - 1 then
      if mant = 0 then .inf neg else .nan (mant / 2 ^ (f.mb - 1) == 0)
    else number
  | .ocpE4m3 =>
    if field = 2 ^ f.eb - 1 ∧ mant = 2 ^ f.mb - 1 then .nan false else number
  | .finite => number

/-- The sign bit's weight where `neg`. -/
def signBits (f : FloatFmt) (neg : Bool) : Nat := if neg then 2 ^ f.signPos else 0

/-! ### Rounding -/

/-- m × 2^s rounded to an integer, to nearest even; the second part says whether it was exact. -/
def rneScale (m : Nat) (s : Int) : Nat × Bool :=
  if 0 ≤ s then (m * 2 ^ s.toNat, true)
  else
    let sh := (-s).toNat
    let q := m / 2 ^ sh
    let r := m % 2 ^ sh
    let half := 2 ^ (sh - 1)
    (if half < r ∨ (r = half ∧ q % 2 = 1) then q + 1 else q, r == 0)

/-- What a conversion does beyond the largest finite value. -/
inductive OverflowRule where
  /-- ±∞, or NaN where the format has no infinity. -/
  | toInfinity
  /-- The largest finite value. -/
  | saturate
  deriving DecidableEq, Repr

/-- Round ± m × 2^e (with `sticky`, a value strictly between m and m + 1 times 2^e) to a format: its bits and the
flags of R180. The sign of zero is `neg`. -/
def fRound (f : FloatFmt) (rule : OverflowRule) (neg : Bool) (m0 : Nat) (e0 : Int) (sticky : Bool) :
    Nat × FpFlags :=
  let m := 2 * m0 + (if sticky then 1 else 0)
  let e := e0 - 1
  if m = 0 then (signBits f neg, 0)
  else
    let k := (Nat.log2 m : Int) + e
    let qU := k - f.mb
    let q := max k f.emin - f.mb
    let (r, exact) := rneScale m (e - q)
    let (rU, _) := rneScale m (e - qU)
    let tiny : Bool := k < f.emin && !(rU == 2 ^ (f.mb + 1) && k + 1 == f.emin)
    if f.emax - f.mb < q ∨ (q = f.emax - f.mb ∧ f.maxSig < r) then
      let flags := fOverflow ||| fInexact
      match rule, f.top with
      | .saturate, _ => (signBits f neg + f.maxBits, flags)
      | .toInfinity, .ieee => (signBits f neg + f.infBits, flags)
      | .toInfinity, .ocpE4m3 => (f.nanBits, flags)
      | .toInfinity, .finite => (signBits f neg + f.maxBits, flags)
    else
      (signBits f neg + r + ((q + f.mb + f.bias).toNat - 1) * 2 ^ f.mb,
       if exact then 0 else if tiny then fInexact ||| fUnderflow else fInexact)

/-! ### FP32 helpers -/

/-- Decode an FP32 word. -/
def f32Decode (x : Word) : FVal := fDecode fmtFp32 x.toNat

/-- The canonical FP32 NaN (R90). -/
def f32NaN : Word := 0x7FC00000

/-- An infinity. -/
def f32Inf (neg : Bool) : Word := if neg then 0xFF800000 else 0x7F800000

/-- A zero. -/
def f32Zero (neg : Bool) : Word := if neg then 0x80000000 else 0

/-- Round to FP32. -/
def f32Round (neg : Bool) (m : Nat) (e : Int) (sticky : Bool) : Word × FpFlags :=
  let r := fRound fmtFp32 .toInfinity neg m e sticky
  (BitVec.ofNat 32 r.1, r.2)

/-- Whether a word is a NaN. -/
def f32IsNaN (x : Word) : Bool :=
  match f32Decode x with
  | .nan _ => true
  | _ => false

/-- Whether a word is a signalling NaN. -/
def f32IsSNaN (x : Word) : Bool := f32Decode x == .nan true

/-- Whether a word is finite. -/
def f32IsFinite (x : Word) : Bool :=
  match f32Decode x with
  | .num _ _ _ => true
  | _ => false

/-- Invalid if any input is a signalling NaN (R172). -/
def snanFlag (xs : List Word) : FpFlags := if xs.any f32IsSNaN then fInvalid else 0

/-- The value ± m × 2^e as a signed integer scaled by 2^e. -/
def signedSig (neg : Bool) (m : Nat) : Int := if neg then -(m : Int) else m

/-- The exact sum of two numbers: signed significand and exponent. -/
def exactAdd (n1 : Bool) (m1 : Nat) (e1 : Int) (n2 : Bool) (m2 : Nat) (e2 : Int) : Int × Int :=
  let e := min e1 e2
  (signedSig n1 (m1 * 2 ^ (e1 - e).toNat) + signedSig n2 (m2 * 2 ^ (e2 - e).toNat), e)

/-- Add two decoded values in a format, rounding once. -/
def fAddVal (f : FloatFmt) (x y : FVal) : Nat × FpFlags :=
  match x, y with
  | .nan a, .nan b => (f.nanBits, if a || b then fInvalid else 0)
  | .nan a, _ => (f.nanBits, if a then fInvalid else 0)
  | _, .nan b => (f.nanBits, if b then fInvalid else 0)
  | .inf a, .inf b => if a = b then (signBits f a + f.infBits, 0) else (f.nanBits, fInvalid)
  | .inf a, .num _ _ _ => (signBits f a + f.infBits, 0)
  | .num _ _ _, .inf b => (signBits f b + f.infBits, 0)
  | .num n1 m1 e1, .num n2 m2 e2 =>
    let (s, e) := exactAdd n1 m1 e1 n2 m2 e2
    if s = 0 then (signBits f (n1 && n2), 0) else fRound f .toInfinity (s < 0) s.natAbs e false

/-- The exact product of two decoded values; none for NaN or 0 × ∞. -/
def exactMul (x y : FVal) : Option FVal :=
  match x, y with
  | .nan _, _ => none
  | _, .nan _ => none
  | .inf a, .inf b => some (.inf (a != b))
  | .inf a, .num n m _ => if m = 0 then none else some (.inf (a != n))
  | .num n m _, .inf b => if m = 0 then none else some (.inf (n != b))
  | .num n1 m1 e1, .num n2 m2 e2 => some (.num (n1 != n2) (m1 * m2) (e1 + e2))

/-! ### FP32 operations (R161, R172) -/

/-- Addition. -/
def f32Add (x y : Word) : Word × FpFlags :=
  let r := fAddVal fmtFp32 (f32Decode x) (f32Decode y)
  (BitVec.ofNat 32 r.1, r.2)

/-- Change of sign of the bits. -/
def f32Flip (x : Word) : Word := x ^^^ 0x80000000

/-- Subtraction. -/
def f32Sub (x y : Word) : Word × FpFlags :=
  if f32IsNaN x || f32IsNaN y then (f32NaN, snanFlag [x, y]) else f32Add x (f32Flip y)

/-- Multiplication. -/
def f32Mul (x y : Word) : Word × FpFlags :=
  if f32IsNaN x || f32IsNaN y then (f32NaN, snanFlag [x, y])
  else
    match exactMul (f32Decode x) (f32Decode y) with
    | some (.num n m e) => f32Round n m e false
    | some (.inf n) => (f32Inf n, 0)
    | _ => (f32NaN, fInvalid)

/-- Fused multiply-add, x × y + z. -/
def f32Fma (x y z : Word) : Word × FpFlags :=
  if f32IsNaN x || f32IsNaN y || f32IsNaN z then (f32NaN, snanFlag [x, y, z])
  else
    match exactMul (f32Decode x) (f32Decode y) with
    | some p =>
      let r := fAddVal fmtFp32 p (f32Decode z)
      (BitVec.ofNat 32 r.1, r.2)
    | none => (f32NaN, fInvalid)

/-- Division. -/
def f32Div (x y : Word) : Word × FpFlags :=
  match f32Decode x, f32Decode y with
  | .nan _, _ => (f32NaN, snanFlag [x, y])
  | _, .nan _ => (f32NaN, snanFlag [x, y])
  | .inf _, .inf _ => (f32NaN, fInvalid)
  | .inf a, .num n _ _ => (f32Inf (a != n), 0)
  | .num n _ _, .inf b => (f32Zero (n != b), 0)
  | .num n1 m1 e1, .num n2 m2 e2 =>
    if m2 = 0 then
      if m1 = 0 then (f32NaN, fInvalid) else (f32Inf (n1 != n2), fDivZero)
    else f32Round (n1 != n2) (m1 * 2 ^ 64 / m2) (e1 - e2 - 64) (m1 * 2 ^ 64 % m2 != 0)

/-- Floor of the square root, one bit at a time from bit `n − 1` down. -/
def sqrtBits : Nat → Nat → Nat → Nat
  | 0, _, acc => acc
  | n + 1, v, acc =>
    let t := acc + 2 ^ n
    if t * t ≤ v then sqrtBits n v t else sqrtBits n v acc

/-- Floor of the square root of a number below 2^(2n). -/
def isqrt (v : Nat) : Nat := sqrtBits (Nat.log2 v / 2 + 1) v 0

/-- Square root. -/
def f32Sqrt (x : Word) : Word × FpFlags :=
  match f32Decode x with
  | .nan s => (f32NaN, if s then fInvalid else 0)
  | .inf n => if n then (f32NaN, fInvalid) else (f32Inf false, 0)
  | .num n m e =>
    if m = 0 then (x, 0)
    else if n then (f32NaN, fInvalid)
    else
      let odd := (e % 2 = 1 : Bool)
      let v := m * 2 ^ (if odd then 65 else 64)
      let e' := (if odd then e - 1 else e) - 64
      let r := isqrt v
      f32Round false r (e' / 2) (r * r != v)

/-- Ordering key of a non-NaN value, −0 below +0: infinities as ±1 in the first part. -/
def f32Less (x y : Word) : Bool :=
  match f32Decode x, f32Decode y with
  | .num n1 m1 e1, .num n2 m2 e2 =>
    let (s, _) := exactAdd n1 m1 e1 (!n2) m2 e2
    if s = 0 then n1 && !n2 && decide (m1 = 0) && decide (m2 = 0) else decide (s < 0)
  | .inf a, .inf b => a && !b
  | .inf a, .num _ _ _ => a
  | .num _ _ _, .inf b => !b
  | _, _ => false

/-- IEEE 754-2019 minimum (R170). -/
def f32Min (x y : Word) : Word × FpFlags :=
  if f32IsNaN x || f32IsNaN y then (f32NaN, snanFlag [x, y])
  else (if f32Less y x then y else x, 0)

/-- IEEE 754-2019 maximum (R170). -/
def f32Max (x y : Word) : Word × FpFlags :=
  if f32IsNaN x || f32IsNaN y then (f32NaN, snanFlag [x, y])
  else (if f32Less x y then y else x, 0)

/-- Absolute value. -/
def f32Abs (x : Word) : Word × FpFlags :=
  if f32IsNaN x then (f32NaN, snanFlag [x]) else (x &&& 0x7FFFFFFF, 0)

/-- Negation. -/
def f32Neg (x : Word) : Word × FpFlags :=
  if f32IsNaN x then (f32NaN, snanFlag [x]) else (f32Flip x, 0)

/-- The magnitude of x with the sign of y. -/
def f32CopySign (x y : Word) : Word × FpFlags :=
  if f32IsNaN x || f32IsNaN y then (f32NaN, snanFlag [x, y])
  else ((x &&& 0x7FFFFFFF) ||| (y &&& 0x80000000), 0)

/-- Clamp x to [lo, hi]: the minimum of hi and the maximum of lo and x. -/
def f32Clamp (x lo hi : Word) : Word × FpFlags :=
  if f32IsNaN x || f32IsNaN lo || f32IsNaN hi then (f32NaN, snanFlag [x, lo, hi])
  else f32Min (f32Max x lo).1 hi

/-- A compare (R622): whether the condition holds, and its flags. A zero equals a zero of either sign. -/
def f32Compare (c : Cond) (x y : Word) : Bool × FpFlags :=
  if f32IsNaN x || f32IsNaN y then
    match c with
    | .eq => (false, snanFlag [x, y])
    | .ne => (true, snanFlag [x, y])
    | _ => (false, fInvalid)
  else
    let zeros := (x &&& 0x7FFFFFFF) == 0 && (y &&& 0x7FFFFFFF) == 0
    let eq := zeros || x == y
    let lt := !zeros && f32Less x y
    match c with
    | .eq => (eq, 0)
    | .ne => (!eq, 0)
    | .lt => (lt, 0)
    | .le => (lt || eq, 0)
    | .gt => (!(lt || eq), 0)
    | .ge => (!lt, 0)

/-- The class of R622, 0 to 9. -/
def f32Class (x : Word) : Nat :=
  match f32Decode x with
  | .nan s => if s then 0 else 1
  | .inf n => if n then 2 else 9
  | .num n m _ =>
    if m = 0 then (if n then 5 else 6)
    else if m < 2 ^ 23 then (if n then 4 else 7)
    else (if n then 3 else 8)

/-- An integer toward minus infinity: floor of s × 2^e. -/
def floorScale (s : Int) (e : Int) : Int :=
  if 0 ≤ e then s * 2 ^ e.toNat else s / (2 ^ (-e).toNat : Int)

/-- FP32 to INT32 (Table 05.2, R170): 0 for NaN and saturation out of range, both with invalid. -/
def f32ToInt (r : IntRound) (x : Word) : Word × FpFlags :=
  match f32Decode x with
  | .nan _ => (0, fInvalid)
  | .inf n => (if n then 0x80000000 else 0x7FFFFFFF, fInvalid)
  | .num n m e =>
    let v : Int :=
      match r with
      | .nearestEven => signedSig n (rneScale m e).1
      | .towardZero => signedSig n (floorScale m e).toNat
      | .floor => floorScale (signedSig n m) e
    if v < -2147483648 then (0x80000000, fInvalid)
    else if 2147483647 < v then (0x7FFFFFFF, fInvalid)
    else (BitVec.ofInt 32 v, 0)

/-- INT32 to FP32. -/
def f32OfInt (x : Word) : Word × FpFlags := f32Round (x.toInt < 0) x.toInt.natAbs 0 false

/-! ### Conversions between FP32 and stored formats -/

/-- Exact widening of a stored element to FP32 (Table 05.1); a NaN becomes the canonical NaN and raises no flag. -/
def f32Widen (f : FloatFmt) (bits : Nat) : Word :=
  match fDecode f bits with
  | .nan _ => f32NaN
  | .inf n => f32Inf n
  | .num n m e => (f32Round n m e false).1

/-- Narrowing of an FP32 value to BF16 or FP16: IEEE 754-2019, overflow to ±∞ (Table 05.1, R180). -/
def f32NarrowIeee (f : FloatFmt) (x : Word) : Nat × FpFlags :=
  match f32Decode x with
  | .nan s => (f.nanBits, if s then fInvalid else 0)
  | .inf n => (signBits f n + f.infBits, 0)
  | .num n m e => fRound f .toInfinity n m e false

/-- Narrowing of an FP32 value to E4M3 or E5M2 (R88). -/
def f32NarrowFp8 (f : FloatFmt) (nonSaturating : Bool) (x : Word) : Nat × FpFlags :=
  match f32Decode x with
  | .nan s => (f.nanBits, if s then fInvalid else 0)
  | .inf n =>
    if nonSaturating then
      match f.top with
      | .ieee => (signBits f n + f.infBits, 0)
      | _ => (f.nanBits, fInvalid)
    else (signBits f n + f.maxBits, fInvalid)
  | .num n m e => fRound f (if nonSaturating then .toInfinity else .saturate) n m e false

/-- Multiply an FP32 value by a power of two, rounding once. -/
def f32Scale (x : Word) (k : Int) : Word × FpFlags :=
  match f32Decode x with
  | .nan s => (f32NaN, if s then fInvalid else 0)
  | .inf n => (f32Inf n, 0)
  | .num n m e => f32Round n m (e + k) false

/-- floor(log2 |x|) of a finite non-zero value. -/
def f32Log2 (x : Word) : Int :=
  match f32Decode x with
  | .num _ m e => (Nat.log2 m : Int) + e
  | _ => 0

/-! ### binary64, for the wide staging area (R132) -/

/-- Add in binary64. -/
def f64Add (x y : DWord) : DWord :=
  BitVec.ofNat 64 (fAddVal fmtFp64 (fDecode fmtFp64 x.toNat) (fDecode fmtFp64 y.toNat)).1

/-- The bits of an exact value in a format, rounded to nearest even. -/
def fOfVal (f : FloatFmt) (v : FVal) : Nat × FpFlags :=
  match v with
  | .nan s => (f.nanBits, if s then fInvalid else 0)
  | .inf n => (signBits f n + f.infBits, 0)
  | .num n m e => fRound f .toInfinity n m e false

/-- binary64 to FP32. -/
def f64ToF32 (x : DWord) : Word := BitVec.ofNat 32 (fOfVal fmtFp32 (fDecode fmtFp64 x.toNat)).1

/-- FP32 to binary64, exact. -/
def f64OfF32 (x : Word) : DWord := BitVec.ofNat 64 (fOfVal fmtFp64 (f32Decode x)).1

end Sys2Proof.Machine
end

