-- ==== Sys2Proof/Machine/Trans.lean ====
section
/-! DEFINITION. The table-and-polynomial functions of Table 05.3, correctly rounded (R171). Each is evaluated in
fixed point with 400 fraction bits, far beyond what the hardest FP32 input needs, and rounded once; a value that is
not exact carries a sticky bit. -/

namespace Sys2Proof.Machine

/-- Fraction bits of the fixed point. -/
def fxBits : Nat := 400
/-- One in fixed point. -/
def fxOne : Nat := 2 ^ fxBits
/-- Product of two fixed-point numbers. -/
def fxMul (a b : Nat) : Nat := a * b / fxOne

/-- Fixed-point value of m × 2^e. -/
def fxOf (m : Nat) (e : Int) : Nat :=
  if 0 ≤ (fxBits : Int) + e then m * 2 ^ ((fxBits : Int) + e).toNat else m / 2 ^ (-((fxBits : Int) + e)).toNat

/-- Taylor sum of exp: 1 + r + r²/2 + …, `n` terms from term `k` with value `t`. -/
def expTerms : Nat → Nat → Nat → Nat → Nat
  | 0, _, _, _ => 0
  | n + 1, k, t, r => t + expTerms n (k + 1) (fxMul t r / (k + 1)) r

/-- Repeated squaring. -/
def fxSquares : Nat → Nat → Nat
  | 0, x => x
  | n + 1, x => fxSquares n (fxMul x x)

/-- exp of a fixed-point number of at most 256. -/
def fxExp (x : Nat) : Nat := fxSquares 16 (expTerms 48 0 fxOne (x / 2 ^ 16))

/-- Sum of z^(2i+1)/(2i+1): `n` terms from power `p` and odd index `k`. -/
def atanhTerms : Nat → Nat → Nat → Nat → Nat
  | 0, _, _, _ => 0
  | n + 1, k, p, z2 => p / k + atanhTerms n (k + 2) (fxMul p z2) z2

/-- atanh of a fixed-point number of at most 1/3. -/
def fxAtanh (z : Nat) : Nat := atanhTerms 140 1 z (fxMul z z)

/-- The natural logarithm of 2. -/
def fxLn2 : Nat := 2 * fxAtanh (fxOne / 3)

/-- Alternating sum for atan of 1/q: `n` terms. -/
def atanTerms : Nat → Nat → Nat → Nat → Int
  | 0, _, _, _ => 0
  | n + 1, k, p, q2 => (p / k : Int) - atanTerms n (k + 2) (p / q2) q2

/-- π by Machin's formula. -/
def fxPi : Nat := (16 * atanTerms 100 1 (fxOne / 5) 25 - 4 * atanTerms 40 1 (fxOne / 239) 57121).toNat

/-- Alternating sum of erf: x^(2n+1)/(n!(2n+1)), `n` terms with power over factorial `p`. -/
def erfTerms : Nat → Nat → Nat → Nat → Int
  | 0, _, _, _ => 0
  | n + 1, k, p, x2 => (p / (2 * k + 1) : Int) - erfTerms n (k + 1) (fxMul p x2 / (k + 1)) x2

/-- Round an inexact positive fixed-point value with a sign to FP32. -/
def fxRound (neg : Bool) (v : Nat) : Word × FpFlags := f32Round neg v (-(fxBits : Int)) true

/-- exp. -/
def f32Exp (x : Word) : Word × FpFlags :=
  match f32Decode x with
  | .nan s => (f32NaN, if s then fInvalid else 0)
  | .inf n => (if n then 0 else f32Inf false, 0)
  | .num n m e =>
    if m = 0 then (0x3F800000, 0)
    else if 8 ≤ (Nat.log2 m : Int) + e then
      (if n then f32Round false 0 (-400) true else f32Round false 1 400 true)
    else
      let v := fxExp (fxOf m e)
      fxRound false (if n then fxOne * fxOne / v else v)

/-- log. -/
def f32Log (x : Word) : Word × FpFlags :=
  match f32Decode x with
  | .nan s => (f32NaN, if s then fInvalid else 0)
  | .inf n => if n then (f32NaN, fInvalid) else (f32Inf false, 0)
  | .num n m e =>
    if m = 0 then (f32Inf true, fDivZero)
    else if n then (f32NaN, fInvalid)
    else if x = 0x3F800000 then (0, 0)
    else
      let l := Nat.log2 m
      -- y in [3/4, 3/2), x = y × 2^k
      let up := decide (3 * 2 ^ l ≤ 2 * m)
      let k : Int := (l : Int) + e + (if up then 1 else 0)
      let y := fxOf m (-(l : Int) - (if up then 1 else 0))
      let yneg := decide (y < fxOne)
      let z := (if yneg then fxOne - y else y - fxOne) * fxOne / (y + fxOne)
      let v := k * fxLn2 + signedSig yneg (2 * fxAtanh z)
      fxRound (v < 0) v.natAbs

/-- Reciprocal square root. -/
def f32Rsqrt (x : Word) : Word × FpFlags :=
  match f32Decode x with
  | .nan s => (f32NaN, if s then fInvalid else 0)
  | .inf n => if n then (f32NaN, fInvalid) else (0, 0)
  | .num n m e =>
    if m = 0 then (f32Inf n, fDivZero)
    else if n then (f32NaN, fInvalid)
    else
      let odd := (e % 2 = 1 : Bool)
      let m' := if odd then 2 * m else m
      let e' := if odd then e - 1 else e
      let r := isqrt (2 ^ 256 / m')
      f32Round false r (-128 - e' / 2) (r * r * m' != 2 ^ 256)

/-- tanh. -/
def f32Tanh (x : Word) : Word × FpFlags :=
  match f32Decode x with
  | .nan s => (f32NaN, if s then fInvalid else 0)
  | .inf n => (if n then 0xBF800000 else 0x3F800000, 0)
  | .num n m e =>
    if m = 0 then (x, 0)
    else if 5 ≤ (Nat.log2 m : Int) + e then fxRound n (fxOne - 1)
    else
      let v := fxExp (2 * fxOf m e)
      fxRound n ((v - fxOne) * fxOne / (v + fxOne))

/-- erf. -/
def f32Erf (x : Word) : Word × FpFlags :=
  match f32Decode x with
  | .nan s => (f32NaN, if s then fInvalid else 0)
  | .inf n => (if n then 0xBF800000 else 0x3F800000, 0)
  | .num n m e =>
    if m = 0 then (x, 0)
    else if 3 ≤ (Nat.log2 m : Int) + e then fxRound n (fxOne - 1)
    else
      let a := fxOf m e
      let s := (erfTerms 500 0 a (fxMul a a)).toNat
      fxRound n (2 * s * fxOne / isqrt (fxPi * fxOne))

end Sys2Proof.Machine
end

