-- ==== Sys2Proof/Machine/Operands.lean ====
section
/-! DEFINITION. Operand forms: parameters from registers or the encoding (R162, Table 06.4), stored formats
(Table 05.1), stream addresses (R163) and the scratchpad's regions, phases and bank plan (R239 to R251). -/

namespace Sys2Proof.Machine

/-! ### Parameters -/

/-- A parameter of an engine operation, from the registers sampled in the issue cc (R200). -/
def Regs.src (r : Regs) : Src → DWord
  | .g i => r.getG i.val
  | .p i => r.getP i.val
  | .imm v => v

/-- The same as a natural number. -/
def Regs.srcN (r : Regs) (x : Src) : Nat := (r.src x).toNat

/-- The same as a signed number. -/
def Regs.srcI (r : Regs) (x : Src) : Int := (r.src x).toInt

/-- A scalar-slot operand: an immediate is sign-extended, an L register holds 32 bits (Table 06.4). -/
def Regs.scalar (r : Regs) : ScalarSrc → DWord
  | .g i => r.getG i.val
  | .p i => r.getP i.val
  | .l i => (r.getL i.val).setWidth 64
  | .imm v => v.signExtend 64

/-- Write a scalar-slot destination; L takes bits [31:0]. -/
def Regs.setScalar (r : Regs) (d : ScalarDst) (v : DWord) : Regs :=
  match d with
  | .g i => r.setG i.val v
  | .p i => r.setP i.val v
  | .l i => r.setL i.val (v.setWidth 32)

/-! ### Stored formats (Table 05.1) -/

/-- Bits of an element. -/
def fmtBits : Fmt → Nat
  | .fp32 | .int32 => 32
  | .bf16 | .fp16 | .int16 => 16
  | .e4m3 | .e5m2 | .mxfp8e4m3 | .mxfp8e5m2 | .int8 => 8
  | .mxfp6e2m3 | .mxfp6e3m2 => 6
  | .mxfp4 | .fp4 => 4

/-- The chain type of a format is INT32 (R160). -/
def fmtIsInt : Fmt → Bool
  | .int32 | .int16 | .int8 => true
  | _ => false

/-- The floating-point format of an element. -/
def fmtFloat : Fmt → FloatFmt
  | .bf16 => fmtBf16
  | .fp16 => fmtFp16
  | .e4m3 | .mxfp8e4m3 => fmtE4m3
  | .e5m2 | .mxfp8e5m2 => fmtE5m2
  | .mxfp6e2m3 => fmtE2m3
  | .mxfp6e3m2 => fmtE3m2
  | .mxfp4 | .fp4 => fmtE2m1
  | _ => fmtFp32

/-- A microscaled format. -/
def fmtIsMx : Fmt → Bool
  | .mxfp8e4m3 | .mxfp8e5m2 | .mxfp6e2m3 | .mxfp6e3m2 | .mxfp4 => true
  | _ => false

/-- Formats that a pass can write (Table 05.1). -/
def fmtWritable : Fmt → Bool
  | .fp32 | .bf16 | .fp16 | .e4m3 | .e5m2 | .int32 | .int16 | .int8 => true
  | _ => false

/-- Sign or zero extension of the low `w` bits. -/
def extendInt (w : Nat) (isUnsigned : Bool) (raw : Nat) : Word :=
  let v := raw % 2 ^ w
  if !isUnsigned && 2 ^ (w - 1) ≤ v then BitVec.ofInt 32 ((v : Int) - 2 ^ w) else BitVec.ofNat 32 v

/-- Widening of a stored element to its chain value, scales apart (Table 05.1). -/
def fmtWiden (f : Fmt) (isUnsigned : Bool) (raw : Nat) : Word :=
  match f with
  | .fp32 | .int32 => BitVec.ofNat 32 raw
  | .int16 => extendInt 16 isUnsigned raw
  | .int8 => extendInt 8 isUnsigned raw
  | _ => f32Widen (fmtFloat f) raw

/-- Saturation of an INT32 value to `w` bits (R160, R180: no flag). DESIGN CHOICE: the stored range is the signed one, for a
result stream marked unsigned too, of which Table 05.1 says nothing (log entry 97). -/
def saturateInt (w : Nat) (x : Word) : Nat :=
  let v := max (-(2 ^ (w - 1) : Int)) (min (2 ^ (w - 1) - 1 : Int) x.toInt)
  (BitVec.ofInt w v).toNat

/-- Narrowing of a chain value to a stored format on write, with its flags (Table 05.1, R88, R180). -/
def fmtNarrow (f : Fmt) (nonSaturating : Bool) (x : Word) : Nat × FpFlags :=
  match f with
  | .bf16 => f32NarrowIeee fmtBf16 x
  | .fp16 => f32NarrowIeee fmtFp16 x
  | .e4m3 => f32NarrowFp8 fmtE4m3 nonSaturating x
  | .e5m2 => f32NarrowFp8 fmtE5m2 nonSaturating x
  | .int16 => (saturateInt 16 x, 0)
  | .int8 => (saturateInt 8 x, 0)
  | _ => (x.toNat, 0)

/-- Element `i` of `w` bits in a little-endian packed byte list, the low bits first. -/
def packedElem (bs : Bytes) (w i : Nat) : Nat :=
  let bit := i * w
  leNat ((bs.drop (bit / 8)).take ((w + 7) / 8 + 1)) / 2 ^ (bit % 8) % 2 ^ w

/-! ### The scratchpad (R239 to R248) -/

/-- Bytes of the scratchpad. -/
def scratchBytes : Nat := 24 * 2 ^ 20

/-- The bank of an address. -/
def bankOf (a : Nat) : Nat := a / 64 % 32

/-- A region of a tile. -/
def Tile.region (t : Tile) (r : Nat) : Option RegionDecl := mfind t.regions r

/-- An access of `n` bytes lies within a region, read-write for a write (R245). -/
def Tile.inRegion (t : Tile) (r a n : Nat) (isWrite : Bool) : Bool :=
  match t.region r with
  | some d => decide (d.base ≤ a) && decide (a + n ≤ d.base + d.length) && (!isWrite || d.writable)
  | none => false

/-- The region is of class W (R246). -/
def Tile.classW (t : Tile) (r : Nat) : Bool := ((t.region r).map (·.classW)).getD false

/-- The first byte of an access that lies outside its region, or its first byte where the region is read-only or
not declared. -/
def Tile.firstOutside (t : Tile) (r a n : Nat) : Nat :=
  match t.region r with
  | some d => if a < d.base then a else if d.base + d.length < a + n then max a (d.base + d.length) else a
  | none => a

/-- The lines that `n` bytes from `a` touch. -/
def linesOf (a n : Nat) : List Nat :=
  if n = 0 then [] else (List.range ((a + n - 1) / 64 - a / 64 + 1)).map (fun k => a / 64 + k)

/-- Write bytes of the scratchpad, as far as it reaches: the lines written hold no error any more (R248). -/
def Tile.writeScratch (t : Tile) (a : Nat) (bs : Bytes) : Tile :=
  { t with scratch := writeBytes t.scratch a (bs.take (scratchBytes - a)), upsets := (linesOf a bs.length).foldl (fun m l => merase m l) t.upsets }

/-- The line accesses of a range: up to 32 lines per cc. A write of fewer than 64 B to a line is a merge write (R241). -/
def RangeUse.accesses (u : RangeUse) : List Access :=
  ((linesOf u.addr u.len).zipIdx).map (fun e =>
    { cycle := u.cycle + (u.lineOffset + e.2) / 32, addr := max u.addr (e.1 * 64), line := e.1, isWrite := u.isWrite,
      isMerge := u.isWrite &&
        (u.isMerge || decide (e.1 * 64 < u.addr) || decide (u.addr + u.len < e.1 * 64 + 64)),
      slot := u.slot, group := u.group, bundle := u.bundle })

/-- Both results of one vector to one line count as one write (R168). -/
def oneWrite (x y : Access) : Bool :=
  x.isWrite && y.isWrite && x.slot == slotVector && y.slot == slotVector && x.line == y.line && x.group == y.group &&
  x.bundle == y.bundle

/-- Two accesses of one bank in one cc that may not meet (Table 07.1). -/
def conflicts (x y : Access) : Bool :=
  if x.isWrite && y.isWrite then !oneWrite x y
  else if x.isWrite || y.isWrite then x.isMerge || y.isMerge
  else true

/-- Some two of a list of accesses to one bank may not meet. -/
def anyConflict : List Access → Bool
  | [] => false
  | x :: rest => rest.any (conflicts x) || anyConflict rest

/-- Accesses with the second results of a vector to a line left out. -/
def distinctWrites : List Access → List Access
  | [] => []
  | x :: rest => x :: (distinctWrites rest).filter (fun y => !oneWrite x y)

/-- Accesses of one cc in slot order, within a slot in the order in which they stand (R165, R243). -/
def slotOrder (xs : List Access) : List Access :=
  (List.range 7).flatMap (fun k => xs.filter (fun x => x.slot.toNat == k))

/-- The record of a BANK_CONFLICT between two accesses in slot order: SLOT, BUNDLE and OFFENDING are the later slot's (R237,
R243). -/
def bankFault (lo hi : Access) (more : Bool) : AccessFault :=
  { code := cfBankConflict, slot := hi.slot, more := more, bundle := hi.bundle, offending := hi.addr,
    detail := lo.line % 32 + 256 * lo.slot.toNat + 65536 * hi.slot.toNat }

/-- The record of a compute access in a transfer phase (R243, R251). -/
def phaseFault (x : Access) (more : Bool) : AccessFault :=
  { code := cfBankConflict, slot := x.slot, more := more, bundle := x.bundle, offending := x.addr,
    detail := bankOf x.addr + 256 * x.slot.toNat + 65536 * 3 }

/-- The accesses of one cc, bank by bank, in the order in which a record names them (R243). -/
def bankLists (xs : List Access) : List (List Access) :=
  (List.range 32).map (fun b => distinctWrites (slotOrder (xs.filter (fun x => x.line % 32 == b))))

/-- The bank condition of one cc: in a transfer phase the first access; else the lowest bank with a conflict and the two
accesses of it that come first. FLAGS[0] is set where several banks conflict or more than two accesses meet (R243). -/
def bankCondition (compute : Bool) (xs : List Access) : Option AccessFault :=
  if !compute then
    match (bankLists xs).flatten with
    | x :: rest => some (phaseFault x (!rest.isEmpty))
    | [] => none
  else
    match (bankLists xs).filter anyConflict with
    | (x :: y :: rest) :: others => some (bankFault x y (!rest.isEmpty || !others.isEmpty))
    | _ => none

/-- The part of a range that lies outside its region, or is refused by it, as the record of SCRATCHPAD_BOUND (R245). -/
def boundFault (t : Tile) (u : RangeUse) : Option AccessFault :=
  let c := u.checked.getD (u.addr, u.len)
  if c.2 = 0 ∨ t.inRegion u.region c.1 c.2 u.isWrite = true then none
  else some { code := cfScratchpadBound, slot := u.slot, more := false, bundle := u.bundle,
              offending := t.firstOutside u.region c.1 c.2, detail := u.region }

/-- The phase of a cc: the phase in force, from the cc in which it came into force. -/
def Tile.computeAt (t : Tile) (cycle : Nat) : Bool := t.computePhase && decide (t.phaseFrom ≤ cycle)

/-- The conditions that the accesses `new` raise, beside those already made: bank conditions cc by cc, then bounds. -/
def Tile.conditions (t : Tile) (before new : List RangeUse) : List AccessFault :=
  let fresh := new.flatMap RangeUse.accesses
  let all := before.flatMap RangeUse.accesses ++ fresh
  ((fresh.map (·.cycle)).dedup).filterMap (fun c =>
    bankCondition (t.computeAt c) (all.filter (fun x => x.cycle == c))) ++
  new.filterMap (boundFault t)

/-- The condition that the record names: the lowest code, with FLAGS[0] where there are more (R236). -/
def nameFault : List AccessFault → Option AccessFault
  | [] => none
  | f :: rest =>
    let g := rest.foldl (fun a b => if b.code < a.code then b else a) f
    some { g with more := g.more || !rest.isEmpty }

/-- Raise the contract fault of an access. -/
def State.raiseAccess (s : State) (t : Nat) (f : AccessFault) : State :=
  s.raiseContract t f.code f.slot f.more f.bundle (BitVec.ofNat 64 f.offending) (BitVec.ofNat 64 f.detail)

/-! ### Streams of the vector engine (R163, R165) -/

/-- Byte offset of vector `v` by the dimensions of a stream: dimension 0 fastest, the last one not bounded. -/
def dimOffset (r : Regs) : List Dim → Nat → Int
  | [], _ => 0
  | [d], v => v * r.srcI d.stride
  | d :: rest, v => (v % r.srcN d.count : Nat) * r.srcI d.stride + dimOffset r rest (v / r.srcN d.count)

/-- Address of vector `v` of a stream. -/
def streamAddr (a : StreamArg) (r : Regs) (v : Nat) : Nat :=
  ((r.srcN a.base : Int) + dimOffset r a.dims v).toNat

/-- Bytes of a vector of `lanes` elements. -/
def streamBytes (a : StreamArg) (lanes : Nat) : Nat :=
  if a.broadcast then ((fmtBits a.fmt) + 7) / 8 else (lanes * fmtBits a.fmt + 7) / 8

/-- The factor of a stream's scale for lane `i` of vector `v` applied to a widened element (R87): an E8M0 byte per
32 elements, 0xFF being NaN, or the FP32 tensor scale. DESIGN CHOICE: Table 05.1 calls this read exact, and where the product
of an FP4 element and the tensor scale is not an FP32 value it is rounded to nearest even (log entry 96). -/
def applyScale (mem : Memory) (r : Regs) (sc : ScaleSrc) (v i : Nat) (x : Word) : Word :=
  match sc with
  | .none => x
  | .block a =>
    let e := readByte mem (r.srcN a + 8 * v + i / 32)
    if e = 0xFF then f32NaN else (f32Scale x ((e.toNat : Int) - 127)).1
  | .tensor g => (f32Mul x ((r.getG g.val).setWidth 32)).1

/-- The 256 lanes that a stream delivers for vector `v`: lanes from `lanes` on are not read and hold `free`. -/
def streamFetch (a : StreamArg) (mem : Memory) (r : Regs) (v lanes : Nat) (free : Nat → Word) : List Word :=
  let bs := readBytes mem (streamAddr a r v) (streamBytes a lanes)
  (List.range 256).map (fun i =>
    if a.broadcast then applyScale mem r a.scale v 0 (fmtWiden a.fmt a.isUnsigned (packedElem bs (fmtBits a.fmt) 0))
    else if i < lanes then applyScale mem r a.scale v i (fmtWiden a.fmt a.isUnsigned (packedElem bs (fmtBits a.fmt) i))
    else free i)

/-- The mask of a mask stream's vector: bit i mod 8 of byte i div 8 (R176). -/
def maskOfBytes (bs : Bytes) : BitVec 256 := BitVec.ofNat 256 (leNat bs)

end Sys2Proof.Machine
end

