-- ==== Sys2Proof/Machine/Expr.lean ====
section
/-! DEFINITION. The expressions of the library directory (R624): ASCII text of decimal integers, names, the operators +, -, *
and div, parentheses and the functions ceil_div and ceil_log2, evaluated in 64-bit integers. -/

namespace Sys2Proof.Machine

/-- The words and signs of an expression. -/
inductive ExprTok where
  | num (n : Nat)
  | name (cs : List Char)
  | sign (c : Char)
  deriving DecidableEq, Repr

/-- A character of a name. -/
def isNameChar (c : Char) : Bool := c.isAlphanum || c == '_'

/-- The value of decimal digits. -/
def digitsVal (cs : List Char) : Nat := cs.foldl (fun n c => 10 * n + (c.toNat - '0'.toNat)) 0

/-- A word: a number where it begins with a digit, else a name. -/
def wordTok (cs : List Char) : List ExprTok :=
  match cs with
  | [] => []
  | c :: _ => [if c.isDigit then .num (digitsVal cs) else .name cs]

/-- The tokens of a text, with the characters of the word at hand in reverse; spaces and padding part words. -/
def exprTokens : List Char → List Char → List ExprTok
  | w, [] => wordTok w.reverse
  | w, c :: r =>
    if isNameChar c then exprTokens (c :: w) r
    else wordTok w.reverse ++ (if "+-*(),".toList.contains c then [.sign c] else []) ++ exprTokens [] r

/-- A result of an operation, in 64-bit integers. -/
def wrap64 (x : Int) : Int := (BitVec.ofInt 64 x).toInt

/-- Integer division rounded up, toward +∞; none by 0. -/
def ceilDivInt (a b : Int) : Option Int := if b = 0 then none else some (-((-a) / b))

/-- What an evaluation looks for: a sum or the rest of one, a product or the rest of one, or a single operand. -/
inductive ExprPart where
  | sum
  | sumRest (x : Int)
  | product
  | productRest (x : Int)
  | operand
  deriving DecidableEq, Repr

/-- The value at the head of a list of tokens and the tokens after it; none where the text is no expression. -/
def exprAt (env : List Char → Option Int) : Nat → ExprPart → List ExprTok → Option (Int × List ExprTok)
  | 0, _, _ => none
  | n + 1, .sum, ts => (exprAt env n .product ts).bind (fun r => exprAt env n (.sumRest r.1) r.2)
  | n + 1, .sumRest x, .sign '+' :: ts =>
    (exprAt env n .product ts).bind (fun r => exprAt env n (.sumRest (wrap64 (x + r.1))) r.2)
  | n + 1, .sumRest x, .sign '-' :: ts =>
    (exprAt env n .product ts).bind (fun r => exprAt env n (.sumRest (wrap64 (x - r.1))) r.2)
  | _ + 1, .sumRest x, ts => some (x, ts)
  | n + 1, .product, ts => (exprAt env n .operand ts).bind (fun r => exprAt env n (.productRest r.1) r.2)
  | n + 1, .productRest x, .sign '*' :: ts =>
    (exprAt env n .operand ts).bind (fun r => exprAt env n (.productRest (wrap64 (x * r.1))) r.2)
  | n + 1, .productRest x, .name ['d', 'i', 'v'] :: ts =>
    (exprAt env n .operand ts).bind (fun r =>
      if r.1 = 0 then none else exprAt env n (.productRest (wrap64 (x.tdiv r.1))) r.2)
  | _ + 1, .productRest x, ts => some (x, ts)
  | _ + 1, .operand, .num k :: ts => some (wrap64 k, ts)
  | n + 1, .operand, .sign '(' :: ts =>
    (exprAt env n .sum ts).bind (fun r =>
      match r.2 with
      | .sign ')' :: rest => some (r.1, rest)
      | _ => none)
  | n + 1, .operand, .name f :: .sign '(' :: ts =>
    (exprAt env n .sum ts).bind (fun r =>
      if f = "ceil_log2".toList then
        match r.2 with
        | .sign ')' :: rest => some ((ceilLog2 r.1.toNat : Int), rest)
        | _ => none
      else if f = "ceil_div".toList then
        match r.2 with
        | .sign ',' :: more =>
          (exprAt env n .sum more).bind (fun q =>
            match q.2 with
            | .sign ')' :: rest => (ceilDivInt r.1 q.1).map (fun v => (v, rest))
            | _ => none)
        | _ => none
      else none)
  | _ + 1, .operand, .name v :: ts => (env v).map (fun x => (x, ts))
  | _ + 1, .operand, _ => none

/-- The value of an expression's text; none where it is no expression or names what the entry does not. -/
def evalExpr (env : List Char → Option Int) (text : String) : Option Int :=
  let ts := exprTokens [] text.toList
  match exprAt env (8 * ts.length + 8) .sum ts with
  | some (x, []) => some x
  | _ => none

end Sys2Proof.Machine
end

