-- ==== Sys2Proof/Machine/Flags.lean ====
section
/-! DEFINITION. The stage operations of the vector engine lane by lane, each with the flags it raises (Table 05.2,
R172, R182 to R184, R622), and how flags collect in a tile (R179). -/

namespace Sys2Proof.Machine

/-- OR flags into a tile's sticky flags (R179). -/
def Tile.raise (t : Tile) (f : FpFlags) : Tile := { t with flags := t.flags ||| f }

/-- All ones or zero (R622). -/
def boolWord (b : Bool) : Word := if b then 0xFFFFFFFF else 0

/-- An integer condition, signed or unsigned. -/
def intCond (c : Cond) (uns : Bool) (w : Nat) (x y : BitVec w) : Bool :=
  let lt := if uns then x.ult y else x.slt y
  match c with
  | .eq => x == y
  | .ne => x != y
  | .lt => lt
  | .le => lt || x == y
  | .gt => !(lt || x == y)
  | .ge => !lt

/-- Integer minimum. -/
def intMin (uns : Bool) {w : Nat} (x y : BitVec w) : BitVec w := if intCond .lt uns w y x then y else x
/-- Integer maximum. -/
def intMax (uns : Bool) {w : Nat} (x y : BitVec w) : BitVec w := if intCond .lt uns w x y then y else x

/-- A logical shift left by a whole amount: the width or more gives 0 (R622, Table 06.4). -/
def shiftLeft {w : Nat} (x : BitVec w) (n : Nat) : BitVec w := if w ≤ n then 0 else x <<< n
/-- A logical shift right. -/
def shiftRight {w : Nat} (x : BitVec w) (n : Nat) : BitVec w := if w ≤ n then 0 else x >>> n
/-- An arithmetic shift right: the width or more gives the sign fill. -/
def shiftArith {w : Nat} (x : BitVec w) (n : Nat) : BitVec w :=
  if w ≤ n then (if x.msb then BitVec.allOnes w else 0) else x.sshiftRight n

/-- Population count. -/
def popCount {w : Nat} (x : BitVec w) : Nat := ((List.range w).filter x.getLsbD).length

/-- Narrowing to E2M1, to nearest even with saturation; an infinity or NaN is open (log entry 98). -/
def narrowE2m1 (x : Word) : Nat × FpFlags :=
  match f32Decode x with
  | .num n m e => fRound fmtE2m1 .saturate n m e false
  | _ => ((Config.packSpecial x).toNat, 0)

/-- Narrowing of a lane for a pack or a rounding stage: the bits and the flags. -/
def packNarrow (f : PackFmt) (nonSaturating : Bool) (x : Word) : Nat × FpFlags :=
  match f with
  | .fp16 => f32NarrowIeee fmtFp16 x
  | .bf16 => f32NarrowIeee fmtBf16 x
  | .e4m3 => f32NarrowFp8 fmtE4m3 nonSaturating x
  | .e5m2 => f32NarrowFp8 fmtE5m2 nonSaturating x
  | .e2m1 => narrowE2m1 x
  | .int16 => (saturateInt 16 x, 0)
  | .int8 => (saturateInt 8 x, 0)
  | .int4 => (saturateInt 4 x, 0)

/-- Width of a pack format. -/
def packWidth : PackFmt → Nat
  | .fp16 | .bf16 | .int16 => 16
  | .e4m3 | .e5m2 | .int8 => 8
  | .e2m1 | .int4 => 4

/-- Floating-point format of a pack format, if it has one. -/
def packFloat : PackFmt → Option FloatFmt
  | .fp16 => some fmtFp16
  | .bf16 => some fmtBf16
  | .e4m3 => some fmtE4m3
  | .e5m2 => some fmtE5m2
  | .e2m1 => some fmtE2m1
  | _ => none

/-- Widening of packed bits to a lane. -/
def packWiden (f : PackFmt) (signed : Bool) (raw : Nat) : Word :=
  match packFloat f with
  | some ff => f32Widen ff raw
  | none => extendInt (packWidth f) (!signed) raw

/-- A lane-wise stage operation on its inputs: output and flags. `free` is the free value of this lane where the
spec states no result (the absolute value or negation of −2^31, a clamp whose bounds are out of order; log
entry 7). -/
def laneOp (op : StageOp) (x y z free : Word) : Word × FpFlags :=
  match op with
  | .copy | .bitCopy => (x, 0)
  | .select => (x, 0)
  | .and => (x &&& y, 0)
  | .or => (x ||| y, 0)
  | .xor => (x ^^^ y, 0)
  | .not => (~~~ x, 0)
  | .shl => (shiftLeft x y.toNat, 0)
  | .shr => (shiftRight x y.toNat, 0)
  | .sar => (shiftArith x y.toNat, 0)
  | .popcount => (BitVec.ofNat 32 (popCount x), 0)
  | .iadd => (x + y, 0)
  | .isub => (x - y, 0)
  | .imin u => (intMin u x y, 0)
  | .imax u => (intMax u x y, 0)
  | .iabs => (if x = 0x80000000 then free else if x.msb then -x else x, 0)
  | .ineg => (if x = 0x80000000 then free else -x, 0)
  | .icmp c u => (boolWord (intCond c u 32 x y), 0)
  | .iclamp u => (if intCond .lt u 32 z y then free else intMin u (intMax u x y) z, 0)
  | .mulLow => (x * y, 0)
  | .mulHigh u =>
    (if u then BitVec.ofNat 32 (x.toNat * y.toNat / 2 ^ 32) else BitVec.ofInt 32 (x.toInt * y.toInt / 2 ^ 32), 0)
  | .fmin => f32Min x y
  | .fmax => f32Max x y
  | .fabs => f32Abs x
  | .fneg => f32Neg x
  | .copysign => f32CopySign x y
  | .fcmp c => let r := f32Compare c x y; (boolWord r.1, r.2)
  | .fclamp =>
    if !f32IsNaN x && !f32IsNaN y && !f32IsNaN z && f32Less z y then (free, 0) else f32Clamp x y z
  | .classTest set => (BitVec.ofNat 32 (2 ^ f32Class x) &&& set.setWidth 32, 0)
  | .fadd => f32Add x y
  | .fsub => f32Sub x y
  | .fmul => f32Mul x y
  | .ffma => f32Fma x y z
  | .toInt r => f32ToInt r x
  | .toFp => f32OfInt x
  | .round f ns =>
    let r := packNarrow f ns x
    (packWiden f true r.1, r.2)
  | .fdiv => f32Div x y
  | .fsqrt => f32Sqrt x
  | .fexp => f32Exp x
  | .flog => f32Log x
  | .frsqrt => f32Rsqrt x
  | .ftanh => f32Tanh x
  | .ferf => f32Erf x
  | .shuffle _ _ | .pack _ _ | .unpack _ _ _ | .permute => (x, 0)

/-- The input lane that output lane `i` of a shuffle takes; none for a parameter outside the pattern's range
(Table 05.5). -/
def shuffleLane (p : Shuffle) (s i : Nat) : Option Nat :=
  match p with
  | .rotate => if s < 256 then some ((i + s) % 256) else none
  | .reverse => some (255 - i)
  | .butterfly => if s < 8 then some (i ^^^ 2 ^ s) else none
  | .broadcast => if s < 256 then some s else none
  | .interleave => some (if i % 2 = 0 then i / 2 else 128 + i / 2)
  | .deinterleave => some (if i < 128 then 2 * i else 2 * (i - 128) + 1)

/-- OR of a list of flags. -/
def orFlags (fs : List FpFlags) : FpFlags := fs.foldl (· ||| ·) 0

/-- The sum of the packed fields of one output lane. -/
def packFields (w : Nat) : List Nat → Nat
  | [] => 0
  | v :: r => v % 2 ^ w + 2 ^ w * packFields w r

/-- A stage operation on whole vectors: every output lane with its flags. -/
def stageLanes (op : StageOp) (r : Regs) (xs ys zs : List Word) (free : Nat → Word) : List (Word × FpFlags) :=
  match op with
  | .shuffle p g =>
    let s := (r.getG g.val).toNat
    (List.range 256).map (fun i =>
      match shuffleLane p s i with
      | some j => (xs.getD j 0, 0)
      | none => (free i, 0))
  | .permute =>
    (List.range 256).map (fun i =>
      let k := ys.getD i 0
      (if k.getLsbD 31 then 0 else xs.getD (k.toNat % 256) 0, 0))
  | .pack f ns =>
    let w := packWidth f
    let per := 32 / w
    (List.range 256).map (fun g =>
      if g < 256 / per then
        let parts := (List.range per).map (fun j => packNarrow f ns (xs.getD (per * g + j) 0))
        (BitVec.ofNat 32 (packFields w (parts.map (·.1))), orFlags (parts.map (·.2)))
      else (0, 0))
  | .unpack f half signed =>
    let w := packWidth f
    let per := 32 / w
    (List.range 256).map (fun i =>
      let x := xs.getD (half.val * (256 / per) + i / per) 0
      (packWiden f signed (x.toNat / 2 ^ (w * (i % per)) % 2 ^ w), 0))
  | _ =>
    (List.range 256).map (fun i => laneOp op (xs.getD i 0) (ys.getD i 0) (zs.getD i 0) (free i))

/-- Positions that an operation takes (Table 05.2). -/
def stagePositions : StageOp → Nat
  | .fdiv | .fsqrt | .fexp | .flog | .frsqrt | .ftanh | .ferf => 2
  | _ => 1

/-- Latency of an operation in cc (Table 05.2, Table 02.4). -/
def stageLatency (s : State) : StageOp → Nat
  | .copy | .select | .and | .or | .xor | .not | .shl | .shr | .sar | .popcount => 1
  | .iadd | .isub | .imin _ | .imax _ | .iabs | .ineg | .icmp _ _ | .iclamp _ => 1
  | .mulLow | .mulHigh _ => 2
  | .fmin | .fmax | .fabs | .fneg | .copysign | .fcmp _ | .fclamp | .classTest _ => 1
  | .fadd | .fsub | .fmul | .ffma => 3
  | .toInt _ | .toFp | .round _ _ | .bitCopy => 2
  | .shuffle _ _ | .pack _ _ | .unpack _ _ _ => 2
  | .permute => 3
  | .fdiv | .fsqrt => 8
  | .fexp | .flog => s.tExp
  | .frsqrt => s.tRsqrt
  | .ftanh | .ferf => s.tTanh

/-- Inputs that an operation takes, the selector mask of a select apart. -/
def stageArity : StageOp → Nat
  | .and | .or | .xor | .shl | .shr | .sar | .select => 2
  | .iadd | .isub | .imin _ | .imax _ | .icmp _ _ | .mulLow | .mulHigh _ => 2
  | .fmin | .fmax | .copysign | .fcmp _ | .fadd | .fsub | .fmul | .permute | .fdiv => 2
  | .iclamp _ | .fclamp | .ffma => 3
  | _ => 1

/-- Whether an operation's output has chain type INT32, given its first input's type (R622, Table 05.2). -/
def stageIsInt (inInt : Bool) : StageOp → Bool
  | .iadd | .isub | .imin _ | .imax _ | .iabs | .ineg | .icmp _ _ | .iclamp _ | .mulLow | .mulHigh _ => true
  | .fcmp _ | .classTest _ | .toInt _ | .popcount => true
  | .fmin | .fmax | .fabs | .fneg | .copysign | .fclamp | .fadd | .fsub | .fmul | .ffma => false
  | .toFp | .round _ _ | .fdiv | .fsqrt | .fexp | .flog | .frsqrt | .ftanh | .ferf => false
  | .bitCopy => !inInt
  | .pack _ _ => true
  | .unpack f _ _ => (packFloat f).isNone
  | _ => inInt

/-- A compare or class test sets the chain mask (R175, R622). -/
def setsChainMask : StageOp → Bool
  | .icmp _ _ | .fcmp _ | .classTest _ => true
  | _ => false

end Sys2Proof.Machine
end

