-- ==== Sys2Proof/Machine/Numerics.lean ====
section
/-! DEFINITION. Gradient formats and the tree of sums: the canonical tree (R56), G16 leaves and S1 bits with keyed
stochastic rounding (R93 to R116), observed exponents (R106), the scale estimator (R108), check-shot bins (R120) and
MX block conversion (R88). -/

namespace Sys2Proof.Machine

/-! ### The canonical tree (R56) -/

/-- One level of the tree: neighbours combine, an odd last node rises unchanged. -/
def treeLevel {α : Type} (f : α → α → α) : List α → List α
  | x :: y :: r => f x y :: treeLevel f r
  | xs => xs

/-- The tree over a list, `fuel` levels at most. -/
def treeFold {α : Type} (f : α → α → α) : Nat → List α → Option α
  | _, [] => none
  | _, [x] => some x
  | 0, x :: _ => some x
  | n + 1, xs => treeFold f n (treeLevel f xs)

/-- The canonical tree combination of a list (64 levels hold any list). -/
def tree {α : Type} (f : α → α → α) (xs : List α) : Option α := treeFold f 64 xs

/-- A value with the flags raised so far. -/
abbrev Flagged := Word × FpFlags

/-- FP32 addition that collects flags. -/
def addFlagged (x y : Flagged) : Flagged :=
  let r := f32Add x.1 y.1
  (r.1, x.2 ||| y.2 ||| r.2)

/-! ### Philox words (R114, R115, Table 03.3) -/

/-- The random word of an element: `kind` 1 for G16, 2 for S1, 3 otherwise. -/
def srWord (seed : DWord) (tensor step : Word) (elem : Nat) (parcel : Word) (kind : Word) : Word :=
  let q := elem / 4
  let out := philox (seed.setWidth 32 ^^^ tensor, (seed >>> 32).setWidth 32 ^^^ step)
    (BitVec.ofNat 32 q, BitVec.ofNat 32 (q / 2 ^ 32), parcel, kind)
  match elem % 4 with
  | 0 => out.1
  | 1 => out.2.1
  | 2 => out.2.2.1
  | _ => out.2.2.2

/-! ### G16 (R93 to R99) -/

/-- The leaf limit L for a declared contribution count (R95). -/
def leafLimit (n : Nat) : Nat := min 32767 ((2 ^ 31 - 1) / n)

/-- The magnitude bits b of the leaf (R95). -/
def leafBits (n : Nat) : Nat := Nat.log2 (leafLimit n + 1)

/-- s × 2^e rounded to an integer by a random word (R116). -/
def srInt (y : Int) (e : Int) (r : Word) : Int :=
  let fl := floorScale y e
  let f : Int := if 0 ≤ e then 0 else (y - fl * 2 ^ (-e).toNat) * 2 ^ 32 / 2 ^ (-e).toNat
  if (r.toNat : Int) < f then fl + 1 else fl

/-- An FP8 element of an FP32 element with random word `r`: the quotient by the element's least step at its exponent is
rounded by R116, and what lies beyond the format follows R88 (log entry 6). -/
def srFp8 (f : FloatFmt) (nonSaturating : Bool) (x r : Word) : Nat × FpFlags :=
  match f32Decode x with
  | .num n m e =>
    let q := max ((Nat.log2 m : Int) + e) f.emin - f.mb
    fRound f (if nonSaturating then .toInfinity else .saturate) n (srInt (signedSig n m) (e - q) r).natAbs q false
  | _ => f32NarrowFp8 f nonSaturating x

/-- A G16 leaf of an FP32 element at scale exponent `sc`, with random word `r`: the leaf and whether it saturates
(R98, R99, R116). -/
def g16Leaf (x : Word) (sc : Int) (limit : Nat) (r : Word) : Int × Bool :=
  match f32Decode (f32Scale x (-sc)).1, f32IsFinite x with
  | _, false => (0, true)
  | .inf n, _ => (signedSig n limit, true)
  | .nan _, _ => (0, true)
  | .num n m e, _ =>
    let y := signedSig n m
    let scaled (k : Int) : Int := if 0 ≤ e then y * 2 ^ e.toNat - k else y - k * 2 ^ (-e).toNat
    if 0 < scaled limit then (limit, true)
    else if scaled (-(limit : Int)) < 0 then (-(limit : Int), true)
    else (srInt y e r, false)

/-- The observed exponent of one finite non-zero element: the least E with |x| ≤ 2^E. -/
def elemExponent (x : Word) : Option Int :=
  match f32Decode x with
  | .num _ m e => if m = 0 then none else some ((ceilLog2 m : Int) + e)
  | _ => none

/-- The observed exponent of a block (R106). -/
def observedExponent (xs : List Word) : Int :=
  max (-112) (min 112 ((xs.filterMap elemExponent).foldl max (-112)))

/-- One step of the scale estimator: estimate, run counter, reduced observation, reduced flag and decay (R108). -/
def estimatorStep (est : Int) (c : Nat) (o : Int) (sat : Bool) (decay : Nat) : Int × Nat :=
  let r : Int × Nat :=
    if sat then (max o (est + 4), 0)
    else if est ≤ o then (o, 0)
    else if c + 1 = decay then (est - 1, 0)
    else (est, c + 1)
  (max (-112) (min 112 r.1), r.2)

/-- The estimator that the scale survey leaves, from the reduced observation of step 0 (R112). -/
def surveyEstimate (o : Int) : Int × Nat := (o, 0)

/-- The scale exponent of a G16 block in the step after an estimate, with leaves of `b` bits (R109). -/
def g16Exponent (est : Int) (b : Nat) : Int := est + 2 - b

/-- The exponent of the magnitude of an S1 block in the step after an estimate (R109). -/
def s1Exponent (est : Int) : Int := est

/-! ### S1 (R102, R103) -/

/-- The S1 bit of an element and its new error value: bit 0 stands for +m (R102, R103). -/
def s1Bit (x eps : Word) (mu : Int) (r : Word) : Bool × Word :=
  let e := (f32Add x eps).1
  match f32Decode e with
  | .num n m ex =>
    -- u = clamp(e / 2^mu) as a signed number of units 2^-200
    let one : Int := 2 ^ 200
    let u := max (-one) (min one (floorScale (signedSig n m) (ex - mu + 200)))
    let threshold := (u + one) * 2 ^ 32 / (2 * one)
    let plus := (r.toNat : Int) < threshold
    let q : Word := (f32Round (!plus) 1 mu false).1
    (!plus, (f32Sub e q).1)
  | _ => (false, 0)

/-! ### MX blocks (R88) -/

/-- The shared scale byte of a block: floor(log2 amax) less the element format's largest exponent; `free` where amax is
zero or not finite or its scale lies below the least of E8M0, of which the spec states nothing. -/
def mxScale (f : FloatFmt) (xs : List Word) (free : Byte) : Byte :=
  let amax := xs.foldl (fun a x => (f32Max a (x &&& 0x7FFFFFFF)).1) 0
  let e := f32Log2 amax - f.emax + 127
  if f32IsFinite amax && amax != 0 && decide (0 ≤ e) then BitVec.ofInt 8 e else free

/-- An element of an MX block at a shared scale byte with its flags, rounded to nearest even, by the option of R88 for E4M3 and
E5M2. The flags are those that R88 gives an overflow, an infinity and a NaN; the formats that have neither saturate, and an
infinity or NaN in them is `free` (log entry 6). -/
def mxElem (f : FloatFmt) (nonSaturating : Bool) (scale : Byte) (x : Word) (free : Nat) : Nat × FpFlags :=
  match f32Decode x, f.top with
  | .num n m e, _ =>
    let r := fRound f (if nonSaturating then .toInfinity else .saturate) n m (e - ((scale.toNat : Int) - 127)) false
    (r.1, if r.2 &&& fOverflow = 0 then 0 else r.2)
  | _, .finite => (free % 2 ^ (f.eb + f.mb + 1), 0)
  | _, _ => f32NarrowFp8 f nonSaturating x

end Sys2Proof.Machine
end

