-- ==== Sys2Proof/Machine/Factor.lean ====
section
/-! DEFINITION. FACTOR_SOLVE (R219, R369, R370): the four attempts of a factorisation with pivot floor and damping. The spec
gives their rule and not the order of the arithmetic inside a factorisation, which is open (log entry 11). -/

namespace Sys2Proof.Machine

/-- Element (i, j) of a matrix of order d, row by row. -/
def matAt (d : Nat) (a : List Word) (i j : Nat) : Word := a.getD (i * d + j) 0

/-- τ: the sum of the diagonal in the tree of R56 by index. -/
def matTrace (d : Nat) (a : List Word) : Word :=
  (tree (fun x y => (f32Add x y).1) ((List.range d).map (fun i => matAt d a i i))).getD 0

/-- A + λI. -/
def matDamp (d : Nat) (a : List Word) (l : Word) : List Word :=
  (List.range (d * d)).map (fun k =>
    if k / d = k % d then (f32Add (a.getD k 0) l).1 else a.getD k 0)

/-- A ratio of the trace: r × τ / d. -/
def traceRatio (d : Nat) (tau r : Word) : Word := (f32Div (f32Mul r tau).1 (f32OfInt (BitVec.ofNat 32 d)).1).1

/-- τ allows an attempt: it is finite and above 0. -/
def traceGood (x : Word) : Bool := f32IsFinite x && f32Less 0 x

/-- Attempts from attempt k on with λ = l, `left` of them: the one that succeeds and what it leaves. -/
def factorAttempts (d : Nat) (a : List Word) (theta damped : Word) : Nat → Nat → Word → Option (Nat × List Word)
  | 0, _, _ => none
  | left + 1, k, l =>
    match Config.factorise d (matDamp d a l) theta with
    | some out => some (k, out)
    | none => factorAttempts d a theta damped left (k + 1) (if k = 1 then damped else (f32Mul 0x40000000 l).1)

/-- The status bits (DAMPED 1, KEPT 2) and what the routine leaves of a matrix of order d, none where the previous inverse stays
unchanged. -/
def factorSolve (d : Nat) (a : List Word) (floor ratio : Word) : BitVec 2 × Option (List Word) :=
  let tau := matTrace d a
  if !traceGood tau then (2, none)
  else
    match factorAttempts d a (traceRatio d tau floor) (traceRatio d tau ratio) 4 1 0 with
    | some (k, out) => (if k = 1 then 0 else 1, some out)
    | none => (2, none)

end Sys2Proof.Machine
end

