-- ==== Sys2Proof/Machine/Routine.lean ====
section
/-! DEFINITION. Resident routines (R214 to R219, R624, R625): their entries' ranges, cycle counts and accesses, and the results
of those whose function the spec gives. The parameters beyond the counts of Table 06.6 follow the model's own layout (log
entry 6). -/

namespace Sys2Proof.Machine

/-- The parameters G20 to G31. -/
def routineParams (r : Regs) : List DWord := (List.range 12).map (fun k => r.getG (20 + k))

/-- The directory entry of a routine ID. -/
def State.routineOf (s : State) (id : BitVec 16) : Option Routine := s.routines.find? (fun r => r.id == id)

/-- The value of a parameter: FP32 takes the low 32 bits of its register, and the others are ignored (R624). -/
def RoutineParam.value (q : RoutineParam) (reg : DWord) : Nat :=
  if q.kind = 4 then (reg.setWidth 32).toNat else reg.toNat

/-- Every parameter of the entry lies within its MIN and MAX, an INT64 as a signed number; SORT_KEYS takes a power of two
(R624, Table 06.6). -/
def routineInRange (r : Routine) (p : List DWord) : Bool :=
  (r.params.zipIdx).all (fun e =>
    let reg := p.getD e.2 0
    e.1.kind == 3 || (decide (e.1.lo ≤ e.1.value reg) && decide (e.1.value reg ≤ e.1.hi))) &&
  (r.id != 0x0403 || decide ((p.getD 0 0).toNat = 2 ^ Nat.log2 (p.getD 0 0).toNat))

/-- What the names of an entry's expressions stand for: its parameters and the latencies in force (R624). -/
def State.routineEnv (s : State) (r : Routine) (p : List DWord) (name : List Char) : Option Int :=
  match (r.params.zipIdx).find? (fun e => e.1.name.toList == name) with
  | some e => some (if e.1.kind = 3 then (p.getD e.2 0).toInt else (e.1.value (p.getD e.2 0) : Int))
  | none =>
    if name = "T_exp".toList then some s.tExp
    else if name = "T_rsqrt".toList then some s.tRsqrt
    else if name = "T_tanh".toList ∨ name = "T_erf".toList then some s.tTanh
    else none

/-- An expression of an entry; 0 where its text is none. -/
def State.routineExpr (s : State) (r : Routine) (p : List DWord) (text : String) : Nat :=
  ((evalExpr (s.routineEnv r p) text).getD 0).toNat

/-- The cycle count C of a call (R218, R219). -/
def State.routineCycles (s : State) (r : Routine) (p : List DWord) : Nat := s.routineExpr r p r.cycles

/-! ### Accesses (R625) -/

/-- The regions that the parameters name. -/
def routineRegions (r : Routine) (p : List DWord) : List Nat :=
  ((r.params.zipIdx).filter (fun e => e.1.kind == 2)).map (fun e => (p.getD e.2 0).toNat)

/-- The region that an access is checked against: the first named one that holds it, else the last one named. -/
def Tile.routineRegion (t : Tile) (regions : List Nat) (a n : Nat) (isWrite : Bool) : Nat :=
  (regions.find? (fun k => t.inRegion k a n isWrite)).getD (regions.getLastD 0)

/-- The slot of the engine that makes a routine's accesses: the vector engine where the routine declares it, else the matrix
array (log entry 6). -/
def routineSlot (r : Routine) : Byte := if r.engines.getLsbD 1 then slotVector else slotMatrix

/-- The bank accesses of a running routine in the cc `now`: access k of a stream reaches the banks START + k × CADENCE cc after
the call. -/
def State.routineUses (s : State) (t : Tile) (now : Nat) : List RangeUse :=
  match t.routine with
  | none => []
  | some x =>
    match s.routineOf x.id with
    | none => []
    | some r =>
      (r.accesses.zipIdx).flatMap (fun e =>
        let f := s.routineExpr r x.params
        let start := x.call + f e.1.start
        let every := f e.1.cadence
        ((List.range (f e.1.count)).filter (fun k => start + k * every == now)).map (fun k =>
          let a := (x.params.getD (e.1.base - 20) 0).toNat + k * f e.1.stride
          let n := 64 * e.1.lines
          let isWrite := e.1.kind != 0
          { region := t.routineRegion (routineRegions r x.params) a n isWrite, addr := a, len := n, checked := none,
            cycle := now, lineOffset := 0, isWrite := isWrite, isMerge := e.1.kind == 2, slot := routineSlot r,
            group := k, bundle := routineBundle x.id (Config.routineOffset x.id e.2 k) }))

/-- FP32 words of the scratchpad. -/
def readWords (m : Memory) (a : Nat) : Nat → List Word
  | 0 => []
  | n + 1 => BitVec.ofNat 32 (leNat (readBytes m a 4)) :: readWords m (a + 4) n

/-- The bytes of a list of words. -/
def wordBytes (ws : List Word) : Bytes := ws.flatMap (fun w => leBytes 4 w.toNat)

/-- A signed byte of the scratchpad. -/
def readSByte (m : Memory) (a : Nat) : Int := (readByte m a).toInt

/-- Bits packed eight to a byte, low bit first. -/
def packBits : Nat → List Bool → Bytes
  | 0, _ => []
  | n + 1, bs =>
    BitVec.ofNat 8 (((bs.take 8).zipIdx).foldl (fun acc e => acc + (if e.1 then 2 ^ e.2 else 0)) 0)
      :: packBits n (bs.drop 8)

/-- What the routine writes: byte runs, and the flags it raises. -/
structure RoutineOut where
  writes : List (Nat × Bytes)
  flags : FpFlags

/-- ACT_TANH: n vectors from src to dst. -/
def runTanh (m : Memory) (p : List DWord) : RoutineOut :=
  let n := (p.getD 0 0).toNat * 256
  let out := (readWords m (p.getD 1 0).toNat n).map f32Tanh
  { writes := [((p.getD 2 0).toNat, wordBytes (out.map (·.1)))], flags := orFlags (out.map (·.2)) }

/-- One G16 block: leaves and saturation (R98). -/
def g16Block (seed : DWord) (tensor step parcel : Word) (limit : Nat) (sc : Int) (first : Nat) (xs : List Word) :
    List (Int × Bool) :=
  (xs.zipIdx).map (fun e => g16Leaf e.1 sc limit (srWord seed tensor step (first + e.2) parcel 1))

/-- CVT_SR_FP8: n vectors of FP32 from src to bytes at dst; format 0 E4M3 or 1 E5M2; option 1 is the non-saturating one
(R88). -/
def runSrFp8 (m : Memory) (p : List DWord) (seed : DWord) : RoutineOut :=
  let at' (k : Nat) : Nat := (p.getD k 0).toNat
  let word (k : Nat) : Word := (p.getD k 0).setWidth 32
  let f := if at' 3 = 1 then fmtE5m2 else fmtE4m3
  let out := ((readWords m (at' 1) (at' 0 * 256)).zipIdx).map (fun e =>
    srFp8 f (at' 4 == 1) e.1 (srWord seed (word 5) (word 6) (at' 7 + e.2) (word 8) 3))
  { writes := [(at' 2, out.map (fun e => BitVec.ofNat 8 e.1))], flags := orFlags (out.map (·.2)) }

/-- The elements of block b of n, of which the last may be shorter (R93). -/
def blockElems (n last b : Nat) : Nat := if b + 1 = n then min last 256 else 256

/-- CVT_SR_G16: n blocks of FP32 elements at src, the last of `last` elements; leaves, scale bytes, then from `observed` on the
observed exponents and, from the next multiple of 64 B on, the saturation bits. -/
def runG16 (m : Memory) (p : List DWord) (seed : DWord) : RoutineOut :=
  let at' (k : Nat) : Nat := (p.getD k 0).toNat
  let word (k : Nat) : Word := (p.getD k 0).setWidth 32
  let n := at' 0
  let limit := leafLimit (max 1 (at' 9))
  let block (b : Nat) : List Word := readWords m (at' 1 + 1024 * b) (blockElems n (at' 10) b)
  let leaves (b : Nat) :=
    g16Block seed (word 5) (word 6) (word 8) limit (readSByte m (at' 3 + b)) (at' 7 + 256 * b) (block b)
  { writes := (List.range n).flatMap (fun b =>
      [(at' 2 + 512 * b, (leaves b).flatMap (fun e => leBytes 2 (BitVec.ofInt 16 e.1).toNat)),
       (at' 4 + b, [BitVec.ofInt 8 (observedExponent (block b))])]) ++
      [(at' 4 + ceilDiv n 64 * 64, packBits (ceilDiv n 8) ((List.range n).map (fun b => (leaves b).any (·.2))))],
    flags := 0 }

/-- The mean of |e| of an S1 block, in the reduction unit's tree (R106). -/
def s1Mean (xs eps : List Word) : Word :=
  let mags := (xs.zip eps).map (fun e => (f32Abs (f32Add e.1 e.2).1).1)
  (f32Div ((tree (fun x y => (f32Add x y).1) mags).getD 0) (f32OfInt (BitVec.ofNat 32 mags.length)).1).1

/-- CVT_SR_S1: as CVT_SR_G16, with the error memory (rewritten), the sign bits, the magnitude exponents and the observed
exponents of the mean of |e|. -/
def runS1 (m : Memory) (p : List DWord) (seed : DWord) : RoutineOut :=
  let at' (k : Nat) : Nat := (p.getD k 0).toNat
  let word (k : Nat) : Word := (p.getD k 0).setWidth 32
  let n := at' 0
  let xs (b : Nat) : List Word := readWords m (at' 1 + 1024 * b) (blockElems n (at' 10) b)
  let eps (b : Nat) : List Word := readWords m (at' 2 + 1024 * b) (blockElems n (at' 10) b)
  let bits (b : Nat) := (((xs b).zip (eps b)).zipIdx).map (fun e =>
    s1Bit e.1.1 e.1.2 (readSByte m (at' 4 + b)) (srWord seed (word 6) (word 7) (at' 8 + 256 * b + e.2) (word 9) 2))
  { writes := (List.range n).flatMap (fun b =>
      [(at' 3 + 32 * b, packBits 32 ((bits b).map (·.1))),
       (at' 2 + 1024 * b, wordBytes ((bits b).map (·.2))),
       (at' 5 + b, [BitVec.ofInt 8 (observedExponent [s1Mean (xs b) (eps b)])])]),
    flags := 0 }

/-- The MX element format of a parameter: 0 E4M3, 1 E5M2, 2 E2M3, 3 E3M2, 4 E2M1. -/
def mxFormat (k : Nat) : FloatFmt :=
  match k with
  | 0 => fmtE4m3
  | 1 => fmtE5m2
  | 2 => fmtE2m3
  | 3 => fmtE3m2
  | _ => fmtE2m1

/-- Elements packed at a width, low bits first. -/
def packElems (w : Nat) (n : Nat) (es : List Nat) : Bytes :=
  leBytes n (es.foldr (fun e acc => e % 2 ^ w + 2 ^ w * acc) 0)

/-- CVT_MX: n vectors of FP32 at src; elements to dst, scale bytes to scales; the element format and R88's option. Values of
which the spec states nothing are open (log entry 6). -/
def runMx (m : Memory) (p : List DWord) : RoutineOut :=
  let at' (k : Nat) : Nat := (p.getD k 0).toNat
  let n := at' 0
  let f := mxFormat (at' 4)
  let w := f.eb + f.mb + 1
  let block (k : Nat) : List Word := readWords m (at' 1 + 128 * k) 32
  let scale (k : Nat) : Byte := mxScale f (block k) (Config.openMx (block k) 0)
  let elems (k : Nat) : List (Nat × FpFlags) := ((block k).zipIdx).map (fun e =>
    mxElem f (at' 5 == 1) (scale k) e.1 (Config.openMx (block k) (e.2 + 1)).toNat)
  { writes := (List.range (8 * n)).flatMap (fun k =>
      [(at' 2 + 4 * w * k, packElems w (4 * w) ((elems k).map (·.1))), (at' 3 + k, [scale k])]),
    flags := orFlags ((List.range (8 * n)).flatMap (fun k => (elems k).map (·.2))) }

/-- COMBINE_SLOTS: k slots of n vectors of INT32 from src, summed exactly to dst. -/
def runCombineSlots (m : Memory) (p : List DWord) : RoutineOut :=
  let k := (p.getD 0 0).toNat
  let words := 256 * (p.getD 1 0).toNat
  let slotWords (j : Nat) : List Word := readWords m ((p.getD 2 0).toNat + 4 * words * j) words
  { writes := [((p.getD 3 0).toNat,
      wordBytes ((List.range k).foldl (fun acc j => (acc.zip (slotWords j)).map (fun e => e.1 + e.2))
        (List.replicate words 0)))],
    flags := 0 }

/-- The mean of the squares of a row, in the reduction unit's trees: over the lanes of each vector, then over the vectors
(R191, R193). -/
def rowMeanSquare (row : List Word) (v : Nat) (count : Word) : Flagged :=
  let vecs := (List.range v).map (fun j =>
    (tree addFlagged (((row.drop (256 * j)).take 256).map (fun x => f32Mul x x))).getD (0, 0))
  let q := (tree addFlagged vecs).getD (0, 0)
  let d := f32Div q.1 count
  (d.1, q.2 ||| d.2)

/-- RMS_NORM: the three passes of the RMS-norm example of spec/05 on m rows of v vectors: the mean of squares of each row, its
reciprocal root after ε is added, which stands at `work`, and the row times the weights in BF16 and that root. Format 0 stores
FP32, 1 E4M3. -/
def runRmsNorm (m : Memory) (p : List DWord) : RoutineOut :=
  let at' (k : Nat) : Nat := (p.getD k 0).toNat
  let v := at' 1
  let row (i : Nat) : List Word := readWords m (at' 2 + 1024 * v * i) (256 * v)
  let inv (i : Nat) : Flagged :=
    let q := rowMeanSquare (row i) v ((p.getD 6 0).setWidth 32)
    let a := f32Add q.1 ((p.getD 7 0).setWidth 32)
    let r := f32Rsqrt a.1
    (r.1, q.2 ||| a.2 ||| r.2)
  let weight (j : Nat) : Word := f32Widen fmtBf16 (leNat (readBytes m (at' 4 + 2 * j) 2))
  let out (i : Nat) : List Flagged :=
    let k := inv i
    ((row i).zipIdx).map (fun e =>
      let x := if Config.rmsWeightFirst then f32Mul e.1 (weight e.2) else f32Mul e.1 k.1
      let y := if Config.rmsWeightFirst then f32Mul x.1 k.1 else f32Mul x.1 (weight e.2)
      (y.1, k.2 ||| x.2 ||| y.2))
  let size := if at' 8 = 1 then 1 else 4
  let stored (x : Word) : Nat × FpFlags := if at' 8 = 1 then f32NarrowFp8 fmtE4m3 false x else (x.toNat, 0)
  { writes := (List.range (at' 0)).flatMap (fun i =>
      [(at' 5 + 4 * i, leBytes 4 (inv i).1.toNat),
       (at' 3 + size * 256 * v * i, (out i).flatMap (fun e => leBytes size (stored e.1).1))]),
    flags := orFlags ((List.range (at' 0)).flatMap (fun i => (out i).map (fun e => e.2 ||| (stored e.1).2))) }

/-- FACTOR_SOLVE: the FP32 matrix of order 256 × b, the inverse to dst where an attempt succeeds, and the status bits (R369,
R370). -/
def runFactorSolve (m : Memory) (p : List DWord) : RoutineOut :=
  let at' (k : Nat) : Nat := (p.getD k 0).toNat
  let d := 256 * at' 0
  let r := factorSolve d (readWords m (at' 1) (d * d)) ((p.getD 4 0).setWidth 32) ((p.getD 5 0).setWidth 32)
  { writes := (match r.2 with
      | some out => [(at' 2, wordBytes out)]
      | none => []) ++ [(at' 3, [r.1.setWidth 8])],
    flags := 0 }

/-- INV_ROOT: the FP32 matrix of order 256 × b, its inverse p-th root to dst. -/
def runInvRoot (m : Memory) (p : List DWord) : RoutineOut :=
  let at' (k : Nat) : Nat := (p.getD k 0).toNat
  let d := 256 * at' 0
  { writes := [(at' 3, wordBytes (Config.inverseRoot d (at' 1) (readWords m (at' 2) (d * d))))], flags := 0 }

/-- The function of a routine from its ID, its parameters and the scratchpad at its call; a routine whose function the
spec does not give writes what Config.routineWrites says. -/
def routineBody (id : BitVec 16) (p : List DWord) (m : Memory) (seed : DWord) : RoutineOut :=
  match id.toNat with
  | 0x0103 => runRmsNorm m p
  | 0x0203 => runTanh m p
  | 0x0301 => runSrFp8 m p seed
  | 0x0302 => runG16 m p seed
  | 0x0303 => runS1 m p seed
  | 0x0304 => runMx m p
  | 0x0401 => runCombineSlots m p
  | 0x0601 => runFactorSolve m p
  | 0x0602 => runInvRoot m p
  | _ => { writes := (Config.routineWrites id p m).map (fun e => (e.1, [e.2])), flags := 0 }

/-- What a routine writes and raises. The inner operations of tanh, of the RMS norm and of the exact combine are known; those
of every other routine are not, and may raise flags beside those that the spec names. -/
def routineOut (id : BitVec 16) (p : List DWord) (m : Memory) (seed : DWord) : RoutineOut :=
  let out := routineBody id p m seed
  if id = 0x0103 ∨ id = 0x0203 ∨ id = 0x0401 then out
  else { out with flags := out.flags ||| Config.routineFlags id p m }

/-- The registers that a routine may overwrite after it has run: G20 to G31, V48 to V63 and M12 to M15 (R216), each an open
function of what the routine read (R47). -/
def routineRegs (r : Regs) (id : BitVec 16) (p : List DWord) (m : Memory) : Regs :=
  let f := Config.routineRegs id p m
  let r := (List.range 12).foldl (fun r k => r.setG (20 + k) ((f 0 (20 + k) 0).setWidth 64)) r
  let r := (List.range (16 * 256)).foldl
    (fun r k => r.setV (48 + k / 256) (k % 256) ((f 1 (48 + k / 256) (k % 256)).setWidth 32)) r
  (List.range 4).foldl (fun r k => r.setM (12 + k) (f 2 (12 + k) 0)) r

end Sys2Proof.Machine
end

