-- ==== Sys2Proof/Machine/Check.lean ====
section
/-! DEFINITION. Check shots (R117 to R121): the divergence of a sampled output tile, the tile's histogram and the
divergence events. -/

namespace Sys2Proof.Machine

/-- A finite FP32 value in units of 2^−149. -/
def f32Units (x : Word) : Option Int :=
  let e : Nat := x.toNat / 2 ^ 23 % 256
  let m : Nat := x.toNat % 2 ^ 23
  let mag : Nat := if e = 0 then m else (m + 2 ^ 23) * 2 ^ (e - 1)
  if e = 255 then none else some (if x.getLsbD 31 then -(mag : Int) else mag)

/-- What the outputs of a check shot give: the two maxima in units of 2^−149, whether some output is non-finite and differs
in bits, and whether some output is non-finite and agrees. -/
structure Divergence where
  diff : Nat
  ref : Nat
  infinite : Bool
  unstated : Bool
  deriving DecidableEq, Repr

/-- Take one output and its reference. -/
def Divergence.add (d : Divergence) (e : Word × Word) : Divergence :=
  match f32Units e.1, f32Units e.2 with
  | some n, some r => { d with diff := max d.diff (n - r).natAbs, ref := max d.ref r.natAbs }
  | _, _ => if e.1 = e.2 then { d with unstated := true } else { d with infinite := true }

/-- The divergence over a tile's outputs (R119). -/
def divergence (es : List (Word × Word)) : Divergence :=
  es.foldl Divergence.add { diff := 0, ref := 0, infinite := false, unstated := false }

/-- A divergence as a quotient, none for +∞. Where non-finite outputs agree, the spec states no maximum: the numerator is
free (log entry 32). -/
def Divergence.quotient (d : Divergence) (free : DWord) : Option (Nat × Nat) :=
  if d.infinite then none else some (if d.unstated then free.toNat else d.diff, max d.ref (2 ^ 23))

/-- The histogram bin of a divergence (R120). -/
def checkBin (q : Option (Nat × Nat)) : Nat :=
  match q with
  | none => 31
  | some (n, d) =>
    if n * 2 ^ 30 < d then 0
    else if d ≤ n then 31
    else ((List.range 31).reverse.find? (fun j => decide (d ≤ n * 2 ^ (31 - j)))).getD 0

/-- A divergence as FP32, rounded to nearest even (R121). -/
def checkWord (q : Option (Nat × Nat)) : Word :=
  match q with
  | none => f32Inf false
  | some (n, d) =>
    let k := Nat.log2 d + 64
    (f32Round false (n * 2 ^ k / d) (-(k : Int)) (decide (n * 2 ^ k % d ≠ 0))).1

/-- d ≥ 2^−t. -/
def checkDiverges (q : Option (Nat × Nat)) (t : Nat) : Bool :=
  match q with
  | none => true
  | some (n, d) => decide (d ≤ n * 2 ^ t)

/-- The payload of a CHECK_SHOT_DIVERGENCE event (R121). -/
def State.checkPayload (s : State) (t : Nat) (c : CheckShot) (d : Word) : Bytes :=
  leBytes 2 t ++ leBytes 4 c.product.toNat ++ leBytes 4 c.index.toNat ++ leBytes 4 d.toNat ++
  leBytes 4 s.currentStep.toNat ++ leBytes 8 s.clock.meridian.toNat

/-- The exponent t of the run's job. -/
def State.checkT (s : State) : Nat := ((s.runJob).map (·.checkT)).getD 12

/-- Count a check shot that a pass ends: its bin, and an event for each of the first 16 of a step that diverge (R120, R121). -/
def State.checkShot (s : State) (t : Nat) (r : Regs) (c : CheckShot) : State :=
  let x := s.tile t
  let outs := readWords x.scratch (r.srcN c.result) 65536
  let refs := readWords x.scratch (r.srcN c.reference) 65536
  let q := (divergence (outs.zip refs)).quotient (Config.freeDWord s.freeCtr)
  let bin := checkBin q
  let hits := checkDiverges q s.checkT
  let y := { x with
    checkHist := mset x.checkHist bin (satInc (mget 0 x.checkHist bin)),
    checkEvents := if hits then x.checkEvents + 1 else x.checkEvents }
  let s1 := (s.setTile t y).drawn 1
  if hits && decide (x.checkEvents < 16) then
    s1.event evCheckDivergence (srcTile t) (s.checkPayload t c (checkWord q))
  else s1

/-- At the end of a step the divergences beyond 16 on a tile are entered as one count (R121, Table 17.7). -/
def State.flushChecks (s : State) : List Nat → State
  | [] => s
  | t :: r =>
    let n := (s.tile t).checkEvents
    let s1 := if n = 0 then s else s.modTile t (fun x => { x with checkEvents := 0 })
    State.flushChecks
      (if 16 < n then s1.event evCheckSuppressed (srcTile t) (leBytes 2 t ++ leBytes 4 (n - 16)) else s1) r

end Sys2Proof.Machine
end

