-- ==== Sys2Proof/Machine/ArrayMath.lean ====
section
/-! DEFINITION. The arithmetic of the matrix array: products, the column trees, microscaled blocks, the three-pass
split, accumulation, the finish of a tree-mode part and the image walk (R123 to R153). -/

namespace Sys2Proof.Machine

/-! ### Formats of the array (Table 04.3) -/

/-- Formats that an operand of the array may have. -/
def arrayFmt : Fmt → Bool
  | .int32 | .int16 => false
  | _ => true

/-- FP32 operands belong to extended mode, and INT8 operands pair only with INT8 (R125, R129). -/
def modeWf (a : ModeArg) : Bool :=
  arrayFmt a.inFmt && arrayFmt a.wFmt && ((a.inFmt == .int8) == (a.wFmt == .int8)) &&
  ((a.mode == .extended) == (a.inFmt == .fp32)) && ((a.mode == .extended) == (a.wFmt == .fp32)) &&
  (match a.accum with
   | .flat => true
   | .tree d => d == 1 || d == 2 || d == 4 || d == 8 || d == 16)

/-- FP4-class formats (R130). -/
def fp4Class : Fmt → Bool
  | .mxfp4 | .fp4 => true
  | _ => false

/-- Half compute cycles that an input row takes (Table 04.3). -/
def halfCc (a : ArrayState) : Nat :=
  if a.mode = .extended then 4
  else if fp4Class a.inFmt && fp4Class a.wFmt then 1
  else if fmtBits a.inFmt = 16 ∨ fmtBits a.wFmt = 16 then 4
  else 2

/-- Bytes of an input row (Table 04.3): elements, then 8 scale bytes in a microscaled format. -/
def rowBytes (f : Fmt) : Nat := 32 * fmtBits f + (if fmtIsMx f then 8 else 0)

/-- Element codes of a row's bytes. -/
def rowElems (f : Fmt) (bs : Bytes) : List Nat := (List.range 256).map (packedElem bs (fmtBits f))

/-- The input row that bytes hold: 256 element codes and the eight E8M0 block scales of a microscaled format. -/
def inputRow (f : Fmt) (bs : Bytes) : RowData :=
  { elems := rowElems f bs,
    scales := (List.range 8).map (fun b => if fmtIsMx f then bs.getD (32 * fmtBits f + b) 0 else 127) }

/-! ### Products and column sums -/

/-- A product of two element codes: INT8 exactly, otherwise the FP32 product (R125). -/
def arrayProduct (fi fw : Fmt) (x w : Nat) : Word :=
  match fi, fw with
  | .int8, .int8 => (f32OfInt (BitVec.ofInt 32 ((extendInt 8 false x).toInt * (extendInt 8 false w).toInt))).1
  | _, _ => (f32Mul (fmtWiden fi false x) (fmtWiden fw false w)).1

/-- Weight code of a cell. -/
def ArrayState.weight (a : ArrayState) (row col : Nat) : Nat := (mget 0 a.weights (row * 256 + col)).toNat

/-- Multiply a block's sum by 2^(sa + sw); an E8M0 byte of 0xFF is NaN (R87, R131). A block of padding rows alone is the +0
of R125 whatever its scales. -/
def scaleNode (padding : Bool) (x : Word) (sa sw : Byte) : Word :=
  if padding then x
  else if sa = 0xFF ∨ sw = 0xFF then f32NaN else (f32Scale x ((sa.toNat : Int) + sw.toNat - 254)).1

/-- Weight column's scale of a block. -/
def ArrayState.wScale (a : ArrayState) (b col : Nat) : Byte :=
  if fmtIsMx a.wFmt then mget 0 a.wScales (b * 256 + col) else 127

/-- FP32 addition of the trees. -/
def addW (x y : Word) : Word := (f32Add x y).1

/-- The leaves of a column in array rows `lo` up: padding rows contribute +0. -/
def ArrayState.leaves (a : ArrayState) (row : RowData) (col lo n : Nat) : List Word :=
  (List.range n).map (fun k =>
    if lo + k < a.validRows then
      arrayProduct a.inFmt a.wFmt (row.elems.getD (lo + k) 0) (a.weight (lo + k) col)
    else 0)

/-- The tensor-scale product g of FP4 operands from the scale registers, 1.0 for an operand of another format (R131). -/
def ArrayState.gScale (a : ArrayState) (r : Regs) : Word :=
  (f32Mul (if a.inFmt = .fp4 then (r.getG a.scaleA.val).setWidth 32 else 0x3F800000)
    (if a.wFmt = .fp4 then (r.getG a.scaleW.val).setWidth 32 else 0x3F800000)).1

/-- Apply a feed's tensor scale to a chunk partial. -/
def ArrayState.applyG (a : ArrayState) (g x : Word) : Word :=
  if a.inFmt = .fp4 ∨ a.wFmt = .fp4 then (f32Mul x g).1 else x

/-- The chunk partial of a column in standard and diagonal modes (R124, R131, R143). -/
def ArrayState.partialSum (a : ArrayState) (g : Word) (row : RowData) (col : Nat) : Word :=
  let mx := fmtIsMx a.inFmt || fmtIsMx a.wFmt
  if a.mode = .diagonal then
    let pad := decide (a.validRows ≤ col)
    let p := if pad then 0 else arrayProduct a.inFmt a.wFmt (row.elems.getD col 0) (a.weight col col)
    a.applyG g (if mx then scaleNode pad p (row.scales.getD (col / 32) 127) (a.wScale (col / 32) col) else p)
  else if mx then
    let node (b : Nat) : Word :=
      scaleNode (decide (a.validRows ≤ 32 * b)) ((tree addW (a.leaves row col (32 * b) 32)).getD 0)
        (row.scales.getD b 127) (a.wScale b col)
    a.applyG g ((tree addW ((List.range 8).map node)).getD 0)
  else a.applyG g ((tree addW (a.leaves row col 0 256)).getD 0)

/-! ### The three-pass split (R132) -/

/-- x_h: the low 16 bits cleared. -/
def splitHigh (x : Word) : Word := x &&& 0xFFFF0000
/-- x_l: x − x_h rounded to BF16. -/
def splitLow (x : Word) : Word := f32Widen fmtBf16 (f32NarrowIeee fmtBf16 (f32Sub x (splitHigh x)).1).1

/-- A product of two split operands, in FP32 as R125 has it, widened to binary64. -/
def mul64 (x y : Word) : DWord := f64OfF32 (f32Mul x y).1

/-- The operands of a pass: x_l × w_h, x_h × w_l, x_h × w_h. -/
def passProduct (pass : Nat) (x w : Word) : DWord :=
  match pass with
  | 0 => mul64 (splitLow x) (splitHigh w)
  | 1 => mul64 (splitHigh x) (splitLow w)
  | _ => mul64 (splitHigh x) (splitHigh w)

/-- The column sum of a pass, in binary64. -/
def ArrayState.wideSum (a : ArrayState) (row : RowData) (pass col : Nat) : DWord :=
  (tree f64Add ((List.range 256).map (fun k =>
    if k < a.validRows then
      passProduct pass (BitVec.ofNat 32 (row.elems.getD k 0)) (BitVec.ofNat 32 (a.weight k col))
    else 0))).getD 0

/-! ### The accumulator store (R127, R134, R149 to R153)

A cell is row × 256 + column. The wide staging area of extended mode is rows 1,920 to 2,047: wide row r holds column c in the
two cells from (1,920 + 2r) × 256 + 2c on, the low word first (log entry 99). -/

/-- Accumulator rows available: the wide staging area takes 128 of them in extended mode (R134). -/
def ArrayState.capacity (a : ArrayState) : Nat := if a.mode = .extended then 1920 else 2048

/-- The cell of a row and a column; row addresses are modulo 2,048 (R149). -/
def accCell (row col : Nat) : Nat := row % 2048 * 256 + col

/-- The first cell of a wide entry. DESIGN CHOICE: input row q of a feed uses wide row q mod 64, which the spec does not say
(log entry 99). -/
def wideCell (q col : Nat) : Nat := (1920 + 2 * (q % 64)) * 256 + 2 * col

/-- A cell as a read in this cc finds it (R127, R155). -/
def ArrayState.accAt (a : ArrayState) (cell : Nat) : Word := mget 0 a.acc cell

/-- A cell as the accumulate stage finds it: rows do not overtake one another (R126), so the latest write to it counts,
readable or not (log entry 100). -/
def ArrayState.accLatest (a : ArrayState) (cell : Nat) : Word :=
  ((a.accLate.reverse.findSome? (fun w => (w.cells.find? (fun c => c.1 == cell)).map (·.2)))).getD (a.accAt cell)

/-- A wide entry as a pass finds it at its entry: the previous pass's write is readable 36 cc after that pass entered, and a
pass that comes sooner does not see it (R133). -/
def ArrayState.wideAt (a : ArrayState) (q col : Nat) : DWord :=
  a.accAt (wideCell q col + 1) ++ a.accAt (wideCell q col)

/-- The accumulator row of a level slot (R151). -/
def ArrayState.levelRow (a : ArrayState) (depth level row : Nat) : Nat := level * (a.capacity / depth) + row

/-- The carries t of chunk c: its lowest bits that are 1, at most D (R152). -/
def carries (depth c : Nat) : Nat := ((List.range depth).takeWhile (fun l => c / 2 ^ l % 2 == 1)).length

/-- The value that reaches the level after t carries (R152). -/
def ArrayState.carried (a : ArrayState) (depth row col t : Nat) (v : Word) : Word :=
  (List.range t).foldl (fun v l => addW (a.accLatest (accCell (a.levelRow depth l row) col)) v) v

/-- Where a chunk partial of a column goes and what it becomes (R150, R152). -/
def ArrayState.accumulate (a : ArrayState) (row col chunk : Nat) (overwrite : Bool) (v : Word) : Nat × Word :=
  match a.accum with
  | .flat => (accCell row col, if overwrite then v else addW (a.accLatest (accCell row col)) v)
  | .tree depth =>
    let t := carries depth chunk
    (accCell (a.levelRow depth (if t < depth then t else 0) row) col, a.carried depth row col t v)

/-- The latency of a row from its entry until its write is readable (Table 04.1, R152); passes 1 and 2 of extended mode write
their wide entry. -/
def ArrayState.rowLatency (a : ArrayState) (chunk pass : Nat) : Nat :=
  let base := if a.mode = .extended then 36 else 12
  match a.accum with
  | .flat => base
  | .tree depth => if a.mode = .extended ∧ pass ≠ 2 then base else base + 2 * carries depth chunk

/-- The cells that one column of row q of a feed writes. -/
def ArrayState.feedCells (a : ArrayState) (g : Word) (row : RowData) (q base chunk : Nat) (overwrite : Bool)
    (pass col : Nat) : List (Nat × Word) :=
  if a.mode = .extended then
    let s := a.wideSum row pass col
    let w := if pass = 0 then s else f64Add (a.wideAt q col) s
    [(wideCell q col, w.setWidth 32), (wideCell q col + 1, (w >>> 32).setWidth 32)] ++
      (if pass = 2 then [a.accumulate (base + q) col chunk overwrite (f64ToF32 w)] else [])
  else [a.accumulate (base + q) col chunk overwrite (a.partialSum g row col)]

/-- The write that row q of the feed issued as number `seq` makes, entering the multiply stage in the cc `now`. -/
def ArrayState.feedRow (a : ArrayState) (seq : Nat) (g : Word) (row : RowData) (now q base chunk : Nat) (overwrite : Bool)
    (pass : Nat) : AccWrite :=
  { ready := now + a.rowLatency chunk pass, fed := some seq,
    cells := (List.range 256).flatMap (a.feedCells g row q base chunk overwrite pass) }

/-- The level slots that a part of n chunks fills (R153). -/
def partLevels (depth n : Nat) : List Nat := (List.range depth).filter (fun l => n / 2 ^ l % 2 == 1)

/-- The value of a part of n chunks from its level slots (R153); none where no bit of n names a slot. -/
def ArrayState.finishValue (a : ArrayState) (depth n row col : Nat) : Option Word :=
  match partLevels depth n with
  | [] => none
  | l :: rest =>
    some (rest.foldl (fun v l => addW (a.accLatest (accCell (a.levelRow depth l row) col)) v)
      (a.accLatest (accCell (a.levelRow depth l row) col)))

/-- The write that FINISH_TREE makes of one row in the cc `now`: a part of 2^D chunks stands in slot 0 already (R153).
DESIGN CHOICE: under flat accumulation nothing changes, and a part of no chunk leaves `free` (log entry 101). -/
def ArrayState.finishRow (a : ArrayState) (now n row : Nat) (free : Nat → Word) : AccWrite :=
  match a.accum with
  | .flat => { ready := now + 2, fed := none, cells := [] }
  | .tree depth =>
    if n < 2 ^ depth then
      { ready := now + 2 * ((partLevels depth n).length - 1) + 2, fed := none,
        cells := (List.range 256).map (fun col => (accCell row col, (a.finishValue depth n row col).getD (free col))) }
    else { ready := now + 2, fed := none, cells := [] }

/-- Writes of the accumulate stage that are readable by a cc reach the store. -/
def ArrayState.settle (a : ArrayState) (now : Nat) : ArrayState :=
  { a with acc := (a.accLate.filter (fun w => decide (w.ready ≤ now))).foldl
             (fun m w => w.cells.foldl (fun m c => mset m c.1 c.2) m) a.acc,
           accLate := a.accLate.filter (fun w => decide (now < w.ready)) }

/-! ### Drain (R154) -/

/-- A drained accumulator row in the output format, as stored codes. -/
def ArrayState.drainRow (a : ArrayState) (row : Nat) (f : Fmt) : List Nat :=
  (List.range 256).map (fun col => (fmtNarrow f false (a.accAt (accCell row col))).1)

/-- The bytes of a drained row. -/
def rowOut (f : Fmt) (codes : List Nat) : Bytes := codes.flatMap (fun c => leBytes (fmtBits f / 8) c)

/-- Formats of a drain. -/
def drainFmt : Fmt → Bool
  | .fp32 | .bf16 | .fp16 => true
  | _ => false

/-! ### The image walk (R145 to R148) -/

/-- Ranges of Table 04.9. -/
def walkWf (w : Walk) (f : Fmt) : Bool :=
  let r (lo hi x : Nat) : Bool := decide (lo ≤ x) && decide (x ≤ hi)
  r 1 65535 w.n && r 1 65535 w.h && r 1 65535 w.w && r 1 65535 w.c && r 1 16 w.kh && r 1 16 w.kw &&
  r 1 8 w.strideV && r 1 8 w.strideH && r 1 8 w.dilV && r 1 8 w.dilH && r 0 15 w.padTop && r 0 15 w.padLeft &&
  r 1 65535 w.oh && r 1 65535 w.ow && decide (w.c * fmtBits f % 256 = 0)

/-- The element position (in elements from the tensor's base) of contraction index k of input row p; none outside the
image or beyond the contraction (R147). -/
def walkPosition (w : Walk) (p k : Nat) : Option Nat :=
  let kh := k / (w.kw * w.c)
  let kw := k / w.c % w.kw
  let ch := k % w.c
  let n := p / (w.oh * w.ow)
  let h : Int := (p / w.ow % w.oh * w.strideV + kh * w.dilV : Nat) - (w.padTop : Int)
  let x : Int := (p % w.ow * w.strideH + kw * w.dilH : Nat) - (w.padLeft : Int)
  if kh < w.kh ∧ 0 ≤ h ∧ h < w.h ∧ 0 ≤ x ∧ x < w.w then
    some (((n * w.h + h.toNat) * w.w + x.toNat) * w.c + ch)
  else none

/-- The element codes of a row's chunk. -/
def walkElems (w : Walk) (mem : Memory) (base : Nat) (f : Fmt) (p chunk : Nat) : List Nat :=
  (List.range 256).map (fun i =>
    match walkPosition w p (chunk * 256 + i) with
    | none => 0
    | some e =>
      let bit := e * fmtBits f
      leNat (readBytes mem (base + bit / 8) ((fmtBits f + 7) / 8 + 1)) / 2 ^ (bit % 8) % 2 ^ fmtBits f)

/-- The 32 B runs that the feeder gathers in one cc: 8, and 16 of an FP32 row of two cc (R148). -/
def runsPerCc (a : ArrayState) : Nat := if a.mode = .extended then 16 else 8

/-- The lines of a row's chunk that are read in its k-th cc of gathering, each once. -/
def walkGroup (a : ArrayState) (w : Walk) (base p chunk k : Nat) : List Nat :=
  let bits := fmtBits a.inFmt
  let elems := runsPerCc a * 256 / bits
  ((((List.range 256).drop (k * elems)).take elems).filterMap (fun i =>
    (walkPosition w p (chunk * 256 + i)).map (fun e => (base + e * bits / 8) / 64))).dedup

/-- The groups of cc in which a row's chunk is gathered. -/
def walkGroups (a : ArrayState) (w : Walk) (base p chunk : Nat) : List (List Nat) :=
  (List.range (ceilDiv (fmtBits a.inFmt) (runsPerCc a))).map (walkGroup a w base p chunk)

/-- Extra cc of lines gathered in one cc: one for each read of a bank after its first (R148). -/
def extraReads (lines : List Nat) : Nat := lines.length - ((lines.map (· % 32)).dedup).length

/-- Each line with the cc of its read after the first of its group: behind the earlier lines of its bank. -/
def spreadBanks : List Nat → List Nat → List (Nat × Nat)
  | _, [] => []
  | seen, l :: r => (l, (seen.filter (fun x => x % 32 == l % 32)).length) :: spreadBanks (l :: seen) r

/-- The reads of a row's groups, from a cc on, behind the lines `seen` that another row gathers in its first cc, and the extra
cc that they take. -/
def gather : List Nat → Nat → List (List Nat) → List (Nat × Nat) × Nat
  | _, _, [] => ([], 0)
  | seen, cc, g :: rest =>
    let fresh := g.filter (fun l => !seen.contains l)
    let extra := extraReads (seen ++ fresh) - extraReads seen
    let r := gather [] (cc + 1 + extra) rest
    ((spreadBanks seen fresh).map (fun e => (e.1, cc + e.2)) ++ r.1, extra + r.2)

end Sys2Proof.Machine
end

