-- ==== Sys2Proof/Machine/Issue.lean ====
section
/-! DEFINITION. How a bundle issues: whole in the first cc in which every one of its wait points is satisfied, and at most one
in a cc (R198 to R201, R205 to R207, R227, R306). -/

namespace Sys2Proof.Machine

/-- The condition of a wait point on a tile: a slot number comes from the registers as they stand (R200, R290). -/
def waitCond (t : Tile) : WaitOn → WaitCond
  | .sem k v => .sem k v
  | .take k v => .take k v
  | .message e => .message e
  | .credit e => .credit e
  | .arrived e slot k => .arrived e (t.regs.srcN slot % max 1 (t.recv e.val).slots) k
  | .barrier b => .barrier b
  | .watch h => .watch h

/-- The wait points of a bundle: those it lists and the operation's own. -/
def bundleWaits (i : Iss) (own : List WaitPoint) : List WaitPoint :=
  i.waits ++ own.filter (fun w => !i.waits.contains w)

/-- The tile's hold at a wait point of a bundle. -/
def Tile.holdOf (t : Tile) (b : Word) (w : WaitPoint) : Option Blocked :=
  t.blocked.find? (fun x => x.wp == w.wp && x.bundle == b)

/-- The condition of a wait point holds in this cc: it held at its start, and a WAIT with TAKE finds its value (R206, R295). -/
def Tile.waitMet (t : Tile) (w : WaitPoint) : Bool :=
  condHolds t.started (waitCond t w.on) && takeHolds t (waitCond t w.on)

/-- A wait point is satisfied: its condition holds, and it is not in the wake cc of a gated wait (R206, R306). -/
def Tile.waitOver (t : Tile) (b : Word) (w : WaitPoint) : Bool :=
  match t.holdOf b w with
  | some x => x.ready && !x.gated && takeHolds t x.cond
  | none => t.waitMet w

/-- The hold of a tile that comes to a wait point in this cc. -/
def State.newHold (s : State) (t : Tile) (b : Word) (w : WaitPoint) : Blocked :=
  let c := waitCond t w.on
  { wp := w.wp, cond := c, bundle := b, since := s.runCycle, sinceMt := s.clock.meridian,
    gated := condGates c && !t.waitMet w, waking := false, ready := t.waitMet w, hung := false }

/-- Hold a tile at the wait points of its next bundle, from now on unless it is already held there; a WAIT with TAKE that does not
find its value counts as unsatisfied in this cc (R295). -/
def State.holdAt (s : State) (i : Iss) (ws : List WaitPoint) : State :=
  s.modTile i.tile.val (fun t =>
    { t with blocked :=
        t.blocked.map (fun x => { x with ready := x.ready && takeHolds t x.cond }) ++
        ((ws.filter (fun w => (t.holdOf i.bundle w).isNone)).map (s.newHold t i.bundle)) })

/-- The wait points of a bundle are encodable: at most two, none with the index of debug halts (R205). -/
def waitsOk (ws : List WaitPoint) : Bool := decide (ws.length ≤ 2) && ws.all (fun w => decide (w.wp.val < 1023))

/-- A slot's operation can stand in the bundle that issues: a bundle with a routine call has its matrix, vector and reduction
slots empty (R215). -/
def Tile.slotOk (t : Tile) (slot : Byte) : Bool := t.routine.isNone || decide (2 < slot.toNat)

/-- A slot's operation issues with its bundle. -/
def Tile.takeSlot (t : Tile) (slot : Byte) : Tile := { t with slotsIn := slot :: t.slotsIn }

/-- Issue the operation of a slot with its own wait points. Nothing happens where the tile may not issue it or the slot has
already issued (R197); the first operation of a bundle issues the bundle, or is held with it (R206), or meets a missing line
(R227); an encoding outside the defined set stops the model (Table 06.11); otherwise `f` acts on the state in which the bundle
has begun. A wait point that the bundle does not list must hold as its operation comes. -/
def issueOn (i : Iss) (slot : Byte) (own : List WaitPoint) (wf : Bool) (s : State) (f : State → Res) : Res :=
  let t := s.tile i.tile.val
  let ws := bundleWaits i own
  if !mayIssue s i then .next s
  else if inBundle s i then
    if t.slotsIn.contains slot then .next s
    else if !(wf && waitsOk ws && t.slotOk slot) then .fault .encodingOutsideSet
    else if own.all (fun w => i.waits.contains w || t.waitMet w) then
      f (s.modTile i.tile.val (fun t => t.takeSlot slot))
    else .next s
  else if !storeHolds t i.bundle then .next (missLine s i)
  else if !(wf && waitsOk ws) then .fault .encodingOutsideSet
  else if ws.all (t.waitOver i.bundle) then
    f (s.modTile i.tile.val (fun t => (t.begin s.runCycle i.bundle).takeSlot slot))
  else .next (s.holdAt i ws)

/-- Issue an operation that is no wait point. -/
def issue (i : Iss) (slot : Byte) (wf : Bool) (s : State) (f : State → Res) : Res := issueOn i slot [] wf s f

/-- Issue an operation that is a wait point. -/
def issueWait (i : Iss) (slot : Byte) (wf : Bool) (wp : Fin 1024) (on : WaitOn) (s : State) (f : State → Res) : Res :=
  issueOn i slot [{ wp := wp, on := on }] wf s f

end Sys2Proof.Machine
end

