-- ==== Sys2Proof/Machine/Scalar.lean ====
section
/-! DEFINITION. The scalar slot (Table 06.4, R204), hardware loops (R208 to R213), routine calls (R215 to R217) and the
on-demand fill of the instruction store (R227). -/

namespace Sys2Proof.Machine

/-- A two-operand scalar operation (Table 06.4). -/
def aluValue (f : Alu) (a b : DWord) : DWord :=
  match f with
  | .add => a + b
  | .sub => a - b
  | .and => a &&& b
  | .or => a ||| b
  | .xor => a ^^^ b
  | .shl => shiftLeft a b.toNat
  | .shr => shiftRight a b.toNat
  | .sar => shiftArith a b.toNat
  | .cmp c u => if intCond c u 64 a b then 1 else 0
  | .min u => intMin u a b
  | .max u => intMax u a b

/-- A two-operand mask operation. -/
def maskValue (f : MaskOp) (a b : BitVec 256) : BitVec 256 :=
  match f with
  | .and => a &&& b
  | .or => a ||| b
  | .xor => a ^^^ b

/-- Replace the 64-lane group `g` of a mask by 64 bits. -/
def maskGroup (m : BitVec 256) (g : Nat) (v : DWord) : BitVec 256 :=
  (m &&& ~~~ ((BitVec.allOnes 64).setWidth 256 <<< (64 * g))) ||| (v.setWidth 256 <<< (64 * g))

/-! ### Results on their way (R187, R204) -/

/-- What a result on its way does to the registers. -/
def LateEff.onRegs (e : LateEff) (r : Regs) : Regs :=
  match e with
  | .scalar d w => r.setScalar d w
  | .p first vals => (vals.zipIdx).foldl (fun r x => r.setP (first + x.2) x.1) r
  | .v reg lane vals => r.writeLanes reg lane vals
  | .m reg w mask => r.setM reg ((w &&& mask) ||| (r.getM reg &&& ~~~ mask))
  | .scratch _ | .bits _ _ _ | .slot _ _ _ _ | .slotEnd _ _ | .check _ _ => r

/-- A scalar-slot result that is readable `latency` cc after its issue. -/
def Tile.scalarLate (t : Tile) (now latency : Nat) (b : Word) (e : LateEff) : Tile :=
  t.addLate { ready := now + latency, order := 2, slot := slotScalar, bundle := b, eff := e, uses := [], isOpen := false }

/-- A scalar-slot result of latency 1: the register holds it from now on, and it is the last of the writes that the next cc finds
(R187, R204). -/
def Tile.scalarNow (t : Tile) (now : Nat) (b : Word) (e : LateEff) : Tile :=
  (t.modRegs e.onRegs).scalarLate now 1 b e

/-- The result of a latency-1 scalar operation on the sampled registers (R200, Table 06.4). -/
def scalarResult (op : ScalarOp) (r : Regs) : LateEff :=
  let all := BitVec.allOnes 256
  match op with
  | .alu f d a b => .scalar d (aluValue f (r.scalar a) (r.scalar b))
  | .not d a => .scalar d (~~~ r.scalar a)
  | .select d a b c => .scalar d (if r.scalar c = 0 then r.scalar b else r.scalar a)
  | .move d a => .scalar d (r.scalar a)
  | .maskSet d => .m d.val all all
  | .maskClear d => .m d.val 0 all
  | .maskNot d a => .m d.val (~~~ r.getM a.val) all
  | .maskCopy d a => .m d.val (r.getM a.val) all
  | .mask f d a b => .m d.val (maskValue f (r.getM a.val) (r.getM b.val)) all
  | .maskFromG d g k => .m d.val (maskGroup 0 k.val (r.getG g.val)) (maskGroup 0 k.val (BitVec.allOnes 64))

/-- SCALAR_OP (R204). -/
def opScalarOp (i : Iss) (op : ScalarOp) (s : State) : Res :=
  issue i slotScalar true s (fun s =>
    .next (s.modTile i.tile.val (fun t => t.scalarNow s.runCycle.toNat i.bundle (scalarResult op t.samp))))

/-- SCALAR_MULTIPLY: the low 64 bits, readable after 3 cc (Table 06.4). -/
def opScalarMultiply (i : Iss) (d : ScalarDst) (a b : ScalarSrc) (s : State) : Res :=
  issue i slotScalar true s (fun s =>
    .next (s.modTile i.tile.val (fun t =>
      t.scalarLate s.runCycle.toNat 3 i.bundle (.scalar d (t.samp.scalar a * t.samp.scalar b)))))

/-- The iteration index of the loop at a nesting level, 0 beyond the active loops (R213). -/
def Tile.loopIndex (t : Tile) (level : Nat) : Word := ((t.loops[level]?).map (·.index)).getD 0

/-- READ_LOOP_INDEX (R213). -/
def opReadLoopIndex (i : Iss) (d : ScalarDst) (level : Fin 4) (s : State) : Res :=
  issue i slotScalar true s (fun s =>
    .next (s.modTile i.tile.val (fun t =>
      t.scalarNow s.runCycle.toNat i.bundle (.scalar d ((t.loopIndex level.val).setWidth 64)))))

/-! ### Scalar accesses to the scratchpad -/

/-- The access of the scalar slot to `n` bytes in the issue cc. -/
def scalarUse (now : Nat) (b : Word) (region a n : Nat) (isWrite : Bool) : RangeUse :=
  { region := region, addr := a, len := n, checked := none, cycle := now, lineOffset := 0, isWrite := isWrite,
    isMerge := isWrite, slot := slotScalar, group := 0, bundle := b }

/-- The access of a scalar operation of `size` bytes: for an address that is not aligned as Table 06.4 says, of which the spec
states no bytes, the one line that holds it. -/
def alignedUse (now : Nat) (b : Word) (region a size : Nat) (isWrite : Bool) : RangeUse :=
  if a % size = 0 then scalarUse now b region a size isWrite
  else scalarUse now b region (a / 64 * 64) 64 isWrite

/-- Plan an access of this cc. -/
def Tile.addUse (t : Tile) (u : RangeUse) : Tile := { t with plan := t.plan ++ [u] }

/-- Cc until loaded data is readable (Table 06.4, Table 07.3). -/
def Tile.loadLatency (t : Tile) (region : Nat) : Nat := if t.classW region then 4 else 3

/-- SCALAR_LOAD: 8 bytes, little-endian (Table 06.4); an address that is not 8-byte aligned, for which the spec states no bytes,
leaves a free value. -/
def opScalarLoad (i : Iss) (d : ScalarDst) (addr : ScalarSrc) (region : Fin 64) (s : State) : Res :=
  issue i slotScalar true s (fun s =>
    let t := s.tile i.tile.val
    let now := s.runCycle.toNat
    let a := (t.samp.scalar addr).toNat
    let v : DWord := if a % 8 = 0 then BitVec.ofNat 64 (leNat (readBytes t.scratch a 8)) else Config.freeDWord s.freeCtr
    let t1 := (t.addUse (alignedUse now i.bundle region.val a 8 false)).scalarLate now (t.loadLatency region.val)
      i.bundle (.scalar d v)
    .next ((s.setTile i.tile.val t1).drawn 1))

/-- What a scalar store writes: 8 bytes, or free values in the line that holds an address that is not 8-byte aligned, within
the scratchpad. -/
def storeRuns (a : Nat) (v : DWord) (ctr : Nat) : List (Nat × Bytes) :=
  if a % 8 = 0 then [(a, leBytes 8 v.toNat)]
  else [(a / 64 * 64, freeBytes ctr (min 64 (scratchBytes - a / 64 * 64)))]

/-- SCALAR_STORE: a merge write of 8 bytes in the issue cc (R241), readable after 2 cc. -/
def opScalarStore (i : Iss) (a : ScalarSrc) (addr : ScalarSrc) (region : Fin 64) (s : State) : Res :=
  issue i slotScalar true s (fun s =>
    let t := s.tile i.tile.val
    let now := s.runCycle.toNat
    let ad := (t.samp.scalar addr).toNat
    let t1 := (t.addUse (alignedUse now i.bundle region.val ad 8 true)).scalarLate now 2 i.bundle
      (.scratch (storeRuns ad (t.samp.scalar a) s.freeCtr))
    .next ((s.setTile i.tile.val t1).drawn 64))

/-- P_BLOCK_LOAD: 64 bytes into eight P registers (R220); free values at an address that is not 64-byte aligned. -/
def opPBlockLoad (i : Iss) (first : PReg) (addr : ScalarSrc) (region : Fin 64) (s : State) : Res :=
  issue i slotScalar (first.val % 8 == 0) s (fun s =>
    let t := s.tile i.tile.val
    let now := s.runCycle.toNat
    let a := (t.samp.scalar addr).toNat
    let bs := if a % 64 = 0 then readBytes t.scratch a 64 else freeBytes s.freeCtr 64
    let t1 := (t.addUse (alignedUse now i.bundle region.val a 64 false)).scalarLate now (t.loadLatency region.val)
      i.bundle (.p first.val ((List.range 8).map (fun k => BitVec.ofNat 64 (leNat (slice bs (8 * k) 8)))))
    .next ((s.setTile i.tile.val t1).drawn 64))

/-- LANE_INSERT_EXTRACT: G bits [31:0] into a lane, or a lane into G, whose high bits are 0, readable after 2 cc
(Table 06.4). -/
def opLaneInsertExtract (i : Iss) (op : LaneOp) (s : State) : Res :=
  issue i slotScalar true s (fun s =>
    .next (s.modTile i.tile.val (fun t =>
      t.scalarLate s.runCycle.toNat 2 i.bundle
        (match op with
         | .insert v lane g => .v v.val lane.val [((t.samp.getG g.val).setWidth 32, true)]
         | .extract g v lane => .scalar (.g g) ((t.samp.getV v.val lane.val).setWidth 64)))))

/-! ### Hardware loops (R208 to R213) -/

/-- The end of a body whose last bundle has issued: the innermost loop first, an outer one of the same last bundle
only when the inner exits (R211, R212). -/
def endLoops (b : Word) : List LoopFrame → List LoopFrame × Word
  | [] => ([], b + 1)
  | f :: rest =>
    if f.last = b then
      if f.index + 1 < f.count then ({ f with index := f.index + 1 } :: rest, f.first)
      else endLoops b rest
    else (f :: rest, b + 1)

/-- The next bundle after bundle b, whose loops are resolved with it. -/
def Tile.resolve (t : Tile) (b : Word) : Tile :=
  { t with loops := (endLoops b t.loops).1, nextBundle := (endLoops b t.loops).2, resolved := true }

/-- LOOP_START: a count of 0 skips the body, and the loops that end with it are resolved; otherwise the loop enters with index
0 (R208 to R210, R212). -/
def opLoopStart (i : Iss) (l : LReg) (last : Word) (s : State) : Res :=
  issue i slotScalar (decide (i.bundle < last)) s (fun s =>
    let t := s.tile i.tile.val
    if 4 ≤ t.loops.length then .fault .nestingTooDeep
    else
      let n := t.samp.getL l.val
      if n = 0 then .next (s.setTile i.tile.val (t.resolve last))
      else .next (s.setTile i.tile.val
        { t with loops := { first := i.bundle + 1, last := last, count := n, index := 0 } :: t.loops }))

/-- The loops that the bundle of this cc ends are resolved, once (R211). -/
def Tile.endBundle (t : Tile) (now : DWord) : Tile :=
  match t.cur with
  | some b => if t.issuedAt = some now ∧ t.resolved = false then t.resolve b else t
  | none => t

/-- LOOP_BODY_END: the bundle that issues in this cc is the last of the innermost body (R211). -/
def execLoopBodyEnd (tile : TileNo) (s : State) : Res :=
  let t := s.tile tile.val
  match t.cur, t.loops with
  | some b, f :: _ =>
    if s.run.state = .running ∧ f.last = b then .next (s.setTile tile.val (t.endBundle s.runCycle)) else .next s
  | _, _ => .next s

/-! ### Routine calls -/

/-- An engine of the array holds a running or a pending operation. -/
def EngineState.busy (e : EngineState) : Bool := e.running.isSome || e.pending.isSome

/-- The array holds an operation. -/
def ArrayState.busy (a : ArrayState) : Bool :=
  a.whole.busy || a.loader.busy || a.feeder.busy || a.accumStage.busy || a.drainEngine.busy

/-- The vector engine holds a pass. -/
def VectorState.busy (v : VectorState) : Bool := v.running.isSome || v.pending.isSome

/-- An engine that a routine declares is busy (R217). -/
def routineEnginesBusy (t : Tile) (r : Routine) : Bool :=
  (r.engines.getLsbD 0 && t.array.busy) || (r.engines.getLsbD 1 && t.vector.busy) ||
  (r.engines.getLsbD 2 && (t.vector.waitingRed.isSome || !t.vector.redDue.isEmpty))

/-- ROUTINE_CALL (R215 to R218): the routine runs for its C cc, and the bundle that calls it holds no matrix, vector or
reduction operation. -/
def opRoutineCall (i : Iss) (id : BitVec 16) (s : State) : Res :=
  issue i slotScalar ((s.routineOf id).isSome) s (fun s =>
    match s.routineOf id with
    | none => .fault .encodingOutsideSet
    | some r =>
      let t := s.tile i.tile.val
      let p := routineParams t.samp
      if t.slotsIn.any (fun x => decide (x.toNat ≤ 2)) then .fault .encodingOutsideSet
      else if 2 < t.loops.length then .fault .nestingTooDeep
      else if routineEnginesBusy t r then .fault .routineEngineBusy
      else if !routineInRange r p then .fault .routineParameterRange
      else .next (s.setTile i.tile.val
        { t with routine := some { id := id, params := p, call := s.runCycle.toNat, cycles := s.routineCycles r p } }))

/-- A routine whose C cc have passed at the end of this cc returns: its results are readable from the next cc on, in which the
caller's next bundle may issue (R215, R216). -/
def State.routineReturn (s : State) (tile : Nat) : State :=
  let t := s.tile tile
  match t.routine with
  | none => s
  | some r =>
    if r.call + r.cycles ≤ s.runCycle.toNat then
      let seed := ((s.runJob).map (·.seed)).getD 0
      let out := routineOut r.id r.params t.scratch seed
      s.setTile tile ({ t with
        regs := routineRegs t.regs r.id r.params t.scratch, routine := none, cur := none, issuedAt := some s.runCycle,
        flags := t.flags ||| out.flags }.addLate
          { ready := s.runCycle.toNat + 1, order := 0, slot := slotVector, bundle := routineBundle r.id 0,
            eff := .scratch out.writes, uses := [], isOpen := t.faulted })
    else s

/-- ROUTINE_RETURN. -/
def execRoutineReturn (tile : TileNo) (s : State) : Res :=
  if s.runActive then .next (s.routineReturn tile.val) else .next s

/-- ISTORE_MISS_FILL: the line that holds the bundle back arrives (R227). -/
def execIstoreMissFill (tile : TileNo) (line : Nat) (s : State) : Res :=
  let t := s.tile tile.val
  if t.istoreHeld = some line then
    .next (s.setTile tile.val { t with istore := mset t.istore (line % 2048) line, istoreHeld := none })
  else .next s

end Sys2Proof.Machine
end

