-- ==== Sys2Proof/Machine/Matrix.lean ====
section
/-! DEFINITION. The matrix slot (Table 04.6): an operation is sampled at issue and becomes pending, starts by Table 04.7, and its
rows move cc by cc (R126 to R158); a feed or drain that waits for a channel freezes the tile (R139 to R142). -/

namespace Sys2Proof.Machine

/-! ### Engines (R138) -/

/-- An engine of the array by name. -/
def ArrayState.engine (a : ArrayState) : ArrayEngine → EngineState
  | .whole => a.whole
  | .loader => a.loader
  | .feeder => a.feeder
  | .accum => a.accumStage
  | .drain => a.drainEngine

/-- Put an engine. -/
def ArrayState.setEngine (a : ArrayState) (k : ArrayEngine) (e : EngineState) : ArrayState :=
  match k with
  | .whole => { a with whole := e }
  | .loader => { a with loader := e }
  | .feeder => { a with feeder := e }
  | .accum => { a with accumStage := e }
  | .drain => { a with drainEngine := e }

/-- Put the running operation of an engine. -/
def ArrayState.setRun (a : ArrayState) (k : ArrayEngine) (r : ArrayRun) : ArrayState :=
  a.setEngine k { a.engine k with running := some r }

/-- The engine of an operation (Table 04.6). -/
def ArrayOp.engine : ArrayOp → ArrayEngine
  | .setMode _ => .whole
  | .load _ _ _ _ _ _ => .loader
  | .feed _ _ _ _ _ _ => .feeder
  | .finish _ _ _ => .accum
  | .drain _ _ _ _ => .drain

/-- Rows that an operation moves: a load always takes 256 (R135). -/
def ArrayOp.rows : ArrayOp → Nat
  | .setMode _ => 0
  | .load _ _ _ _ _ _ => 256
  | .feed _ m _ _ _ _ => m
  | .finish _ rows _ => rows
  | .drain _ rows _ _ => rows

/-- Half cc from one row of an operation to the next. -/
def ArrayState.rowTime (a : ArrayState) : ArrayOp → Nat
  | .feed _ _ _ _ _ _ => halfCc a
  | _ => 2

/-- All engines. -/
def arrayEngines : List ArrayEngine := [.whole, .loader, .feeder, .accum, .drain]

/-- An engine has nothing running. -/
def ArrayState.rests (a : ArrayState) (k : ArrayEngine) : Bool := (a.engine k).running.isNone

/-- An engine holds a pending operation that was issued before operation `n`. -/
def ArrayState.pendsBefore (a : ArrayState) (k : ArrayEngine) (n : Nat) : Bool :=
  ((a.engine k).pending.map (fun p => decide (p.1 < n))).getD false

/-- A feed that was issued before operation `n` has rows that have not left the accumulate stage. -/
def ArrayState.feedsBefore (a : ArrayState) (n : Nat) : Bool :=
  ((a.feeder.running.map (fun r => decide (r.seq < n))).getD false) || a.pendsBefore .feeder n ||
  a.accLate.any (fun w => (w.fed.map (fun k => decide (k < n))).getD false)

/-- Whether the pending operation `n` of an engine may start in this cc (Table 04.7, R128, R136). DESIGN CHOICE: an operation
issued after a set mode that is still pending waits for it (log entry 102). -/
def ArrayState.mayStart (a : ArrayState) (k : ArrayEngine) (n : Nat) : Bool :=
  a.rests k && a.rests .whole && !a.pendsBefore .whole n &&
  (match k with
   | .whole => arrayEngines.all (fun e => a.rests e && !a.pendsBefore e n) && a.accLate.isEmpty
   | .loader => a.rests .feeder && !a.pendsBefore .feeder n
   | .feeder => a.rests .loader && !a.pendsBefore .loader n
   | .accum => !a.feedsBefore n
   | .drain => true)

/-- What the start of an operation changes beside its engine: the modes of a set mode, and the count of valid rows of a load
(R128, R137). -/
def ArrayState.onStart (a : ArrayState) : ArrayOp → ArrayState
  | .setMode m =>
    { a with mode := m.mode, inFmt := m.inFmt, wFmt := m.wFmt, accum := m.accum, scaleA := m.scaleA, scaleW := m.scaleW }
  | .load _ _ _ k _ _ => { a with validRows := min k 256 }
  | _ => a

/-- The registers as an operation that starts in the cc `now` finds them: before the writes of the bundle of that cc. -/
def Tile.regsAt (t : Tile) (now : DWord) : Regs :=
  if t.issuedAt = some now ∧ t.cur.isSome then t.samp else t.regs

/-- An operation as it starts; a feed samples the FP4 tensor scales (R87, R131). -/
def Tile.newRun (t : Tile) (now : DWord) (n : Nat) (b : Word) (op : ArrayOp) : ArrayRun :=
  { bundle := b, seq := n, op := op, due := 2 * now.toNat, row := 0, read := 0, readDue := 2 * now.toNat, reads := [],
    entry := [], got := [], hold := 0, out := [], g := t.array.gScale (t.regsAt now) }

/-- The pending operation of an engine starts in the cc `now` where Table 04.7 lets it. -/
def Tile.startPending (t : Tile) (now : DWord) (k : ArrayEngine) : Tile :=
  match (t.array.engine k).pending with
  | some (n, b, op) =>
    if t.array.mayStart k n then
      let e : EngineState := { running := some (t.newRun now n b op), pending := none, block := none }
      { t with array := (t.array.onStart op).setEngine k e }
    else t
  | none => t

/-- Every engine's pending operation that may start in the cc `now` starts. -/
def Tile.startAll (t : Tile) (now : DWord) : Tile := arrayEngines.foldl (fun x k => x.startPending now k) t

/-! ### Reads of the loader and the feeder (R135, R145 to R148, Table 07.3) -/

/-- Cc by which the array reads a row before it takes it (Table 07.3). -/
def Tile.readLead (t : Tile) (region : Nat) : Nat := if t.classW region then 2 else 1

/-- The region that an operation reads. -/
def ArrayOp.readsFrom : ArrayOp → Option Nat
  | .load _ _ _ _ _ region => some region.val
  | .feed (.rows _ _ region) _ _ _ _ _ => some region.val
  | .feed (.walk w _) _ _ _ _ _ => some w.region.val
  | _ => none

/-- A read of the array. -/
def arrayRead (b : Word) (region addr len cycle row : Nat) : RangeUse :=
  { region := region, addr := addr, len := len, checked := none, cycle := cycle, lineOffset := 0, isWrite := false,
    isMerge := false, slot := slotMatrix, group := row, bundle := b }

/-- The reads of weight row q in the cc `c`: a row, or element q of a packed diagonal, and the 256 column scales of a block's first
row. DESIGN CHOICE: the diagonal's elements are packed from the address on and the row stride is not used, and the column scales
of a block follow those of the block before it (log entry 103). -/
def ArrayState.loadReads (a : ArrayState) (b : Word) (addr stride scaleAddr k : Nat) (diagonal : Bool) (region q c : Nat) :
    List RangeUse :=
  let w := fmtBits a.wFmt
  if min k 256 ≤ q then []
  else
    [if diagonal then arrayRead b region (addr + q * w / 8) ((w + 7) / 8) c q
     else arrayRead b region (addr + q * stride) (32 * w) c q] ++
    (if fmtIsMx a.wFmt && q % 32 == 0 then [arrayRead b region (scaleAddr + 8 * q) 256 c q] else [])

/-- The reads of row q of an operation, the first of them in the cc `c`, and the extra cc that they take. The second row of a cc
of FP4 is gathered behind the first one's lines (R130, R148). -/
def ArrayState.rowReads (a : ArrayState) (r : ArrayRun) (q c : Nat) : List RangeUse × Nat :=
  match r.op with
  | .load addr stride scaleAddr k diagonal region => (a.loadReads r.bundle addr stride scaleAddr k diagonal region.val q c, 0)
  | .feed (.rows addr stride region) _ _ _ _ _ =>
    ([arrayRead r.bundle region.val (addr + q * stride) (rowBytes a.inFmt) c q], 0)
  | .feed (.walk w addr) _ _ chunk _ _ =>
    let seen := if halfCc a = 1 ∧ q % 2 = 1 then (walkGroups a w addr (q - 1) chunk).flatten else []
    let g := gather seen (c - extraReads seen) (walkGroups a w addr q chunk)
    (g.1.map (fun e => arrayRead r.bundle w.region.val (e.1 * 64) 64 e.2 q), g.2)
  | _ => ([], 0)

/-- Fix the reads of the rows whose first read falls in the cc `now` or before it: `lead` cc before the row enters. The read of a
row that enters with or right after the start falls before the start (DEDUCED; log entry 104). -/
def ArrayState.planReads (a : ArrayState) (lead now : Nat) : Nat → ArrayRun → ArrayRun
  | 0, r => r
  | fuel + 1, r =>
    if r.read < r.op.rows ∧ (r.readDue < 2 * (now + lead + 1) ∨ (a.rowTime r.op = 1 ∧ r.read % 2 = 1)) then
      let u := a.rowReads r r.read (r.readDue / 2 - lead)
      ArrayState.planReads a lead now fuel
        { r with read := r.read + 1, readDue := r.readDue + a.rowTime r.op + 2 * u.2,
                 reads := r.reads ++ u.1.map (fun x => (r.read, x)), entry := r.entry ++ [r.readDue + 2 * u.2] }
    else r

/-- Where the bytes of a row lie among those that the reads have brought. -/
def gotBase (q : Nat) : Nat := q * 2 ^ 25

/-- Make the reads that fall in the cc `now` or before it. -/
def ArrayRun.makeReads (r : ArrayRun) (mem : Memory) (now : Nat) : ArrayRun :=
  { r with reads := r.reads.filter (fun u => decide (now < u.2.cycle)),
           got := (r.reads.filter (fun u => decide (u.2.cycle ≤ now))).foldl (fun m u =>
             writeBytes m (gotBase u.1 + u.2.addr) (readBytes mem u.2.addr u.2.len)) r.got }

/-- The reads of an engine in the cc `now`. -/
def Tile.readRows (t : Tile) (now : Nat) (k : ArrayEngine) : Tile :=
  match (t.array.engine k).running with
  | some r0 =>
    match r0.op.readsFrom with
    | some region =>
      let r := t.array.planReads (t.readLead region) now 8 r0
      { t with array := t.array.setRun k (r.makeReads t.scratch now),
               plan := t.plan ++ (r.reads.filter (fun u => decide (u.2.cycle ≤ now))).map (·.2) }
    | none => t
  | none => t

/-- The next row has moved: a row that was read leaves the queue of those. -/
def ArrayRun.moved (r : ArrayRun) (time : Nat) : ArrayRun :=
  { r with row := r.row + 1, due := r.entry.headD r.due + time, entry := r.entry.tail,
           got := r.got.filter (fun e => decide (gotBase (r.row + 1) ≤ e.1)) }

/-- A row that was read moves in the cc `now`. -/
def ArrayRun.rowNow (r : ArrayRun) (now : Nat) : Bool :=
  match r.entry with
  | e :: _ => decide (e < 2 * (now + 1))
  | [] => false

/-! ### Open values after a contract fault (R236) -/

/-- A value that the array writes: open once one of its accesses has raised a contract fault. -/
def ArrayState.opened (a : ArrayState) (r : ArrayRun) (key : Nat) (w : Word) : Word :=
  if a.isOpen then Config.openLane r.bundle r.seq r.row key else w

/-- A write of the accumulate stage with its values so. -/
def ArrayState.openWrite (a : ArrayState) (r : ArrayRun) (w : AccWrite) : AccWrite :=
  { w with cells := w.cells.map (fun c => (c.1, a.opened r c.1 c.2)) }

/-! ### Rows (R126, R127, R135, R150 to R153) -/

/-- The codes that weight row q of a load writes, with their cells. -/
def ArrayState.weightCells (a : ArrayState) (r : ArrayRun) (addr stride : Nat) (diagonal : Bool) (q : Nat) :
    List (Nat × Word) :=
  let w := fmtBits a.wFmt
  if diagonal then
    let at' := addr + q * w / 8
    [(q * 256 + q, BitVec.ofNat 32 (leNat (readBytes r.got (gotBase q + at') ((w + 7) / 8)) / 2 ^ (q * w % 8) % 2 ^ w))]
  else
    ((rowElems a.wFmt (readBytes r.got (gotBase q + addr + q * stride) (32 * w))).zipIdx).map (fun e =>
      (q * 256 + e.2, BitVec.ofNat 32 e.1))

/-- The column scales that weight row q of a load writes, with their keys (Table 04.4). -/
def ArrayState.scaleCells (a : ArrayState) (r : ArrayRun) (scaleAddr q : Nat) : List (Nat × Byte) :=
  if fmtIsMx a.wFmt && q % 32 == 0 then
    ((readBytes r.got (gotBase q + scaleAddr + 8 * q) 256).zipIdx).map (fun e => (8 * q + e.2, e.1))
  else []

/-- The load writes one weight row in the cc `now` (R135). -/
def ArrayState.loadRow (a : ArrayState) (now : Nat) : ArrayState :=
  match a.loader.running with
  | some r =>
    match r.op with
    | .load addr stride scaleAddr k diagonal _ =>
      if r.rowNow now then
        let q := r.row
        let on := decide (q < min k 256)
        { (a.setRun .loader (r.moved 2)) with
          weights := (if on then a.weightCells r addr stride diagonal q else []).foldl
            (fun m c => mset m c.1 (a.opened r c.1 c.2)) a.weights,
          wScales := (if on then a.scaleCells r scaleAddr q else []).foldl
            (fun m c => mset m c.1 ((a.opened r (65536 + c.1) (c.2.setWidth 32)).setWidth 8)) a.wScales }
      else a
    | _ => a
  | none => a

/-- The input row q that a feed from the scratchpad has read. DESIGN CHOICE: the scales of an image walk's microscaled rows,
whose place the spec does not give, are open values (log entry 105). -/
def ArrayState.readRow (a : ArrayState) (r : ArrayRun) : FeedFrom → Nat → RowData
  | .rows addr stride _, _ => inputRow a.inFmt (readBytes r.got (gotBase r.row + addr + r.row * stride) (rowBytes a.inFmt))
  | .walk w addr, chunk =>
    { elems := walkElems w r.got (gotBase r.row + addr) a.inFmt r.row chunk,
      scales := (List.range 8).map (fun b =>
        if fmtIsMx a.inFmt then (Config.openLane r.bundle r.seq r.row b).setWidth 8 else 127) }
  | .endpoint _, _ => { elems := [], scales := [] }

/-- A row of a running feed enters in the cc `now`. -/
def ArrayState.enterRow (a : ArrayState) (r : ArrayRun) (now base chunk : Nat) (overwrite : Bool) (pass : Nat) (row : RowData) :
    ArrayState :=
  { (a.setRun .feeder (r.moved (halfCc a))) with
    accLate := a.accLate ++ [a.openWrite r (a.feedRow r.seq r.g row now r.row base chunk overwrite pass)] }

/-- The rows that the feeder has read enter in the cc `now`, two at the rate of FP4 (R130). -/
def ArrayState.feedRead (now : Nat) : Nat → ArrayState → ArrayState
  | 0, a => a
  | fuel + 1, a =>
    match a.feeder.running with
    | some r =>
      match r.op with
      | .feed src _ base chunk overwrite pass =>
        if r.rowNow now then
          ArrayState.feedRead now fuel (a.enterRow r now base chunk overwrite pass (a.readRow r src chunk))
        else a
      | _ => a
    | none => a

/-- The accumulate stage finishes one row in the cc `now` (R153). -/
def ArrayState.finishCycle (a : ArrayState) (now : Nat) : ArrayState :=
  match a.accumStage.running with
  | some r =>
    match r.op with
    | .finish base rows n =>
      if r.row < rows ∧ r.due < 2 * (now + 1) then
        { (a.setRun .accum (r.moved 2)) with
          accLate := a.accLate ++ [a.openWrite r (a.finishRow now n (base + r.row) (Config.openLane r.bundle r.seq r.row))] }
      else a
    | _ => a
  | none => a

/-! ### Channel data for a feed (R156) -/

/-- Bytes of a receive endpoint that the feeder has not consumed. -/
def availBytes (r : RecvEp) : Nat := (r.msgs.map (fun m => m.data.length - m.used)).sum

/-- Take n bytes of the messages in order: the bytes, the messages left, and the origins of those fully consumed. -/
def takeBytes : Nat → List Msg → Bytes × List Msg × List MsgOrigin
  | _, [] => ([], [], [])
  | n, m :: rest =>
    let left := m.data.length - m.used
    if n = 0 then ([], m :: rest, [])
    else if n < left then ((m.data.drop m.used).take n, { m with used := m.used + n } :: rest, [])
    else
      let r := takeBytes (n - left) rest
      (m.data.drop m.used ++ r.1, r.2.1, m.origin :: r.2.2)

/-- Return the credits of a list of messages. -/
def State.creditAll (s : State) : List MsgOrigin → State
  | [] => s
  | o :: r => State.creditAll (s.creditBack o) r

/-- Rows that the feeder takes from a receive endpoint in the cc `now`; a row that has not wholly arrived is due again in the
next cc (R139). -/
def State.feedChannel (t : TileNo) (now : Nat) : Nat → State → State
  | 0, s => s
  | fuel + 1, s =>
    let x := s.tile t.val
    match x.array.feeder.running with
    | some r =>
      match r.op with
      | .feed (.endpoint ep) m base chunk overwrite pass =>
        let n := rowBytes x.array.inFmt
        let q := x.recv ep.val
        if r.row < m ∧ r.due < 2 * (now + 1) then
          if n ≤ availBytes q then
            let d := takeBytes n q.msgs
            State.feedChannel t now fuel
              ((s.setTile t.val { (x.setRecv ep.val { q with msgs := d.2.1 }) with
                  array := x.array.enterRow r now base chunk overwrite pass (inputRow x.array.inFmt d.1) }).creditAll d.2.2)
          else s.setTile t.val { x with array := x.array.setRun .feeder { r with due := 2 * (now + 1) } }
        else s
      | _ => s
    | none => s

/-! ### Drain (R154 to R158) -/

/-- The write of a drained row to the scratchpad, in the cc in which the drain reads the row (DESIGN CHOICE; log entry 104). -/
def drainWrite (b : Word) (region addr len row : Nat) : RangeUse :=
  { region := region, addr := addr, len := len, checked := none, cycle := 1, lineOffset := 0, isWrite := true,
    isMerge := false, slot := slotMatrix, group := row, bundle := b }

/-- Rows of a message on a send endpoint (R157). -/
def rowsPerMsg (x : SendEp) (f : Fmt) : Nat := max 1 (x.msgSize / (32 * fmtBits f))

/-- The freeze cc that follow a row on a channel inside the module: it moves 512 B per cc (R157). -/
def drainHold (x : SendEp) (bytes : Nat) (more : Bool) : Nat :=
  if more && x.port.isNone && x.declared && !x.closed then ceilDiv bytes 512 - 1 else 0

/-- A drained row goes to a send endpoint: it joins its message, which is sent as it is full or the rows end. -/
def State.drainChannel (s : State) (t : TileNo) (r : ArrayRun) (rows : Nat) (f : Fmt) (ep : Fin 64) (codes : List Nat) : State :=
  let x := s.tile t.val
  let e := x.send ep.val
  let out := r.out ++ rowOut f codes
  let more := decide (r.row + 1 < rows)
  let full := decide ((r.row + 1) % rowsPerMsg e f = 0) || !more
  let r1 := { (r.moved 2) with out := if full then [] else out, hold := drainHold e (32 * fmtBits f) more }
  let s1 := s.setTile t.val { x with array := x.array.setRun .drain r1 }
  if full then (s1.sendData t ep none out slotMatrix r.bundle).1 else s1

/-- The drain delivers one row in the cc `now` (R154, R155); a row that finds no credit is due again in the next cc (R139). -/
def State.drainCycle (s : State) (t : TileNo) (now : Nat) : State :=
  let x := s.tile t.val
  let a := x.array
  match a.drainEngine.running with
  | some r =>
    match r.op with
    | .drain base rows f dest =>
      if r.row < rows ∧ r.due < 2 * (now + 1) then
        let codes := ((a.drainRow (base + r.row) f).zipIdx).map (fun c =>
          (a.opened r c.2 (BitVec.ofNat 32 c.1)).toNat % 2 ^ fmtBits f)
        match dest with
        | .scratch addr region =>
          let at' := addr + r.row * (32 * fmtBits f)
          s.setTile t.val ({ x with array := a.setRun .drain (r.moved 2) }.addLate
            { ready := now + 1, order := 0, slot := slotMatrix, bundle := r.bundle, eff := .scratch [(at', rowOut f codes)],
              uses := [drainWrite r.bundle region.val at' (32 * fmtBits f) r.row], isOpen := a.isOpen })
        | .vector =>
          s.setTile t.val { x with array := { (a.setRun .drain (r.moved 2)) with
            drained := a.drained ++ [codes.map (fmtWiden f false)] } }
        | .endpoint ep =>
          if (x.send ep.val).sendable then s.drainChannel t r rows f ep codes
          else s.setTile t.val { x with array := a.setRun .drain { r with due := 2 * (now + 1) } }
      else s
    | _ => s
  | none => s

/-! ### One cc of the array -/

/-- An engine whose operation has moved its last row by the end of the cc `now` is free in the next. -/
def EngineState.finish (e : EngineState) (now : Nat) : EngineState :=
  match e.running with
  | some r => if r.row = r.op.rows ∧ r.due ≤ 2 * (now + 1) then { e with running := none } else e
  | none => e

/-- Operations that have ended. -/
def ArrayState.finishEngines (a : ArrayState) (now : Nat) : ArrayState :=
  arrayEngines.foldl (fun a k => a.setEngine k ((a.engine k).finish now)) a

/-- One cc of a tile's array that is no freeze cc: starts, reads, the rows of every engine, ends. -/
def State.cycleArray (s : State) (t : TileNo) : State :=
  let now := s.runCycle.toNat
  let s1 := s.modTile t.val (fun x => x.startAll s.runCycle)
  let s2 := s1.modTile t.val (fun x => (x.readRows now .loader).readRows now .feeder)
  let s3 := s2.modTile t.val (fun x => { x with array := (ArrayState.feedRead now 2 (x.array.loadRow now)).finishCycle now })
  let s4 := (State.feedChannel t now 2 s3).drainCycle t now
  s4.modTile t.val (fun x => { x with array := x.array.finishEngines now })

/-! ### Freezes (R139 to R142) -/

/-- The feeder needs, in the cc `next`, a row of a receive endpoint that has not wholly arrived. -/
def Tile.feederWaits (t : Tile) (next : Nat) : Option (Fin 64) :=
  match t.array.feeder.running with
  | some r =>
    match r.op with
    | .feed (.endpoint ep) m _ _ _ _ =>
      if r.row < m ∧ r.due < 2 * (next + 1) ∧ availBytes (t.recv ep.val) < rowBytes t.array.inFmt then some ep else none
    | _ => none
  | none => none

/-- The drain must place a row on a send endpoint that lacks credit, in the cc `next`. -/
def Tile.drainWaits (t : Tile) (next : Nat) : Option (Fin 64) :=
  match t.array.drainEngine.running with
  | some r =>
    match r.op with
    | .drain _ rows _ (.endpoint ep) =>
      if r.row < rows ∧ r.due < 2 * (next + 1) ∧ (t.send ep.val).sendable = false then some ep else none
    | _ => none
  | none => none

/-- The drain's rate asks for a freeze cc (R157). -/
def Tile.drainHolds (t : Tile) : Bool := (t.array.drainEngine.running.map (fun r => decide (0 < r.hold))).getD false

/-- The cc `next` is a freeze cc. -/
def Tile.freezes (t : Tile) (next : Nat) : Bool :=
  (t.feederWaits next).isSome || (t.drainWaits next).isSome || t.drainHolds

/-- A running operation one cc later. -/
def ArrayRun.shift (r : ArrayRun) : ArrayRun :=
  { r with due := r.due + 2, readDue := r.readDue + 2, entry := r.entry.map (· + 2), hold := r.hold - 1,
           reads := r.reads.map (fun u => (u.1, { u.2 with cycle := u.2.cycle + 1 })) }

/-- An engine one cc later. -/
def EngineState.shift (e : EngineState) : EngineState := { e with running := e.running.map ArrayRun.shift }

/-- A result on its way one cc later. -/
def Late.shift (l : Late) : Late := { l with ready := l.ready + 1 }

/-- The compute side of a tile one cc later (R140). -/
def Tile.shift (t : Tile) : Tile :=
  { t with
    array := { t.array with
      whole := t.array.whole.shift, loader := t.array.loader.shift, feeder := t.array.feeder.shift,
      accumStage := t.array.accumStage.shift, drainEngine := t.array.drainEngine.shift,
      accLate := t.array.accLate.map (fun w => { w with ready := w.ready + 1 }) },
    vector := { t.vector with redDue := t.vector.redDue.map Late.shift },
    late := t.late.map Late.shift,
    routine := t.routine.map (fun r => { r with call := r.call + 1 }) }

/-- Count the freeze cc `now`, once whatever holds (R139, R141). -/
def Tile.countFreeze (t : Tile) : Tile :=
  if t.freezeNow = .due then { t with freezeNow := .counted, freeze := t.freeze + 1 } else t

/-- ARRAY_FREEZE: a freeze cc of the tile is counted; its compute side holds its state (R139 to R141). -/
def execArrayFreeze (tile : TileNo) (s : State) : Res :=
  if s.runActive ∧ (s.tile tile.val).logical.isSome then .next (s.modTile tile.val Tile.countFreeze) else .next s

/-! ### Meanings -/

/-- Issue an array operation: after the pending operations that start in this cc, it becomes its engine's pending operation, which
starts as Table 04.7 lets it, in this cc at the earliest. An engine that already holds a pending operation stops the model
(Table 06.11). -/
def arrayIssue (i : Iss) (op : ArrayOp) (s : State) : Res :=
  let t := (s.tile i.tile.val).startAll s.runCycle
  let e := t.array.engine op.engine
  if e.pending.isSome then .fault .engineHoldsPending
  else
    .next (s.setTile i.tile.val { t with array :=
      { (t.array.setEngine op.engine { e with pending := some (t.array.issued, i.bundle, op) }) with
        issued := t.array.issued + 1 } })

/-- SET_MODE (R128). -/
def opSetMode (i : Iss) (m : ModeArg) (s : State) : Res := issue i slotMatrix (modeWf m) s (arrayIssue i (.setMode m))

/-- LOAD_WEIGHTS (R135 to R137, R144). -/
def opLoadWeights (i : Iss) (l : LoadArg) (s : State) : Res :=
  issue i slotMatrix true s (fun s =>
    let r := (s.tile i.tile.val).samp
    arrayIssue i (.load (r.srcN l.addr) (r.srcN l.stride) (r.srcN l.scaleAddr) (r.srcN l.k) l.diagonal l.region) s)

/-- The input format that a feed issued now will find: that of a set mode before it. -/
def ArrayState.nextFmt (a : ArrayState) : Fmt :=
  match a.whole.pending with
  | some (_, _, .setMode m) => m.inFmt
  | _ => a.inFmt

/-- The image walk of a feed is within Table 04.9. -/
def feedWf (f : Fmt) (a : FeedArg) : Bool :=
  match a.src with
  | .walk w => walkWf w f
  | _ => true

/-- The source of a feed with its parameters sampled. -/
def feedFrom (r : Regs) : FeedSrc → FeedFrom
  | .rows addr stride region => .rows (r.srcN addr) (r.srcN stride) region
  | .endpoint ep => .endpoint ep
  | .walk w => .walk w (r.srcN w.addr)

/-- FEED (R150, R151, R156). DESIGN CHOICE: the operation names the pass of an extended-mode row, which Table 04.6 does not list
(log entry 99). -/
def opFeed (i : Iss) (a : FeedArg) (s : State) : Res :=
  issue i slotMatrix (feedWf (s.tile i.tile.val).array.nextFmt a) s (fun s =>
    let r := (s.tile i.tile.val).samp
    arrayIssue i (.feed (feedFrom r a.src) (r.srcN a.m) (r.srcN a.base) (r.srcN a.chunk) a.overwrite a.pass.val) s)

/-- FINISH_TREE (R153). -/
def opFinishTree (i : Iss) (a : FinishArg) (s : State) : Res :=
  issue i slotMatrix true s (fun s =>
    let r := (s.tile i.tile.val).samp
    arrayIssue i (.finish (r.srcN a.base) (r.srcN a.rows) (r.srcN a.n)) s)

/-- The destination of a drain with its parameters sampled. -/
def drainTo (r : Regs) : DrainDest → DrainTo
  | .scratch addr region => .scratch (r.srcN addr) region
  | .vector => .vector
  | .endpoint ep => .endpoint ep

/-- DRAIN (R154, R157). -/
def opDrain (i : Iss) (a : DrainArg) (s : State) : Res :=
  issue i slotMatrix (drainFmt a.fmt) s (fun s =>
    let r := (s.tile i.tile.val).samp
    arrayIssue i (.drain (r.srcN a.base) (r.srcN a.rows) a.fmt (drainTo r a.dest)) s)

/-- A row of the compute side may act on a tile in this cc: a run is active, the tile is in the image, and the cc is no freeze
cc (R140). -/
def State.computes (s : State) (t : TileNo) : Bool :=
  s.runActive && (s.tile t.val).logical.isSome && (s.tile t.val).freezeNow == .none

/-- PENDING_ARRAY_OP_START (Table 04.7). -/
def execPendingArrayOpStart (tile : TileNo) (k : ArrayEngine) (s : State) : Res :=
  if s.computes tile then .next (s.modTile tile.val (fun t => t.startPending s.runCycle k)) else .next s

end Sys2Proof.Machine
end

