-- ==== Sys2Proof/Machine/Pass.lean ====
section
/-! DEFINITION. A vector-engine pass (R162 to R186, R623): its shape, the stages on one vector, its results and the
accesses it makes. -/

namespace Sys2Proof.Machine

/-! ### Shape -/

/-- The stages with the first and last positions they occupy (R169). -/
def placeStages : Nat → List Stage → List (Stage × Nat × Nat)
  | _, [] => []
  | p, s :: r => (s, p, p + stagePositions s.op - 1) :: placeStages (p + stagePositions s.op) r

/-- The operand that a stage input names is present. -/
def inputPresent (p : Pass) : StageIn → Bool
  | .b => p.b.isSome
  | .c => p.c.isSome
  | _ => true

/-- A stage input takes the output of an earlier stage (R169). -/
def namesOutput (done : List Nat) (first : Nat) : StageIn → Bool
  | .out k => decide (k.val < first) && done.contains k.val
  | _ => true

/-- The inputs of a stage. -/
def stageInputs (s : Stage) : List StageIn := s.in1 :: (s.in2.toList ++ s.in3.toList)

/-- A stream's dimensions are at most three (R163). -/
def streamOk (a : StreamArg) : Bool := decide (a.dims.length ≤ 3)

/-- Operand streams of a pass. -/
def operandOk : Operand → Bool
  | .stream a => streamOk a
  | .drain => false
  | _ => true

/-- The encoding of a pass is inside the defined set: positions, inputs, masks, operands and results. -/
def passShape (p : Pass) : Bool :=
  decide ((placeStages 1 p.stages).all (fun e => decide (e.2.2 ≤ 8))) && decide (p.results.length ≤ 2) &&
  (match p.a with
   | .drain => true
   | a => operandOk a) &&
  (p.b.map operandOk).getD true && (p.c.map operandOk).getD true &&
  p.stages.all (fun s =>
    decide ((stageInputs s).length = stageArity s.op) && (stageInputs s).all (inputPresent p) &&
    (s.in2.isSome || s.in3.isNone) && (s.sel.isSome == (s.op == .select)) &&
    (match s.op with
     | .unpack f h _ => decide (h.val < 32 / packWidth f)
     | .round f _ => (packFloat f).isSome
     | _ => true)) &&
  p.results.all (fun r =>
    (match r.src with
     | .a | .out _ => true
     | _ => false) &&
    (match r.dest with
     | .stream s => streamOk s && fmtWritable s.fmt
     | .maskStream s => streamOk s && !s.broadcast
     | _ => true))

/-- Every position that a stage input or a result names gives an output (R169). -/
def passNames (p : Pass) : Bool :=
  let st := placeStages 1 p.stages
  let all := st.map (fun e => e.2.2)
  st.all (fun e => (stageInputs e.1).all (namesOutput all e.2.1)) &&
  p.results.all (fun r =>
    match r.src with
    | .out k => all.contains k.val
    | _ => true)

/-- A pass of n vectors that writes a V register range stays within V63 (R186). -/
def passRange (p : Pass) (n : Nat) : Bool :=
  p.results.all (fun r =>
    match r.dest with
    | .vrange b => decide (b.val + n ≤ 64)
    | _ => true)

/-! ### Lines (R165)

A part of a vector's reads or writes is the number of lines that it counts and the range that it touches. -/

/-- The lines that a part counts and its range. -/
abbrev LinePart := Nat × Option RangeUse

/-- The ranges of a list of parts, each behind the lines of those before it. -/
def layParts : Nat → List LinePart → List RangeUse
  | _, [] => []
  | off, (n, u) :: rest => (u.map (fun u => { u with lineOffset := off })).toList ++ layParts (off + n) rest

/-- The lines of a list of parts. -/
def countLines (ps : List LinePart) : Nat := (ps.map (·.1)).sum

/-- The part of a range that falls in cc `j` of a vector, at up to 32 lines per cc; the last cc takes what is left. -/
def RangeUse.inCc (u : RangeUse) (j : Nat) (isLast : Bool) : Option RangeUse :=
  let first := u.addr / 64
  let lo := max u.addr ((first + (32 * j - u.lineOffset)) * 64)
  let hi := if isLast then u.addr + u.len else min (u.addr + u.len) ((first + (32 * (j + 1) - u.lineOffset)) * 64)
  if lo < hi then
    some { u with addr := lo, len := hi - lo, lineOffset := 0,
                  checked := u.checked.map (fun c => (max c.1 lo, min (c.1 + c.2) hi - max c.1 lo)) }
  else none

/-- The 64 B lines of a full vector of a stream (R165). -/
def streamLines (a : StreamArg) : Nat := if a.broadcast then 1 else ceilDiv (32 * fmtBits a.fmt) 64

/-- A read of the vector slot for vector v. -/
def vectorRead (b : Word) (slot : Byte) (region addr len v : Nat) : RangeUse :=
  { region := region, addr := addr, len := len, checked := none, cycle := 0, lineOffset := 0, isWrite := false,
    isMerge := false, slot := slot, group := v, bundle := b }

/-- What an operand reads for vector v: to the tail (R177). -/
def operandPart (b : Word) (r : Regs) (v lanes : Nat) : Operand → LinePart
  | .stream a => (streamLines a, some (vectorRead b slotVector a.region.val (streamAddr a r v) (streamBytes a lanes) v))
  | _ => (0, none)

/-- What a mask reads for vector v. -/
def maskPart (b : Word) (slot : Byte) (r : Regs) (v lanes : Nat) : Option MaskSrc → LinePart
  | some (.stream a) => (1, some (vectorRead b slot a.region.val (streamAddr a r v) (ceilDiv lanes 8) v))
  | _ => (0, none)

/-- What the block scales of an operand read for vector v. DESIGN CHOICE: they count one line, in the region of their stream
(log entry 106). -/
def scalePart (b : Word) (r : Regs) (v lanes : Nat) : Operand → LinePart
  | .stream a =>
    match a.scale with
    | .block x =>
      (1, some (vectorRead b slotVector a.region.val (r.srcN x + 8 * v) (if a.broadcast then 1 else ceilDiv lanes 32) v))
    | _ => (0, none)
  | _ => (0, none)

/-- The operands of a pass in the order of R165. -/
def passOperands (p : Pass) : List Operand := p.a :: (p.b.toList ++ p.c.toList)

/-- The reads of vector v: a, then b, then c (R165), then the masks, the mask of the reduction, and the block scales. DESIGN
CHOICE: R165 does not place what follows c (log entry 60). -/
def passParts (b : Word) (p : Pass) (redMask : Option MaskSrc) (r : Regs) (v lanes : Nat) : List LinePart :=
  (passOperands p).map (operandPart b r v lanes) ++
  (p.stages.flatMap (fun s => [s.mask, s.sel]) ++ p.results.map (·.mask)).map (maskPart b slotVector r v lanes) ++
  [maskPart b slotReduction r v lanes redMask] ++ (passOperands p).map (scalePart b r v lanes)

/-- The lines that a result writes per vector. -/
def resultLines (res : Result) : Nat :=
  match res.dest with
  | .stream s => streamLines s
  | .maskStream _ => 1
  | _ => 0

/-- Write lines per vector. -/
def passWrites (p : Pass) : Nat := (p.results.map resultLines).sum

/-- The cadence r of a pass with a reduction's mask (R165). -/
def passCadence (p : Pass) (redMask : Option MaskSrc) : Nat :=
  max 1 (max (ceilDiv (countLines (passParts 0 p redMask .zero 0 256)) 32) (ceilDiv (passWrites p) 32))

/-! ### Timing (R170, Table 07.3) -/

/-- An operand stream in a class W region. -/
def operandClassW (t : Tile) : Operand → Bool
  | .stream a => t.classW a.region.val
  | _ => false

/-- The fetch part of the latency: 3 cc, 4 where an operand stream lies in class W (Table 07.3). -/
def passFetch (t : Tile) (p : Pass) : Nat :=
  if operandClassW t p.a || (p.b.map (operandClassW t)).getD false || (p.c.map (operandClassW t)).getD false then 4 else 3

/-- Latencies of the stages whose last position is at most `upTo`. -/
def stageSum (s : State) (p : Pass) (upTo : Nat) : Nat :=
  (((placeStages 1 p.stages).filter (fun e => decide (e.2.2 ≤ upTo))).map (fun e => stageLatency s e.1.op)).sum

/-- The latency of a pass (R170). -/
def passLatency (s : State) (t : Tile) (p : Pass) : Nat := passFetch t p + stageSum s p 8 + 2

/-! ### One vector -/

/-- A chain value: 256 lanes and whether the type is INT32. -/
structure ChainVal where
  lanes : List Word
  isInt : Bool

/-- What a vector's stages see: the operands, the outputs so far, the chain mask and the flags. -/
structure PassEnv where
  a : ChainVal
  b : ChainVal
  c : ChainVal
  outs : List (Nat × ChainVal)
  chain : BitVec 256
  flags : FpFlags

/-- 256 lanes of one value. -/
def broadcastLanes (w : Word) : List Word := List.replicate 256 w

/-- An operand's lanes for vector v. A G or V operand has no stored format: its type is FP32 (log entry 8). -/
def fetchOperand (o : Operand) (mem : Memory) (r : Regs) (drained : List Word) (v lanes : Nat)
    (free : Nat → Word) : ChainVal :=
  match o with
  | .stream a => { lanes := streamFetch a mem r v lanes free, isInt := fmtIsInt a.fmt }
  | .g k => { lanes := broadcastLanes ((r.getG k.val).setWidth 32), isInt := false }
  | .v k => { lanes := r.vec k.val, isInt := false }
  | .drain => { lanes := drained, isInt := false }

/-- A stage input's value. -/
def pickInput (e : PassEnv) (r : Regs) : StageIn → ChainVal
  | .a => e.a
  | .b => e.b
  | .c => e.c
  | .out k => ((e.outs.find? (fun o => o.1 == k.val)).map (·.2)).getD { lanes := [], isInt := false }
  | .g k => { lanes := broadcastLanes ((r.getG k.val).setWidth 32), isInt := false }
  | .v k => { lanes := r.vec k.val, isInt := false }

/-- The mask of a source for vector v (R173, R176). -/
def maskValueOf (m : MaskSrc) (mem : Memory) (r : Regs) (v : Nat) (chain : BitVec 256) : BitVec 256 :=
  match m with
  | .m k => r.getM k.val
  | .stream a => maskOfBytes (readBytes mem (streamAddr a r v) 32)
  | .chain => chain

/-- The lanes inside the tail (R177). -/
def tailMask (lanes : Nat) : BitVec 256 := if 256 ≤ lanes then BitVec.allOnes 256 else BitVec.ofNat 256 (2 ^ lanes - 1)

/-- The lanes on which an optional mask acts, tail included (R178). -/
def activeMask (m : Option MaskSrc) (mem : Memory) (r : Regs) (v lanes : Nat) (chain : BitVec 256) : BitVec 256 :=
  tailMask lanes &&& (match m with
    | some x => maskValueOf x mem r v chain
    | none => BitVec.allOnes 256)

/-- One stage on one vector: its output, the chain mask and the flags (R172 to R175). -/
def runStage (s : Stage) (last : Nat) (mem : Memory) (r : Regs) (v lanes : Nat) (free : Nat → Word) (e : PassEnv) :
    PassEnv :=
  let x := pickInput e r s.in1
  let y := (s.in2.map (pickInput e r)).getD { lanes := [], isInt := false }
  let z := (s.in3.map (pickInput e r)).getD { lanes := [], isInt := false }
  let act := activeMask s.mask mem r v lanes e.chain
  let raw : List (Word × FpFlags) :=
    match s.op, s.sel with
    | .select, some m =>
      let sel := maskValueOf m mem r v e.chain
      (List.range 256).map (fun i => (if sel.getLsbD i then x.lanes.getD i 0 else y.lanes.getD i 0, 0))
    | op, _ => stageLanes op r x.lanes y.lanes z.lanes free
  let out := (raw.zipIdx).map (fun q =>
    if act.getLsbD q.2 then q.1.1 else if s.maskedZero then 0 else x.lanes.getD q.2 0)
  let flags := orFlags ((raw.zipIdx).map (fun q => if act.getLsbD q.2 then q.1.2 else 0))
  let chain := if setsChainMask s.op then
      BitVec.ofNat 256 (((raw.zipIdx).filter (fun q => act.getLsbD q.2 && q.1.1 != 0)).foldl (fun m q => m + 2 ^ q.2) 0)
    else e.chain
  { e with outs := e.outs ++ [(last, { lanes := out, isInt := stageIsInt x.isInt s.op })], chain := chain,
           flags := e.flags ||| flags }

/-- All stages on one vector; `free` gives the open lanes of the stage whose output a position names. -/
def runStages (mem : Memory) (r : Regs) (v lanes : Nat) (free : Nat → Nat → Word) :
    List (Stage × Nat × Nat) → PassEnv → PassEnv
  | [], e => e
  | s :: rest, e => runStages mem r v lanes free rest (runStage s.1 s.2.2 mem r v lanes (free s.2.2) e)

/-! ### Results -/

/-- What one result of a vector does: its effect with the ranges that it writes, and its flags. -/
structure ResultOut where
  effs : List (LateEff × List RangeUse)
  flags : FpFlags

/-- Bytes of the active lanes of a result vector, merged into one run where every lane is active. -/
def resultRuns (addr size : Nat) (act : BitVec 256) (codes : List Nat) : List (Nat × Bytes) :=
  if act = BitVec.allOnes 256 then [(addr, codes.flatMap (leBytes size))]
  else ((codes.zipIdx).filter (fun e => act.getLsbD e.2)).map (fun e => (addr + size * e.2, leBytes size e.1))

/-- The first and one past the last active lane. -/
def activeSpan (act : BitVec 256) : Nat × Nat :=
  let on := (List.range 256).filter act.getLsbD
  (on.headD 0, (on.getLast?.map (· + 1)).getD 0)

/-- A result's write for vector v: every line to the tail, whatever the masks hold (R241), as a merge write where it is
predicated or cut by a tail; the lanes that are written are checked against the region (R177). -/
def resultUse (b : Word) (region addr len v : Nat) (checked : Nat × Nat) (merge : Bool) : RangeUse :=
  { region := region, addr := addr, len := len, checked := some checked, cycle := 1, lineOffset := 0, isWrite := true,
    isMerge := merge, slot := slotVector, group := v, bundle := b }

/-- The write of a result for vector v, if it is a stream: the lanes from the tail on are not touched. -/
def resultUses (b : Word) (res : Result) (r : Regs) (v lanes : Nat) (act : BitVec 256) : List RangeUse :=
  let sp := activeSpan act
  match res.dest with
  | .stream s =>
    let size := fmtBits s.fmt / 8
    let addr := streamAddr s r v
    if s.broadcast then
      [resultUse b s.region.val addr size v (addr, if act.getLsbD 0 then size else 0) (res.mask.isSome || decide (lanes < 256))]
    else
      [resultUse b s.region.val addr (size * lanes) v (addr + size * sp.1, size * (sp.2 - sp.1))
        (res.mask.isSome || decide (lanes < 256))]
  | .maskStream s =>
    let addr := streamAddr s r v
    [resultUse b s.region.val addr (ceilDiv lanes 8) v (addr + sp.1 / 8, ceilDiv sp.2 8 - sp.1 / 8) true]
  | _ => []

/-- One result of vector v (R163, R174, R175, R186, R623). `isLast` marks the pass's last vector. DESIGN CHOICE: a result's lanes
go to the stored format as they are, an INT32 value in a floating-point format too (log entry 107); a result stream with lane
broadcast takes lane 0 (log entry 108). -/
def runResult (b : Word) (res : Result) (mem : Memory) (r : Regs) (v lanes : Nat) (isLast : Bool) (e : PassEnv) : ResultOut :=
  let x := pickInput e r res.src
  let act := activeMask res.mask mem r v lanes e.chain
  let lane (i : Nat) : Word := x.lanes.getD i 0
  let regs (on : Bool) (eff : LateEff) : ResultOut := { effs := if on then [(eff, [])] else [], flags := 0 }
  let lanesOut : List (Word × Bool) := (List.range 256).map (fun i => (lane i, act.getLsbD i))
  match res.dest with
  | .stream s =>
    let size := fmtBits s.fmt / 8
    let addr := streamAddr s r v
    let out := if s.broadcast then act &&& 1 else act
    let nar := (List.range 256).map (fun i => if out.getLsbD i then fmtNarrow s.fmt res.nonSaturating (lane i) else (0, 0))
    { effs := [(.scratch (resultRuns addr size out (nar.map (·.1))), resultUses b res r v lanes act)],
      flags := orFlags (nar.map (·.2)) }
  | .vrange base => regs true (.v (base.val + v) 0 lanesOut)
  | .vlast k => regs isLast (.v k.val 0 lanesOut)
  | .g k =>
    regs (isLast && act.getLsbD 0) (.scalar (.g k) (if x.isInt then (lane 0).signExtend 64 else (lane 0).setWidth 64))
  | .m k => regs isLast (.m k.val e.chain act)
  | .maskStream s => { effs := [(.bits (streamAddr s r v) e.chain act, resultUses b res r v lanes act)], flags := 0 }

/-- Each result's range behind the lines of the results before it. -/
def layResults : Nat → List (Nat × List RangeUse) → List (List RangeUse)
  | _, [] => []
  | off, (n, us) :: rest => us.map (fun u => { u with lineOffset := off }) :: layResults (off + n) rest

/-- The write of a range over the cc that the results' lines take, the last of them one cc before the result is readable: the
`cycle` of each part counts the cc to that (log entry 60). -/
def RangeUse.spreadWrite (total : Nat) (u : RangeUse) : List RangeUse :=
  let ccs := max 1 (ceilDiv total 32)
  (List.range ccs).filterMap (fun j => (u.inCc j (j + 1 == ccs)).map (fun x => { x with cycle := ccs - j }))

/-- The lanes of vector v of n with an optional tail (R177). -/
def passLanes (tail : Option Nat) (n v : Nat) : Nat :=
  match tail with
  | some u => if v + 1 = n then min u 256 else 256
  | none => 256

/-- What one vector of a pass gives: its results' effects, its flags, and what a tap may take: stream a and the outputs. -/
structure VectorOut where
  effs : List (LateEff × List RangeUse)
  flags : FpFlags
  a : LaneVec
  outs : List (Nat × LaneVec)

/-- One vector of a pass from the lines it has read. `serial` and the bundle tell its open values from those of another pass
(R45). -/
def runVector (b : Word) (serial : Nat) (p : Pass) (mem : Memory) (r : Regs) (drained : List Word) (n v : Nat) : VectorOut :=
  let lanes := passLanes (p.tail.map r.srcN) n v
  let free (k i : Nat) : Word := Config.openLane b serial v (256 * k + i)
  let fetch (k : Nat) (o : Operand) : ChainVal := fetchOperand o mem r drained v lanes (free k)
  let empty : ChainVal := { lanes := [], isInt := false }
  let e := runStages mem r v lanes (fun k => free (k + 3)) (placeStages 1 p.stages)
    { a := fetch 0 p.a, b := (p.b.map (fetch 1)).getD empty, c := (p.c.map (fetch 2)).getD empty, outs := [],
      chain := Config.openMask b serial v, flags := 0 }
  let rs := p.results.map (fun res => runResult b res mem r v lanes (v + 1 == n) e)
  let total := passWrites p
  let uses := layResults 0 ((p.results.zip rs).map (fun q => (resultLines q.1, q.2.effs.flatMap (·.2))))
  let live := (List.range 256).map (tailMask lanes).getLsbD
  { effs := ((rs.zip uses).flatMap (fun q => q.1.effs.map (fun x => (x.1, q.2.flatMap (RangeUse.spreadWrite total))))),
    flags := e.flags ||| orFlags (rs.map (·.flags)),
    a := { lanes := e.a.lanes, active := live }, outs := e.outs.map (fun q => (q.1, { lanes := q.2.lanes, active := live })) }

end Sys2Proof.Machine
end

