-- ==== Sys2Proof/Machine/Reduce.lean ====
section
/-! DEFINITION. The reduction unit (R189 to R196): lane groups, segments, operations, latency and result writes. -/

namespace Sys2Proof.Machine

/-- FP32 value of a node. -/
def RedVal.f (x : RedVal) : Word := x.bits.setWidth 32

/-- A node with an FP32 value. -/
def redF (x : RedVal) (y : RedVal) (r : Word × FpFlags) : RedVal :=
  { bits := r.1.setWidth 64, index := 0, live := true, flags := x.flags ||| y.flags ||| r.2 }

/-- The larger of two FP32 argmax nodes: NaN above every number, the left on ties (R193). -/
def argmaxF (x y : RedVal) : RedVal :=
  let flags := x.flags ||| y.flags
  if !y.live then { x with flags := flags }
  else if !x.live then { y with flags := flags }
  else if f32IsNaN x.f then { x with flags := flags }
  else if f32IsNaN y.f || (f32Compare .lt x.f y.f).1 then { y with flags := flags }
  else { x with flags := flags }

/-- The larger of two integer argmax nodes. -/
def argmaxI (x y : RedVal) : RedVal :=
  if !y.live then x else if !x.live then y else if x.bits.slt y.bits then y else x

/-- A 64-bit two's-complement sum, whose overflow sets the flag (R194). -/
def sum64 (x y : RedVal) : RedVal :=
  let t := x.bits.toInt + y.bits.toInt
  { bits := x.bits + y.bits, index := 0, live := true,
    flags := x.flags ||| y.flags ||| (if t < -(2 ^ 63) ∨ 2 ^ 63 ≤ t then fIntOverflow else 0) }

/-- Two nodes combined (R193, R194). -/
def redCombine (op : RedOp) (isInt : Bool) (x y : RedVal) : RedVal :=
  match op, isInt with
  | .sum, false | .sumSquares, false => redF x y (f32Add x.f y.f)
  | .max, false => redF x y (f32Max x.f y.f)
  | .min, false => redF x y (f32Min x.f y.f)
  | .argmax, false => argmaxF x y
  | .sum, true | .sumSquares, true => sum64 x y
  | .max, true => if x.bits.slt y.bits then y else x
  | .min, true => if y.bits.slt x.bits then y else x
  | .argmax, true => argmaxI x y

/-- What an inactive lane contributes (Table 05.7). -/
def redIdle (op : RedOp) (isInt : Bool) : RedVal :=
  let v : DWord :=
    match op, isInt with
    | .sum, _ | .sumSquares, _ => 0
    | .max, false | .argmax, false => 0xFF800000
    | .min, false => 0x7F800000
    | .max, true | .argmax, true => 0xFFFFFFFF80000000
    | .min, true => 0x7FFFFFFF
  { bits := v, index := 0xFFFFFFFF, live := false, flags := 0 }

/-- What an active lane contributes, with its element index within the segment. -/
def redLeaf (op : RedOp) (isInt : Bool) (index : Nat) (w : Word) : RedVal :=
  match op, isInt with
  | .sumSquares, false =>
    let r := f32Mul w w
    { bits := r.1.setWidth 64, index := 0, live := true, flags := r.2 }
  | .sumSquares, true =>
    { bits := BitVec.ofInt 64 (w.toInt * w.toInt), index := 0, live := true, flags := 0 }
  | .argmax, false =>
    { bits := (if f32IsNaN w then f32NaN else w).setWidth 64, index := BitVec.ofNat 32 index, live := true,
      flags := snanFlag [w] }
  | _, true => { bits := w.signExtend 64, index := BitVec.ofNat 32 index, live := true, flags := 0 }
  | .max, false | .min, false =>
    { bits := (if f32IsNaN w then f32NaN else w).setWidth 64, index := 0, live := true, flags := snanFlag [w] }
  | .sum, false => { bits := w.setWidth 64, index := 0, live := true, flags := 0 }

/-- The results of one vector: one per lane group (R191). -/
def redVector (op : RedOp) (isInt : Bool) (g v : Nat) (x : LaneVec) (mask : BitVec 256) : List RedVal :=
  let leaves := (List.range 256).map (fun i =>
    if x.active.getD i false && mask.getLsbD i then redLeaf op isInt (v * 256 + i) (x.lanes.getD i 0)
    else redIdle op isInt)
  (List.range (256 / g)).map (fun j =>
    (tree (redCombine op isInt) ((leaves.drop (g * j)).take g)).getD (redIdle op isInt))

/-- The results of a segment: each lane group over its vectors, with the mean where it is set. -/
def redSegment (op : RedOp) (isInt : Bool) (mean : Option Word) (vs : List (List RedVal)) (groups : Nat) : List RedVal :=
  (List.range groups).map (fun j =>
    let x := (tree (redCombine op isInt) (vs.map (fun r => r.getD j (redIdle op isInt)))).getD (redIdle op isInt)
    match mean with
    | some n =>
      let q := f32Div x.f n
      { x with bits := q.1.setWidth 64, flags := x.flags ||| q.2 }
    | none => x)

/-- Bytes of a result entry (R196). -/
def redBytes (op : RedOp) (isInt : Bool) (x : RedVal) : Bytes :=
  match op, isInt with
  | .argmax, _ => leBytes 4 x.bits.toNat ++ leBytes 4 x.index.toNat
  | .sum, true | .sumSquares, true => leBytes 8 x.bits.toNat
  | _, _ => leBytes 4 x.bits.toNat

/-- A result in a G register (R195). -/
def redG (op : RedOp) (isInt : Bool) (x : RedVal) : DWord :=
  match op, isInt with
  | .argmax, _ => (x.bits.setWidth 32).setWidth 64 ||| (x.index.setWidth 64 <<< 32)
  | _, true => x.bits
  | _, false => (x.bits.setWidth 32).setWidth 64

/-- Tree latency and per-level latency (Table 05.8). -/
def redLatency (op : RedOp) (isInt : Bool) : Nat × Nat :=
  match op, isInt with
  | .sum, false => (16, 2)
  | .sumSquares, false => (19, 2)
  | .sumSquares, true => (11, 1)
  | _, _ => (8, 1)

/-- F of R195. -/
def redDelay (op : RedOp) (isInt mean : Bool) (l : Nat) : Nat :=
  (redLatency op isInt).1 + (redLatency op isInt).2 * ceilLog2 l + (if mean then 8 else 0) + 2

/-- The encoding of a reduction is inside the defined set: a mean only with FP32 sums (Table 05.6), no chain mask. -/
def redShape (r : Reduction) : Bool :=
  (r.mean.isNone || (!r.isInt && (r.op == .sum || r.op == .sumSquares))) &&
  (match r.mask with
   | some .chain => false
   | some (.stream a) => streamOk a
   | _ => true)

/-- A tap names a position that gives an output (R169). -/
def redNames (r : Reduction) (p : Pass) : Bool :=
  match r.tap with
  | .a => true
  | .out k => (placeStages 1 p.stages).any (fun e => e.2.2 == k.val)

/-- The vector that a tap takes from a pass. -/
def tapped (r : Reduction) (o : VectorOut) : LaneVec :=
  match r.tap with
  | .a => o.a
  | .out k => ((o.outs.find? (fun q => q.1 == k.val)).map (·.2)).getD { lanes := [], active := [] }

/-- Lanes of a group. -/
def redGroup (r : Reduction) : Nat := 32 * 2 ^ r.group.val

/-- Vectors of a segment. -/
def redLength (r : Reduction) (regs : Regs) : Nat := max 1 (regs.srcN r.segment)

/-- The results of the lane groups of vector v: its mask stream has been read with the vector (R190, R191). -/
def redOfVector (r : Reduction) (regs : Regs) (mem : Memory) (v : Nat) (x : LaneVec) : List RedVal :=
  redVector r.op r.isInt (redGroup r) (v % redLength r regs) x
    (match r.mask with
     | some m => maskValueOf m mem regs v 0
     | none => BitVec.allOnes 256)

/-- The results of a segment from those of its vectors. -/
def redOfSegment (r : Reduction) (regs : Regs) (vs : List (List RedVal)) : List RedVal :=
  redSegment r.op r.isInt (r.mean.map (fun k => (regs.getG k.val).setWidth 32)) vs (256 / redGroup r)

/-- Cc from the fetch of a segment's last vector until its results are readable (R170, R195). -/
def redCycles (s : State) (t : Tile) (p : Pass) (r : Reduction) (regs : Regs) : Nat :=
  passFetch t p +
  (match r.tap with
   | .a => 0
   | .out k => stageSum s p k.val) +
  redDelay r.op r.isInt r.mean.isSome (redLength r regs)

/-- Where the results of segment `k` go, with the range they write; a G register takes the last group's result of the pass's
last segment (R195, R196). -/
def redEffect (b : Word) (r : Reduction) (regs : Regs) (k : Nat) (isLast : Bool) (xs : List RedVal) :
    Option (LateEff × List RangeUse) :=
  match r.dest with
  | .g g => if isLast then some (.scalar (.g g) (((xs.getLast?).map (redG r.op r.isInt)).getD 0), []) else none
  | .stream base region =>
    let bs := xs.flatMap (redBytes r.op r.isInt)
    let addr := regs.srcN base + k * bs.length
    some (.scratch [(addr, bs)],
      [{ region := region.val, addr := addr, len := bs.length, checked := none, cycle := 1, lineOffset := 0, isWrite := true,
         isMerge := false, slot := slotReduction, group := k, bundle := b }])

end Sys2Proof.Machine
end

