-- ==== Sys2Proof/Machine/Vector.lean ====
section
/-! DEFINITION. The vector and reduction slots (R162 to R196) and the combine pass of a combining queue (R291 to R294, R427): an
operation becomes pending at issue, starts by R166 and takes its vectors cc by cc; results are on their way until the cc from
which they are readable. -/

namespace Sys2Proof.Machine

/-! ### Combine passes (R291 to R294) -/

/-- Bytes of an element of an arrival format, in bits. -/
def arrivalBits : ArrivalFmt → Nat
  | .int32 | .word32 | .fp32 => 32
  | .int16 => 16
  | .int24 => 24
  | .int8 => 8
  | .signBits => 1

/-- Element e of a message as a slot element (Table 08.3). -/
def arrivalElem (f : ArrivalFmt) (data : Bytes) (e : Nat) : Word :=
  let raw := packedElem data (arrivalBits f) e
  match f with
  | .int32 | .word32 | .fp32 => BitVec.ofNat 32 raw
  | .int16 => extendInt 16 false raw
  | .int24 => extendInt 24 false raw
  | .int8 => extendInt 8 false raw
  | .signBits => if raw = 1 then 0xFFFFFFFF else 1

/-- One combine step with its flags (Table 08.3). -/
def combineStep (op : CombineOp) (x y : Word) : Word × FpFlags :=
  match op with
  | .addInt => (x + y, 0)
  | .maxInt => (intMax false x y, 0)
  | .orWord => (x ||| y, 0)
  | .addFp32 => f32Add x y

/-- A slot element. -/
def RecvEp.slotElem (r : RecvEp) (slot e : Nat) : Word := mget 0 r.values (slot * 1024 + e)

/-- The combined value of element e: the slot and the messages in order. -/
def combineElem (r : RecvEp) (slot : Nat) (msgs : List (Nat → Word)) (e : Nat) : Word × FpFlags :=
  msgs.foldl (fun acc m =>
    let q := combineStep r.op acc.1 (m e)
    (q.1, acc.2 ||| q.2)) (r.slotElem slot e, 0)

/-- The elements of the k messages that a combine has taken. -/
def combineInputs (r : RecvEp) (v : VecRun) (k : Nat) : List (Nat → Word) :=
  (List.range k).map (fun i =>
    match v.msgs[i]? with
    | some d => arrivalElem r.fmt d
    | none => Config.openLane v.bundle v.serial i)

/-- Put elements of a slot, from one on. -/
def RecvEp.putSlot (r : RecvEp) (slot first : Nat) (vals : List Word) : RecvEp :=
  { r with values := (vals.zipIdx).foldl (fun m e => mset m (slot * 1024 + first + e.2) e.1) r.values }

/-- Remove the oldest message of a slot that a combine takes; the answer also gives its origin. -/
def consumeSlot (r : RecvEp) (slot : Nat) : List Msg → List Msg × Option MsgOrigin
  | [] => ([], none)
  | m :: rest =>
    if slotOf r m = slot ∧ (r.kind ≠ .filtered ∨ m.accepted = true) then (rest, some m.origin)
    else
      let q := consumeSlot r slot rest
      (m :: q.1, q.2)

/-- The closed tag after a FINAL combine: the open tag closes and the map clears (R427). -/
def SlotTags.close (t : SlotTags) : SlotTags :=
  { closed := if t.opened.isSome then t.opened else t.closed, opened := none, map := 0 }

/-- A FINAL combine of saturation flags on a module that is the whole membership gives the reduced flags themselves: nothing leaves
the module, and the words of the slot are counted (R100, R415; log entry 16). -/
def State.noteOwnFlags (s : State) (r : RecvEp) (slot : Nat) : State :=
  if r.op = .orWord ∧ s.members.length ≤ 1 then
    s.noteTally s.currentStep.toNat 0 s.run.tallies.length
      ((List.range r.elems).flatMap (fun e => leBytes 4 (r.slotElem slot e).toNat))
  else s

/-- The end of a FINAL combine on a tile: the slot is 0; on a filtered endpoint the open tag closes and the waiting messages are
judged again (R292, R427). -/
def State.endSlot (s : State) (t : TileNo) (ep : Fin 64) (slot : Nat) : State :=
  let r := (s.tile t.val).recv ep.val
  let zeros : List Word := (List.range r.elems).map (fun _ => 0)
  let s1 := (s.noteOwnFlags r slot).modTile t.val (fun x => x.setRecv ep.val { (r.putSlot slot 0 zeros) with
    tags := if r.kind = .filtered then mset r.tags slot (mget SlotTags.start r.tags slot).close else r.tags })
  if r.kind = .filtered then s1.rejudgeSlot t ep.val slot else s1

/-- The slot of a combine. -/
def combineSlot (r : RecvEp) (c : CombineArg) (regs : Regs) : Nat := regs.srcN c.slot % max 1 r.slots

/-- The latency of a combine (R291). -/
def combineLatency (op : CombineOp) : Nat := if op = .addFp32 then 8 else 6

/-- The write of vector j of a FINAL combine to its destination (R292). -/
def combineDest (v : VecRun) (regs : Regs) (j : Nat) (vals : List Word) :
    CombineDest → Option (LateEff × List RangeUse) × FpFlags
  | .v base => (some (.v (base.val + j) 0 (vals.map (fun w => (w, true))), []), 0)
  | .stream d =>
    let nar := vals.map (fmtNarrow d.fmt false)
    let size := fmtBits d.fmt / 8
    let addr := streamAddr d regs j
    (some (.scratch [(addr, nar.flatMap (fun x => leBytes size x.1))],
      [resultUse v.bundle d.region.val addr (256 * size) j (addr, 256 * size) false]), orFlags (nar.map (·.2)))

/-- What a combine leaves for vector j at its first fetch: the slot's elements, the destination's, and with the last vector the end
of the slot (R291, R292). -/
def combineLates (t : Tile) (v : VecRun) (c : CombineArg) (regs : Regs) (now j : Nat) : List Late × FpFlags :=
  let r := t.recv c.ep.val
  let slot := combineSlot r c regs
  let outs := (List.range 256).map (fun e => combineElem r slot (combineInputs r v c.k) (256 * j + e))
  let vals := outs.map (·.1)
  let late (x : LateEff × List RangeUse) : Late :=
    { ready := now + c.k - 1 + combineLatency r.op, order := 0, slot := slotVector, bundle := v.bundle, eff := x.1, uses := x.2,
      isOpen := t.vector.isOpen }
  match c.final with
  | none => ([late (LateEff.slot c.ep slot (256 * j) vals, [])], orFlags (outs.map (·.2)))
  | some d =>
    let q := combineDest v regs j vals d
    let isLast : List (LateEff × List RangeUse) := if (j + 1) * 256 < r.elems then [] else [(.slotEnd c.ep slot, [])]
    (([(LateEff.slot c.ep slot (256 * j) vals, [])] ++ q.1.toList ++ isLast).map late, orFlags (outs.map (·.2)) ||| q.2)

/-- One cc of a running combine: vector j's inputs are taken at its first fetch, and a message is consumed by the fetch of its last
vector (R287, R291). `vec` counts the fetches. -/
def State.combineCycle (s : State) (t : TileNo) (v : VecRun) (c : CombineArg) (regs : Regs) : State :=
  let x := s.tile t.val
  let r := x.recv c.ep.val
  let n := r.elems / 256
  let j := v.vec / c.k
  let q := if v.vec % c.k = 0 then combineLates x v c regs s.runCycle.toNat j else ([], 0)
  let ends := decide (c.k * n ≤ v.vec + 1)
  let y := { (x.raise q.2) with
    late := x.late ++ q.1,
    vector := { x.vector with running := if ends then none else some { v with vec := v.vec + 1 } } }
  if j + 1 = n then
    let d := consumeSlot r (combineSlot r c regs) r.msgs
    let s1 := s.setTile t.val (y.setRecv c.ep.val { r with msgs := d.1 })
    match d.2 with
    | some o => s1.creditBack o
    | none => s1
  else s.setTile t.val y

/-! ### Passes -/

/-- The mask of the reduction attached to a pass. -/
def VecRun.redMask (v : VecRun) : Option MaskSrc := v.red.bind (fun q => q.1.mask)

/-- The reads of a pass in cc `cyc` of the vector that it fetches. -/
def VecRun.reads (v : VecRun) (p : Pass) (regs : Regs) (now : Nat) : List RangeUse :=
  let lanes := passLanes (p.tail.map regs.srcN) (regs.srcN p.n) v.vec
  let last := v.cyc + 1 == passCadence p v.redMask
  ((layParts 0 (passParts v.bundle p v.redMask regs v.vec lanes)).filterMap (fun u => u.inCc v.cyc last)).map
    (fun u => { u with cycle := now })

/-- The results of a vector on their way, from the cc `base` of its first fetch (R170). -/
def vectorLates (s : State) (t : Tile) (v : VecRun) (p : Pass) (base : Nat) (o : VectorOut) : List Late :=
  o.effs.map (fun e =>
    { ready := base + passLatency s t p, order := 0, slot := slotVector, bundle := v.bundle, eff := e.1, uses := e.2,
      isOpen := t.vector.isOpen })

/-- The reduction of a pass takes a vector: the vectors of the segment so far, or its results on their way (R191, R195). -/
def redVectorTaken (s : State) (t : Tile) (v : VecRun) (p : Pass) (regs : Regs) (mem : Memory) (base : Nat) (o : VectorOut) :
    List (List RedVal) × Nat × List Late × FpFlags :=
  match v.red with
  | none => ([], 0, [], 0)
  | some (r, rr) =>
    let part := v.part ++ [redOfVector r rr mem v.vec (tapped r o)]
    let isLast := v.vec + 1 == regs.srcN p.n
    if part.length = redLength r rr ∨ isLast = true then
      let xs := redOfSegment r rr part
      let late (e : LateEff × List RangeUse) : Late :=
        { ready := base + redCycles s t p r rr, order := 1, slot := slotReduction, bundle := v.bundle, eff := e.1,
          uses := e.2, isOpen := t.vector.isOpen }
      ([], v.segs + 1, ((redEffect v.bundle r rr v.segs isLast xs).map late).toList, orFlags (xs.map (·.flags)))
    else (part, v.segs, [], 0)

/-- The check shot that a pass ends with its last vector (R117 to R120). -/
def checkLate (s : State) (t : Tile) (v : VecRun) (p : Pass) (regs : Regs) (base : Nat) : List Late :=
  (p.check.map (fun c =>
    { ready := base + passLatency s t p, order := 0, slot := slotVector, bundle := v.bundle, eff := .check c regs, uses := [],
      isOpen := false : Late })).toList

/-- A vector whose lines have all been read by the cc `now`. -/
def Tile.vectorDone (t : Tile) (s : State) (v : VecRun) (p : Pass) (regs : Regs) (now : Nat) : Tile :=
  let base := now - v.cyc
  let n := regs.srcN p.n
  let o := runVector v.bundle v.serial p v.seen regs (t.array.drained.headD []) n v.vec
  let q := redVectorTaken s t v p regs v.seen base o
  let ends := decide (n ≤ v.vec + 1)
  { (t.raise (o.flags ||| q.2.2.2)) with
    late := t.late ++ vectorLates s t v p base o ++ (if ends then checkLate s t v p regs base else []),
    array := if p.a = .drain then { t.array with drained := t.array.drained.tail } else t.array,
    vector := { t.vector with
      running := if ends then none else some { v with vec := v.vec + 1, cyc := 0, seen := [], part := q.1, segs := q.2.1 },
      redDue := t.vector.redDue ++ q.2.2.1 } }

/-- One cc of a running pass: its reads of the cc, and with the last of a vector's lines the vector. A pass fed by the drain waits
for its row (R164). -/
def Tile.passCycle (t : Tile) (s : State) (v : VecRun) (p : Pass) (regs : Regs) (now : Nat) : Tile :=
  if regs.srcN p.n ≤ v.vec then { t with vector := { t.vector with running := none } }
  else if p.a = .drain ∧ v.cyc = 0 ∧ t.array.drained.isEmpty = true then t
  else
    let us := v.reads p regs now
    let v1 := { v with seen := us.foldl (fun m u => writeBytes m u.addr (readBytes t.scratch u.addr u.len)) v.seen }
    let t1 := { t with plan := t.plan ++ us }
    if v.cyc + 1 = passCadence p v.redMask then t1.vectorDone s v1 p regs now
    else { t1 with vector := { t1.vector with running := some { v1 with cyc := v.cyc + 1 } } }

/-! ### Starts and cc -/

/-- A pending pass or combine starts where the engine is free (R166); a combine takes its messages (R291, R294). -/
def State.startVec (s : State) (t : TileNo) : State :=
  let x := s.tile t.val
  match x.vector.running, x.vector.pending with
  | none, some v =>
    match v.op with
    | .pass _ _ => s.setTile t.val { x with vector := { x.vector with running := some v, pending := none } }
    | .combine c regs =>
      let r := x.recv c.ep.val
      let ms := ((slotMsgs r (combineSlot r c regs)).take c.k).map (·.data)
      let s1 := s.setTile t.val { x with vector := { x.vector with running := some { v with msgs := ms }, pending := none } }
      { s1 with run := { s1.run with arrivalOrder := s1.run.arrivalOrder || r.op == CombineOp.addFp32 } }
  | _, _ => s

/-- One cc of a tile's vector engine that is no freeze cc. -/
def State.cycleVector (s0 : State) (t : TileNo) : State :=
  let s := s0.startVec t
  let x := s.tile t.val
  match x.vector.running with
  | none => s
  | some v =>
    match v.op with
    | .pass p regs => s.setTile t.val (x.passCycle s v p regs s.runCycle.toNat)
    | .combine c regs => s.combineCycle t v c regs

/-- Segment results that are readable by the cc after `now` leave the reduction unit (R195). -/
def Tile.redResults (t : Tile) (now : Nat) : Tile :=
  { t with late := t.late ++ t.vector.redDue.filter (fun l => decide (l.ready ≤ now + 1)),
           vector := { t.vector with redDue := t.vector.redDue.filter (fun l => decide (now + 1 < l.ready)) } }

/-! ### Issue -/

/-- A reduction fits the pass of its bundle: its tap names a position that gives an output (R169, R189). -/
def redFits (red : Option (Word × Reduction × Regs)) (b : Word) (p : Pass) : Bool :=
  match red with
  | some (b', r, _) => b' != b || redNames r p
  | none => true

/-- Issue a pass or a combine: after a pending one that starts in this cc, it becomes the pending one, which starts as R166 says, in
this cc at the earliest. Where one is still pending the model stops (Table 06.11). -/
def vecIssue (i : Iss) (op : VecOp) (s0 : State) : Res :=
  let s := s0.startVec i.tile
  let x := s.tile i.tile.val
  if x.vector.pending.isSome then .fault .engineHoldsPending
  else
    let red := match x.vector.waitingRed with
      | some (b, r, regs) => if b = i.bundle then some (r, regs) else none
      | none => none
    let v : VecRun := { bundle := i.bundle, op := op, red := red, serial := x.serial, vec := 0, cyc := 0, seen := [], part := [],
                        segs := 0, msgs := [] }
    .next (s.setTile i.tile.val { x with vector := { x.vector with pending := some v, waitingRed := none } })

/-- VECTOR_PASS (R162). -/
def opVectorPass (i : Iss) (p : Pass) (s : State) : Res :=
  issue i slotVector (passShape p) s (fun s =>
    let x := s.tile i.tile.val
    if !passNames p || !redFits x.vector.waitingRed i.bundle p then .fault .positionGivesNoOutput
    else if !passRange p (x.samp.srcN p.n) then .fault .vRangePassesV63
    else vecIssue i (.pass p x.samp) s)

/-- The encoding of a combine is inside the defined set. -/
def combineShape (c : CombineArg) : Bool :=
  decide (1 ≤ c.k ∧ c.k ≤ 64) &&
  (match c.final with
   | some (.stream d) => streamOk d && fmtWritable d.fmt && !d.broadcast
   | _ => true)

/-- The V registers of a FINAL combine stay within V63. -/
def combineRange (t : Tile) (c : CombineArg) : Bool :=
  match c.final with
  | some (.v base) => decide (base.val + (t.recv c.ep.val).elems / 256 ≤ 64)
  | _ => true

/-- COMBINE (R291, R427). -/
def opCombine (i : Iss) (c : CombineArg) (s : State) : Res :=
  issue i slotVector (combineShape c) s (fun s =>
    let x := s.tile i.tile.val
    if !combineRange x c then .fault .vRangePassesV63 else vecIssue i (.combine c x.samp) s)

/-- A row of the vector engine: the pending pass starts (R166). -/
def execPendingPassStart (tile : TileNo) (s : State) : Res :=
  if s.computes tile then .next (s.startVec tile) else .next s

/-- The pass of a bundle, with a reduction attached. -/
def VecRun.attach (v : VecRun) (r : Reduction) (regs : Regs) : VecRun := { v with red := some (r, regs) }

/-- The pass of a bundle among the pending and the running one. -/
def passOf (b : Word) (v : Option VecRun) : Option Pass :=
  match v with
  | some x =>
    if x.bundle = b ∧ x.vec = 0 ∧ x.cyc = 0 then
      (match x.op with
       | .pass p _ => some p
       | .combine _ _ => none)
    else none
  | none => none

/-- REDUCTION (R189): it attaches to its bundle's pass, before or after that pass is issued. -/
def opReduction (i : Iss) (r : Reduction) (s : State) : Res :=
  issue i slotReduction (redShape r) s (fun s =>
    let x := s.tile i.tile.val
    let put (v : VectorState) : Res := .next (s.setTile i.tile.val { x with vector := v })
    match passOf i.bundle x.vector.pending, passOf i.bundle x.vector.running with
    | some p, _ =>
      if redNames r p then put { x.vector with pending := x.vector.pending.map (·.attach r x.samp) }
      else .fault .positionGivesNoOutput
    | none, some p =>
      if redNames r p then put { x.vector with running := x.vector.running.map (·.attach r x.samp) }
      else .fault .positionGivesNoOutput
    | none, none => put { x.vector with waitingRed := some (i.bundle, r, x.samp) })

/-- REDUCTION_SEGMENT_RESULT: the results that are readable from the next cc on are written in this one (R195). -/
def execReductionSegmentResult (tile : TileNo) (s : State) : Res :=
  if s.computes tile then .next (s.modTile tile.val (fun t => t.redResults s.runCycle.toNat)) else .next s

end Sys2Proof.Machine
end

