-- ==== Sys2Proof/Machine/Stream.lean ====
section
/-! DEFINITION. The stream slot and the stream engine (R226, R249 to R279, R313): phases, fills and copies, windows,
descriptors, transfers and tags, inbound data, code prefetch and post-completion sends. -/

namespace Sys2Proof.Machine

/-! ### Descriptors -/

/-- A stream descriptor of a tile. -/
def Tile.desc (t : Tile) (d : Nat) : Descriptor := mget Descriptor.reset t.descs d
/-- Put a descriptor. -/
def Tile.setDesc (t : Tile) (d : Nat) (x : Descriptor) : Tile := { t with descs := mset t.descs d x }

/-- Element size in bytes; codes above 3 are undefined (R262). -/
def Descriptor.elem (d : Descriptor) : Nat := if d.elemCode ≤ 3 then 2 ^ d.elemCode else 1

/-- Bytes of a pass (R263). -/
def Descriptor.passLen (d : Descriptor) : Nat := d.elem * d.counts.foldl (· * ·) 1

/-- Segments of a pass (R268). -/
def Descriptor.passSegs (d : Descriptor) : Nat := if d.segSize = 0 then 0 else ceilDiv d.passLen d.segSize

/-- Byte offset on the HBM side of element k: dimension 0 fastest (R263). -/
def strideOffset : List Nat → List Int → Nat → Int
  | c :: cs, s :: ss, k => ((k % c : Nat) : Int) * s + strideOffset cs ss (k / c)
  | _, _, _ => 0

/-- HBM address of element k of the pass. -/
def Descriptor.hbmAddr (d : Descriptor) (k : Nat) : Int := (d.activeBase : Int) + strideOffset d.counts d.strides k

/-- Least and greatest byte offset that the dimensions reach. -/
def strideSpan : List Nat → List Int → Int × Int
  | c :: cs, s :: ss =>
    let r := strideSpan cs ss
    let e : Int := ((c - 1 : Nat) : Int) * s
    (r.1 + min 0 e, r.2 + max 0 e)
  | _, _ => (0, 0)

/-- Bytes of the module's HBM (R322). -/
def hbmBytes : Nat := 80 * 2 ^ 35

/-- The HBM extent of a pass from a base is inside the address space, and the base is a multiple of ELEM. -/
def extentOk (d : Descriptor) (base : Nat) : Bool :=
  let sp := strideSpan d.counts d.strides
  decide (0 ≤ (base : Int) + sp.1) && decide ((base : Int) + sp.2 + d.elem ≤ (hbmBytes : Int)) &&
  decide (base % d.elem = 0)

/-- Inconsistencies of a descriptor at START or REARM from a base, lowest code first (Table 07.6). -/
def descCode (s : State) (t : Tile) (d : Descriptor) (base : Nat) : Option Nat :=
  let local' := d.dir ≤ 2
  let ringOk := match t.region d.ringRegion with
    | some r => decide (r.base ≤ d.ringBase) && decide (d.ringBase + d.ringSize ≤ r.base + r.length) &&
        (d.dir != 0 || r.writable)
    | none => false
  if d.dir ≠ 2 ∧ extentOk d base = false then some 1
  else if local' ∧ (ringOk = false ∨ d.ringBase % 64 ≠ 0 ∨ d.ringSize % d.segSize ≠ 0 ∨ d.ringSize = 0) then some 2
  else if d.segSize = 0 ∨ d.segSize % 2048 ≠ 0 then some 3
  else if 3 < d.elemCode ∨ d.passLen % 64 ≠ 0 then some 4
  else if 2 ≤ d.dir ∧ ((s.physTile d.remoteTile).isNone ∨ (if d.dir = 2 then base else d.remoteBase) % 64 ≠ 0) then some 5
  else if 63 < d.doneSem ∨ (63 < d.readySem ∧ d.readySem ≠ 0x7F) then some 6
  else none

/-- A descriptor whose fields the faulting operation left open (R236). -/
def freeDescriptor (ctr : Nat) : Descriptor :=
  let f (k : Nat) : Nat := (Config.freeDWord (ctr + k)).toNat
  { Descriptor.reset with
    dir := f 0 % 4, persistent := Config.freeBit ctr, elemCode := f 1 % 4, hbmBase := f 2 % 2 ^ 48,
    counts := (List.range 5).map (fun k => f (3 + k) % 65536 + 1),
    strides := (List.range 5).map (fun k => (f (8 + k) % 2 ^ 40 : Nat)), ringBase := f 13 % 2 ^ 25,
    ringSize := f 14 % 2 ^ 25, ringRegion := f 15 % 64, segSize := f 16 % 2 ^ 25, remoteTile := f 17 % 128,
    remoteBase := f 18 % 2 ^ 25, needBy := f 19 % 2 ^ 32, needStep := f 20 % 2 ^ 24, doneSem := f 21 % 64,
    readySem := f 22 % 128, activeBase := f 23 % 2 ^ 48, isSetup := true, running := Config.freeBit (ctr + 1) }

/-- Raise STREAM_DESCRIPTOR. -/
def State.streamFault (s : State) (i : Iss) (offending code : Nat) : State :=
  s.contractFault i.tile.val cfStreamDescriptor slotStream i.bundle (BitVec.ofNat 64 offending) (BitVec.ofNat 64 code)

/-- Raise STREAM_DESCRIPTOR for a descriptor, whose contents it leaves open. -/
def State.descFault (s : State) (i : Iss) (d : Fin 32) (code : Nat) : State :=
  ((s.streamFault i d.val code).modTile i.tile.val (fun x => x.setDesc d.val (freeDescriptor s.freeCtr))).drawn 24

/-- Counts of a SETUP: unused dimensions count 1. -/
def setupCounts (r : Regs) (a : SetupArg) : List Nat :=
  (List.range 5).map (fun k =>
    match a.counts[k]? with
    | some c => r.srcN c % 65536 + 1
    | none => 1)

/-- Strides of a SETUP, 40 bits signed. -/
def setupStrides (r : Regs) (a : SetupArg) : List Int :=
  (List.range 5).map (fun k =>
    match a.strides[k]? with
    | some c => ((r.src c).setWidth 40).toInt
    | none => 0)

/-- The descriptor after a SETUP: fields written, segment numbers from 0 (R268). -/
def setupDesc (old : Descriptor) (r : Regs) (a : SetupArg) (b : Word) : Descriptor :=
  { old with
    dir := r.srcN a.dir % 4, persistent := (r.src a.persistent).getLsbD 0, elemCode := r.srcN a.elem,
    hbmBase := r.srcN a.hbmBase, counts := setupCounts r a, strides := setupStrides r a, ringBase := r.srcN a.ringBase,
    ringSize := r.srcN a.ringSize, ringRegion := r.srcN a.ringRegion, segSize := r.srcN a.segSize,
    remoteTile := r.srcN a.remoteTile, remoteBase := r.srcN a.remoteBase, needBy := r.srcN a.needBy % 2 ^ 32,
    needStep := r.srcN a.needStep % 2 ^ 24, doneSem := r.srcN a.doneSem, readySem := r.srcN a.readySem,
    isSetup := true, running := false, bundle := b, shadow := none, lastPass := false, position := 0, segBase := 0,
    readyTaken := false, segs := { gen := old.segs.gen + 1, sem := r.srcN a.doneSem, done := 0, bytes := [], len := [] },
    oldSegs := if old.segs.len = [] then old.oldSegs else old.oldSegs ++ [old.segs] }

/-- SETUP (R262, R264). -/
def opSetup (i : Iss) (d : Fin 32) (a : SetupArg) (s : State) : Res :=
  issue i slotStream (decide (a.counts.length ≤ 5) && decide (a.strides.length ≤ 5)) s (fun s =>
    let t := s.tile i.tile.val
    let x := t.desc d.val
    if x.running then .next (s.descFault i d 7)
    else .next (s.setTile i.tile.val (t.setDesc d.val (setupDesc x t.samp a i.bundle))))

/-- A descriptor beginning a pass from a base, which issues from the cc after `now` on (R272). -/
def Descriptor.beginPass (x : Descriptor) (now base : Nat) (deadline : DWord) (b : Word) (last : Bool) : Descriptor :=
  { x with running := true, activeBase := base, deadlineBase := deadline, bundle := b, position := 0, lastPass := last,
           readyTaken := false, opens := now + 1, block := none }

/-- START (R272): the ring position becomes RING_BASE and pass 0 begins in the next cc. -/
def opStart (i : Iss) (d : Fin 32) (s : State) : Res :=
  issue i slotStream true s (fun s =>
    let t := s.tile i.tile.val
    let x := t.desc d.val
    if !x.isSetup then .next (s.descFault i d 11)
    else
      let base := if x.dir = 2 then x.remoteBase else x.hbmBase
      match descCode s t x base, x.running with
      | some c, _ => .next (s.descFault i d c)
      | none, true => .next (s.descFault i d 7)
      | none, false =>
        .next (s.setTile i.tile.val (t.setDesc d.val
          { (x.beginPass s.runCycle.toNat base s.runCycle i.bundle false) with ringPos := 0 })))

/-- The descriptor's pass has ended in the cc `now` and its shadow has given the next one: a REARM of this cc counts as armed at that
end (R273). -/
def Descriptor.turned (x : Descriptor) (now : Nat) : Bool := x.running && x.opens == now + 1

/-- REARM (R272 to R276): an idle persistent descriptor begins its next pass; a running one takes the base in its shadow. -/
def opRearm (i : Iss) (d : Fin 32) (base : Src) (last : Bool) (s : State) : Res :=
  issue i slotStream true s (fun s =>
    let t := s.tile i.tile.val
    let x := t.desc d.val
    let b := t.samp.srcN base
    if !x.isSetup then .next (s.descFault i d 11)
    else
      match descCode s t x b with
      | some c => .next (s.descFault i d c)
      | none =>
        if !x.persistent then .next (s.descFault i d 7)
        else if x.turned s.runCycle.toNat then
          .next (s.setTile i.tile.val (t.setDesc d.val
            { (x.beginPass s.runCycle.toNat b s.runCycle i.bundle last) with overrun := true }))
        else if x.running then
          .next (s.setTile i.tile.val (t.setDesc d.val
            { x with shadow := some (b, last, s.runCycle, i.bundle), overrun := x.overrun || x.shadow.isSome }))
        else .next (s.setTile i.tile.val (t.setDesc d.val (x.beginPass s.runCycle.toNat b s.runCycle i.bundle last))))

/-! ### Phase, fill and copy (R249 to R255) -/

/-- PHASE (R250): in force from the next bundle; a change to compute while a fill or copy runs is code 0x0A. -/
def opPhase (i : Iss) (compute : Bool) (s : State) : Res :=
  issue i slotStream true s (fun s =>
    if compute && !(s.tile i.tile.val).fillRuns.isEmpty then
      .next (((s.streamFault i 0x30 10).modTile i.tile.val (fun t =>
        { t with phaseNext := some (Config.freeBit s.freeCtr) })).drawn 1)
    else .next (s.modTile i.tile.val (fun t => { t with phaseNext := some compute })))

/-- A range of a fill or copy is aligned and within its region, read-write for a destination. -/
def Tile.fillRange (t : Tile) (region a n : Nat) (isWrite : Bool) : Bool :=
  decide (a % 64 = 0) && decide (n % 64 = 0) && t.inRegion region a n isWrite

/-- A fill or copy that begins in the cc after `now` and moves `rate` bytes per cc. -/
def startFill (now rate addr length : Nat) (source : Option Nat) (value : DWord) (sem : Fin 64) (b : Word) : FillRun :=
  { addr := addr, length := length, source := source, value := value, sem := sem, bundle := b,
    ends := now + ceilDiv length rate, done := false }

/-- A range of the scratchpad holds open values: the fault of the operation leaves what it writes open (R236). -/
def State.freeScratch (s : State) (t a n : Nat) : State :=
  let n' := min n (scratchBytes - a)
  (s.modTile t (fun x => x.writeScratch a (freeBytes s.freeCtr n'))).drawn n'

/-- FILL (R255). -/
def opFill (i : Iss) (a : FillArg) (s : State) : Res :=
  issue i slotStream true s (fun s =>
    let t := s.tile i.tile.val
    let ad := t.samp.srcN a.addr
    let n := t.samp.srcN a.length
    if t.fillRange a.region.val ad n true && !t.computePhase then
      .next (s.setTile i.tile.val { t with fillRuns := t.fillRuns ++
        [startFill s.runCycle.toNat 2048 ad n none (t.samp.getG a.value.val) a.sem i.bundle] })
    else .next ((s.streamFault i 0x30 9).freeScratch i.tile.val ad n))

/-- COPY (R255): the ranges must not overlap. -/
def opCopy (i : Iss) (a : CopyArg) (s : State) : Res :=
  issue i slotStream true s (fun s =>
    let t := s.tile i.tile.val
    let src := t.samp.srcN a.source
    let dst := t.samp.srcN a.target
    let n := t.samp.srcN a.length
    if t.fillRange a.sourceRegion.val src n false && t.fillRange a.targetRegion.val dst n true &&
        (decide (src + n ≤ dst) || decide (dst + n ≤ src)) && !t.computePhase then
      .next (s.setTile i.tile.val { t with fillRuns := t.fillRuns ++
        [startFill s.runCycle.toNat 1024 dst n (some src) 0 a.sem i.bundle] })
    else .next ((s.streamFault i 0x30 9).freeScratch i.tile.val dst n))

/-- The bytes that a fill or copy writes. -/
def fillData (t : Tile) (f : FillRun) : Bytes :=
  match f.source with
  | some a => readBytes t.scratch a f.length
  | none => (List.range (f.length / 8)).flatMap (fun _ => leBytes 8 f.value.toNat)

/-- A fill or copy whose last cc is `now` ends: the range is written and the semaphore takes its completion (R255). -/
def State.endFill (s : State) (t : Nat) (f : FillRun) : State :=
  (s.modTile t (fun x => x.writeScratch f.addr (fillData x f))).semAdd t f.sem.val 1 slotNone f.bundle

/-- The first fill or copy of a tile that has its last cc now ends. -/
def State.fillEnds (s : State) (t : Nat) : State :=
  let x := s.tile t
  let due (f : FillRun) : Bool := !f.done && decide (f.ends ≤ s.runCycle.toNat)
  match x.fillRuns.find? due with
  | none => s
  | some f =>
    let k := x.fillRuns.findIdx due
    (s.setTile t { x with fillRuns := x.fillRuns.set k { f with done := true } }).endFill t f

/-- Every fill and copy of a tile that has its last cc now ends, in the order of their issue. -/
def State.allFillsEnd (s : State) (t : Nat) : State :=
  (s.tile t).fillRuns.foldl (fun s _ => s.fillEnds t) s

/-- FILL_COPY_DONE: a fill or copy of the tile that has its last cc now ends (R255). -/
def opFillCopyDone (tile : TileNo) (s : State) : Res :=
  if s.runActive then .next (s.fillEnds tile.val) else .next s

/-! ### Code prefetch (R226) -/

/-- The HBM address of a line of a tile's code section: the section of its logical index among the image's code sections, the last
one where there are fewer (log entry 62). -/
def State.codeAddr (s : State) (t : Tile) (line : Nat) : Nat :=
  let bases := ((s.runImage).map (fun im =>
    ((im.sectionBases.zip im.body.sections).filter (fun e => e.2.isCode)).map (·.1))).getD []
  (bases[t.logical.getD 0]?).getD (bases.getLastD 0) + 256 * line

/-- The request for one line of a code prefetch (R226, R277). -/
def State.codeRequest (s : State) (tile : TileNo) (needBy : DWord) (line : Nat) : HbmReq :=
  { who := .code tile line, isWrite := false, addr := s.codeAddr (s.tile tile.val) line, len := 256, data := [],
    deadline := some needBy, remote := none, poison := none }

/-- The count of a code prefetch: a register value outside 1 to 64, for which the spec states no count, leaves a free count in
that range (log entry 62). -/
def prefetchCount (r : Regs) (c : Src) (ctr : Nat) : Nat :=
  let n := r.srcN c
  if 1 ≤ n ∧ n ≤ 64 then n else (Config.freeDWord ctr).toNat % 64 + 1

/-- A count in the encoding of a code prefetch is 1 to 64. -/
def prefetchWf (c : Src) : Bool :=
  match c with
  | .imm v => decide (1 ≤ v.toNat ∧ v.toNat ≤ 64)
  | _ => true

/-- CODE_PREFETCH: a request for each line goes to the memory network (R226). -/
def opCodePrefetch (i : Iss) (a : PrefetchArg) (s : State) : Res :=
  issue i slotStream (prefetchWf a.count) s (fun s =>
    let t := s.tile i.tile.val
    let first := t.samp.srcN a.line
    let needBy := t.samp.src a.needBy
    let lines := (List.range (prefetchCount t.samp a.count s.freeCtr)).map (first + ·)
    let s1 := s.setTile i.tile.val { t with prefetches := t.prefetches ++
      [{ lines := lines, sem := a.sem, bundle := i.bundle, needBy := needBy }] }
    .next ({ s1 with mem := { s1.mem with net := s1.mem.net ++ lines.map (s.codeRequest i.tile needBy) } }.drawn 1))

/-- A code line has been written to the store: the oldest prefetch that waits for it has one line less, and the last one signals
its semaphore (R226). -/
def State.prefetched (s : State) (tile line : Nat) (needBy : DWord) : State :=
  let t := s.tile tile
  let waits (p : Prefetch) : Bool := p.needBy == needBy && p.lines.contains line
  match t.prefetches.find? waits with
  | none => s
  | some p =>
    let k := t.prefetches.findIdx waits
    let rest := p.lines.erase line
    if rest.isEmpty then
      (s.setTile tile { t with prefetches := t.prefetches.eraseIdx k }).semAdd tile p.sem.val 1 slotNone p.bundle
    else s.setTile tile { t with prefetches := t.prefetches.set k { p with lines := rest } }

/-- PREFETCH_LINE_ARRIVAL: of the prefetched lines that have come, the one with the earliest need-by cycle replaces its store line
(R226, R228, R278). -/
def execPrefetchLineArrival (tile : TileNo) (s : State) : Res :=
  let t := s.tile tile.val
  match firstKeyed (fun e : Nat × DWord => tileKey (some e.2) tile.val 32 0 (256 * e.1)) t.codeIn with
  | some (k, line, needBy) =>
    if s.runActive then
      .next ((s.setTile tile.val { t with
        codeIn := t.codeIn.eraseIdx k, istore := mset t.istore (line % 2048) line,
        istoreHeld := if t.istoreHeld = some line then none else t.istoreHeld }).prefetched tile.val line needBy)
    else .next s
  | none => .next s

/-! ### Windows (R256 to R260) -/

/-- A window range is aligned, of at least 64 B and within one read-write region. -/
def Tile.windowOk (t : Tile) (a n : Nat) : Bool :=
  decide (a % 64 = 0) && decide (n % 64 = 0) && decide (0 < n) &&
  t.regions.any (fun e => e.2.writable && decide (e.2.base ≤ a) && decide (a + n ≤ e.2.base + e.2.length))

/-- A window with open contents (R236). -/
def freeWindow (ctr : Nat) : Window :=
  { base := (Config.freeDWord ctr).toNat % 2 ^ 25, length := (Config.freeDWord (ctr + 1)).toNat % 2 ^ 25,
    writers := (Config.freeMask ctr).setWidth 128, isOpen := Config.freeBit ctr }

/-- WINDOW_OPEN: its fields are in force from the next bundle (R257). -/
def opWindowOpen (i : Iss) (w : Fin 16) (a : WindowArg) (s : State) : Res :=
  issue i slotStream true s (fun s =>
    let t := s.tile i.tile.val
    let base := t.samp.srcN a.base
    let len := t.samp.srcN a.length
    if t.windowOk base len then
      .next (s.setTile i.tile.val { t with windowsNext := t.windowsNext ++
        [(w.val, { base := base, length := len,
                   writers := (t.samp.src a.maskLo).setWidth 128 ||| ((t.samp.src a.maskHi).setWidth 128 <<< 64),
                   isOpen := true })] })
    else
      .next (((s.streamFault i (0x20 + w.val) 8).modTile i.tile.val (fun t =>
        { t with windowsNext := t.windowsNext ++ [(w.val, freeWindow s.freeCtr)] })).drawn 2))

/-- The window as it will stand once the changes already made take effect. -/
def Tile.windowNow (t : Tile) (w : Nat) : Window :=
  mget { base := 0, length := 0, writers := 0, isOpen := false } (applyWindows t.windows t.windowsNext) w

/-- WINDOW_CLOSE: clears the open flag (R257). -/
def opWindowClose (i : Iss) (w : Fin 16) (s : State) : Res :=
  issue i slotStream true s (fun s =>
    let t := s.tile i.tile.val
    .next (s.setTile i.tile.val { t with windowsNext := t.windowsNext ++
      [(w.val, { t.windowNow w.val with isOpen := false })] }))

/-- A remote write that arrives in this cc is accepted: it lies wholly within an open window whose mask names the writer, by the
windows as they stood before the changes of this cc (R258, R260). -/
def Tile.accepts (t : Tile) (writer : TileNo) (a n : Nat) : Bool :=
  t.windowsBefore.any (fun e => e.2.isOpen && decide (e.2.base ≤ a) && decide (a + n ≤ e.2.base + e.2.length) &&
    e.2.writers.getLsbD writer.val)

/-- WINDOW_VIOLATION: the first refusal for the writer reaches it (R237, R259). -/
def execWindowViolation (writer : TileNo) (s : State) : Res :=
  match s.net.refusals.find? (fun e => e.1 == writer) with
  | some (_, tag, dest, a) =>
    let k := s.net.refusals.findIdx (fun e => e.1 == writer)
    let s1 := { s with net := { s.net with refusals := s.net.refusals.eraseIdx k } }
    match mfind (s.tile writer.val).tags tag.val with
    | some tr =>
      .next (s1.contractFault writer.val cfWindowViolation slotStream tr.bundle (BitVec.ofNat 64 a)
        (BitVec.ofNat 64 (dest + 65536 * tr.desc.val)))
    | none => .next s1
  | none => .next s

/-! ### Transfers (R252, R265 to R272, R277, R278) -/

/-- The descriptor's next transfer starts a segment. -/
def Descriptor.atSegment (d : Descriptor) : Bool := d.segSize != 0 && d.position % d.segSize == 0

/-- The next transfer waits for READY_SEM. -/
def Descriptor.needsReady (d : Descriptor) : Bool := d.readySem != 0x7F && d.atSegment && !d.readyTaken

/-- The local side of a descriptor is the scratchpad. -/
def Descriptor.usesScratch (d : Descriptor) : Bool := decide (d.dir ≤ 2)

/-- The descriptor may issue a transfer in the cc `now`: its pass has begun, READY is taken, and its phase allows it (R252, R255,
R272). -/
def Tile.descReady (t : Tile) (now : Nat) (d : Descriptor) : Bool :=
  d.running && decide (d.opens ≤ now) && decide (d.position < d.passLen) && !d.needsReady &&
  (!d.usesScratch || (!t.computePhase && t.fillRuns.isEmpty))

/-- Deadline of the next transfer (R277). -/
def Descriptor.deadline (d : Descriptor) : DWord :=
  d.deadlineBase + BitVec.ofNat 64 (d.needBy + d.position / max 1 d.segSize * d.needStep)

/-- Elements that the next transfer takes after the first, at most `fuel`: contiguous and in one 2 KiB block of HBM,
within the ring, within the segment, and cut at ring offsets of 2 KiB for direction 2 (R265). -/
def runElems (d : Descriptor) : Nat → Nat → Nat
  | 0, _ => 0
  | fuel + 1, k =>
    let e := d.elem
    let off := (k + 1) * e - d.position
    let ring := d.ringPos + off
    if (k + 1) * e < d.passLen ∧ (k + 1) * e % d.segSize ≠ 0 ∧ off + e ≤ 2048 ∧
        (d.dir = 2 ∨ (d.hbmAddr (k + 1) = d.hbmAddr k + e ∧ d.hbmAddr (k + 1) % 2048 ≠ 0)) ∧
        (d.dir = 3 ∨ ring % d.ringSize ≠ 0) ∧ (d.dir ≠ 2 ∨ ring % 2048 ≠ 0) then
      1 + runElems d fuel (k + 1)
    else 0

/-- Bytes of the next transfer. -/
def Descriptor.nextLen (d : Descriptor) : Nat := d.elem * (1 + runElems d 2048 (d.position / d.elem))

/-- The first free tag. -/
def Tile.freeTag (t : Tile) : Option (Fin 256) :=
  ((List.range 256).find? (fun k => (mfind t.tags k).isNone)).map (Fin.ofNat 256)

/-- The segment of the next transfer, counted across passes (R268). -/
def Descriptor.nextSegment (d : Descriptor) : Nat := d.segBase + d.position / max 1 d.segSize

/-- The ready descriptor that issues next: the earliest deadline, then the lower stream and segment (R278). -/
def Tile.nextDesc (t : Tile) (now : Nat) : Option (Fin 32 × Descriptor) :=
  (firstKeyed (fun e : Nat × Descriptor =>
      tileKey (some e.2.deadline) 0 e.1 e.2.nextSegment (e.2.position % max 1 e.2.segSize))
    (t.descs.filter (fun e => t.descReady now e.2))).map (fun e => (Fin.ofNat 32 e.2.1, e.2.2))

/-- The segments after a transfer of a segment has been issued: its length is on record. -/
def SegCount.issued (c : SegCount) (seg len : Nat) : SegCount := { c with len := mset c.len seg len }

/-- The descriptor after issuing n bytes in the cc `now`; with the last byte of the pass the pass ends (R272). -/
def Descriptor.advance (d : Descriptor) (now n : Nat) : Descriptor :=
  let seg := d.nextSegment
  let segLen := min d.segSize (d.passLen - d.position / max 1 d.segSize * d.segSize)
  let pos := d.position + n
  let d1 := { d with
    position := pos, ringPos := if d.usesScratch then (d.ringPos + n) % max 1 d.ringSize else d.ringPos,
    readyTaken := if pos % max 1 d.segSize = 0 then false else d.readyTaken, segs := d.segs.issued seg segLen }
  if pos < d.passLen then d1
  else
    let d2 := { d1 with running := false, segBase := d.segBase + d.passSegs, position := 0, readyTaken := false }
    if d.lastPass then { d2 with persistent := false, shadow := none }
    else
      match d.shadow with
      | some (base, last, dl, b) => { d2.beginPass now base dl b last with shadow := none }
      | none => d2

/-- The transfer that a descriptor issues next. -/
def State.nextTransfer (s : State) (k : Fin 32) (d : Descriptor) : Transfer :=
  { desc := k, gen := d.segs.gen, segment := d.nextSegment, offset := d.position % max 1 d.segSize, dir := d.dir,
    hbmAddr := (d.hbmAddr (d.position / d.elem)).toNat,
    localAddr := if d.usesScratch then d.ringBase + d.ringPos
      else (if d.dir = 2 then d.activeBase else d.remoteBase) + d.position,
    remoteTile := (s.physTile d.remoteTile).getD 0, len := d.nextLen, deadline := d.deadline, bundle := d.bundle, done := false,
    block := { cycle := s.runCycle, mt := s.clock.meridian, hung := false } }

/-- The destination address of a transfer of direction 2 or 3. -/
def Descriptor.remoteAddr (d : Descriptor) : Nat := (if d.dir = 2 then d.activeBase else d.remoteBase) + d.position

/-- What a transfer puts on a network: a request to HBM, or a remote write over the schedule network, which has no deadline. -/
def State.sendTransfer (s : State) (tile : TileNo) (tag : Fin 256) (d : Descriptor) (tr : Transfer) : State :=
  let data := readBytes (s.tile tile.val).scratch tr.localAddr tr.len
  let dest : TileNo := Fin.ofNat 128 tr.remoteTile
  let ask (w : Bool) (data : Bytes) (rem : Option (TileNo × Nat)) : State :=
    { s with mem := { s.mem with net := s.mem.net ++
      [{ who := .tile tile tag, isWrite := w, addr := tr.hbmAddr, len := tr.len, data := data, deadline := some tr.deadline,
         remote := rem, poison := none }] } }
  match d.dir with
  | 0 => ask false [] none
  | 1 => ask true data none
  | 2 => { s with net := { s.net with remotes := s.net.remotes ++
      [(dest, .remote tile tag d.remoteAddr data none)] } }
  | _ => ask false [] (some (dest, d.remoteAddr))

/-- The transfer that a tile may issue in this cc, with its tag: one per cc (R266, R267). -/
def State.issuable (s : State) (tile : TileNo) : Option (Fin 32 × Descriptor × Fin 256) :=
  let t := s.tile tile.val
  if s.runActive ∧ t.logical.isSome ∧ t.faulted = false ∧ t.transferAt ≠ some s.runCycle.toNat then
    match t.nextDesc s.runCycle.toNat, t.freeTag with
    | some (k, d), some tag => some (k, d, tag)
    | _, _ => none
  else none

/-- TRANSFER_ISSUE (R267): the ready transfer with the earliest deadline takes a free tag. -/
def opTransferIssue (tile : TileNo) (s : State) : Res :=
  match s.issuable tile with
  | some (k, d, tag) =>
    let tr := s.nextTransfer k d
    let s1 := s.modTile tile.val (fun t =>
      { (t.setDesc k.val (d.advance s.runCycle.toNat tr.len)) with
        tags := mset t.tags tag.val tr, transferAt := some s.runCycle.toNat })
    .next (s1.sendTransfer tile tag d tr)
  | none => .next s

/-- The bytes of its scratchpad that the tile's next transfer reads (R248). -/
def State.transferReads (s : State) (tile : TileNo) : Nat × Nat :=
  match s.issuable tile with
  | some (k, d, _) =>
    let tr := s.nextTransfer k d
    if d.dir = 1 ∨ d.dir = 2 then (tr.localAddr, tr.len) else (0, 0)
  | none => (0, 0)

/-- READY_TAKE: the stream engine takes 1 from READY_SEM for a descriptor's next segment (R269). -/
def execReadyTake (tile : TileNo) (k : Fin 32) (s : State) : Res :=
  let t := s.tile tile.val
  let d := t.desc k.val
  let c := t.sem d.readySem
  if s.runActive ∧ t.faulted = false ∧ d.running = true ∧ d.opens ≤ s.runCycle.toNat ∧ d.needsReady = true ∧ c ≠ 0 then
    .next (s.setTile tile.val ((t.setDesc k.val { d with readyTaken := true, block := none }).setSem d.readySem (c - 1)))
  else .next s

/-- Segments whose bytes are all complete, counted in order from the first not yet signalled. -/
def SegCount.ready (c : SegCount) : Nat → Nat
  | 0 => 0
  | fuel + 1 =>
    match mfind c.len c.done with
    | some n => if n ≤ mget 0 c.bytes c.done then
        1 + SegCount.ready { c with done := c.done + 1 } fuel else 0
    | none => 0

/-- A transfer of a segment completes; the answer gives how many segments are now done in order (R268). -/
def SegCount.complete (c : SegCount) (seg n : Nat) : SegCount × Nat :=
  let c1 := { c with bytes := mset c.bytes seg (mget 0 c.bytes seg + n) }
  let k := c1.ready c1.len.length
  ({ c1 with done := c1.done + k, bytes := c1.bytes.filter (fun e => decide (c1.done + k ≤ e.1)),
             len := c1.len.filter (fun e => decide (c1.done + k ≤ e.1)) }, k)

/-- A completed transfer reaches its descriptor's segments: the counts, the semaphore and how many signals it takes. -/
def Descriptor.complete (d : Descriptor) (tr : Transfer) : Descriptor × Nat × Nat :=
  if tr.gen = d.segs.gen then
    let r := d.segs.complete tr.segment tr.len
    ({ d with segs := r.1 }, d.segs.sem, r.2)
  else
    match d.oldSegs.find? (fun c => c.gen == tr.gen) with
    | some c =>
      let r := c.complete tr.segment tr.len
      ({ d with oldSegs := (d.oldSegs.map (fun x => if x.gen = tr.gen then r.1 else x)).filter (fun x => x.len != []) },
       c.sem, r.2)
    | none => (d, 0, 0)

/-- TRANSFER_COMPLETE (R266, R268): the tag frees, and the segments done in order signal DONE_SEM. -/
def execTransferComplete (tile : TileNo) (tag : Fin 256) (s : State) : Res :=
  let t := s.tile tile.val
  match mfind t.tags tag.val with
  | some tr =>
    if tr.done then
      let (d, sem, k) := (t.desc tr.desc.val).complete tr
      let s1 := s.setTile tile.val { (t.setDesc tr.desc.val d) with tags := merase t.tags tag.val }
      .next (if k = 0 then s1 else s1.semAdd tile.val sem k slotNone tr.bundle)
    else .next s
  | none => .next s

/-! ### Inbound data (R253, R254, R261) -/

/-- Bytes of an inbound item. -/
def Inbound.bytes : Inbound → Nat
  | .read _ _ d _ => d.length
  | .remote _ _ _ d _ => d.length

/-- Bytes of the hold area (TCB_HOLD_AREA). -/
def Tile.holdBytes (t : Tile) : Nat := (t.holdAreaCode.toNat + 2) * 65536

/-- Bytes of inbound data that the stream engine has written in the cc `now`. -/
def Tile.landedIn (t : Tile) (now : Nat) : Nat := if t.landed.1 = now then t.landed.2 else 0

/-- Mark a tile's transfer as done. -/
def Tile.markDone (t : Tile) (tag : Fin 256) : Tile :=
  match mfind t.tags tag.val with
  | some tr => { t with tags := mset t.tags tag.val { tr with done := true } }
  | none => t

/-- Write an inbound item to the scratchpad: its transfer is done (R261, R266). -/
def State.landInbound (s : State) (t : TileNo) (x : Inbound) : State :=
  let write (a : Nat) (data : Bytes) : State := s.modTile t.val (fun y =>
    { (y.writeScratch a data) with landed := (s.runCycle.toNat, y.landedIn s.runCycle.toNat + data.length) })
  match x with
  | .read tag a data _ => (write a data).modTile t.val (fun y => y.markDone tag)
  | .remote w tag a data _ => (write a data).modTile w.val (fun y => y.markDone tag)

/-- The stream engine may write `n` bytes of inbound data in the cc `now`: a transfer phase, no fill or copy, and at most 2 KiB in
a cc (R253, R255). -/
def Tile.canLand (t : Tile) (now n : Nat) : Bool :=
  !t.computePhase && t.fillRuns.isEmpty && decide (t.landedIn now + n ≤ 2048)

/-- An inbound item that came over the schedule network, which holds hold-area credit (R254). -/
def Inbound.hasCredit : Inbound → Bool
  | .remote _ _ _ _ none => true
  | _ => false

/-- The place of an inbound item among those that wait for the hold area: the keys of its transfer (R254, R278). -/
def State.inboundKey (s : State) (t : TileNo) (x : Inbound) : FlowKey :=
  let key (w : TileNo) (tag : Fin 256) (d : Option DWord) : FlowKey :=
    match mfind (s.tile w.val).tags tag.val with
    | some tr => tileKey d w.val tr.desc.val tr.segment tr.offset
    | none => tileKey d w.val 0 0 0
  match x with
  | .read tag _ _ d => key t tag d
  | .remote w tag _ _ d => key w tag d

/-- Hold-area bytes that are not held and not promised to a write of the schedule network. -/
def Tile.holdFree (t : Tile) : Nat :=
  t.holdBytes - (t.holdArea.map (·.bytes)).sum - ((t.inbound.filter (·.hasCredit)).map (·.bytes)).sum

/-- The item of the memory network that is first at the tile's port. -/
def State.firstInbound (s : State) (t : TileNo) : Option (Nat × Inbound) :=
  firstKeyed (fun e : Nat × Inbound => s.inboundKey t e.2)
    ((((s.tile t.val).inbound.zipIdx).filter (fun e => !e.1.hasCredit)).map (fun e => (e.2, e.1))) |>.map (·.2)

/-- The inbound item that enters next: the first of the memory network where the hold area takes it, else the oldest write of the
schedule network, whose room is its own. -/
def State.nextInbound (s : State) (t : TileNo) : Option (Nat × Inbound) :=
  let x := s.tile t.val
  let k := x.inbound.findIdx (·.hasCredit)
  let slot : Option (Nat × Inbound) := (x.inbound[k]?).map (fun e => (k, e))
  match s.firstInbound t with
  | some (j, e) =>
    if (x.holdArea.isEmpty && x.canLand s.runCycle.toNat e.bytes) || decide (e.bytes ≤ x.holdFree) then some (j, e) else slot
  | none => slot

/-- INBOUND_DATA_ARRIVAL (R253, R254): in a transfer phase with nothing held the data is written; else it enters the hold
area, or waits while that is full. -/
def execInboundDataArrival (tile : TileNo) (s : State) : Res :=
  let t := s.tile tile.val
  match s.nextInbound tile with
  | none => .next s
  | some (k, x) =>
    let t1 := { t with inbound := t.inbound.eraseIdx k }
    if t.holdArea.isEmpty && t.canLand s.runCycle.toNat x.bytes then .next ((s.setTile tile.val t1).landInbound tile x)
    else .next (s.setTile tile.val { t1 with holdArea := t.holdArea ++ [x] })

/-- HOLD_AREA_WRITE: in a transfer phase the oldest held data is written (R253). -/
def execHoldAreaWrite (tile : TileNo) (s : State) : Res :=
  let t := s.tile tile.val
  match t.holdArea with
  | [] => .next s
  | x :: rest =>
    if t.canLand s.runCycle.toNat x.bytes then
      .next ((s.setTile tile.val { t with holdArea := rest }).landInbound tile x)
    else .next s

/-- The memory network waits at the tile's port in this cc, for room in the hold area (R254). -/
def State.holdBlocked (s : State) (t : TileNo) : Bool :=
  let x := s.tile t.val
  match s.firstInbound t with
  | some (_, e) =>
    decide (x.holdFree < e.bytes) && !(x.holdArea.isEmpty && !x.computePhase && x.fillRuns.isEmpty)
  | none => false

/-! ### Judgement of remote writes (R258 to R261) -/

/-- A remote write can reach its destination: one over the schedule network is sent against hold-area credit (R254). -/
def Tile.takesRemote (t : Tile) (x : Inbound) : Bool := !x.hasCredit || decide (x.bytes ≤ t.holdFree)

/-- REMOTE_WRITE_JUDGED: the first remote write on its way to the tile that can reach it is judged (R258, R259). -/
def execRemoteWriteJudged (tile : TileNo) (s : State) : Res :=
  let t := s.tile tile.val
  let mine (e : TileNo × Inbound) : Bool := e.1 == tile && t.takesRemote e.2
  match s.net.remotes.find? mine with
  | some (_, .remote writer tag a data dl) =>
    let k := s.net.remotes.findIdx mine
    let s1 := { s with net := { s.net with remotes := s.net.remotes.eraseIdx k } }
    if t.accepts writer a data.length then
      .next (s1.modTile tile.val (fun t => { t with inbound := t.inbound ++ [.remote writer tag a data dl] }))
    else
      let s2 := s1.modTile tile.val (fun t => { t with refusals := satInc t.refusals })
      .next { s2 with net := { s2.net with refusals := s2.net.refusals ++ [(writer, tag, tile.val, a)] } }
  | _ => .next s

/-! ### Post-completion sends (R313) -/

/-- The 32 B of four G registers (R289). -/
def gBytes (r : Regs) (g : Nat) : Bytes := (List.range 4).flatMap (fun k => leBytes 8 (r.getG (g + k)).toNat)

/-- POST_SEND (R313): its payload is taken at issue. -/
def opPostSend (i : Iss) (d : Fin 32) (segment : Src) (ep : Fin 64) (g : GReg) (s : State) : Res :=
  issue i slotStream (decide (g.val % 4 = 0)) s (fun s =>
    let t := s.tile i.tile.val
    .next (s.setTile i.tile.val { t with postSends := t.postSends ++
      [{ desc := d, segment := t.samp.srcN segment, ep := ep, payload := gBytes t.samp g.val, bundle := i.bundle,
         ready := false, block := none }] }))

/-- The segment of a post-send is done. -/
def Tile.postDone (t : Tile) (p : PostSend) : Bool := decide (p.segment < (t.desc p.desc.val).segs.done)

/-- A post-send may go: its segment was done before this cc, and its endpoint can send. -/
def Tile.postReady (t : Tile) (p : PostSend) : Bool := p.ready && (t.send p.ep.val).sendable

/-- POST_SEND_DISPATCH: the oldest post-send that may go is sent (R313). -/
def execPostSendDispatch (tile : TileNo) (s : State) : Res :=
  let t := s.tile tile.val
  let k := t.postSends.findIdx t.postReady
  match t.postSends[k]? with
  | some p =>
    if s.runActive then
      .next ((s.setTile tile.val { t with postSends := t.postSends.eraseIdx k }).sendData tile p.ep none p.payload
        slotStream p.bundle).1
    else .next s
  | none => .next s

end Sys2Proof.Machine
end

