-- ==== Sys2Proof/Machine/Channel.lean ====
section
/-! DEFINITION. The channel slot (Table 08.2) and the arrivals of messages and notices at a tile (R284 to R289, R308 to
R312). -/

namespace Sys2Proof.Machine

/-! ### Sends (R285) -/

/-- A result of the channel slot goes on its way to its registers: it is readable `latency` cc after its issue (R285, R289). -/
def Tile.channelLate (t : Tile) (now latency : Nat) (b : Word) (e : LateEff) : Tile :=
  t.addLate { ready := now + latency, order := 2, slot := slotChannel, bundle := b, eff := e, uses := [], isOpen := false }

/-- The status register of a send receives 0 for an open channel and 1 for a CLOSED one, for the next bundle to read. -/
def Tile.sendStatus (t : Tile) (now : Nat) (b : Word) (status : Option GReg) (closed : Bool) : Tile :=
  match status with
  | some g => t.channelLate now 1 b (.scalar (.g g) (if closed then 1 else 0))
  | none => t

/-- A send of data from the channel slot, with its status. -/
def sendIssue (i : Iss) (a : SendArg) (data : Bytes) (s : State) : Res :=
  let slot := a.slot.map (fun g => (s.tile i.tile.val).samp.getG g.val)
  let r := s.sendData i.tile a.ep slot data slotChannel i.bundle
  .next (r.1.modTile i.tile.val (fun t => t.sendStatus s.runCycle.toNat i.bundle a.status r.2))

/-- SEND_G: 32 B from four G registers (R285). -/
def opSendG (i : Iss) (a : SendArg) (g : GReg) (s : State) : Res :=
  issueWait i slotChannel (decide (g.val % 4 = 0)) a.wp (.credit a.ep) s (fun s =>
    sendIssue i a (gBytes (s.tile i.tile.val).samp g.val) s)

/-- The bytes of V registers. -/
def vBytes (r : Regs) (v n : Nat) : Bytes := (List.range n).flatMap (fun k => wordBytes (r.vec (v + k)))

/-- SEND_V: 1 to 4 KiB from V registers (R285). -/
def opSendV (i : Iss) (a : SendArg) (v : VReg) (count : Fin 4) (s : State) : Res :=
  issueWait i slotChannel true a.wp (.credit a.ep) s (fun s =>
    if 64 < v.val + count.val + 1 then .fault .vRangePassesV63
    else sendIssue i a (vBytes (s.tile i.tile.val).samp v.val (count.val + 1)) s)

/-! ### Receives (R287, R289) -/

/-- Consume the head message of a plain endpoint: its buffer frees, and its bytes go to registers, readable 2 cc after issue
(R289). -/
def recvIssue (i : Iss) (ep : Fin 64) (s : State) (f : Bytes → List LateEff) : Res :=
  let t := s.tile i.tile.val
  let r := t.recv ep.val
  match r.msgs with
  | [] => .next s
  | m :: rest =>
    let t1 := (f m.data).foldl (fun t e => t.channelLate s.runCycle.toNat 2 i.bundle e) (t.setRecv ep.val { r with msgs := rest })
    .next ((s.setTile i.tile.val t1).creditBack m.origin)

/-- 32 B into four G registers, little-endian. -/
def recvG (g : GReg) (bs : Bytes) : List LateEff :=
  (List.range 4).map (fun k => .scalar (.g (Fin.ofNat 32 (g.val + k))) (BitVec.ofNat 64 (leNat (slice bs (8 * k) 8))))

/-- The first 256 words of a byte list, zeros beyond it. -/
def laneWords (bs : Bytes) : Nat → List Word
  | 0 => []
  | n + 1 => BitVec.ofNat 32 (leNat (bs.take 4)) :: laneWords (bs.drop 4) n

/-- Bytes into V registers, 1 KiB per register, zeros beyond them. -/
def recvV (v n : Nat) (bs : Bytes) : List LateEff :=
  (List.range n).map (fun k => .v (v + k) 0 ((laneWords (slice bs (1024 * k) 1024) 256).map (fun w => (w, true))))

/-- RECV_G (R289). -/
def opRecvG (i : Iss) (ep : Fin 64) (g : GReg) (wp : Fin 1024) (s : State) : Res :=
  issueWait i slotChannel (decide (g.val % 4 = 0)) wp (.message ep) s (fun s => recvIssue i ep s (recvG g))

/-- RECV_V (R289). -/
def opRecvV (i : Iss) (ep : Fin 64) (v : VReg) (count : Fin 4) (wp : Fin 1024) (s : State) : Res :=
  issueWait i slotChannel true wp (.message ep) s (fun s =>
    if 64 < v.val + count.val + 1 then .fault .vRangePassesV63 else recvIssue i ep s (recvV v.val (count.val + 1)))

/-- RECV_DROP (R287). -/
def opRecvDrop (i : Iss) (ep : Fin 64) (wp : Fin 1024) (s : State) : Res :=
  issueWait i slotChannel true wp (.message ep) s (fun s => recvIssue i ep s (fun _ => []))

/-- WAIT_ARRIVED (R293, R427). -/
def opWaitArrived (i : Iss) (ep : Fin 64) (slot : Src) (k : Nat) (wp : Fin 1024) (s : State) : Res :=
  issueWait i slotChannel (decide (1 ≤ k ∧ k ≤ 64)) wp (.arrived ep slot k) s (fun s => .next s)

/-- EP_RESET (R308). -/
def opEpReset (i : Iss) (ep : Fin 64) (s : State) : Res :=
  issue i slotChannel true s (fun s => .next (s.resetRecv i.tile ep.val))

/-- EP_OPEN (R311). -/
def opEpOpen (i : Iss) (ep : Fin 64) (s : State) : Res :=
  issue i slotChannel true s (fun s => .next (s.openRecv i.tile ep.val))

/-! ### Arrivals inside the module -/

/-- The place of a message in flight among those of one endpoint: by the cc in which its first flit arrives where its first slots
are free, then by sender (R284, R286, R288; log entry 43). -/
def FlightMsg.key (m : FlightMsg) : FlowKey :=
  match m.msg.origin with
  | .tile t ep => [m.msg.cycle + flowLatency t.val m.dest.val, t.val, ep.val]
  | .port _ _ _ _ => [m.msg.cycle]

/-- The message that reaches an endpoint next, with its place in flight. -/
def State.nextMessage (s : State) (tile : TileNo) (ep : Fin 64) : Option (Nat × FlightMsg) :=
  (firstKeyed (fun e : FlightMsg × Nat => e.1.key)
    (s.net.msgs.zipIdx.filter (fun e => e.1.dest == tile && e.1.ep == ep))).map (fun e => (e.2.2, e.2.1))

/-- MESSAGE_ARRIVAL: the next message in flight to an endpoint becomes complete (R286, R308, R426). -/
def execMessageArrival (tile : TileNo) (ep : Fin 64) (s : State) : Res :=
  match s.nextMessage tile ep with
  | some (n, m) => .next (({ s with net := { s.net with msgs := s.net.msgs.eraseIdx n } }).arrive tile ep.val m.msg)
  | none => .next s

/-- A notice is for an endpoint. -/
def Notice.isFor (tile : TileNo) (ep : Fin 64) (n : Notice) : Bool := n.tile == tile && n.ep == ep

/-- CREDIT_ARRIVAL (R287). -/
def execCreditArrival (tile : TileNo) (ep : Fin 64) (s : State) : Res :=
  if s.net.credits.any (Notice.isFor tile ep) then
    let s1 := { s with net := { s.net with
      credits := s.net.credits.eraseIdx (s.net.credits.findIdx (Notice.isFor tile ep)) } }
    .next (s1.modTile tile.val (fun t =>
      t.setSend ep.val { t.send ep.val with credit := (t.send ep.val).credit + 1 }))
  else .next s

/-- CLOSING_NOTICE_ARRIVAL (R309). -/
def execClosingNoticeArrival (tile : TileNo) (ep : Fin 64) (s : State) : Res :=
  if s.net.closings.any (Notice.isFor tile ep) then
    let s1 := { s with net := { s.net with
      closings := s.net.closings.eraseIdx (s.net.closings.findIdx (Notice.isFor tile ep)) } }
    .next (s1.modTile tile.val (fun t => t.setSend ep.val { t.send ep.val with closed := true }))
  else .next s

/-- A send endpoint opens again: its credit is DEPTH (R311), and CSEQ starts from 0 (R389). -/
def SendEp.reopen (x : SendEp) : SendEp := { x with closed := false, credit := x.depth, cseq := 0 }

/-- OPENING_NOTICE_ARRIVAL (R311). -/
def execOpeningNoticeArrival (tile : TileNo) (ep : Fin 64) (s : State) : Res :=
  if s.net.openings.any (Notice.isFor tile ep) then
    let s1 := { s with net := { s.net with
      openings := s.net.openings.eraseIdx (s.net.openings.findIdx (Notice.isFor tile ep)) } }
    .next (s1.modTile tile.val (fun t => t.setSend ep.val (t.send ep.val).reopen))
  else .next s

/-- DISCARD_REPORT_ARRIVAL: CLOSED_ENDPOINT where the endpoint is not tolerant (R310). -/
def execDiscardReportArrival (tile : TileNo) (ep : Fin 64) (s : State) : Res :=
  match s.net.discards.find? (Notice.isFor tile ep) with
  | some n =>
    let s1 := { s with net := { s.net with
      discards := s.net.discards.eraseIdx (s.net.discards.findIdx (Notice.isFor tile ep)) } }
    if ((s.tile tile.val).send ep.val).tolerant then .next s1
    else .next (s1.closedFault tile ep.val n.sentBy.1 n.sentBy.2)
  | none => .next s

end Sys2Proof.Machine
end

