-- ==== Sys2Proof/Machine/Barrier.lean ====
section
/-! DEFINITION. Barriers above the tile: counters of a module (R301 to R304), the domain tree and the pair counter
(R400 to R402, R454), the withheld arrivals and releases of R444 and R463, and a membership that comes into force. -/

namespace Sys2Proof.Machine

/-- The barriers of the running image. -/
def State.barrierDecl (s : State) (b : Fin 16) : Option BarrierDecl :=
  ((s.runImage).map (·.body.barriers)).getD [] |>.find? (fun d => d.id == b)

/-- Physical tiles that take part in a barrier. -/
def State.participants (s : State) (d : BarrierDecl) : List Nat := d.participants.filterMap s.physTile

/-- Coding of a scope level (R304). -/
def scopeLevel : BarrierScope → Nat
  | .cluster => 0
  | .die => 1
  | .module => 2
  | .pair => 3
  | .domain => 4

/-- Key of a counter of the module: level, unit, barrier. -/
def counterKey (level unit b : Nat) : Nat := level * 1024 + unit * 16 + b

/-- A barrier counter of the module. -/
def State.counter (s : State) (level unit b : Nat) : BarrierCounter :=
  mget { expected := 0, bank0 := 0, bank1 := 0, round := 0 } s.net.counters (counterKey level unit b)

/-- Put a counter of the module. -/
def State.setCounter (s : State) (level unit b : Nat) (c : BarrierCounter) : State :=
  { s with net := { s.net with counters := mset s.net.counters (counterKey level unit b) c } }

/-- Add arrivals to a bank of a counter: the counter, and whether the bank became complete and was reset (R303). -/
def BarrierCounter.add (c : BarrierCounter) (bank n : Nat) : BarrierCounter × Bool :=
  let v := (if bank = 0 then c.bank0 else c.bank1) + n
  let full := decide (c.expected ≤ v)
  let v := if full then 0 else v
  (if bank = 0 then { c with bank0 := v } else { c with bank1 := v }, full)

/-! ### Effective step of a change (R444) -/

/-- The step that a round of the step barrier belongs to. -/
def State.stepOfRound (s : State) (round : Word) : Word := s.run.firstStep + round

/-- The change that takes effect at a round of the step barrier. -/
def State.changeAt (s : State) (b : Fin 16) (round : Word) : Option Change :=
  match s.barrierDecl b, s.domain.change with
  | some d, some c => if d.isStepBarrier && c.tE == s.stepOfRound round then some c else none
  | _, _ => none

/-- The members whose tree counts a round. -/
def State.treeMembers (s : State) (b : Fin 16) (round : Word) : List Nat :=
  match s.changeAt b round with
  | some c => c.membership.members
  | none => s.members

/-- Old members that have a share in a change's state transfer: a forced change's stopped members take none (R444). -/
def State.transferRanks (s : State) (c : Change) : List Nat :=
  let old := s.members
  (List.range old.length).filter (fun r => !c.forced || c.membership.members.contains (old.getD r 0))

/-- Every old member has reported its share. -/
def State.transferDone (s : State) (c : Change) : Bool :=
  (s.transferRanks c).all (fun r => s.domain.transferReports.contains r)

/-- A membership comes into force: its epochs enter the table, and the bindings of port channels are renewed by the
caller (R395, R445). -/
def State.adoptMembership (s : State) (m : Membership) (epochs : List (Nat × Word)) : State :=
  { s with domain := { s.domain with
      membership := some m, epochs := epochs.foldl (fun t e => mset t e.1 e.2) [], change := none, transferReports := [],
      heldRelease := none } }

/-- The far module of a port end (R396). -/
def State.farModule (s : State) : FarModule → Nat × Bool
  | .rankOffset k => (s.memberOfRank ((s.ownRank + k) % max 1 s.members.length), false)
  | .twin => (s.twinId, true)
  | .moduleId id => (id.toNat, false)

/-- Physical tile of a logical tile of a far module (R393); its logical number stands in without a table. -/
def State.farTile (s : State) (m l : Nat) : Nat :=
  match (mget [] s.domain.tileTables m)[l]? with
  | some t => t.val
  | none => l

/-- Resolve and bind a send endpoint's port channel (R396, R397, R453). -/
def State.bindSend (s : State) (t : Nat) (e : Nat) (x : SendEp) : SendEp :=
  match x.dest with
  | .tile _ _ => x
  | .port far l ep =>
    let (m, tie) := s.farModule far
    let ordinal := ((s.tile t).logical.getD 0) * 64 + e
    { x with farModule := BitVec.ofNat 20 m, destTile := s.farTile m l, destEp := ep,
             port := some (portNo (s.boundPort tie m ordinal)) }

/-- Rebind every port channel of a tile. -/
def State.bindTile (s : State) (t : Nat) : State :=
  s.modTile t (fun x => { x with sends := x.sends.map (fun e => (e.1, s.bindSend t e.1 e.2)) })

/-- Rebind the port channels of every tile (R397). -/
def State.bindAll (s : State) : List Nat → State
  | [] => s
  | t :: r => State.bindAll (s.bindTile t) r

/-- A channel from a far module that the membership in force no longer holds. -/
def State.lostSender (s : State) (o : MsgOrigin) : Bool :=
  match o with
  | .port p m _ _ => decide (p.val < 16) && !s.members.contains m.toNat
  | .tile _ _ => false

/-- Reset the receive endpoints whose far module a change removed (R399). -/
def State.resetLost (s : State) : List (Nat × Nat) → State
  | [] => s
  | (t, e) :: r =>
    State.resetLost
      (if ((s.tile t).recv e).senders.any s.lostSender then s.resetRecv (Fin.ofNat 128 t) e else s) r

/-- Every declared receive endpoint of the module, as tile and number. -/
def State.recvKeys (s : State) : List (Nat × Nat) := s.tiles.flatMap (fun e => e.2.recvs.map (fun r => (e.1, r.1)))

/-- A change that leaves this module without its twin leaves it in solo mode (R478). -/
def State.soloAfter (s : State) (c : Change) : State :=
  let new := c.membership.members
  if s.members.contains s.twinId && !new.contains s.twinId && new.contains s.moduleIdNat then
    { s with pair := { s.pair with mode := .solo, role := .solo } }
  else s

/-- A change takes effect as its step barrier is released (R445, R446): the membership, its epochs, the bindings, and
the event MEMBERSHIP_CHANGE. -/
def State.applyChange (s : State) (c : Change) : State :=
  let old : Membership := { epoch := s.memberEpoch, shape := s.shape, members := s.members }
  let s0 := { s with domain := { s.domain with past := (c.tE.toNat, old) :: s.domain.past } }
  let s1 := ((s0.soloAfter c).adoptMembership c.membership c.epochs).assignParcels
  let s2 := (s1.bindAll (s1.tiles.map (·.1))).resetLost s1.recvKeys
  s2.sendTileTable.event evMembershipChange (srcOf 1 0) (leBytes 4 c.membership.epoch.toNat ++ leBytes 4 c.tE.toNat)

/-! ### Releases -/

/-- A release passes down to the participants of the module (R303, R305). -/
def State.sendRelease (s : State) (b : Fin 16) (round : Word) : State :=
  { s with net := { s.net with barrierDown := s.net.barrierDown ++
      [{ barrier := b, level := .module, unit := 0, round := round }] } }

/-- The release of a round reaches the module's own counter: a change of this round comes into force. -/
def State.moduleRelease (s : State) (b : Fin 16) (round : Word) : State :=
  let s1 := match s.changeAt b round with
    | some c => s.applyChange c
    | none => s
  s1.sendRelease b round

/-- Payload of a barrier packet (Table 11.4). -/
def barrierPayload (b : Fin 16) (round : Word) (level count : Nat) : Bytes :=
  leBytes 2 b.val ++ zeros 2 ++ leBytes 4 round.toNat ++ [BitVec.ofNat 8 level] ++ zeros 3 ++ leBytes 4 count ++ zeros 16

/-- Send a barrier packet of the domain tree (R401): MEMBER_EPOCH of the round's tree. -/
def State.sendBarrier (s : State) (ptype dst : Nat) (b : Fin 16) (round : Word) (level count : Nat) : State :=
  let p := s.lowestChain
  let k := s.mkPacket p.val ptype dst 0 0 (barrierPayload b round level count)
  s.sendOn p { k with memberEpoch := ((s.changeAt b round).map (·.membership.epoch)).getD s.memberEpoch }

/-- Release packets to the children of an aggregator, from child `c` on; the answer also says whether the module itself
is among them. -/
def State.releaseChildren (s : State) (b : Fin 16) (round : Word) (level : Nat) (members : List Nat) (own : Nat) :
    List Nat → State
  | [] => s
  | r :: rest =>
    State.releaseChildren
      (if r = own then s else s.sendBarrier 7 (members.getD r 0) b round (level - 1) 0) b round level members own rest

/-- Ranks below an aggregator at a level: every 16^(level−1)-th rank of its range. -/
def childRanks (m level base : Nat) : List Nat :=
  ((List.range 16).map (fun k => base + k * 16 ^ (level - 1))).filter (fun r => decide (r < m))

/-- A release at an aggregator of a level passes to its children, and to the module's own lower counters (R401). -/
def State.releaseDown (b : Fin 16) (round : Word) : Nat → State → State
  | 0, s => s.moduleRelease b round
  | level + 1, s =>
    let members := s.treeMembers b round
    let own := rankIn members s.moduleIdNat
    let base := own / 16 ^ (level + 1) * 16 ^ (level + 1)
    State.releaseDown b round level
      (s.releaseChildren b round (level + 1) members own (childRanks members.length (level + 1) base))

/-- The top level of the domain tree: the smallest L ≥ 1 with M ≤ 16^L (R400). -/
def topLevel (m : Nat) : Nat := ((List.range 5).map (· + 1)).find? (fun l => decide (m ≤ 16 ^ l)) |>.getD 5

/-- The top of the tree releases a round, but withholds the round of a change until its transfer is reported (R444). -/
def State.releaseTop (s : State) (b : Fin 16) (round : Word) (level : Nat) : State :=
  match s.changeAt b round with
  | some c =>
    if s.transferDone c then State.releaseDown b round level s
    else { s with domain := { s.domain with heldRelease := some (b, round) } }
  | none => State.releaseDown b round level s

/-! ### Arrivals -/

/-- Key of an aggregator's bank. -/
def bankKey (level b bank : Nat) : Nat := level * 32 + b * 2 + bank

/-- Arrivals at this module's aggregator of a level: at the full count the bank resets, and the arrival goes up or the
round is released; `fuel` bounds the levels (R401). -/
def State.countAt (b : Fin 16) (round : Word) : Nat → Nat → Nat → State → State
  | 0, _, _, s => s
  | fuel + 1, level, n, s =>
    let members := s.treeMembers b round
    let m := members.length
    let own := rankIn members s.moduleIdNat
    let base := own / 16 ^ level * 16 ^ level
    let key := bankKey level b.val (round.toNat % 2)
    let v := mget 0 s.domain.banks key + n
    if v < (childRanks m level base).length then
      { s with domain := { s.domain with banks := mset s.domain.banks key v } }
    else
      let s1 := { s with domain := { s.domain with banks := mset s.domain.banks key 0 } }
      if level = topLevel m then s1.releaseTop b round level
      else
        let up := own / 16 ^ (level + 1) * 16 ^ (level + 1)
        if up = own then State.countAt b round fuel (level + 1) 1 s1
        else s1.sendBarrier 6 (members.getD up 0) b round (level + 1) 1

/-- The module's own count of a domain barrier is complete (R400, R401). -/
def State.domainArrive (s : State) (b : Fin 16) (round : Word) : State :=
  let members := s.treeMembers b round
  if members.length ≤ 1 then s.releaseTop b round 0
  else
    let own := rankIn members s.moduleIdNat
    let up := own / 16 * 16
    if up = own then State.countAt b round 6 1 1 s else s.sendBarrier 6 (members.getD up 0) b round 1 1

/-- A barrier packet to the twin (R454). -/
def State.sendTieBarrier (s : State) (ptype : Nat) (b : Fin 16) (round : Word) (count : Nat) : State :=
  let p := s.lowestTie
  s.sendOn p (s.mkPacket p.val ptype s.twinId 0 0 (barrierPayload b round 0 count))

/-- An arrival at the pair counter of the even module: the second of a round releases it to both (R454). -/
def State.pairCount (s : State) (b : Fin 16) (round : Word) (n : Nat) : State :=
  let key := bankKey 0 b.val (round.toNat % 2)
  let v := mget 0 s.domain.banks key + n
  if v < 2 then { s with domain := { s.domain with banks := mset s.domain.banks key v } }
  else
    (({ s with domain := { s.domain with banks := mset s.domain.banks key 0 } }).moduleRelease b round).sendTieBarrier
      7 b round 0

/-- The module's own count of a pair barrier is complete. -/
def State.pairArrive (s : State) (b : Fin 16) (round : Word) : State :=
  if s.moduleIdNat % 2 = 0 then s.pairCount b round 1 else s.sendTieBarrier 6 b round 1

/-- A count of steps that is none, or lies before a step. -/
def stepBehind (x : Word) (t : Nat) : Bool := x == 0xFFFFFFFF || decide (x.toNat < t)

/-- The closure check that a step barrier's round waits for has neither passed nor been skipped (R463): round t + 2 waits for step t
under the STOP policy; while the tie link is down no check can complete. -/
def State.closureHolds (s : State) (d : BarrierDecl) (round : Word) : Bool :=
  let step := s.stepOfRound round
  d.isStepBarrier && !((s.runJob.map (·.closureContinue)).getD false) && s.pair.mode != .solo && !s.upTie.isEmpty &&
  decide (2 ≤ round.toNat) && stepBehind s.pair.closedStep (step.toNat - 2) && stepBehind s.pair.skippedStep (step.toNat - 2)

/-- The module counter of a barrier is complete: the round is released within the module, or its arrival leaves it. -/
def State.moduleComplete (s : State) (d : BarrierDecl) (round : Word) : State :=
  match d.scope with
  | .domain =>
    if s.closureHolds d round then { s with run := { s.run with withheld := some (d.id, round) } }
    else s.domainArrive d.id round
  | .pair => s.pairArrive d.id round
  | _ => s.sendRelease d.id round

/-- An arrival at a counter of the module (R303). -/
def State.counterArrive (s : State) (d : BarrierDecl) (level : BarrierScope) (unit bank n : Nat) (round : Word) : State :=
  let c := s.counter (scopeLevel level) unit d.id.val
  let r := c.add bank n
  let s1 := s.setCounter (scopeLevel level) unit d.id.val (if r.2 then { r.1 with round := r.1.round + 1 } else r.1)
  if !r.2 then s1
  else if level = d.scope then s1.moduleComplete d round
  else
    match level with
    | .cluster =>
      { s1 with net := { s1.net with barrierUp := s1.net.barrierUp ++
          [{ barrier := d.id, level := .die, unit := unit / 4, round := round }] } }
    | .die =>
      { s1 with net := { s1.net with barrierUp := s1.net.barrierUp ++
          [{ barrier := d.id, level := .module, unit := 0, round := round }] } }
    | _ => s1.moduleComplete d round

/-- Each participant adds 1 to r (R303). -/
def State.releaseTiles (s : State) : Nat → List Nat → State
  | _, [] => s
  | b, t :: r =>
    State.releaseTiles (s.modTile t (fun x => x.setBarrier b { x.barrier b with r := (x.barrier b).r + 1 })) b r

end Sys2Proof.Machine
end

