-- ==== Sys2Proof/Machine/Sync.lean ====
section
/-! DEFINITION. The sync slot, the sync unit and the module's barrier messages (R295 to R307). -/

namespace Sys2Proof.Machine

/-- SIGNAL(s, n) (R295). -/
def opSignal (i : Iss) (k : Fin 64) (n : BitVec 16) (s : State) : Res :=
  issue i slotSync (n != 0) s (fun s => .next (s.semAdd i.tile.val k.val n.toNat slotSync i.bundle))

/-- WAIT(s, v, TAKE) (R295, R306): a TAKE subtracts only from a count of at least its value (R296; log entry 113). -/
def opWait (i : Iss) (k : Fin 64) (v : BitVec 16) (take : Bool) (wp : Fin 1024) (s : State) : Res :=
  issueWait i slotSync true wp (if take then .take k v else .sem k v) s (fun s =>
    if take ∧ v ≤ (s.tile i.tile.val).sem k.val then
      .next (s.modTile i.tile.val (fun t => t.setSem k.val (t.sem k.val - v)))
    else .next s)

/-- WATCH_REG(h, semaphore, value): a new generation of the handle travels to its target (R299, R300). -/
def opWatchReg (i : Iss) (h : Fin 32) (k : Fin 64) (v : BitVec 16) (s : State) : Res :=
  issue i slotSync (v != 0) s (fun s =>
    let t := s.tile i.tile.val
    let w := t.watch h.val
    let s1 := s.setTile i.tile.val (t.setWatch h.val { w with lastGen := w.lastGen + 1 })
    .next { s1 with net := { s1.net with watchRegs := s1.net.watchRegs ++ [(i.tile, h, k, v, w.lastGen + 1)] } })

/-- WATCH_REG_ARRIVAL: the entry is armed in place of the handle's earlier registration; the end of the cc judges it (R299). -/
def execWatchRegArrival (waiter : TileNo) (h : Fin 32) (s : State) : Res :=
  let mine (e : TileNo × Fin 32 × Fin 64 × BitVec 16 × BitVec 4) : Bool := e.1 == waiter && e.2.1 == h
  match s.net.watchRegs.find? mine with
  | some (_, _, k, v, g) =>
    let s1 := { s with net := { s.net with watchRegs := s.net.watchRegs.eraseIdx (s.net.watchRegs.findIdx mine) } }
    .next (s1.modTile waiter.val (fun t =>
      t.setWatch h.val { t.watch h.val with sem := k, value := v, generation := g, armed := true }))
  | none => .next s

/-- WATCH_FIRED_ARRIVAL: the fired flag is set, unless the fire carries an older generation (R300). -/
def execWatchFiredArrival (waiter : TileNo) (h : Fin 32) (s : State) : Res :=
  let mine (e : TileNo × Fin 32 × BitVec 4) : Bool := e.1 == waiter && e.2.1 == h
  match s.net.watchFires.find? mine with
  | some (_, _, g) =>
    let s1 := { s with net := { s.net with watchFires := s.net.watchFires.eraseIdx (s.net.watchFires.findIdx mine) } }
    .next (s1.modTile waiter.val (fun t =>
      let w := t.watch h.val
      if g = w.lastGen then t.setWatch h.val { w with fired := true } else t))
  | none => .next s

/-- WATCH_WAIT(h): its issue clears the fired flag (R300). -/
def opWatchWait (i : Iss) (h : Fin 32) (wp : Fin 1024) (s : State) : Res :=
  issueWait i slotSync true wp (.watch h) s (fun s =>
    .next (s.modTile i.tile.val (fun t => t.setWatch h.val { t.watch h.val with fired := false })))

/-- ARRIVE(b): the arrival for round a goes to the tile's cluster counter, and a rises by 1; a third arrival while a
round is open raises BARRIER_OVERRUN (R302, R304). -/
def opArrive (i : Iss) (b : Fin 16) (s : State) : Res :=
  issue i slotSync true s (fun s =>
    let t := s.tile i.tile.val
    let c := t.barrier b.val
    if c.a - c.r = 2 then
      let level := ((s.barrierDecl b).map (fun d => scopeLevel d.scope)).getD 0
      .next (((s.contractFault i.tile.val cfBarrierOverrun slotSync i.bundle (BitVec.ofNat 64 (b.val + 16 * level))
        (c.a.setWidth 64)).modTile i.tile.val (fun x =>
          x.setBarrier b.val { c with a := Config.freeWord s.freeCtr })).drawn 1)
    else
      let s1 := s.setTile i.tile.val (t.setBarrier b.val { c with a := c.a + 1 })
      .next { s1 with net := { s1.net with barrierUp := s1.net.barrierUp ++
        [{ barrier := b, level := .cluster, unit := clusterOf i.tile.val, round := c.a }] } })

/-- BWAIT(b) (R302). -/
def opBwait (i : Iss) (b : Fin 16) (wp : Fin 1024) (s : State) : Res :=
  issueWait i slotSync true wp (.barrier b) s (fun s => .next s)

/-- BARRIER_COUNTER_ARRIVAL: the oldest arrival of a barrier reaches its counter (R303). -/
def execBarrierCounterArrival (b : Fin 16) (s : State) : Res :=
  let mine (m : BarrierMsg) : Bool := m.barrier == b
  match s.net.barrierUp.find? mine, s.barrierDecl b with
  | some m, some d =>
    let s1 := { s with net := { s.net with barrierUp := s.net.barrierUp.eraseIdx (s.net.barrierUp.findIdx mine) } }
    .next (s1.counterArrive d m.level m.unit (m.round.toNat % 2) 1 m.round)
  | _, _ => .next s

/-- BARRIER_RELEASE_ARRIVAL: the oldest release of a barrier reaches every participant of the module (R303, R305). -/
def execBarrierReleaseArrival (b : Fin 16) (s : State) : Res :=
  let mine (m : BarrierMsg) : Bool := m.barrier == b
  match s.net.barrierDown.find? mine, s.barrierDecl b with
  | some _, some d =>
    let s1 := { s with net := { s.net with barrierDown := s.net.barrierDown.eraseIdx (s.net.barrierDown.findIdx mine) } }
    .next (s1.releaseTiles b.val (s1.participants d))
  | _, _ => .next s

end Sys2Proof.Machine
end

