-- ==== Sys2Proof/Machine/Hang.lean ====
section
/-! DEFINITION. Hangs (R315 to R317): which units of a tile are blocked and since when, the HANG event of Table 08.6,
and the wait-for graph of Table 08.7 with the HANG_REPORT that firmware makes of it. -/

namespace Sys2Proof.Machine

/-- A blocked unit, with the fields of Table 08.6. -/
structure BlockedUnit where
  unit : Nat
  kind : Nat
  waitPoint : Nat
  object : Nat
  far : Nat
  time : BlockTime
  deriving DecidableEq, Repr

/-- FAR: no far side. -/
def noFar : Nat := 0xFFFFFFFF

/-- Where a message came from, as a FAR value. -/
def farOf : MsgOrigin → Nat
  | .tile t _ => t.val
  | .port p _ _ _ => 0x8000 + p.val

/-- FAR of a send endpoint. -/
def SendEp.far (x : SendEp) : Nat :=
  if !x.declared then noFar
  else
    match x.port with
    | some p => 0x8000 + p.val
    | none => x.destTile

/-- FAR of a receive endpoint: its first sender. -/
def RecvEp.far (r : RecvEp) : Nat := ((r.senders.head?).map farOf).getD noFar

/-- KIND, OBJECT and FAR of a wait (Table 08.6). -/
def waitFields (t : Tile) : WaitCond → Nat × Nat × Nat
  | .sem k _ | .take k _ => (1, k.val, noFar)
  | .message e => (2, e.val, (t.recv e.val).far)
  | .credit e => (3, e.val, (t.send e.val).far)
  | .arrived e _ _ => (6, e.val, (t.recv e.val).far)
  | .barrier b => (4, b.val, noFar)
  | .watch h => (5, h.val, (t.watch h.val).target)

/-- The endpoint of the row that the feeder or the drain comes to: KIND, OBJECT and FAR. -/
def restFields (t : Tile) (r : ArrayRun) : Nat × Nat × Nat :=
  match r.op with
  | .feed (.endpoint e) _ _ _ _ _ => (2, e.val, (t.recv e.val).far)
  | .drain _ _ _ (.endpoint e) => (3, e.val, (t.send e.val).far)
  | _ => (2, 0, noFar)

/-- An engine of the array that a missing row or credit has frozen (R142): unit number `n` of Table 08.6. -/
def Tile.frozenUnit (t : Tile) (n : Nat) (e : EngineState) : Option BlockedUnit :=
  match e.running, e.block with
  | some r, some b =>
    let f := restFields t r
    some { unit := n, kind := f.1, waitPoint := 0xFFFF, object := f.2.1, far := f.2.2, time := b }
  | _, _ => none

/-- The blocked unit that a name means, if it is blocked (R315). -/
def Tile.blockedUnit (t : Tile) : HangUnit → Option BlockedUnit
  | .waitPoint wp =>
    (t.blocked.find? (fun b => b.wp == wp)).map (fun b =>
      let (k, o, f) := waitFields t b.cond
      { unit := 0, kind := k, waitPoint := wp.val, object := o, far := f,
        time := { cycle := b.since, mt := b.sinceMt, hung := b.hung } })
  | .feeder => t.frozenUnit 1 t.array.feeder
  | .drain => t.frozenUnit 2 t.array.drainEngine
  | .descriptor d =>
    (t.desc d.val).block.map (fun b =>
      { unit := 3, kind := 7, waitPoint := 0xFFFF, object := (t.desc d.val).readySem, far := noFar, time := b })
  | .postSend i =>
    (t.postSends[i.val]?).bind (fun p => p.block.map (fun b =>
      { unit := 4, kind := 3, waitPoint := 0xFFFF, object := p.ep.val, far := (t.send p.ep.val).far, time := b }))
  | .transfer tag =>
    match mfind t.tags tag.val with
    | some x =>
      if x.done then none
      else some { unit := 5, kind := 8, waitPoint := 0xFFFF, object := x.desc.val,
                  far := if 2 ≤ x.dir then x.remoteTile else noFar, time := x.block }
    | none => none

/-- Note that a unit's HANG was raised in this blocking episode. -/
def Tile.markHung (t : Tile) : HangUnit → Tile
  | .waitPoint wp => { t with blocked := t.blocked.map (fun b => if b.wp = wp then { b with hung := true } else b) }
  | .feeder =>
    let e := t.array.feeder
    { t with array := { t.array with feeder := { e with block := e.block.map (fun b => { b with hung := true }) } } }
  | .drain =>
    let e := t.array.drainEngine
    { t with array := { t.array with drainEngine := { e with block := e.block.map (fun b => { b with hung := true }) } } }
  | .descriptor d =>
    t.setDesc d.val { t.desc d.val with block := (t.desc d.val).block.map (fun b => { b with hung := true }) }
  | .postSend i =>
    { t with postSends := t.postSends.zipIdx.map (fun e =>
        if e.2 = i.val then { e.1 with block := e.1.block.map (fun b => { b with hung := true }) } else e.1) }
  | .transfer tag =>
    match mfind t.tags tag.val with
    | some x => { t with tags := mset t.tags tag.val { x with block := { x.block with hung := true } } }
    | none => t

/-- The 40 bytes of a HANG event (Table 08.6). -/
def hangBytes (tile : Nat) (u : BlockedUnit) (raised : DWord) : Bytes :=
  leBytes 2 tile ++ leBytes 1 u.unit ++ leBytes 1 u.kind ++ leBytes 2 u.waitPoint ++ leBytes 2 u.object ++
  leBytes 4 u.far ++ zeros 4 ++ leBytes 8 u.time.cycle.toNat ++ leBytes 8 u.time.mt.toNat ++ leBytes 8 raised.toNat

/-- HANG (R315): a unit blocked for the hang limit of the run raises one HANG event; nothing else changes. -/
def execHang (tile : TileNo) (u : HangUnit) (s : State) : Res :=
  match (s.tile tile.val).blockedUnit u with
  | some b =>
    if s.runActive ∧ (s.tile tile.val).faulted = false ∧ b.time.hung = false ∧
        b.time.mt.toNat + s.run.hangLimit.toNat ≤ s.clock.meridian.toNat then
      let s1 := (s.modTile tile.val (fun t => t.markHung u)).event evHang (srcTile tile.val)
        (hangBytes tile.val b s.clock.meridian)
      .next { s1 with run := { s1.run with
        hangs := s.run.hangs + 1, hangAt := if s.run.hangs = 0 then s.clock.meridian else s.run.hangAt } }
    else .next s
  | none => .next s

/-! ### The wait-for graph (Table 08.7)

Nodes: tiles 0 to 127; 128 the memory side; 129 + p the far end of port p; 149 + b the node of barrier b. -/

/-- The node of a FAR value. -/
def nodeOf (far : Nat) : List Nat :=
  if far < 128 then [far] else if 0x8000 ≤ far ∧ far < 0x8014 then [129 + (far - 0x8000)] else []

/-- Edges of a semaphore wait: the declared signallers. -/
def State.semEdges (s : State) (t : Nat) (k : Nat) : List Nat :=
  match (s.tile t).logical with
  | none => []
  | some l =>
    ((((s.runImage).map (·.body.signallers)).getD []).filter (fun e => e.1 == l && e.2.1.val == k)).flatMap (fun e =>
      match e.2.2 with
      | none => [t]
      | some d =>
        let x := (s.tile t).desc d.val
        if x.dir < 2 then [128] else (s.physTile x.remoteTile).toList)

/-- Edges of a barrier wait: the participants that have not arrived at the tile's open round, and the barrier's node for
pair or domain scope. -/
def State.barrierEdges (s : State) (t : Nat) (b : Fin 16) : List Nat :=
  match s.barrierDecl b with
  | none => []
  | some d =>
    (s.participants d).filter (fun u => decide (((s.tile u).barrier b.val).a.toNat < ((s.tile t).barrier b.val).a.toNat)) ++
    (match d.scope with
     | .pair | .domain => [149 + b.val]
     | _ => [])

/-- Edges of one wait. -/
def State.waitEdges (s : State) (t : Nat) : WaitCond → List Nat
  | .sem k _ | .take k _ => s.semEdges t k.val
  | .message e => nodeOf ((s.tile t).recv e.val).far
  | .arrived e _ _ => ((s.tile t).recv e.val).senders.flatMap (fun o => nodeOf (farOf o))
  | .credit e => nodeOf ((s.tile t).send e.val).far
  | .barrier b => s.barrierEdges t b
  | .watch h => [((s.tile t).watch h.val).target]

/-- The successors of a tile, without repeats; empty where it is not blocked. -/
def State.waitsFor (s : State) (t : Nat) : List Nat :=
  let x := s.tile t
  let units := [HangUnit.feeder, .drain].filterMap x.blockedUnit
  (x.blocked.flatMap (fun b => s.waitEdges t b.cond) ++ units.flatMap (fun u => nodeOf u.far) ++
    x.descs.flatMap (fun e => if e.2.block.isSome then [t] else []) ++
    x.postSends.flatMap (fun p => if p.block.isSome then nodeOf (x.send p.ep.val).far else []) ++
    x.tags.flatMap (fun e => if e.2.done then [] else if 2 ≤ e.2.dir then [e.2.remoteTile] else [128])).dedup

/-- The graph: each tile of the image that has successors. -/
def State.waitGraph (s : State) : SMap (List Nat) :=
  (s.imageTiles.map (fun t => (t, s.waitsFor t))).filter (fun e => !e.2.isEmpty)

/-- Paths from a node to itself of at most `fuel` edges more, through greater nodes only, so that each cycle is found
once, from its lowest tile. -/
def cyclesFrom (g : SMap (List Nat)) (start : Nat) : Nat → List Nat → Nat → List (List Nat)
  | 0, _, _ => []
  | fuel + 1, path, n =>
    (mget [] g n).flatMap (fun m =>
      if m = start then [path]
      else if start < m && m < 128 && !path.contains m then cyclesFrom g start fuel (path ++ [m]) m
      else [])

/-- Insert a cycle: shortest first and then by lowest tile (R317). -/
def insertCycle (c : List Nat) : List (List Nat) → List (List Nat)
  | [] => [c]
  | d :: r => if c.length < d.length || (c.length == d.length && c.headD 0 < d.headD 0) then c :: d :: r
    else d :: insertCycle c r

/-- The cycles of the graph in the report's order, up to 16. -/
def graphCycles (g : SMap (List Nat)) : List (List Nat) :=
  ((g.flatMap (fun e => cyclesFrom g e.1 128 [e.1] e.1)).foldl (fun acc c => insertCycle c acc) []).take 16

/-- The longest list. -/
def longest : List (List Nat) → List Nat
  | [] => []
  | c :: r => if (longest r).length ≤ c.length then c else longest r

/-- The longest chain from a node of a graph without cycles. -/
def chainFrom (g : SMap (List Nat)) : Nat → Nat → List Nat
  | 0, n => [n]
  | fuel + 1, n => n :: longest ((mget [] g n).map (chainFrom g fuel))

/-- The report's bytes: the number of cycles, then each cycle's length and nodes marked DEADLOCK (1), or one chain
marked 0 (R317; log entry 9). -/
def reportBytes (g : SMap (List Nat)) : Bytes :=
  let cycles := graphCycles g
  let one (mark : Nat) (c : List Nat) : Bytes := leBytes 1 mark ++ leBytes 1 c.length ++ c.flatMap (leBytes 2)
  leBytes 1 cycles.length ++
  (if cycles.isEmpty then one 0 (longest (g.map (fun e => chainFrom g 128 e.1))) else cycles.flatMap (one 1))

/-- 1 ms in meridian ticks (R498). -/
def mtPerMs : Nat := 400000

/-- HANG_REPORT (R316, R317): 1 ms after the first HANG of a run. -/
def execHangReport (s : State) : Res :=
  if s.runActive ∧ s.run.hangs ≠ 0 ∧ s.run.hangReported = false ∧
      s.run.hangAt.toNat + mtPerMs ≤ s.clock.meridian.toNat then
    let s1 := s.event evHangReport (srcOf 1 0) (reportBytes s.waitGraph)
    .next { s1 with run := { s1.run with hangReported := true } }
  else .next s

end Sys2Proof.Machine
end

