-- ==== Sys2Proof/Machine/UpeOps.lean ====
section
/-! DEFINITION. Stack addresses (R320 to R324) and what an update engine does in a pass (R345 to R375): the gradient
conversion, the state grains, the update program, the writes, the fingerprints, and the gates. -/

namespace Sys2Proof.Machine

/-! ### The address map (R322, R323) -/

/-- Mode of a band. -/
def State.bandMode (s : State) (b : Nat) : Nat := (mget 0 s.mem.bands b).toNat % 4

/-- A band is class W. -/
def State.bandClassW (s : State) (b : Nat) : Bool := (mget 0 s.mem.bands b).getLsbD 2

/-- The stack of an HBM address (Table 09.2). -/
def State.stackOf (s : State) (a : Nat) : Nat :=
  let o := a % 2 ^ 35
  match s.bandMode (a / 2 ^ 35) with
  | 0 => o / 2 ^ 32 * 4 + o / 2 ^ 12 % 4
  | 1 => o / 2 ^ 12 % 32
  | _ => o / 2 ^ 30

/-- The stack address of an HBM address (R322, R323). -/
def State.stackAddr (s : State) (a : Nat) : Nat :=
  let o := a % 2 ^ 35
  a / 2 ^ 35 * 2 ^ 30 +
  (match s.bandMode (a / 2 ^ 35) with
   | 0 => o / 2 ^ 14 % 2 ^ 18 * 2 ^ 12 + o % 2 ^ 12
   | 1 => o / 2 ^ 17 * 2 ^ 12 + o % 2 ^ 12
   | _ => o % 2 ^ 30)

/-- The HBM address of a stack address. -/
def State.hbmAddr (s : State) (k sa : Nat) : Nat :=
  let b := sa / 2 ^ 30
  let f := sa % 2 ^ 30
  b * 2 ^ 35 +
  (match s.bandMode b with
   | 0 => k / 4 * 2 ^ 32 + f / 2 ^ 12 * 2 ^ 14 + k % 4 * 2 ^ 12 + f % 2 ^ 12
   | 1 => f / 2 ^ 12 * 2 ^ 17 + k * 2 ^ 12 + f % 2 ^ 12
   | _ => k * 2 ^ 30 + f)

/-- The core die of a stack address (R321). -/
def coreDie (sa : Nat) : Nat := (sa / 2 ^ 6 % 64 % 16 + 4 * (sa / 2 ^ 20 % 4)) % 16

/-- Read bytes at a stack address. -/
def State.readStack (s : State) (k sa n : Nat) : Bytes :=
  (List.range n).map (fun i => readByte s.mem.hbm (s.hbmAddr k (sa + i)))

/-- Write bytes at a stack address. -/
def State.writeStack (s : State) (k sa : Nat) : Bytes → State
  | [] => s
  | b :: r => State.writeStack (s.setHbm (writeByte s.mem.hbm (s.hbmAddr k sa) b)) k (sa + 1) r

/-- Write runs of bytes at stack addresses. -/
def State.writeStackRuns (s : State) (k : Nat) : List (Nat × Bytes) → State
  | [] => s
  | (a, bs) :: r => State.writeStackRuns (s.writeStack k a bs) k r

/-- A little-endian field of a stack. -/
def State.stackField (s : State) (k sa n : Nat) : Nat := leNat (s.readStack k sa n)

/-! ### Gradient sums (R352, R353) -/

/-- Bytes of a sum: INT32 for G16, packed INT24 for S1. -/
def planSumBytes (e : PlanEntry) : Nat := if e.s1 then 3 else 4

/-- Bytes of a bucket of n elements. -/
def planBucketBytes (e : PlanEntry) (n : Nat) : Nat := n * planSumBytes e + ceilDiv n 256

/-- Spacing of the buckets. -/
def planBucketStride (e : PlanEntry) : Nat := ceilDiv (planBucketBytes e e.bucketElems) 64 * 64

/-- Buckets of an entry. -/
def planBuckets (e : PlanEntry) : Nat := ceilDiv e.elemCount (max 1 e.bucketElems)

/-- The gradient of element i (R353). -/
def State.gradient (s : State) (k : Nat) (e : PlanEntry) (i : Nat) : Word × FpFlags :=
  let z := max 1 e.bucketElems
  let base := e.gradBase + i / z * planBucketStride e
  let elems := min z (e.elemCount - i / z * z)
  let q := s.stackField k (base + i % z * planSumBytes e) (planSumBytes e)
  let x := (BitVec.ofNat 8 (s.stackField k (base + elems * planSumBytes e + i % z / 256) 1)).toInt
  let q32 : Word := if e.s1 then (BitVec.ofNat 24 q).signExtend 32 else BitVec.ofNat 32 q
  let f := f32OfInt q32
  let r := f32Scale f.1 x
  (r.1, f.2 ||| r.2)

/-! ### State grains (R357, R358, R360) -/

/-- The FP32 value of q × 2^k. -/
def f32Exact (q : Int) (k : Int) : Word := (f32Round (decide (q < 0)) q.natAbs k false).1

/-- A compact element (R358). -/
def compactDecode (q : Int) (e : Int) : Word := if e = -128 then f32NaN else f32Exact q (e - 15)

/-- Element i of a slot. -/
def State.slotElem (s : State) (k : Nat) (x : PlanSlot) (i : Nat) : Word :=
  match x.grain with
  | .full => BitVec.ofNat 32 (s.stackField k (x.base + 4 * i) 4)
  | .compact =>
    let g := x.base + i / 1024 * 2112
    compactDecode (BitVec.ofNat 16 (s.stackField k (g + 2 * (i % 1024)) 2)).toInt
      (BitVec.ofNat 8 (s.stackField k (g + 2048 + 2 * (i % 1024 / 32)) 1)).toInt
  | .blockTable => BitVec.ofNat 32 (s.stackField k (x.base + 2 * (i / 256)) 2)

/-- The exponent of a compact block of values (R358). -/
def compactExp (vs : List Word) : Int :=
  if vs.any f32IsNaN then -128
  else if vs.any (fun v => !f32IsFinite v) then 127
  else
    let top := vs.foldl (fun m v => if f32Less m (v &&& 0x7FFFFFFF) then v &&& 0x7FFFFFFF else m) 0
    if top = 0 then -127 else max (-126) (min 127 (f32Log2 top + 1))

/-- The mantissa of a value in a block of exponent e: round to nearest even of v × 2^(15 − e), clamped (R358). -/
def compactMant (e : Int) (v : Word) : Int :=
  if e ≤ -127 then 0
  else
    match f32Decode v with
    | .nan _ => 0
    | .inf n => if n then -32767 else 32767
    | .num n m x =>
      let q := (rneScale m (x + 15 - e)).1
      let q := min q 32767
      if n then -(q : Int) else (q : Int)

/-- The 64 + 2 bytes of a compact block, as mantissas and exponent entry. -/
def compactBlock (vs : List Word) : Bytes × Bytes :=
  let e := compactExp vs
  ((vs.flatMap (fun v => leBytes 2 (BitVec.ofInt 16 (compactMant e v)).toNat)),
   leBytes 1 (BitVec.ofInt 8 e).toNat ++ [0])

/-- Cut a list into pieces of n. -/
def chunks {α : Type} (n : Nat) : Nat → List α → List (List α)
  | 0, _ => []
  | fuel + 1, xs => if xs.isEmpty then [] else xs.take n :: chunks n fuel (xs.drop n)

/-- The 2,112 bytes of a compact group. -/
def compactGroup (vs : List Word) : Bytes :=
  let bs := (chunks 32 32 vs).map compactBlock
  padTo 2048 (bs.flatMap (·.1)) ++ padTo 64 (bs.flatMap (·.2))

/-- The bytes of a slot's range in its canonical serialisation, from the values of its elements (R358, R371). -/
def slotBytesOf (g : SlotGrain) (vs : List Word) : Bytes :=
  match g with
  | .full => vs.flatMap (fun v => leBytes 4 v.toNat)
  | .compact => (chunks 1024 vs.length vs).flatMap compactGroup
  | .blockTable => []

/-- Bytes that an entry holds in a slot. -/
def slotLen (g : SlotGrain) (n : Nat) : Nat :=
  match g with
  | .full => 4 * n
  | .compact => ceilDiv n 1024 * 2112
  | .blockTable => 2 * ceilDiv n 256

/-- Where an entry's bytes begin in the slot's serialisation (R371). -/
def slotStart (g : SlotGrain) (first : Nat) : Nat :=
  match g with
  | .full => 4 * first
  | .compact => first / 1024 * 2112
  | .blockTable => first / 256 * 2

/-! ### The update program (R350, R351) -/

/-- What the program reads for an element. -/
structure UpeEnv where
  grad : Word
  slots : List Word
  k : List Word
  step : Word
  temps : SMap Word
  reds : List Word
  flags : FpFlags

/-- The value of an operand. -/
def UpeEnv.read (e : UpeEnv) : UpeIn → Word
  | .grad => e.grad
  | .slot i => e.slots.getD i.val 0
  | .k i => e.k.getD i.val 0
  | .step => e.step
  | .temp i => mget 0 e.temps i.val
  | .red i => e.reds.getD i.val 0

/-- One stage: `select` takes its first input where the third is not zero, else its second (log entry 10). -/
def UpeEnv.stage (free : Word) (e : UpeEnv) (st : UpeStage) : UpeEnv :=
  let x := e.read st.in1
  let y := (st.in2.map e.read).getD 0
  let z := (st.in3.map e.read).getD 0
  let r : Word × FpFlags := match st.op with
    | .select => (if z = 0 then y else x, 0)
    | op => laneOp op x y z free
  { e with temps := mset e.temps st.dest.val r.1, flags := e.flags ||| r.2 }

/-- Run stages. -/
def UpeEnv.run (free : Word) (e : UpeEnv) (ss : List UpeStage) : UpeEnv := ss.foldl (UpeEnv.stage free) e

/-- The value of a reduction for each of its groups, in the tree of R56 over the elements' index (R351). -/
def reduceGroups (free : Nat → Word) (r : UpeReduction) (es : List UpeEnv) : List (Word × FpFlags) :=
  (chunks (max 1 r.groupElems) es.length es.zipIdx).map (fun g =>
    let leaves := g.map (fun e => redLeaf r.op r.isInt e.2 (((e.1.run (free e.2) r.stages)).read r.src))
    let v := (tree (redCombine r.op r.isInt) leaves).getD (redIdle r.op r.isInt)
    (v.bits.setWidth 32, v.flags))

/-- The elements after a program's reductions: each sees its groups' values. -/
def applyReductions (free : Nat → Word) : List UpeReduction → List UpeEnv → List UpeEnv
  | [], es => es
  | r :: rest, es =>
    let vals := reduceGroups free r es
    applyReductions free rest (es.zipIdx.map (fun e =>
      let v := vals.getD (e.2 / max 1 r.groupElems) (0, 0)
      { e.1 with reds := e.1.reds ++ [v.1], flags := e.1.flags ||| v.2 }))

/-- The value that the program leaves in a slot: its last write of it, else the value read. -/
def slotOut (p : UpdateProgram) (e : UpeEnv) (i : Nat) : Word :=
  match (p.writes.filter (fun w => w.1.val == i)).getLast? with
  | some w => e.read w.2
  | none => e.slots.getD i 0

/-! ### A pass (R361 to R364) -/

/-- The element operands of a pass of step t before its program runs. -/
def State.passElems (s : State) (k : Nat) (e : PlanEntry) (t : Nat) : List UpeEnv :=
  let line := e.scalarBase + t % max 1 e.scalarLines * 64
  let ks := (List.range 16).map (fun j => BitVec.ofNat 32 (s.stackField k (line + 4 * j) 4))
  (List.range e.elemCount).map (fun i =>
    let g := s.gradient k e i
    { grad := g.1, slots := e.slots.map (fun x => if x.role = .passive then 0 else s.slotElem k x i), k := ks,
      step := BitVec.ofNat 32 t, temps := [], reds := [], flags := g.2 })

/-- The working copy's bytes (R361). -/
def copyBytes (f : CopyFmt) (vs : List Word) : Bytes × FpFlags :=
  let one (bytes : Nat) (r : Word → Nat × FpFlags) : Bytes × FpFlags :=
    (vs.flatMap (fun v => leBytes bytes (r v).1), orFlags (vs.map (fun v => (r v).2)))
  match f with
  | .none => ([], 0)
  | .bf16 => one 2 (f32NarrowIeee fmtBf16)
  | .fp16 => one 2 (f32NarrowIeee fmtFp16)
  | .e4m3 => one 1 (f32NarrowFp8 fmtE4m3 false)

/-- CRC-64 fingerprints of a byte range that starts at byte `start` of a serialisation, cut at 1 MiB blocks (R371): block,
offset in the block, length and value. -/
def fingerprintsOf : Nat → Nat → Bytes → List (Nat × Nat × Nat × DWord)
  | 0, _, _ => []
  | fuel + 1, start, bs =>
    if bs.isEmpty then []
    else
      let n := min bs.length (2 ^ 20 - start % 2 ^ 20)
      (start / 2 ^ 20, start % 2 ^ 20, n, crc64 (bs.take n)) :: fingerprintsOf fuel (start + n) (bs.drop n)

/-- The 32-byte records of a slot (Table 10.5). -/
def slotRecords (k : Nat) (e : PlanEntry) (t : Nat) (status : BitVec 2) (x : PlanSlot) (bs : Bytes) : List Bytes :=
  let flags := (if e.mirrored then 1 else 0) + 2 * status.toNat
  (fingerprintsOf (bs.length / 2 ^ 20 + 2) (slotStart x.grain e.elemFirst) bs).map (fun f =>
    leBytes 4 x.tensorId.toNat ++ leBytes 4 t ++ leBytes 4 f.1 ++ leBytes 4 f.2.1 ++ leBytes 4 f.2.2.1 ++
    leBytes 2 flags ++ leBytes 2 k ++ leBytes 8 f.2.2.2.toNat)

/-- The status bits and the new inverse of a block of the statistics: FACTOR_SOLVE, or INV_ROOT where the refresh names a root. -/
def refreshSolve (r : Refresh) (a : List Word) : BitVec 2 × Option (List Word) :=
  match r.root with
  | some p => (0, some (Config.inverseRoot r.order p.val a))
  | none => factorSolve r.order a r.floor r.ratio

/-- A refresh of a block: its routine runs on the block of the statistics, and the inverse is written unless every attempt failed
(R368 to R370). -/
def State.refreshBlock (s : State) (k : Nat) (x inv : PlanSlot) (r : Refresh) (b : Nat) : State × BitVec 2 :=
  let n := r.order * r.order
  let q := refreshSolve r ((List.range n).map (fun i => s.slotElem k x (b * n + i)))
  match q.2 with
  | some out => (s.writeStack k (inv.base + b * slotLen inv.grain n) (slotBytesOf inv.grain out), q.1)
  | none => (s, q.1)

/-- The refreshes of an entry's blocks: the state and the OR of the status bits. -/
def State.refreshBlocks (s : State) (k : Nat) (x inv : PlanSlot) (r : Refresh) : Nat → State × BitVec 2
  | 0 => (s, 0)
  | b + 1 =>
    let done := State.refreshBlocks s k x inv r b
    let q := done.1.refreshBlock k x inv r b
    (q.1, done.2 ||| q.2)

/-- The refresh that an entry's program makes at step t: DAMPED and KEPT of the tensor are new (R370). -/
def State.entryRefresh (s : State) (k : Nat) (e : PlanEntry) (p : UpdateProgram) (t : Nat) : State :=
  match p.refresh with
  | none => s
  | some r =>
    match e.slots[r.stats.val]?, e.slots[r.inverse.val]? with
    | some x, some inv =>
      if e.preconditioned ∧ t % max 1 r.every = 0 ∧ 0 < r.order then
        let q := s.refreshBlocks k x inv r (e.elemCount / (r.order * r.order))
        q.1.modStack k (fun y => { y with status := mset y.status inv.tensorId.toNat q.2 })
      else s
    | _, _ => s

/-- The program of an entry. -/
def State.entryProgram (s : State) (e : PlanEntry) : UpdateProgram :=
  s.mem.programs.getD e.program
    { reductions := [], stages := [], writes := [], copyOut := .grad, refresh := none, codeBytes := 0 }

/-- The writes of a pass of a step above 0: its read-write slots and its working copy, with the flags raised. -/
def State.passWrites (s : State) (k : Nat) (e : PlanEntry) (t : Nat) : List (Nat × Bytes) × FpFlags :=
  let p := s.entryProgram e
  let tensor := ((e.slots.head?).map (·.tensorId.toNat)).getD 0
  let free (i : Nat) : Word := Config.openLane (BitVec.ofNat 32 t) tensor (e.elemFirst + i) 0
  let es := (applyReductions free p.reductions (s.passElems k e t)).zipIdx.map (fun x => x.1.run (free x.2) p.stages)
  let slots := e.slots.zipIdx.filterMap (fun x =>
    if x.1.role = .readWrite then some (x.1.base, slotBytesOf x.1.grain (es.map (fun v => slotOut p v x.2))) else none)
  let copy := copyBytes e.copy (es.map (fun v => v.read p.copyOut))
  (slots ++ (if e.copy = .none then [] else [(e.copyBase, copy.1)]), orFlags (es.map (·.flags)) ||| copy.2)

/-- The fingerprint records of an entry, over the bytes that its slots hold (R371). -/
def State.passRecords (s : State) (k : Nat) (e : PlanEntry) (t : Nat) : List Bytes :=
  e.slots.flatMap (fun x =>
    slotRecords k e t (mget 0 (s.stack k).status x.tensorId.toNat) x
      (s.readStack k x.base (slotLen x.grain e.elemCount)))

/-- The body of a pass of step t on an entry: a fingerprint pass for step 0 (R364), else reads, program and writes. -/
def State.passBody (s : State) (k : Nat) (e : PlanEntry) (t : Nat) : State :=
  let s1 :=
    if t = 0 then s
    else
      let w := s.passWrites k e t
      let s2 := s.writeStackRuns k w.1
      (s2.modStack k (fun x => { x with upeFlags := x.upeFlags ||| w.2 })).entryRefresh k e (s.entryProgram e) t
  s1.modStack k (fun x => { x with fingerprints := x.fingerprints ++ s1.passRecords k e t })

/-! ### Entries (R355, R365) -/

/-- State of an entry at the start of a plan. -/
def EntryState.start (plan : UpdatePlan) : EntryState :=
  { running := false, t := plan.firstStep, completed := none, deadline := none }

/-- State of an entry of a stack. -/
def Stack.entry (x : Stack) (plan : UpdatePlan) (i : Nat) : EntryState := mget (EntryState.start plan) x.entries i

/-- The completed step that a gate sees (R365). -/
def Stack.completedStep (x : Stack) (plan : UpdatePlan) (i : Nat) : Nat :=
  ((x.entry plan i).completed).getD ((plan.firstStep + 2 ^ 32 - 1) % 2 ^ 32)

/-- The stack address of a gate line, as gate and line, where it is one. -/
def gateLineOf (plan : UpdatePlan) (sa : Nat) : Option (Nat × Nat) :=
  if plan.gateBase ≤ sa ∧ sa < plan.gateBase + 256 * 64 * 64 then
    some ((sa - plan.gateBase) / 4096, (sa - plan.gateBase) / 64 % 64)
  else none

/-- Entries of a gate. -/
def gateEntries (plan : UpdatePlan) (g : Nat) : List Nat :=
  (List.range plan.entries.length).filter (fun i => decide ((plan.entries.map (·.gate)).getD i 0 = g))

/-- What a read of a gate line returns, none while it is held (R365). -/
def Stack.gateValue (x : Stack) (plan : UpdatePlan) (g j : Nat) : Option DWord :=
  let cs := (gateEntries plan g).map (x.completedStep plan)
  if cs.isEmpty then some 0xFFFFFFFFFFFFFFFF
  else if cs.all (fun c => c % 64 == j) then some (BitVec.ofNat 64 (cs.foldl min (cs.headD 0)))
  else none

/-- Every entry of every stack has completed a step (R376). -/
def State.stepDone (s : State) (t : Nat) : Bool :=
  s.mem.stackMap.all (fun e =>
    match e.2.plan with
    | none => true
    | some plan => (List.range plan.entries.length).all (fun i =>
        match (e.2.entry plan i).completed with
        | some c => decide (t ≤ c)
        | none => false))

/-- Some stack holds a plan with entries. -/
def State.hasPlan (s : State) : Bool :=
  s.mem.stackMap.any (fun e => ((e.2.plan.map (fun p => !p.entries.isEmpty)).getD false))

/-- The last step completed by every plan entry: none where one has completed no step. -/
def State.lastStep (s : State) : Option Nat :=
  let cs := s.mem.stackMap.flatMap (fun e =>
    match e.2.plan with
    | none => []
    | some plan => (List.range plan.entries.length).map (fun i => (e.2.entry plan i).completed))
  if cs.isEmpty || cs.any (·.isNone) then none
  else
    let ns := cs.filterMap id
    some (ns.foldl min (ns.headD 0))

/-- Complete an entry's pass of step t (R363): records, completed step, WAITING(t + 1). -/
def State.completePass (s : State) (k i : Nat) : State :=
  match (s.stack k).plan with
  | none => s
  | some plan =>
    match plan.entries[i]? with
    | none => s
    | some e =>
      let st := (s.stack k).entry plan i
      if st.running then
        let done : EntryState := { running := false, t := st.t + 1, completed := some st.t, deadline := none }
        (s.passBody k e st.t).modStack k (fun x => { x with entries := mset x.entries i done })
      else s

/-- The entries of a stack whose pass runs. -/
def Stack.runningEntries (x : Stack) : List Nat := (x.entries.filter (fun e => e.2.running)).map (·.1)

/-- Complete every running pass of a stack. -/
def State.completeEntries (s : State) (k : Nat) : List Nat → State
  | [] => s
  | i :: r => State.completeEntries (s.completePass k i) k r

/-- Complete every running pass of the module: STOP lets them complete (R376, Table 10.6). -/
def State.completeAll (s : State) : List Nat → State
  | [] => s
  | k :: r => State.completeAll (s.completeEntries k (s.stack k).runningEntries) r

/-- A stopped pass may have written any part of its writes: the bytes of its read-write slots and of its working copy are
free values (Table 10.6, R48; log entry 12). -/
def State.abandonPass (s : State) (k i : Nat) : State :=
  match (s.stack k).plan with
  | none => s
  | some plan =>
    match plan.entries[i]? with
    | none => s
    | some e =>
      let st := (s.stack k).entry plan i
      let stopped : EntryState := { st with running := false, deadline := none }
      let s1 := s.modStack k (fun x => { x with entries := mset x.entries i stopped })
      if st.t = 0 then s1
      else
        let runs := e.slots.filterMap (fun x =>
          if x.role = .readWrite then some (x.base, slotLen x.grain e.elemCount) else none)
        let copy := match e.copy with
          | .none => []
          | .e4m3 => [(e.copyBase, e.elemCount)]
          | _ => [(e.copyBase, 2 * e.elemCount)]
        (runs ++ copy).foldl (fun s r => (s.writeStack k r.1 (freeBytes s.freeCtr r.2)).drawn r.2) s1

/-- Abandon the running passes of a stack. -/
def State.abandonEntries (s : State) (k : Nat) : List Nat → State
  | [] => s
  | i :: r => State.abandonEntries (s.abandonPass k i) k r

/-- Abandon every running pass of the module: a fault stops the engines (Table 10.6). -/
def State.abandonAll (s : State) : List Nat → State
  | [] => s
  | k :: r => State.abandonAll (s.abandonEntries k (s.stack k).runningEntries) r

end Sys2Proof.Machine
end

