-- ==== Sys2Proof/Machine/RegMap.lean ====
section
/-! DEFINITION. The register blocks of BAR0 by number, their codes and places (Table 16.4, Table 16.5), and the writing of
configuration with its CRC (R547 to R549, R553). -/

namespace Sys2Proof.Machine

/-! ### Block numbers

0 MCB, 1 HIF, 2 MGP, 3 SEC, 4 PWR, 5 CLK; 16 + p CPT; 32 + p TIE; 64 + k HMC; 96 + k UPE; 128 + 4 n + 0 to 3 the TCB, SYU,
STE and CHI of tile n. -/

/-- The management processor's block. -/
def blkMgp : Nat := 2
/-- The HMC of a stack. -/
def blkHmc (k : Nat) : Nat := 64 + k
/-- The TCB of a tile. -/
def blkTcb (t : Nat) : Nat := 128 + 4 * t

/-- Block code of a block (Table 16.5). -/
def blockCode (b : Nat) : Nat :=
  if b = 0 then 0x01 else if b = 1 then 0x0A else if b = 2 then 0x0B else if b = 3 then 0x0C
  else if b = 4 then 0x0D else if b = 5 then 0x0E else if b < 32 then 0x08 else if b < 64 then 0x09
  else if b < 96 then 0x06 else if b < 128 then 0x07 else 0x02 + (b - 128) % 4

/-- Instance of a block: tile, stack or port number, 0 for single blocks. -/
def blockInst (b : Nat) : Nat :=
  if b < 16 then 0 else if b < 32 then b - 16 else if b < 64 then b - 32 else if b < 96 then b - 64
  else if b < 128 then b - 96 else (b - 128) / 4

/-- Posted blocks (Table 16.5). -/
def blockPosted (b : Nat) : Bool := decide (b = 4 ∨ 5 ≤ b)

/-- The tile of a tile block. -/
def blockTile (b : Nat) : Option Nat := if 128 ≤ b then some ((b - 128) / 4) else none

/-- Blocks whose configuration space holds a register: MGP, HMC and TCB (Tables 16.6 to 16.8). -/
def hasConfig (b : Nat) : Bool :=
  decide (b = 2) || decide (64 ≤ b ∧ b < 96) || (decide (128 ≤ b) && decide (b % 4 = 0))

/-- Blocks of a running image (R566): TCB, SYU, STE, CHI, HMC and UPE. -/
def isRunBlock (b : Nat) : Bool := decide (64 ≤ b)

/-- The block and offset of a BAR0 address (R556), none where no block lies. -/
def blockAt (a : Nat) : Option (Nat × Nat) :=
  if a < 0x60000 then some (a / 0x10000, a % 0x10000)
  else if 0x100000 ≤ a ∧ a < 0x140000 then some (16 + (a - 0x100000) / 0x4000, a % 0x4000)
  else if 0x140000 ≤ a ∧ a < 0x150000 then some (32 + (a - 0x140000) / 0x4000, a % 0x4000)
  else if 0x200000 ≤ a ∧ a < 0x400000 then some (64 + (a - 0x200000) / 0x10000, a % 0x10000)
  else if 0x400000 ≤ a ∧ a < 0x600000 then some (96 + (a - 0x400000) / 0x10000, a % 0x10000)
  else if 0x1000000 ≤ a ∧ a < 0x3000000 then
    some (128 + (a - 0x1000000) / 0x40000 * 4 + a % 0x40000 / 0x10000, a % 0x10000)
  else none

/-- A block exists for software: a disabled tile's blocks read 0 and ignore writes (R546). -/
def State.blockLive (s : State) (b : Nat) : Bool :=
  match blockTile b with
  | some t => s.enabled t
  | none => true

/-- EN as it reads: 1 for a block without configuration. -/
def State.blockEn (s : State) (b : Nat) : Bool := !hasConfig b || (s.block b).en

/-! ### Configuration -/

/-- CFG_CRC of stored configuration bytes (R553). -/
def cfgCrc (cfg : SMap Byte) : Word := crc32c (readBytes cfg 0x100 0x700)

/-- The stored configuration takes effect in the unit: TCB_LOGICAL and TCB_HOLD_AREA, HMC_BAND, MGP_SRAM_SPLIT. -/
def State.applyCfg (s : State) (b : Nat) : State :=
  let cfg := (s.block b).cfg
  if b = blkMgp then
    { s with mgp := { s.mgp with sramSplit := (readByte cfg 0x100).setWidth 4 } }
  else if 64 ≤ b ∧ b < 96 then
    let one (m : SMap (BitVec 3)) (i : Nat) : SMap (BitVec 3) := mput 0 m i ((readByte cfg (0x100 + i)).setWidth 3)
    { s with mem := { s.mem with bands := (List.range 80).foldl one s.mem.bands } }
  else
    match blockTile b with
    | some t =>
      if b % 4 = 0 then
        let x := readByte cfg 0x100
        let l : Option Nat := if x.getLsbD 7 then some (x.toNat % 128) else none
        let h : BitVec 4 := (readByte cfg 0x104).setWidth 4
        s.modTile t (fun y => { y with logical := l, holdAreaCode := h })
      else s
    | none => s

/-- Firmware writes configuration bytes of a block: its own copy, the CRC and an armed monument follow (R548, R549, R554,
R566; log entry 13). -/
def State.fwCfg (s : State) (b off : Nat) (bs : Bytes) : State :=
  (s.modBlock b (fun x =>
    let cfg := writeBytes x.cfg off bs
    let crc := cfgCrc cfg
    { x with cfg := cfg, copy := cfg, crc := crc, monument := if x.monArm then crc else x.monument })).applyCfg b

/-- Firmware writes the band table into every HMC block (R324). -/
def State.fwBands (s : State) (first : Nat) (bs : Bytes) : State :=
  (List.range 32).foldl (fun s k => s.fwCfg (blkHmc k) (0x100 + first) bs) s

/-- The TCB_LOGICAL byte of a tile. -/
def logicalByte (l : Option Nat) : Byte :=
  match l with
  | some n => BitVec.ofNat 8 (0x80 + n % 128)
  | none => 0

/-- Firmware sets EN of the blocks of a run, or clears it (R548). -/
def State.setRunEn (s : State) (en : Bool) : State :=
  (s.enabledTiles.map blkTcb ++ (List.range 32).map blkHmc).foldl
    (fun s b => s.modBlock b (fun x => { x with en := en })) s

end Sys2Proof.Machine
end

