-- ==== Sys2Proof/Machine/StepEnd.lean ====
section
/-! DEFINITION. A completed step: its digests (R78 to R80, R568), its entry in the record (Table 02.7) and what its closure check
sends and compares (R460 to R463). -/

namespace Sys2Proof.Machine

/-- Source field of the pair's and domain's events: MCB. -/
def srcMcb : BitVec 16 := srcOf 1 0

/-- MODE of a heartbeat. -/
def modeCode : PairMode → Nat
  | .mirror => 1
  | .shadow => 2
  | .solo => 3

/-! ### Fingerprint records (Table 10.5) -/

/-- TENSOR_ID. -/
def recTensor (r : Bytes) : Nat := fieldAt r 0 4
/-- STEP. -/
def recStep (r : Bytes) : Nat := fieldAt r 4 4
/-- BLOCK. -/
def recBlock (r : Bytes) : Nat := fieldAt r 8 4
/-- FRAG_OFFSET. -/
def recOffset (r : Bytes) : Nat := fieldAt r 12 4
/-- FRAG_LENGTH. -/
def recLength (r : Bytes) : Nat := fieldAt r 16 4
/-- FLAGS. -/
def recFlags (r : Bytes) : Nat := fieldAt r 20 2
/-- The record is of a mirrored slice. -/
def recMirrored (r : Bytes) : Bool := decide (recFlags r % 2 = 1)
/-- CRC. -/
def recCrc (r : Bytes) : DWord := BitVec.ofNat 64 (fieldAt r 24 8)

/-- The order of R79: tensor ID, block, and fragment within a block. -/
def recBefore (a b : Bytes) : Bool :=
  if recTensor a ≠ recTensor b then decide (recTensor a < recTensor b)
  else if recBlock a ≠ recBlock b then decide (recBlock a < recBlock b)
  else decide (recOffset a < recOffset b)

/-- Insert a record in order. -/
def insertRec (r : Bytes) : List Bytes → List Bytes
  | [] => [r]
  | x :: rest => if recBefore r x then r :: x :: rest else x :: insertRec r rest

/-- Sort records into the order of R79. -/
def sortRecs (rs : List Bytes) : List Bytes := rs.foldr insertRec []

/-- SHA-512 over fingerprints in their order, each as 8 bytes (R79; log entry 15). -/
def digestOf (crcs : List DWord) : Digest := sha512 (crcs.flatMap (fun c => leBytes 8 c.toNat))

/-! ### CRC-64 combination (R80) -/

/-- Product of two polynomials modulo that of CRC-64/ECMA-182, over the low `n` bits of the second. -/
def crc64Mul (a b : DWord) : Nat → DWord
  | 0 => 0
  | n + 1 =>
    let r := crc64Bit (crc64Mul a b n)
    if b.getLsbD (63 - n) then r ^^^ a else r

/-- x^(8 n) modulo the polynomial, by squaring over the low `bits` bits of n. -/
def crc64Shift (n : Nat) : Nat → DWord
  | 0 => 1
  | bits + 1 =>
    let h := crc64Shift (n / 2) bits
    let q := crc64Mul h h 64
    if n % 2 = 1 then crc64Mul q 0x100 64 else q

/-- CRC-64 of a concatenation, from the CRCs of its parts and the length of the second. -/
def crc64Join (a b : DWord) (len : Nat) : DWord := crc64Mul a (crc64Shift len 64) 64 ^^^ b

/-- Join the fragments of sorted records into whole blocks: none where a block has a gap (R80). -/
def joinBlocks : List Bytes → Option (Nat × Nat × Nat × DWord) → List DWord → Option (List DWord)
  | [], none, acc => some acc
  | [], some (_, _, _, c), acc => some (acc ++ [c])
  | r :: rest, cur, acc =>
    match cur with
    | some (t, b, e, c) =>
      if recTensor r = t ∧ recBlock r = b then
        if recOffset r = e then joinBlocks rest (some (t, b, e + recLength r, crc64Join c (recCrc r) (recLength r))) acc
        else none
      else if recOffset r = 0 then joinBlocks rest (some (recTensor r, recBlock r, recLength r, recCrc r)) (acc ++ [c])
      else none
    | none =>
      if recOffset r = 0 then joinBlocks rest (some (recTensor r, recBlock r, recLength r, recCrc r)) acc else none

/-! ### Digests of a step (R78 to R80, R568) -/

/-- Records of a step on this module. -/
def State.stepRecords (s : State) (t : Nat) (mirrored : Bool) : List Bytes :=
  sortRecs (s.mem.records.filter (fun r => recStep r == t && recMirrored r == mirrored))

/-- SLICE_DIGEST of a step. -/
def State.sliceDigest (s : State) (t : Nat) : Digest := digestOf ((s.stepRecords t false).map recCrc)

/-- The digest over the mirrored records of a step (R460). -/
def State.mirrorDigest (s : State) (t : Nat) : Digest := digestOf ((s.stepRecords t true).map recCrc)

/-- The membership of a step (R63, R80): that in force, or an earlier one where a change has since taken effect. -/
def State.membershipAt (s : State) (t : Nat) : Membership :=
  match (s.domain.past.filter (fun e => decide (t < e.1))).getLast? with
  | some e => e.2
  | none => { epoch := s.memberEpoch, shape := s.shape, members := s.members }

/-- The record module of a step: the lowest ID of its membership (R80). -/
def State.recordModule (s : State) (t : Nat) : Nat :=
  let ms := (s.membershipAt t).members
  ms.foldl min (ms.headD 0)

/-- This module is the record module of a step. -/
def State.isRecordModule (s : State) (t : Nat) : Bool := s.recordModule t == s.moduleIdNat

/-- The records of a step from another module, once they have come. -/
def State.foreignRecords (s : State) (m t : Nat) : Option (List Bytes) :=
  (s.mem.foreign.find? (fun e => e.1 == m && e.2.1.toNat == t)).map (·.2.2)

/-- STEP_DIGEST, on the record module once every other member's records are there and the fragments join (R80). -/
def State.stepDigest (s : State) (t : Nat) : Option Digest :=
  let others := (s.membershipAt t).members.filter (fun m => m != s.moduleIdNat)
  if s.isRecordModule t && others.all (fun m => (s.foreignRecords m t).isSome) then
    let all := sortRecs (s.stepRecords t false ++ others.flatMap (fun m => (s.foreignRecords m t).getD []))
    (joinBlocks all none []).map digestOf
  else none

/-- Sum over the tiles of the held totals (R207, Table 02.7). -/
def State.heldTotal (s : State) : DWord := s.imageTiles.foldl (fun a t => a + (s.tile t).held) 0

/-- Blocks of a step whose reduced saturation flag is set, by the tallies that the module has seen (R100; log entry 16). -/
def State.saturatedBlocks (s : State) (t : Nat) : Nat :=
  ((s.run.tallies.filter (fun e => decide (e.1 / 2 ^ 32 = t % 2 ^ 24))).map (·.2)).sum

/-- A step's entry (Table 02.7). -/
def State.mkStepEntry (s : State) (t : Nat) : StepEntry :=
  let d := s.stepDigest t
  { step := BitVec.ofNat 32 t, memberEpoch := (s.membershipAt t).epoch, stallCc := s.heldTotal - s.run.heldMark,
    saturated := BitVec.ofNat 32 (s.saturatedBlocks t), digestPresent := d.isSome,
    solveFlag := (s.mem.records.any (fun r => recStep r == t && decide (recFlags r / 2 % 4 ≠ 0))),
    sliceDigest := s.sliceDigest t, stepDigest := d.getD 0 }

/-- Append the entry of a completed step. -/
def State.addStep (s : State) (t : Nat) : State :=
  let s1 := { s with run := { s.run with steps := s.run.steps ++ [s.mkStepEntry t], heldMark := s.heldTotal } }
  s1.flushChecks s.imageTiles

/-- The fingerprint records still in a stack's engine reach the management processor. -/
def State.flushRecords (s : State) : List Nat → State
  | [] => s
  | k :: r =>
    let f := (s.stack k).fingerprints
    State.flushRecords
      (({ s with mem := { s.mem with records := s.mem.records ++ f } }).modStack k (fun x => { x with fingerprints := [] })) r

/-! ### Closure checks (R460 to R463) -/

/-- A contribution's place in the order of R461: covered rank, context, KIND, POSITION. -/
def contribBefore (a b : Nat × Nat × Nat × Nat × Nat × DWord) : Bool :=
  let x := [a.2.1, a.2.2.1, a.2.2.2.1, a.2.2.2.2.1]
  let y := [b.2.1, b.2.2.1, b.2.2.2.1, b.2.2.2.2.1]
  decide (x ≤ y)

/-- Insert a contribution in order. -/
def insertContrib (a : Nat × Nat × Nat × Nat × Nat × DWord) :
    List (Nat × Nat × Nat × Nat × Nat × DWord) → List (Nat × Nat × Nat × Nat × Nat × DWord)
  | [] => [a]
  | b :: r => if contribBefore a b then a :: b :: r else b :: insertContrib a r

/-- The contribution digest of a step (R461); STEP of a message is 24 bits wide (Table 12.4). -/
def State.contribDigest (s : State) (t : Nat) : Digest :=
  digestOf (((s.pair.contribs.filter (fun c => decide (c.1 = t % 2 ^ 24))).foldr insertContrib []).map (·.2.2.2.2.2))

/-- KIND of the pair's closure digests. -/
def State.closureKind (s : State) : Byte := if s.pair.mode = .shadow then 2 else 1

/-- Fingerprint records in KIND 0x03 packets, at most 127 in each. -/
def State.sendRecords (s : State) (t : Nat) : State :=
  let recs := s.mem.records.filter (fun r => decide (recStep r = t))
  (chunks 127 recs.length recs).foldl (fun s c =>
    let p := s.lowestTie
    s.sendOn p (s.mkPacket p.val 11 s.twinId 0 0 (leBytes 4 t ++ [3] ++ zeros 27 ++ c.flatten))) s

/-- The payload of a digest's CLOSURE packet (Table 13.1). -/
def closurePayload (t : Nat) (kind : Byte) (d : Digest) : Bytes :=
  leBytes 4 t ++ [kind] ++ zeros 3 ++ digestBytes d ++ zeros 24

/-- A withheld arrival leaves once nothing holds it any more (R463). -/
def State.releaseWithheld (s : State) : State :=
  match s.run.withheld with
  | some (b, round) =>
    match s.barrierDecl b with
    | some d =>
      if s.closureHolds d round then s
      else ({ s with run := { s.run with withheld := none } }).domainArrive b round
    | none => s
  | none => s

/-- A closure check passed: the arrival that waited for it leaves (R463). -/
def State.closePassed (s : State) (t : Nat) : State :=
  (if stepBehind s.pair.closedStep t then { s with pair := { s.pair with closedStep := BitVec.ofNat 32 t } } else s).releaseWithheld

/-- The closure check of a step is marked skipped, since the tie link is down: it withholds nothing (R463). -/
def State.skipClosure (s : State) (t : Nat) : State :=
  (if stepBehind s.pair.skippedStep t then { s with pair := { s.pair with skippedStep := BitVec.ofNat 32 t } } else s).releaseWithheld

/-- The tie link has gone down: the checks under way are skipped, and so is that which an arrival waits for (R463). -/
def State.skipClosures (s : State) : State :=
  if s.upTie = [] then (s.pair.ownDigests.foldl (fun s e => s.skipClosure e.1) s).releaseWithheld else s

/-- What a failed closure check leaves before a run ends by it: the event and the exchange of records (R462). -/
def State.closureDiffers (s : State) (t : Nat) (own twin : Digest) : State :=
  let body := leBytes 4 t ++ leBytes 1 (modeCode s.pair.mode) ++ digestBytes own ++ digestBytes twin
  (({ s with pair := { s.pair with closureFailed := true } }).event evClosureMismatch srcMcb body).sendRecords t

/-- The own and the twin's digest of a step leave the table once both are there. -/
def State.takeClosure (s : State) (t : Nat) : Option (Digest × Digest × State) :=
  match mfind s.pair.ownDigests t, mfind s.pair.twinDigests t with
  | some a, some (_, b) =>
    some (a, b, { s with pair := { s.pair with
      ownDigests := merase s.pair.ownDigests t, twinDigests := merase s.pair.twinDigests t } })
  | _, _ => none

/-- Send this module's records of a step to the record module, 120 in each message (R80). -/
def State.sendFingerprints (s : State) (t : Nat) : State :=
  let recs := s.stepRecords t false
  let parts := if recs = [] then [[]] else chunks 120 recs.length recs
  parts.foldl (fun s c => s.sendMgmt (s.recordModule t) (.fingerprints (BitVec.ofNat 32 t) c)) s

/-- Form the own closure digest of a step and send the one that the twin compares (R460, R461). -/
def State.sendClosure (s : State) (t : Nat) : State :=
  if s.pair.mode = .solo then s
  else
    let send := if s.pair.mode = .mirror then s.sliceDigest t else s.contribDigest t
    let own := if s.pair.mode = .mirror then s.mirrorDigest t else s.contribDigest t
    let s1 := { s with pair := { s.pair with
      ownDigests := mset s.pair.ownDigests t own,
      contribs := s.pair.contribs.filter (fun c => decide (c.1 ≠ t % 2 ^ 24)) } }
    if s1.upTie = [] then s1.skipClosure t
    else
      let p := s1.lowestTie
      s1.sendOn p (s1.mkPacket p.val 11 s1.twinId 0 0 (closurePayload t s1.closureKind send))

/-- What a module sends when a step's digest is formed: its fingerprints to the step's record module, and its closure digest to the
twin (R80, R460). -/
def State.reportStep (s : State) (t : Nat) : State :=
  (if s.isRecordModule t then s else s.sendFingerprints t).sendClosure t

/-- The closure check of a step that a run's end enters: a difference ends no run any more (R462, R463). -/
def State.settleClosure (s : State) (t : Nat) : State :=
  match s.takeClosure t with
  | some (a, b, s1) => if a = b then s1.closePassed t else s1.closureDiffers t a b
  | none => s

/-- Completed steps that have no entry yet. -/
def State.stepsToEnter (s : State) : Nat := (s.lastStep.map (· + 1)).getD 0 - s.currentStep.toNat

/-- Enter completed steps that have no entry yet, one after another: each is reported as a step digest formed in the run is
(R77, R80). -/
def State.addSteps (s : State) : Nat → State
  | 0 => s
  | n + 1 =>
    let t := s.currentStep.toNat
    if s.hasPlan && s.stepDone t then State.addSteps (((s.addStep t).reportStep t).settleClosure t) n else s

end Sys2Proof.Machine
end

