-- ==== Sys2Proof/Machine/RunEnd.lean ====
section
/-! DEFINITION. The end of a run: the reproducibility record with its signature
(Table 02.6, Table 02.7, R598), hardware faults (R25, R571), and what ending a run does (R77, R236, R308, R525). -/

namespace Sys2Proof.Machine

/-! ### The record (Table 02.6, R78, R81, R598) -/

/-- Stepping code. -/
def State.steppingCode (s : State) : Nat := if s.fuses.steppingA1 then 0x00A1 else 0x00B0

/-- Enabled tiles. -/
def State.tileCount (s : State) : Nat := s.enabledTiles.length

/-- SHA-512 over the patch RAM contents (64 KiB). -/
def State.patchDigest (s : State) : Digest := sha512 (readBytes s.sec.patchRam 0 65536)

/-- Seed of the attestation key (Table 18.3). -/
def SecState.akSeed (x : SecState) : Key :=
  BitVec.ofNat 256 (leNat ((hmacSha512 (keyBytes x.uds) (digestBytes x.latched)).take 32))

/-- FLAGS of a record. -/
def State.recordFlags (s : State) (c : EndCause) : Nat :=
  (if s.run.relaxed then 1 else 0) + (if s.run.missOccurred then 2 else 0) + (if s.run.arrivalOrder then 4 else 0) +
  (if s.run.a1Compat then 8 else 0) + (if c = .fault then 16 else 0) + (if c = .stop then 32 else 0)

/-- A step entry's 152 bytes (Table 02.7). -/
def StepEntry.bytes (e : StepEntry) : Bytes :=
  leBytes 4 e.step.toNat ++ leBytes 4 e.memberEpoch.toNat ++ leBytes 8 e.stallCc.toNat ++ leBytes 4 e.saturated.toNat ++
  leBytes 4 ((if e.digestPresent then 1 else 0) + (if e.solveFlag then 2 else 0)) ++
  digestBytes e.sliceDigest ++ (if e.digestPresent then digestBytes e.stepDigest else zeros 64)

/-- The record's bytes before its signature. -/
def State.recordFront (s : State) (im : Image) (seed : DWord) (c : EndCause) : Bytes :=
  leBytes 2 1 ++ leBytes 2 (s.recordFlags c) ++ leBytes 2 s.run.jobId.toNat ++ leBytes 2 im.eciVersion.toNat ++
  leBytes 8 seed.toNat ++ digestBytes im.eciDigest ++ digestBytes im.imageDigest ++
  leBytes 2 im.ltId.toNat ++ leBytes 2 s.steppingCode ++ leBytes 2 s.tileCount ++ zeros 2 ++
  leBytes 16 s.fuses.enabled.toNat ++ leBytes 4 s.moduleIdNat ++ leBytes 4 s.sec.fwVersion.toNat ++
  digestBytes s.sec.latched ++ leBytes 4 s.sec.routineRom.toNat ++ zeros 4 ++ digestBytes s.patchDigest ++
  leBytes 4 im.body.parcelSize.toNat ++ leBytes 4 im.body.parcels.toNat ++ leBytes 4 im.body.contributions.toNat ++
  [im.body.gradFormat, im.body.stateGrain] ++ zeros 2 ++ leBytes 4 s.run.firstStep.toNat ++
  leBytes 4 s.run.steps.length ++ leBytes 2 im.body.inputs.length ++ zeros 6 ++
  im.body.inputs.flatMap (fun i => leBytes 8 i.1.toNat ++ digestBytes i.2) ++ s.run.steps.flatMap StepEntry.bytes

/-- The signed record of the run. -/
def State.buildRecord (s : State) (c : EndCause) : Bytes :=
  match s.runImage with
  | none => []
  | some im =>
    let front := s.recordFront im ((s.runJob.map (·.seed)).getD 0) c
    front ++ signatureBytes (ed25519Sign s.sec.akSeed front)

/-! ### Ending a run -/

/-- END codes (Table 15.12). -/
def endCode : EndCause → Nat
  | .complete => 0
  | .stepLimit => 1
  | .stop => 2
  | .fault => 3

/-- Body of a RUN final reply (Table 15.12); a CONTRACT_FAULT reply carries the number of records and the first (R514). -/
def State.runBody (s : State) (c : EndCause) (recordSize : Nat) : Bytes :=
  match c with
  | .fault =>
    leBytes 2 s.run.faults.length ++ (match s.orderedFaults with
      | f :: _ => f.bytes
      | [] => [])
  | _ =>
    leBytes 1 (endCode c) ++ zeros 3 ++ leBytes 4 s.run.steps.length ++ leBytes 8 s.heldTotal.toNat ++
    leBytes 4 recordSize ++ leBytes 2 s.run.faults.length ++ zeros 2

/-- Post the final reply of a run: to its session, or as RUN_ENDED to the owner session, or kept for the next one (R525). -/
def State.postRunEnd (s : State) (h : Hdr) (c : EndCause) (body : Bytes) : State :=
  if h.noReply then s
  else if s.sessionAlive h then s.reply h 0x0301 (if c = .fault then stContractFault else stOk) true body
  else
    match s.ownerPath with
    | some p =>
      let v := ((s.session p).map (·.eventVector)).getD 0
      { s with host := s.host.postUnsolicited p 0x8880 v body }
    | none =>
      let r : Reply := { path := .pcie, opcode := 0x8880, seq := 0, final := true, unsolicited := true, vector := 0,
                         jobId := 0, status := 0, version := 0, body := body }
      { s with host := { s.host with runEnded := s.host.runEnded ++ [r] } }

/-- Reset every receive endpoint of the module (R308). -/
def State.resetEndpoints (s : State) : List (Nat × Nat) → State
  | [] => s
  | (t, e) :: r =>
    State.resetEndpoints
      (if ((s.tile t).recv e).closed then s else s.resetRecv (Fin.ofNat 128 t) e) r

/-- Keep a record with its job (R527: the job's latest run is index 0). -/
def State.keepRecord (s : State) (record : Bytes) : State :=
  match s.runJob with
  | some j =>
    { s with host := { s.host with jobs := mset s.host.jobs s.run.jobId.toNat { j with records := record :: j.records } } }
  | none => s

/-- The update engines at the end of a run: they stop after a fault, else their running passes complete (Table 10.6). -/
def State.settleEngines (s : State) (c : EndCause) : State :=
  let ks := s.mem.stackMap.map (·.1)
  match c with
  | .fault => s.abandonAll ks
  | _ => s.completeAll ks

/-- Enter the contract faults of the run in the log (R236, R571). -/
def State.logFaults (s : State) : List FaultRec → State
  | [] => s
  | f :: r => State.logFaults (s.logCode f.code 0 3 (srcTile f.tile.toNat) f.bytes) r

/-- The contract faults among the run's records, in the order of R236. -/
def State.contractFaults (s : State) : List FaultRec := s.orderedFaults.filter (fun f => decide (f.code < 0x0100))

/-- End the run (R77, R236, R532): its contract faults are logged, the engines settle, the completed steps are entered, the record is emitted, receive
endpoints are reset, EN of the run's blocks is cleared and the final reply is posted. -/
def State.endRun (s : State) (c : EndCause) : State :=
  if s.runActive then
    let s1 := (s.logFaults s.contractFaults).settleEngines c
    let s2 := s1.flushRecords (s1.mem.stackMap.map (·.1))
    let s2 := s2.addSteps s2.stepsToEnter
    let record := s2.buildRecord c
    let body := s2.runBody c record.length
    let s3 := ((s2.keepRecord record).resetEndpoints s2.recvKeys).setRunEn false
    let s4 := match s.run.hdr with
      | some h => s3.postRunEnd h c body
      | none => s3
    let s4 := s4.flushChecks s.imageTiles
    { s4 with run := { s4.run with state := .idle, hdr := none, withheld := none } }
  else s

/-! ### Hardware faults (R25, R571) -/

/-- D2D_SCHEDULE_ERROR. -/
def hwD2d : BitVec 16 := 0x0101
/-- ISTORE_ECC. -/
def hwIstoreEcc : BitVec 16 := 0x0102
/-- SCRATCHPAD_ECC. -/
def hwScratchEcc : BitVec 16 := 0x0103
/-- HBM_UNCORRECTABLE. -/
def hwHbm : BitVec 16 := 0x0104
/-- UPE_STEP_SKEW. -/
def hwStepSkew : BitVec 16 := 0x0105
/-- CROSSING_SLIP. -/
def hwCrossing : BitVec 16 := 0x0106
/-- MERIDIAN_SPLIT. -/
def hwMeridian : BitVec 16 := 0x0107
/-- MIGRATION_MISMATCH. -/
def hwMigration : BitVec 16 := 0x0108
/-- CLOSURE_MISMATCH. -/
def hwClosure : BitVec 16 := 0x0109
/-- LEASE_LOST. -/
def hwLease : BitVec 16 := 0x010A
/-- ROOT_UNLOCK. -/
def hwRoot : BitVec 16 := 0x010B
/-- SUPPLY_HALT. -/
def hwSupply : BitVec 16 := 0x010C
/-- OVER_TEMPERATURE. -/
def hwTemp : BitVec 16 := 0x010D
/-- CFG_CORRUPT. -/
def hwCfg : BitVec 16 := 0x010E

/-- Faults that firmware finds itself (R590; log entry 17). -/
def hwByFirmware (code : BitVec 16) : Bool := decide (hwMeridian ≤ code)

/-- The tile of an event source, 0xFFFF for a source that is no tile (Table 17.5). -/
def tileOfSource (source : BitVec 16) : BitVec 16 := if source.toNat % 256 = 2 then source >>> 8 else 0xFFFF

/-- The fault record of a hardware fault: the tile where it lies in one, and no slot. -/
def State.hwRecord (s : State) (code source : BitVec 16) (offending detail : DWord) : FaultRec :=
  { tile := tileOfSource source, code := code, slot := slotNone, more := false, inRoutine := false, bundle := 0,
    runCycle := if s.runActive then s.runCycle else 0, meridian := s.clock.meridian, offending := offending,
    detail := detail }

/-- Raise a hardware fault: it is logged in class 0 at severity 3, a run in progress ends as R25 describes, and the faults
of R500 ask for a datum pulse. -/
def State.raiseHw (s : State) (code source : BitVec 16) (offending detail : DWord) (payload : Bytes) : State :=
  let f := s.hwRecord code source offending detail
  let s1 := s.logCode code 0 3 source (f.bytes ++ payload)
  let s2 := if s.runActive then { s1 with run := { s1.run with faults := s1.run.faults ++ [f] } } else s1
  let s3 := { s2 with
    clock := { s2.clock with datumReq := s2.clock.datumReq || code == hwD2d || code == hwCrossing }
    sec := { s2.sec with fwFault := s2.sec.fwFault || hwByFirmware code } }
  s3.endRun .fault

/-- FAULT_STOP (R236): after a contract fault firmware halts the other tiles and ends the run, whose fault records are logged in
order. -/
def execFaultStop (s : State) : Res :=
  if s.runActive ∧ s.run.faults ≠ [] then .next (s.endRun .fault) else .next s

/-- RUN_END (R77): a run ends with its schedule, at its step limit, by STOP or by a fault of a tile. -/
def execRunEnd (c : EndCause) (s : State) : Res :=
  let holds : Bool := match c with
    | .complete => s.run.state == .running && s.imageTiles.all (fun t => (s.tile t).blocked.isEmpty && !(s.tile t).faulted)
    | .stepLimit => s.run.stepLimit != 0 && decide (s.run.stepLimit.toNat ≤ s.run.steps.length)
    | .stop => true
    | .fault => !s.run.faults.isEmpty
  if s.runActive ∧ holds = true then .next (s.endRun c) else .next s

end Sys2Proof.Machine
end

