-- ==== Sys2Proof/Machine/Hbm.lean ====
section
/-! DEFINITION. The memory side: die-to-die links (R25, R26), the HBM controllers' intake, returns, errors, refresh and
scrub (R327 to R343), and the update engines' marks, gates and completions (R354 to R367, R377). -/

namespace Sys2Proof.Machine

/-! ### Writes that enter a controller (R331, R338, R342, R354, R367) -/

/-- Write one piece of bytes that lies within a 64 B line of a stack: a gate line ignores and counts it, a line of the mark
area passes its step number to the engine. -/
def State.putPiece (s : State) (a : Nat) (bs : Bytes) (deadline : Option DWord) : State :=
  let k := s.stackOf a
  let sa := s.stackAddr a
  let line := sa / 64 * 64
  match (s.stack k).plan with
  | none => s.writeHbm a bs
  | some plan =>
    if (gateLineOf plan sa).isSome then s.modStack k (fun x => { x with gateIgnored := satInc x.gateIgnored })
    else
      let s1 := s.writeHbm a bs
      if plan.markBase ≤ line ∧ line < plan.markBase + 64 * plan.markLines then
        let m : Mark :=
          { line := (line - plan.markBase) / 64, value := BitVec.ofNat 64 (s1.stackField k line 8),
            before := BitVec.ofNat 64 (s.stackField k line 8), deadline := deadline }
        s1.modStack k (fun x => { x with marks := x.marks ++ [m] })
      else s1

/-- Write bytes piece by piece, cut at 64 B lines. -/
def State.putPieces (s : State) (deadline : Option DWord) : Nat → Nat → Bytes → State
  | 0, _, _ => s
  | fuel + 1, a, bs =>
    if bs.isEmpty then s
    else
      let n := 64 - a % 64
      State.putPieces (s.putPiece a (bs.take n) deadline) deadline fuel (a + n) (bs.drop n)

/-- Size of a codeword at a stack address (Table 09.3). -/
def State.codewordSize (s : State) (sa : Nat) : Nat := if s.bandClassW (sa / 2 ^ 30) then 1024 else 8

/-- A codeword of a stack lies wholly in an HBM range. -/
def State.codewordIn (s : State) (k cw a n : Nat) : Bool :=
  let b := s.hbmAddr k cw
  decide (a ≤ b) && decide (b + s.codewordSize cw ≤ a + n)

/-- A codeword of a stack overlaps an HBM range. -/
def State.codewordHit (s : State) (k cw a n : Nat) : Bool :=
  let b := s.hbmAddr k cw
  decide (a < b + s.codewordSize cw) && decide (b < a + n)

/-- A write clears the poison entries of the codewords that it covers (R331) and drops a scrub write-back of a codeword it
touches (R338). -/
def State.clearPoison (s : State) (a n : Nat) : List Nat → State
  | [] => s
  | k :: r =>
    State.clearPoison
      (s.modStack k (fun x =>
        let back := match x.scrubWriteBack with
          | some cw => if s.codewordHit k cw a n then none else some cw
          | none => none
        let p := x.poison.filter (fun cw => !s.codewordIn k cw a n)
        { x with poison := p, poisonFull := x.poisonFull && decide (256 ≤ p.length), scrubWriteBack := back })) a n r

/-- A foreground write of bytes at an HBM address enters its controllers. -/
def State.hbmPut (s : State) (a : Nat) (bs : Bytes) (deadline : Option DWord) : State :=
  (s.putPieces deadline (bs.length + 1) a bs).clearPoison a bs.length (s.mem.stackMap.map (·.1))

/-- A foreground read of an HBM range meets a listed codeword (R331): its stack and address. -/
def State.poisonAt (s : State) (a n : Nat) : Option (Nat × Nat) :=
  (s.mem.stackMap.flatMap (fun e => (e.2.poison.filter (fun cw => s.codewordHit e.1 cw a n)).map (fun cw => (e.1, cw)))).head?

/-- HBM_UNCORRECTABLE of a codeword (R330): OFFENDING is the stack address, DETAIL the stack, band and class. -/
def State.raiseHbm (s : State) (k cw : Nat) : State :=
  s.raiseHw hwHbm (srcOf 6 k) (BitVec.ofNat 64 cw)
    (BitVec.ofNat 64 (k + 256 * (cw / 2 ^ 30) + 65536 * (if s.bandClassW (cw / 2 ^ 30) then 1 else 0))) []

/-! ### Errors (R328 to R332, R565) -/

/-- An hour in meridian ticks. -/
def mtPerHour : Nat := 3600000 * mtPerMs

/-- Granules of 4 KiB of a range, as HBM addresses. -/
def granules (a n : Nat) : List Nat := (List.range (n / 4096 + 1)).map (fun i => a + i * 4096)

/-- A class A band on a stack holds a section of a loaded image (R565). -/
def State.classAOn (s : State) (k : Nat) : Bool :=
  s.host.images.any (fun e =>
    (e.2.sectionBases.zip e.2.body.sections).any (fun x =>
      (granules x.1 x.2.size).any (fun g => !s.bandClassW (g / 2 ^ 35) && s.stackOf g == k)))

/-- Count a corrected codeword, and mark a core die failed that needed more than 1,024 corrections within one hour (R332);
firmware ends a run whose image has a class A section there (R565). A class A codeword lies on the core die of its address
(R321); the correction of a class W codeword names the die (R328). Every correction counts as a codeword (log 118). -/
def State.corrected (s : State) (k sa named : Nat) : State :=
  let now := s.clock.meridian
  let w := s.bandClassW (sa / 2 ^ 30)
  let die := if w then named else coreDie sa
  let times := now :: (mget [] (s.stack k).dieCorr die).take 1024
  let s1 := s.modStack k (fun x => { x with
    corrA := if w then x.corrA else satInc x.corrA
    corrW := if w then satInc x.corrW else x.corrW
    dieCorr := mset x.dieCorr die times })
  let tooMany := match times[1024]? with
    | some t0 => decide (now.toNat < t0.toNat + mtPerHour)
    | none => false
  if tooMany && !(s.stack k).failedDies.getLsbD die then
    let s2 := (s1.modStack k (fun x => { x with failedDies := x.failedDies ||| (1 <<< die) })).event evDieFailed (srcOf 6 k)
      (leBytes 1 k ++ leBytes 1 die)
    if s2.runActive && s2.classAOn k then s2.raiseHbm k sa else s2
  else s1

/-! ### Gated reads (R365 to R367) -/

/-- Stack addresses of the gate lines that a read of a stack covers. -/
def gateLines (plan : UpdatePlan) (sa n : Nat) : List Nat :=
  ((List.range (n / 64 + 2)).map (fun i => (sa / 64 + i) * 64)).filter (fun l =>
    decide (l < sa + n) && (gateLineOf plan l).isSome)

/-- Capture the gate lines of a read that may return now; unnamed gates are counted. -/
def State.captureLines (s : State) (k : Nat) (plan : UpdatePlan) : List Nat → SMap DWord → State × SMap DWord
  | [], got => (s, got)
  | l :: r, got =>
    match mfind got l, gateLineOf plan l with
    | none, some (g, j) =>
      match (s.stack k).gateValue plan g j with
      | some v =>
        let s1 := if (gateEntries plan g).isEmpty then
            s.modStack k (fun x => { x with gateIgnored := satInc x.gateIgnored })
          else s
        State.captureLines s1 k plan r (mset got l v)
      | none => State.captureLines s k plan r got
    | _, _ => State.captureLines s k plan r got

/-- The bytes of a read: gate lines from their captured values, the others as they stood when the read entered (R342). -/
def State.readWith (s : State) (plan : UpdatePlan) (r : HbmReq) (got : SMap DWord) : Bytes :=
  r.data.zipIdx.map (fun x =>
    let sa := s.stackAddr (r.addr + x.2)
    match gateLineOf plan sa with
    | some _ =>
      if sa % 64 < 8 then BitVec.ofNat 8 ((mget 0 got (sa / 64 * 64)).toNat / 256 ^ (sa % 64)) else 0
    | none => x.1)

/-- A host load through BAR4 completes; none is a poisoned completion (R512). -/
def State.completeLoad (s : State) (data : Option Bytes) : State :=
  { s with host := { s.host with apertureReads := s.host.apertureReads ++ [data] } }

/-- A host load meets an uncorrectable codeword: a poisoned completion and HBM_POISON_READ; a run goes on (R512). -/
def State.poisonLoad (s : State) (k cw : Nat) : State :=
  (s.completeLoad none).event evPoisonRead (srcOf 6 k) (leBytes 1 k ++ leBytes 8 cw)

/-- Data of a read returns to its tile, goes on as a remote write (direction 3), or is a line of code (R226). -/
def State.returnData (s : State) (r : HbmReq) (data : Bytes) : State :=
  match r.who with
  | .tile t tag =>
    match r.remote with
    | some (dest, a) =>
      { s with net := { s.net with remotes := s.net.remotes ++ [(dest, .remote t tag a data r.deadline)] } }
    | none =>
      let a := ((mfind (s.tile t.val).tags tag.val).map (·.localAddr)).getD 0
      s.modTile t.val (fun x => { x with inbound := x.inbound ++ [.read tag a data r.deadline] })
  | .code t line => s.modTile t.val (fun x => { x with codeIn := x.codeIn ++ [(line, r.deadline.getD 0)] })
  | .aperture => s.completeLoad (some data)
  | _ => s

/-- Judge the held gated reads of a stack in order: those whose every line is captured return. -/
def State.judgeHeld (s : State) (k : Nat) (plan : UpdatePlan) : List GateRead → State
  | [] => s
  | g :: rest =>
    let lines := gateLines plan (s.stackAddr g.req.addr) g.req.len
    let (s1, got) := s.captureLines k plan lines g.got
    let s2 := if lines.all (fun l => (mfind got l).isSome) then
        match g.req.poison with
        | some (k, cw) => s1.raiseHbm k cw
        | none => s1.returnData g.req (s1.readWith plan g.req got)
      else s1.modStack k (fun x => { x with heldGates := x.heldGates ++ [{ g with got := got }] })
    State.judgeHeld s2 k plan rest

/-- Judge every held gated read of a stack. -/
def State.judgeGates (s : State) (k : Nat) : State :=
  match (s.stack k).plan with
  | none => s
  | some plan =>
    let held := (s.stack k).heldGates
    (s.modStack k (fun x => { x with heldGates := [] })).judgeHeld k plan held

/-- A read request covers a gate line of its stack. -/
def State.isGateRead (s : State) (r : HbmReq) : Bool :=
  !r.isWrite && (match (s.stack (s.stackOf r.addr)).plan with
    | some plan => !(gateLines plan (s.stackAddr r.addr) r.len).isEmpty
    | none => false)

/-! ### Requests (R339 to R343) -/

/-- A request can reach a stack's controller: its band is not being zeroed (R324). -/
def State.reaches (s : State) (k : Nat) (r : HbmReq) : Bool :=
  s.stackOf r.addr == k && !s.mem.zeroing.contains (r.addr / 2 ^ 35)

/-- The intake buffer has room for a request (R339). -/
def Stack.hasRoom (x : Stack) (r : HbmReq) : Bool :=
  decide (x.intake.length < 1024) && decide ((x.intake.map (·.len)).sum + r.len ≤ 2 ^ 21)

/-- A write is acknowledged on entry (R343): its transfer is done. -/
def State.ackWrite (s : State) (r : HbmReq) : State :=
  match r.who with
  | .tile t tag => s.modTile t.val (fun x => x.markDone tag)
  | _ => s

/-- A request's place at a merge point of the memory network (R37 to R39, R278): a tile's transfer by its descriptor and segment,
a line of code under stream 32 (R226), and the host's traffic at the PCIe endpoint; update-engine bursts come last (R341). -/
def State.reqKey (s : State) (r : HbmReq) : FlowKey :=
  match r.who with
  | .tile t tag =>
    match mfind (s.tile t.val).tags tag.val with
    | some tr => tileKey r.deadline t.val tr.desc.val tr.segment tr.offset
    | none => tileKey r.deadline t.val 0 0 0
  | .code t line => tileKey r.deadline t.val 32 0 (256 * line)
  | .dma _ | .aperture => portKey r.deadline .pcie
  | .update => [deadlineKey r.deadline, 2]

/-- Take the request at place `i` of the memory network. -/
def State.dropNet (s : State) (i : Nat) : State := { s with mem := { s.mem with net := s.mem.net.eraseIdx i } }

/-- A read as it stands on its entry: bursts that touch the same bytes issue in the order of entry (R342), so what it returns, and
a listed codeword that it meets, are fixed here. -/
def State.entered (s : State) (r : HbmReq) : HbmReq := { r with data := s.readHbm r.addr r.len, poison := s.poisonAt r.addr r.len }

/-- A request enters the controller while its intake buffer has room (R339): a write takes effect and is acknowledged (R343), a
gated read is held beside the intake buffer (R367), any other read is queued. -/
def State.intake (s : State) (k i : Nat) (r : HbmReq) : State :=
  if (s.stack k).hasRoom r = false then s
  else if r.isWrite then ((s.dropNet i).hbmPut r.addr r.data r.deadline).ackWrite r
  else if s.isGateRead r then
    ((s.dropNet i).modStack k (fun x => { x with heldGates := x.heldGates ++ [{ req := s.entered r, got := [] }] })).judgeGates k
  else (s.dropNet i).modStack k (fun x => { x with intake := x.intake ++ [s.entered r] })

/-- A request may be the next one into a stack's controller: it has reached the port, and a gated read finds room beside the
buffer, or waits in the network (R367). -/
def State.mayEnter (s : State) (k : Nat) (r : HbmReq) : Bool :=
  s.reaches k r && (!s.isGateRead r || decide ((s.stack k).heldGates.length < 64))

/-- The requests of the memory network that a condition selects, with their places. -/
def State.netOf (s : State) (p : HbmReq → Bool) : List (Nat × HbmReq) :=
  (s.mem.net.zipIdx.filter (fun e => p e.1)).map (fun e => (e.2, e.1))

/-- Of the requests of the network that a condition selects, the one that goes first (R37), with its place. -/
def State.firstNet (s : State) (p : HbmReq → Bool) : Option (Nat × HbmReq) :=
  (firstKeyed (fun e : Nat × HbmReq => s.reqKey e.2) (s.netOf p)).map (·.2)

/-- HBM_REQUEST_INTAKE: of the requests that have reached a stack's controller, the one with the earliest deadline enters (R37,
R339, R342). -/
def execHbmRequestIntake (stack : StackNo) (s : State) : Res :=
  match s.firstNet (s.mayEnter stack.val) with
  | some (i, r) => .next (s.intake stack.val i r)
  | none => .next s

/-- Bands of a range. -/
def bandsOf (a n : Nat) : List Nat := (List.range ((a + n - 1) / 2 ^ 35 + 1 - a / 2 ^ 35)).map (fun i => a / 2 ^ 35 + i)

/-- The offsets of a band among which a stack's bytes lie (R323): its die's block, the whole band, or its own slab. -/
def State.stackSpan (s : State) (b k : Nat) : Nat × Nat :=
  match s.bandMode b with
  | 0 => (k / 4 * 2 ^ 32, (k / 4 + 1) * 2 ^ 32)
  | 1 => (0, 2 ^ 35)
  | _ => (k * 2 ^ 30, (k + 1) * 2 ^ 30)

/-- A range has bytes on a stack: within the stack's span of a band, 32 granules visit every stack that shares the span. -/
def State.onStack (s : State) (a n k : Nat) : Bool :=
  (bandsOf a n).any (fun b =>
    let w := s.stackSpan b k
    let lo := max a (b * 2 ^ 35 + w.1)
    let hi := min (a + n) (b * 2 ^ 35 + w.2)
    decide (lo < hi) && (granules lo (min (hi - lo) (2 ^ 17))).any (fun g => s.stackOf (min g (hi - 1)) == k))

/-- A request that waits at a controller of a range goes before a flow of the host with a deadline (R38, R39). -/
def State.netAhead (s : State) (deadline : Option DWord) (a n : Nat) : Bool :=
  s.mem.net.any (fun r =>
    s.mayEnter (s.stackOf r.addr) r && !keyLess (portKey deadline .pcie) (s.reqKey r) && s.onStack a n (s.stackOf r.addr))

/-- The queued read that completes first: the earliest deadline, ties by R278 and R39 (R341). -/
def State.firstRead (s : State) (rs : List HbmReq) : Option (Nat × HbmReq) := firstKeyed s.reqKey rs

/-- The codeword at fault in a read of a stack address. -/
def State.faultWord (s : State) (sa : Nat) (word : Fin 8) : Nat :=
  if s.bandClassW (sa / 2 ^ 30) then sa / 1024 * 1024 else sa / 64 * 64 + 8 * word.val

/-- HBM_READ_RETURN: a read's bursts complete, errors are corrected, and its data returns; an uncorrectable or listed
codeword raises HBM_UNCORRECTABLE (R330, R331). -/
def execHbmReadReturn (stack : StackNo) (e : HbmError) (s : State) : Res :=
  match s.firstRead (s.stack stack.val).intake with
  | none => .next s
  | some (i, r) =>
    let s1 := s.modStack stack.val (fun y => { y with intake := y.intake.eraseIdx i })
    let sa := s.stackAddr r.addr
    match r.poison with
    | some (k, cw) => if r.who = .aperture then .next (s1.poisonLoad k cw) else .next (s1.raiseHbm k cw)
    | none =>
      match e with
      | .none => .next (s1.returnData r r.data)
      | .corrected die => .next ((s1.returnData r r.data).corrected stack.val sa die.val)
      | .uncorrectable w =>
        let s2 := s1.modStack stack.val (fun y => { y with uncorr := satInc y.uncorr })
        let cw := s.faultWord sa w
        if r.who = .aperture then .next (s2.poisonLoad stack.val cw) else .next (s2.raiseHbm stack.val cw)

/-! ### Refresh, tracking and scrub (R333 to R338, R564) -/

/-- mt of a refresh window. -/
def windowMt (fast : Bool) : Nat := if fast then 6400000 else 12800000

/-- The number, from 1, of the refresh window of a stack that a meridian lies in, and the ticks since it started (R335, R336).
Number 0 stands for the windows before the first datum pulse (log 117). -/
def windowAt (fast : Bool) (k m : Nat) : Nat × Nat :=
  let w := windowMt fast
  let off := k * (if fast then 200000 else 400000)
  ((m + 2 * w - off) / w, (m + w - off) % w)

/-- The easement slot of refresh j of channel c (R335, R336). -/
def refreshSlot (fast : Bool) (c j : Nat) : Nat := if fast then 4 * j + c % 4 else 9 * j + c % 9

/-- The pseudo channel, bank and first of 8 rows that refresh j of a channel goes to (R335). -/
def refreshTarget (j : Nat) : Nat × Nat × Nat := (j % 2, j / 2 % 64, 8 * (j / 128))

/-- A refresh of a channel issues: the channel's next one is counted on. -/
def Stack.refreshOn (x : Stack) (c j : Nat) : Stack :=
  { x with refreshIndex := mset x.refreshIndex c (j + 1), refreshCount := x.refreshCount + 1 }

/-- Before the first datum pulse the refreshes of a channel follow each other through windows that begin at reset; a window
whose refreshes have all issued gives way to the next, which takes the period asked for (text under R338; log 117). -/
def Stack.freeRefresh (x : Stack) (c : Nat) : Stack :=
  let j := mget 0 x.refreshIndex c
  if j < 327680 then x.refreshOn c j else { (x.refreshOn c 0) with fastRefresh := x.fastNext }

/-- Begin the windows that a meridian asks for: a change of period takes effect at a 32 ms boundary (R336). -/
def Stack.turnWindow (x : Stack) (k m : Nat) : Stack :=
  let w32 := (windowAt false k m).1
  let x1 := if w32 = x.window32 then x
    else { x with window32 := w32, fastRefresh := x.fastNext, refreshWindow := 0, refreshIndex := [] }
  let w := (windowAt x1.fastRefresh k m).1
  if w = x1.refreshWindow then x1 else { x1 with refreshWindow := w, refreshIndex := [] }

/-- REFRESH: the next refresh of a channel issues once its easement slot has come (R333 to R336). Before the first datum pulse
the controller keeps its own windows. -/
def execRefresh (stack : StackNo) (c : Fin 32) (s : State) : Res :=
  let m := s.clock.meridian.toNat
  let x := (s.stack stack.val).turnWindow stack.val m
  let j := mget 0 x.refreshIndex c.val
  let elapsed := (windowAt x.fastRefresh stack.val m).2
  if ¬ s.clock.meridianRuns then .next (s.modStack stack.val (fun y => y.freeRefresh c.val))
  else if j < 327680 ∧ refreshSlot x.fastRefresh c.val j * 4 ≤ elapsed then
    .next (s.setStack stack.val (x.refreshOn c.val j))
  else .next s

/-- PHY_TRACKING: one tracking sequence per channel and millisecond (Table 09.4). -/
def execPhyTracking (stack : StackNo) (c : Fin 32) (s : State) : Res :=
  let ms := s.clock.meridian.toNat / mtPerMs + 1
  let x := s.stack stack.val
  if mget 0 x.tracking c.val < ms then .next (s.setStack stack.val { x with tracking := mset x.tracking c.val ms })
  else .next s

/-- Bytes of a stack. -/
def stackBytes : Nat := 80 * 2 ^ 30

/-- The scrub moves on; a pass that ends sets the rate of the next (R564). -/
def Stack.scrubOn (x : Stack) (n : Nat) : Stack :=
  let a := x.scrubAddr + n
  if a < stackBytes then { x with scrubAddr := a }
  else
    let fast := if 64 < x.scrubCorrected then true else if x.scrubCorrected = 0 then false else x.scrubFast
    { x with scrubAddr := 0, scrubCorrected := 0, scrubFast := fast }

/-- The patrol scrub lists an uncorrectable codeword and logs it; a full list raises HBM_POISON_FULL and keeps its
entries (R331). -/
def State.listPoison (s : State) (k cw : Nat) : State :=
  let s1 := (s.modStack k (fun x => { x with uncorr := satInc x.uncorr })).event evScrubUncorrectable (srcOf 6 k)
    (leBytes 1 k ++ leBytes 8 cw)
  let p := (s.stack k).poison
  if p.contains cw then s1
  else if p.length < 256 then
    s1.modStack k (fun x => { x with poison := x.poison ++ [cw], poisonFull := decide (p.length + 1 = 256) })
  else s1.event evPoisonFull (srcOf 6 k) (leBytes 1 k)

/-- PATROL_SCRUB: the scrub reads the next burst or codeword; a corrected one is counted and written back, an
uncorrectable one is listed (R331, R338). -/
def execPatrolScrub (stack : StackNo) (e : HbmError) (s : State) : Res :=
  let k := stack.val
  let sa := (s.stack k).scrubAddr
  let n := if s.bandClassW (sa / 2 ^ 30) then 1024 else 64
  let s1 := match e with
    | .none => s.modStack k (fun x => { x with scrubWriteBack := none })
    | .corrected die =>
      (s.corrected k sa die.val).modStack k (fun x =>
        { x with scrubCorrected := x.scrubCorrected + 1, scrubWriteBack := some sa })
    | .uncorrectable w => (s.modStack k (fun x => { x with scrubWriteBack := none })).listPoison k (s.faultWord sa w)
  .next (s1.modStack k (fun x => x.scrubOn n))

/-- STACK_STATUS_READ: the temperature is read; above 85 °C the next 32 ms boundary begins 16 ms windows, below 82 °C it
ends them (R336). -/
def execStackStatusRead (stack : StackNo) (temp : Int) (s : State) : Res :=
  .next (s.modStack stack.val (fun x => { x with
    temp := temp, fastNext := if 85 * 16 < temp then true else if temp < 82 * 16 then false else x.fastNext }))

/-! ### Marks, gates and passes -/

/-- GATED_READ: of the gated reads that wait for a stack, the one with the earliest deadline enters where it is the next request
of all, and the held reads are judged (R365, R367). -/
def execGatedRead (stack : StackNo) (s : State) : Res :=
  match s.firstNet (s.mayEnter stack.val) with
  | some (i, r) =>
    if s.isGateRead r then .next ((s.intake stack.val i r).judgeGates stack.val) else .next (s.judgeGates stack.val)
  | none => .next (s.judgeGates stack.val)

/-- The step number of a mark line before the marks that are still to act (R355). -/
def State.markOf (s : State) (k : Nat) (plan : UpdatePlan) (later : List Mark) (line : Nat) : Nat :=
  match later.find? (fun m => m.line == line) with
  | some m => m.before.toNat
  | none => s.stackField k (plan.markBase + 64 * line) 8

/-- Every mark line of an entry holds a step, leaving aside the marks that are still to act (R355). -/
def State.allMarked (s : State) (k : Nat) (plan : UpdatePlan) (e : PlanEntry) (t : Nat) (later : List Mark) : Bool :=
  (List.range (planBuckets e)).all (fun b => s.markOf k plan later (e.markFirst + b) == t)

/-- The entry whose mark lines hold a line. -/
def markEntry (plan : UpdatePlan) (line : Nat) : Option (Nat × PlanEntry) :=
  (plan.entries.zipIdx.find? (fun x => decide (x.1.markFirst ≤ line) && decide (line < x.1.markFirst + planBuckets x.1))).map
    (fun x => (x.2, x.1))

/-- A mark above a change's effective step waits until the plan has been replaced (R377). -/
def State.markWaits (s : State) (v : DWord) : Bool :=
  match s.domain.change with
  | some c => !c.transferred && decide (c.tE.toNat ≤ v.toNat)
  | none => false

/-- A mark acts on its entry (R355, R356, R374). -/
def State.actMark (s : State) (k : Nat) (plan : UpdatePlan) (m : Mark) (later : List Mark) : State :=
  match markEntry plan m.line with
  | none => s
  | some (i, e) =>
    let st := (s.stack k).entry plan i
    if m.value.toNat < st.t ∨ (m.value.toNat = st.t ∧ st.running) then
      s.modStack k (fun x => { x with marksIgnored := satInc x.marksIgnored })
    else if st.t < m.value.toNat then
      s.raiseHw hwStepSkew (srcOf 7 k) m.value (BitVec.ofNat 64 (k + 2 ^ 16 * i + 2 ^ 32 * m.line)) []
    else if s.allMarked k plan e st.t later then
      let deadline := if e.needOffset = 0xFFFFFFFF then none else m.deadline.map (fun d => d + e.needOffset.setWidth 64)
      let st' : EntryState := { st with running := true, deadline := deadline }
      s.modStack k (fun x => { x with entries := mset x.entries i st' })
    else s

/-- MARK_WRITE: the oldest mark that reached the engine acts; outside a run nothing starts (R354, R376). -/
def execMarkWrite (stack : StackNo) (s : State) : Res :=
  match (s.stack stack.val).marks, (s.stack stack.val).plan with
  | m :: rest, some plan =>
    if s.markWaits m.value then .next s
    else
      let s1 := s.modStack stack.val (fun x => { x with marks := rest })
      if s.runActive then .next (s1.actMark stack.val plan m rest) else .next s1
  | _, _ => .next s

/-- The stack addresses that a pass of an entry reads (R350, R352, R361, R364): its slots and, in a step above 0, its
gradient buckets and its scalar line. -/
def updateReads (e : PlanEntry) (t : Nat) : List (Nat × Nat) :=
  let z := max 1 e.bucketElems
  e.slots.map (fun x => (x.base, slotLen x.grain e.elemCount)) ++
  (if t = 0 then []
   else (e.scalarBase + t % max 1 e.scalarLines * 64, 64) ::
     (List.range (planBuckets e)).map (fun b =>
       (e.gradBase + b * planBucketStride e, planBucketBytes e (min z (e.elemCount - b * z)))))

/-- A listed codeword that a pass of an entry reads (R330, R331). -/
def State.passPoison (s : State) (k : Nat) (e : PlanEntry) (t : Nat) : Option Nat :=
  (s.stack k).poison.find? (fun cw => (updateReads e t).any (fun r =>
    decide (cw < r.1 + r.2) && decide (r.1 < cw + s.codewordSize cw)))

/-- UPDATE_PASS_COMPLETE: a running entry's pass completes, and the gated reads it satisfies return (R363, R365). -/
def execUpdatePassComplete (stack : StackNo) (i : Nat) (s : State) : Res :=
  let k := stack.val
  match (s.stack k).plan with
  | none => .next s
  | some plan =>
    match plan.entries[i]? with
    | none => .next s
    | some e =>
      let st := (s.stack k).entry plan i
      if st.running then
        match s.passPoison k e st.t with
        | some cw => .next (s.raiseHbm k cw)
        | none => .next ((s.completePass k i).judgeGates k)
      else .next s

/-- FINGERPRINT_RECORD: the oldest record of a stack reaches the management processor (R372). -/
def execFingerprintRecord (stack : StackNo) (s : State) : Res :=
  match (s.stack stack.val).fingerprints with
  | [] => .next s
  | f :: rest =>
    .next (({ s with mem := { s.mem with records := s.mem.records ++ [f] } }).modStack stack.val
      (fun x => { x with fingerprints := rest }))

/-! ### Die-to-die links (R25, R26) -/

/-- SCHEDULE_FLIT_ERROR: the hardware fault D2D_SCHEDULE_ERROR names the link and its direction (R25). DESIGN CHOICE (log entry 111): the
record's OFFENDING field holds the link and its DETAIL field the direction, since the spec gives this fault no field rule. -/
def execScheduleFlitError (link : LinkDir) (s : State) : Res :=
  .next (s.raiseHw hwD2d (srcOf 1 0) (BitVec.ofNat 64 (link.val / 2)) (BitVec.ofNat 64 (link.val % 2)) [])

/-- D2D_MEMORY_RETRY: a retry is counted. -/
def execD2dMemoryRetry (link : LinkDir) (s : State) : Res :=
  .next { s with mem := { s.mem with retries := mset s.mem.retries link.val (satInc (mget 0 s.mem.retries link.val)) } }

end Sys2Proof.Machine
end

