-- ==== Sys2Proof/Decode.lean ====
section
/-! DEFINITION. The Berno packet (R513, Table 15.5) and the command that it carries (Tables 15.9 to 15.16), read and written, and
the reading of a table word (the table of operations and events gives no row any bits). -/

namespace Sys2Proof

open Machine

/-- The table gives no row any bits: no word spells a command. -/
def decodeTableWord (_nbits _w : Nat) : Option Instr := none

/-! ### Fields of a body -/

/-- A byte field. -/
def byteAt (bs : Bytes) (o : Nat) : Byte := BitVec.ofNat 8 (fieldAt bs o 1)
/-- A 2-byte field. -/
def halfAt (bs : Bytes) (o : Nat) : BitVec 16 := BitVec.ofNat 16 (fieldAt bs o 2)
/-- A 4-byte field. -/
def wordAt (bs : Bytes) (o : Nat) : Word := BitVec.ofNat 32 (fieldAt bs o 4)
/-- An 8-byte field. -/
def dwordAt (bs : Bytes) (o : Nat) : DWord := BitVec.ofNat 64 (fieldAt bs o 8)
/-- A tile mask of 16 bytes. -/
def maskAt (bs : Bytes) (o : Nat) : BitVec 128 := BitVec.ofNat 128 (fieldAt bs o 16)
/-- A key of 32 bytes. -/
def keyAt (bs : Bytes) (o : Nat) : Key := BitVec.ofNat 256 (fieldAt bs o 32)
/-- A signature of 64 bytes. -/
def signatureAt (bs : Bytes) (o : Nat) : Signature := BitVec.ofNat 512 (fieldAt bs o 64)
/-- A digest of 64 bytes, its first byte the most significant. -/
def digestAt (bs : Bytes) (o : Nat) : Digest := BitVec.ofNat 512 (beNat (slice bs o 64))

/-- A byte as a field. -/
def le1 (b : Byte) : Bytes := leBytes 1 b.toNat
/-- A 2-byte field. -/
def le2 (v : BitVec 16) : Bytes := leBytes 2 v.toNat
/-- A 4-byte field. -/
def le4 (v : Word) : Bytes := leBytes 4 v.toNat
/-- An 8-byte field. -/
def le8 (v : DWord) : Bytes := leBytes 8 v.toNat

/-! ### Bodies with several fields -/

/-- Body of SESSION_OPEN and SESSION_TAKE (R524). -/
def openBody (bs : Bytes) : OpenBody :=
  { versionMin := halfAt bs 0, versionMax := halfAt bs 2, kind := byteAt bs 4, eventVector := byteAt bs 5,
    coalesce := halfAt bs 6, hostTag := dwordAt bs 8 }

/-- Its bytes. -/
def openBytes (b : OpenBody) : Bytes :=
  le2 b.versionMin ++ le2 b.versionMax ++ le1 b.kind ++ le1 b.eventVector ++ le2 b.coalesce ++ le8 b.hostTag

/-- Body of LOAD_IMAGE and VERIFY_IMAGE (Table 15.10). -/
def loadBody (bs : Bytes) : LoadBody :=
  { handle := byteAt bs 0, imageAddr := dwordAt bs 8, placeBase := dwordAt bs 16, placeLimit := dwordAt bs 24 }

/-- Its bytes. -/
def loadBytes (b : LoadBody) : Bytes :=
  le1 b.handle ++ zeros 7 ++ le8 b.imageAddr ++ le8 b.placeBase ++ le8 b.placeLimit

/-- Body of DMA_START (Table 15.11). -/
def dmaBody (bs : Bytes) : DmaBody :=
  { channel := byteAt bs 0, dir := byteAt bs 1, options := halfAt bs 2, hostAddr := dwordAt bs 8, hbmAddr := dwordAt bs 16,
    length := dwordAt bs 24, needBy := dwordAt bs 32 }

/-- Its bytes. -/
def dmaBytes (b : DmaBody) : Bytes :=
  le1 b.channel ++ le1 b.dir ++ le2 b.options ++ zeros 4 ++ le8 b.hostAddr ++ le8 b.hbmAddr ++ le8 b.length ++ le8 b.needBy

/-- The (MODE, CLASS) pairs of MEMORY_LAYOUT. -/
def bandPairs (bs : Bytes) : Nat → List (Byte × Byte)
  | 0 => []
  | n + 1 => (byteAt bs 0, byteAt bs 1) :: bandPairs (bs.drop 2) n

/-- Their bytes. -/
def bandBytes (ps : List (Byte × Byte)) : Bytes := ps.flatMap (fun p => le1 p.1 ++ le1 p.2)

/-- Body of RUN before the patch list (Table 15.13). -/
def runBody (bs : Bytes) : RunBody :=
  { flags := halfAt bs 0, hangExp := byteAt bs 3, jobTag := halfAt bs 4, jobSeed := dwordAt bs 8, firstStep := wordAt bs 16,
    stepLimit := wordAt bs 20 }

/-- An entry of the patch list (Table 06.7). -/
def patchEntry (bs : Bytes) : PatchEntry :=
  { value := dwordAt bs 0, reg := byteAt bs 8, select := byteAt bs 9, target := halfAt bs 10 }

/-- The entries of a patch list. -/
def patchList (bs : Bytes) : Nat → List PatchEntry
  | 0 => []
  | n + 1 => patchEntry bs :: patchList (bs.drop 16) n

/-- Bytes of an entry. -/
def patchBytes (p : PatchEntry) : Bytes := le8 p.value ++ le1 p.reg ++ le1 p.select ++ le2 p.target ++ zeros 4

/-- Bytes of a RUN body with its patch list. -/
def runBytes (b : RunBody) (ps : List PatchEntry) : Bytes :=
  le2 b.flags ++ leBytes 1 ps.length ++ le1 b.hangExp ++ le2 b.jobTag ++ zeros 2 ++ le8 b.jobSeed ++ le4 b.firstStep ++
  le4 b.stepLimit ++ ps.flatMap patchBytes

/-- Body of SET_DOMAIN (Table 15.14). -/
def domainBody (bs : Bytes) : DomainBody :=
  { version := byteAt bs 0, paths := byteAt bs 1, witnessId := wordAt bs 4, witnessKey := keyAt bs 8 }

/-- Its bytes. -/
def domainBytes (b : DomainBody) : Bytes :=
  le1 b.version ++ le1 b.paths ++ zeros 2 ++ le4 b.witnessId ++ keyBytes b.witnessKey

/-- Body of ANNOUNCE_MEMBERSHIP without its KIND (Table 15.14). -/
def announceBody (bs : Bytes) : AnnounceBody :=
  { memberEpoch := wordAt bs 4, tE := wordAt bs 8, tableAddr := dwordAt bs 16 }

/-- Its bytes, with KIND. -/
def announceBytes (kind : Nat) (b : AnnounceBody) : Bytes :=
  leBytes 1 kind ++ zeros 3 ++ le4 b.memberEpoch ++ le4 b.tE ++ zeros 4 ++ le8 b.tableAddr

/-- A LEASE_REPLY (Table 13.4). -/
def leaseReplyOf (bs : Bytes) : LeaseReplyMsg :=
  { pairId := wordAt bs 0, holder := wordAt bs 4, epoch := wordAt bs 8, result := byteAt bs 12, notBefore := dwordAt bs 13,
    nonce := dwordAt bs 21, signature := signatureAt bs 29 }

/-- Its bytes. -/
def leaseReplyBytes (r : LeaseReplyMsg) : Bytes :=
  le4 r.pairId ++ le4 r.holder ++ le4 r.epoch ++ le1 r.result ++ le8 r.notBefore ++ le8 r.nonce ++ signatureBytes r.signature

/-- An SPDM request (Table 18.5; DSP0274, log entry 5). -/
def spdmRequestOf (bs : Bytes) : SpdmRequest :=
  match fieldAt bs 1 1 with
  | 0x84 => .getVersion
  | 0xE1 => .getCapabilities
  | 0xE3 => .negotiateAlgorithms
  | 0x81 => .getDigests
  | 0x82 => .getCertificate (byteAt bs 2) (halfAt bs 4) (halfAt bs 6)
  | 0x83 => .challenge (byteAt bs 2) (keyAt bs 4)
  | 0xE0 => .getMeasurements (byteAt bs 3) ((byteAt bs 2).getLsbD 0) (keyAt bs 4)
  | _ => .other (byteAt bs 1)

/-- Bytes of a request; what the meaning does not read is 0. -/
def spdmBytes : SpdmRequest → Bytes
  | .getVersion => [0x10, 0x84, 0, 0]
  | .getCapabilities => [0x13, 0xE1, 0, 0]
  | .negotiateAlgorithms => [0x13, 0xE3, 0, 0]
  | .getDigests => [0x13, 0x81, 0, 0]
  | .getCertificate slot o n => [0x13, 0x82] ++ le1 slot ++ zeros 1 ++ le2 o ++ le2 n
  | .challenge slot nonce => [0x13, 0x83] ++ le1 slot ++ zeros 1 ++ keyBytes nonce
  | .getMeasurements i signed nonce => [0x13, 0xE0] ++ [if signed then 1 else 0] ++ le1 i ++ keyBytes nonce
  | .other code => [0x13] ++ le1 code ++ zeros 2

/-! ### The command of a body -/

/-- What a packet's opcode and body spell. -/
inductive Decoded where
  | command (i : Instr)
  | badOpcode
  | badLength
  /-- A code inside the body that names no row of the table: its offset and value. -/
  | badValue (field value : Nat)
  deriving DecidableEq, Repr

/-- A command whose body has a fixed length. -/
def sized (bs : Bytes) (n : Nat) (i : Instr) : Decoded := if bs.length = n then .command i else .badLength

/-- The object of a code (Table 15.16). -/
def syncObjectOf (n : Nat) : Option SyncObject :=
  match n with
  | 0 => some .tile
  | 1 => some .semaphore
  | 2 => some .barrier
  | 3 => some .watch
  | 4 => some .recvEndpoint
  | 5 => some .sendEndpoint
  | _ => none

/-- Code of an object. -/
def syncObjectCode : SyncObject → Nat
  | .tile => 0
  | .semaphore => 1
  | .barrier => 2
  | .watch => 3
  | .recvEndpoint => 4
  | .sendEndpoint => 5

/-- READ_SYNC. -/
def readSyncOf (h : Hdr) (bs : Bytes) : Decoded :=
  match syncObjectOf (fieldAt bs 0 1) with
  | some o => .command (.readSync h o (halfAt bs 2) (halfAt bs 4))
  | none => .badValue 0 (fieldAt bs 0 1)

/-- WRITE_SYNC: the row of an object and an ACTION code (Table 08.8). -/
def writeSyncOf (h : Hdr) (bs : Bytes) : Decoded :=
  let t := halfAt bs 2
  let n := halfAt bs 4
  let v := wordAt bs 10
  match syncObjectOf (fieldAt bs 0 1), fieldAt bs 6 1 with
  | some .tile, 0 => .command (.syncHaltTile h t v)
  | some .tile, 1 => .command (.syncResumeTile h t v)
  | some .semaphore, 0 => .command (.syncSetCount h t n v)
  | some .barrier, 0 => .command (.syncAddArrivals h t n v)
  | some .barrier, 1 => .command (.syncReleaseRound h t n v)
  | some .watch, 0 => .command (.syncFireWatch h t n v)
  | some .watch, 1 => .command (.syncDisarmWatch h t n v)
  | some .recvEndpoint, 0 => .command (.syncResetEndpoint h t n v)
  | some _, a => .badValue 6 a
  | none, _ => .badValue 0 (fieldAt bs 0 1)

/-- Bytes of a WRITE_SYNC. -/
def writeSyncBytes (object action : Nat) (tile number : BitVec 16) (value : Word) : Bytes :=
  leBytes 1 object ++ zeros 1 ++ le2 tile ++ le2 number ++ leBytes 1 action ++ zeros 3 ++ le4 value

/-- ANNOUNCE_MEMBERSHIP, by its KIND. -/
def announceOf (h : Hdr) (bs : Bytes) : Decoded :=
  match fieldAt bs 0 1 with
  | 0 => .command (.announceInitialMembership h (announceBody bs))
  | 1 => .command (.announcePlannedChange h (announceBody bs))
  | 2 => .command (.announceForcedChange h (announceBody bs))
  | k => .badValue 0 k

/-- A body whose length depends on a count in it. -/
def counted (ok : Bool) (i : Instr) : Decoded := if ok then .command i else .badLength

/-- What a body is checked to before its codes are looked at. -/
def sizedThen (bs : Bytes) (n : Nat) (d : Decoded) : Decoded := if bs.length = n then d else .badLength

/-- Groups 0x00 to 0x03 (Tables 15.9 to 15.13). `body` is what the loader's private decoder reads of a container. -/
def decodeLow (h : Hdr) (op : Nat) (bs : Bytes) (body : Option ImageBody) : Decoded :=
  match op with
  | 0x0001 => sized bs 16 (.sessionOpen h (openBody bs))
  | 0x0002 => sized bs 0 (.sessionClose h)
  | 0x0003 => sized bs 0 (.nop h)
  | 0x0004 => sized bs 0 (.identify h)
  | 0x0005 => sized bs 16 (.sessionTake h (openBody bs))
  | 0x0101 => sized bs 32 (.loadImage h (loadBody bs) body)
  | 0x0102 => sized bs 32 (.verifyImage h (loadBody bs) body)
  | 0x0103 => sized bs 1 (.unloadImage h (byteAt bs 0))
  | 0x0104 => sized bs 0 (.listImages h)
  | 0x0201 => sized bs 40 (.dmaStart h (dmaBody bs))
  | 0x0202 => sized bs 1 (.dmaAbort h (byteAt bs 0))
  | 0x0203 => sized bs 1 (.dmaStatus h (byteAt bs 0))
  | 0x0204 => sized bs 8 (.apertureMove h (dwordAt bs 0))
  | 0x0205 =>
    let n := fieldAt bs 1 1
    counted (decide (bs.length = 2 + 2 * n)) (.memoryLayout h (byteAt bs 0) (byteAt bs 1) (bandPairs (bs.drop 2) n))
  | 0x0301 =>
    let n := fieldAt bs 2 1
    counted (decide (bs.length = 24 + 16 * n)) (.run h (runBody bs) (patchList (bs.drop 24) n))
  | 0x0302 => sized bs 0 (.stop h)
  | 0x0303 => sized bs 20 (.step h (maskAt bs 0) (wordAt bs 16))
  | 0x0304 => sized bs 4 (.jobConfig h (byteAt bs 0) (byteAt bs 1) (byteAt bs 2))
  | 0x0305 => sized bs 0 (.runStatus h)
  | _ => .badOpcode

/-- Groups 0x04 to 0x06 (Tables 15.14 and 15.15). `cal` is what a CALIBRATE measures. -/
def decodeMid (h : Hdr) (op : Nat) (bs : Bytes) (cal : CalResult) : Decoded :=
  match op with
  | 0x0401 => sized bs 4 (.setModuleId h (wordAt bs 0))
  | 0x0402 => sized bs 40 (.setDomain h (domainBody bs))
  | 0x0403 => sized bs 1 (.setPairMode h (byteAt bs 0))
  | 0x0404 => sizedThen bs 24 (announceOf h bs)
  | 0x0405 => sized bs 4 (.withdrawChange h (wordAt bs 0))
  | 0x0406 => sized bs 93 (.leaseDeliver h (leaseReplyOf bs))
  | 0x0407 => sized bs 1 (.portReset h (byteAt bs 0))
  | 0x0408 => sized bs 0 (.quarantineClear h)
  | 0x0409 => sized bs 0 (.linkStatus h)
  | 0x0501 => sized bs 4 (.calibrate h (wordAt bs 0) cal)
  | 0x0502 => sized bs 4 (.calExport h (wordAt bs 0))
  | 0x0503 =>
    counted (decide (8 ≤ bs.length ∧ bs.length ≤ 4040)) (.calImport h (wordAt bs 0) (wordAt bs 4) (bs.drop 8))
  | 0x0504 => sized bs 8 (.powerPolicy h (byteAt bs 0) (byteAt bs 1) (wordAt bs 4))
  | 0x0601 => counted (decide (4 ≤ bs.length)) (.spdm h (spdmRequestOf bs))
  | 0x0602 => sized bs 36 (.enrolBuildKey h (byteAt bs 0) (keyAt bs 4))
  | 0x0603 => sized bs 1 (.revokeBuildKey h (byteAt bs 0))
  | 0x0604 => sized bs 1 (.signingEnforce h (byteAt bs 0))
  | 0x0605 => counted (decide (4 ≤ bs.length ∧ bs.length ≤ 4052)) (.fwWrite h (wordAt bs 0) (bs.drop 4))
  | 0x0606 => sized bs 64 (.fwActivate h (digestAt bs 0))
  | _ => .badOpcode

/-- Groups 0x07 and 0x08 (Table 15.16). -/
def decodeHigh (h : Hdr) (op : Nat) (bs : Bytes) : Decoded :=
  match op with
  | 0x0701 => sized bs 16 (.haltTiles h (maskAt bs 0))
  | 0x0702 => sized bs 16 (.resumeTiles h (maskAt bs 0))
  | 0x0703 => sizedThen bs 6 (readSyncOf h bs)
  | 0x0704 => sizedThen bs 14 (writeSyncOf h bs)
  | 0x0705 => sized bs 4 (.readTileState h (halfAt bs 0) (byteAt bs 2) (byteAt bs 3))
  | 0x0801 => sized bs 8 (.readTelemetry h (halfAt bs 0) (wordAt bs 4))
  | 0x0802 => sized bs 8 (.readRecord h (wordAt bs 0) (wordAt bs 4))
  | 0x0803 => sized bs 20 (.readEventLog h (dwordAt bs 0) (dwordAt bs 8) (wordAt bs 16))
  | 0x0804 => sized bs 4 (.readFaults h (wordAt bs 0))
  | 0x0805 => sized bs 4 (.readRoutines h (wordAt bs 0))
  | 0x0806 => sized bs 2 (.readCheckHist h (halfAt bs 0))
  | 0x0807 => sized bs 2 (.readFlags h (halfAt bs 0))
  | 0x0808 => sized bs 8 (.subscribe h (dwordAt bs 0))
  | _ => .badOpcode

/-- The command of an opcode and a body, or what is wrong with them (R520, checks 4 and 5). -/
def decodeBody (h : Hdr) (op : BitVec 16) (bs : Bytes) (body : Option ImageBody) (cal : CalResult) : Decoded :=
  if op.toNat < 0x0400 then decodeLow h op.toNat bs body
  else if op.toNat < 0x0700 then decodeMid h op.toNat bs cal
  else decodeHigh h op.toNat bs

/-- Header, opcode and body of a command of groups 0x00 to 0x03. -/
def encodeLow : Instr → Option (Hdr × Nat × Bytes)
  | .sessionOpen h b => some (h, 0x0001, openBytes b)
  | .sessionClose h => some (h, 0x0002, [])
  | .nop h => some (h, 0x0003, [])
  | .identify h => some (h, 0x0004, [])
  | .sessionTake h b => some (h, 0x0005, openBytes b)
  | .loadImage h b _ => some (h, 0x0101, loadBytes b)
  | .verifyImage h b _ => some (h, 0x0102, loadBytes b)
  | .unloadImage h n => some (h, 0x0103, le1 n)
  | .listImages h => some (h, 0x0104, [])
  | .dmaStart h b => some (h, 0x0201, dmaBytes b)
  | .dmaAbort h c => some (h, 0x0202, le1 c)
  | .dmaStatus h c => some (h, 0x0203, le1 c)
  | .apertureMove h b => some (h, 0x0204, le8 b)
  | .memoryLayout h f n ps => some (h, 0x0205, le1 f ++ le1 n ++ bandBytes ps)
  | .run h b ps => some (h, 0x0301, runBytes b ps)
  | .stop h => some (h, 0x0302, [])
  | .step h m n => some (h, 0x0303, leBytes 16 m.toNat ++ le4 n)
  | .jobConfig h a b c => some (h, 0x0304, le1 a ++ le1 b ++ le1 c ++ zeros 1)
  | .runStatus h => some (h, 0x0305, [])
  | _ => none

/-- Header, opcode and body of a command of groups 0x04 to 0x06. -/
def encodeMid : Instr → Option (Hdr × Nat × Bytes)
  | .setModuleId h v => some (h, 0x0401, le4 v)
  | .setDomain h b => some (h, 0x0402, domainBytes b)
  | .setPairMode h m => some (h, 0x0403, le1 m)
  | .announceInitialMembership h b => some (h, 0x0404, announceBytes 0 b)
  | .announcePlannedChange h b => some (h, 0x0404, announceBytes 1 b)
  | .announceForcedChange h b => some (h, 0x0404, announceBytes 2 b)
  | .withdrawChange h e => some (h, 0x0405, le4 e)
  | .leaseDeliver h r => some (h, 0x0406, leaseReplyBytes r)
  | .portReset h p => some (h, 0x0407, le1 p)
  | .quarantineClear h => some (h, 0x0408, [])
  | .linkStatus h => some (h, 0x0409, [])
  | .calibrate h v _ => some (h, 0x0501, le4 v)
  | .calExport h o => some (h, 0x0502, le4 o)
  | .calImport h o t c => some (h, 0x0503, le4 o ++ le4 t ++ c)
  | .powerPolicy h a b l => some (h, 0x0504, le1 a ++ le1 b ++ zeros 2 ++ le4 l)
  | .spdm h r => some (h, 0x0601, spdmBytes r)
  | .enrolBuildKey h i k => some (h, 0x0602, le1 i ++ zeros 3 ++ keyBytes k)
  | .revokeBuildKey h i => some (h, 0x0603, le1 i)
  | .signingEnforce h v => some (h, 0x0604, le1 v)
  | .fwWrite h o c => some (h, 0x0605, le4 o ++ c)
  | .fwActivate h d => some (h, 0x0606, digestBytes d)
  | _ => none

/-- Header, opcode and body of a command of groups 0x07 and 0x08. -/
def encodeHigh : Instr → Option (Hdr × Nat × Bytes)
  | .haltTiles h m => some (h, 0x0701, leBytes 16 m.toNat)
  | .resumeTiles h m => some (h, 0x0702, leBytes 16 m.toNat)
  | .readSync h o t n => some (h, 0x0703, leBytes 1 (syncObjectCode o) ++ zeros 1 ++ le2 t ++ le2 n)
  | .syncHaltTile h t v => some (h, 0x0704, writeSyncBytes 0 0 t 0 v)
  | .syncResumeTile h t v => some (h, 0x0704, writeSyncBytes 0 1 t 0 v)
  | .syncSetCount h t n v => some (h, 0x0704, writeSyncBytes 1 0 t n v)
  | .syncAddArrivals h t n v => some (h, 0x0704, writeSyncBytes 2 0 t n v)
  | .syncReleaseRound h t n v => some (h, 0x0704, writeSyncBytes 2 1 t n v)
  | .syncFireWatch h t n v => some (h, 0x0704, writeSyncBytes 3 0 t n v)
  | .syncDisarmWatch h t n v => some (h, 0x0704, writeSyncBytes 3 1 t n v)
  | .syncResetEndpoint h t n v => some (h, 0x0704, writeSyncBytes 4 0 t n v)
  | .readTileState h t a b => some (h, 0x0705, le2 t ++ le1 a ++ le1 b)
  | .readTelemetry h b o => some (h, 0x0801, le2 b ++ zeros 2 ++ le4 o)
  | .readRecord h r o => some (h, 0x0802, le4 r ++ le4 o)
  | .readEventLog h a b o => some (h, 0x0803, le8 a ++ le8 b ++ le4 o)
  | .readFaults h o => some (h, 0x0804, le4 o)
  | .readRoutines h o => some (h, 0x0805, le4 o)
  | .readCheckHist h t => some (h, 0x0806, le2 t)
  | .readFlags h t => some (h, 0x0807, le2 t)
  | .subscribe h m => some (h, 0x0808, le8 m)
  | _ => none

/-- Header, opcode and body of a command that a packet carries; none for any other row of the table. -/
def encodeBody (i : Instr) : Option (Hdr × Nat × Bytes) :=
  match encodeLow i with
  | some x => some x
  | none =>
    match encodeMid i with
    | some x => some x
    | none => encodeHigh i

/-! ### The packet (R513) -/

/-- A packet as firmware reads it. -/
structure Berno where
  hdr : Hdr
  opcode : BitVec 16
  body : Bytes
  /-- The trailer's SEQ. -/
  trailer : Word
  /-- The trailer's CRC is that of the bytes before it. -/
  crcGood : Bool
  deriving DecidableEq, Repr

/-- Size of a packet, from the LENGTH of its header. -/
def sizeOfLength (len : Nat) : Nat := 64 * ceilDiv (len + 40) 64

/-- Size of the packet that begins a list of bytes. -/
def packetLength (bs : Bytes) : Nat := sizeOfLength (fieldAt bs 8 2)

/-- The header of a packet (Table 15.5). -/
def headerAt (p : Path) (bs : Bytes) : Hdr :=
  let flags := fieldAt bs 10 2
  { path := p, major := byteAt bs 0, minor := byteAt bs 1, seq := wordAt bs 4, vector := BitVec.ofNat 4 flags,
    noReply := flags.testBit 4, jobId := halfAt bs 12, ringIndex := wordAt bs 16, session := wordAt bs 24 }

/-- Read the packet that begins a list of bytes. -/
def readPacket (p : Path) (bs : Bytes) : Berno :=
  let n := packetLength bs
  { hdr := headerAt p bs, opcode := halfAt bs 2, body := slice bs 32 (fieldAt bs 8 2), trailer := wordAt bs (n - 8),
    crcGood := wordAt bs (n - 4) == crc32c (slice bs 0 (n - 4)) }

/-- The 32 bytes of a command's header. -/
def headerBytes (h : Hdr) (op len : Nat) : Bytes :=
  le1 h.major ++ le1 h.minor ++ leBytes 2 op ++ le4 h.seq ++ leBytes 2 len ++
  leBytes 2 (h.vector.toNat + (if h.noReply then 16 else 0)) ++ le2 h.jobId ++ zeros 2 ++ le4 h.ringIndex ++ zeros 4 ++
  le4 h.session ++ zeros 4

/-- The bytes of a command's packet. -/
def packetBytesOf (h : Hdr) (op : Nat) (body : Bytes) : Bytes :=
  let front := padTo (sizeOfLength body.length - 8) (headerBytes h op body.length ++ body) ++ le4 h.seq
  front ++ le4 (crc32c front)

/-- The command that a packet spells on a path, none where it is no well-formed packet of a command of the table. -/
def decode (p : Path) (bs : Bytes) (body : Option ImageBody) (cal : CalResult) : Option Instr :=
  let x := readPacket p bs
  if x.crcGood = true ∧ x.trailer = x.hdr.seq then
    match decodeBody x.hdr x.opcode x.body body cal with
    | .command i => some i
    | .badOpcode => none
    | .badLength => none
    | .badValue _ _ => none
  else none

/-- The packet of a command, none for a row that no packet carries. -/
def encode (i : Instr) : Option Bytes := (encodeBody i).map (fun x => packetBytesOf x.1 x.2.1 x.2.2)

end Sys2Proof
end

