-- ==== Sys2Proof/Machine/Ports.lean ====
section
/-! DEFINITION. The chain and tie ports (R378 to R408, R450 to R454): bring-up, retry, the checks on a received packet, and
what each packet type does but for MGMT, HEARTBEAT and CLOSURE. -/

namespace Sys2Proof.Machine

/-- Source field of a port's event. -/
def srcPort (p : Nat) : BitVec 16 := if p < 16 then srcOf 8 p else srcOf 9 (p - 16)

/-! ### Bring-up (R390, R391, R407, R408, R452) -/

/-- The transport version of a link: the highest that both ends support and the domain version allows (R390). -/
def settleVersion (versions : Byte) (domain : BitVec 4) : BitVec 4 :=
  if domain = 2 ∧ versions.getLsbD 2 then 2 else if versions.getLsbD 1 then 1 else 0

/-- Both IDs of a tie link are assigned and do not differ by XOR 1, or an end is no CY2 with version 1 (R452). -/
def State.tieWrong (s : State) (c : Capability) : Bool :=
  match s.domain.moduleId with
  | some m => c.moduleId != 0xFFFFF && c.moduleId.toNat != m.toNat ^^^ 1
  | none => false

/-- Settle the version of a port from its partner's capability words; a chain link below the domain version raises
CHAIN_VERSION_LOW, a tie link that is wired wrong raises TIE_MISWIRED. -/
def State.settlePort (s : State) (p : Nat) : State :=
  match (s.port p).partner with
  | none => s
  | some c =>
    if p < 16 then
      let v := settleVersion c.versions s.domain.version
      let s1 := s.modPort p (fun x => { x with version := v })
      if v = s.domain.version then s1
      else s1.event evVersionLow (srcPort p) (leBytes 1 p ++ leBytes 1 v.toNat)
    else
      let bad := s.tieWrong c
      let s1 := s.modPort p (fun x => { x with version := if c.versions.getLsbD 1 then 1 else 0, miswired := bad })
      if bad then s1.event evTieMiswired (srcPort p) (leBytes 1 p ++ leBytes 4 c.moduleId.toNat) else s1

/-- The state of a port on lanes. -/
def Port.onLanes (x : Port) (m : LaneMode) : Port :=
  match m with
  | .eight => { x with state := .eightLanes, upperHalf := false }
  | .fourLow => { x with state := .fourLanes, upperHalf := false }
  | .fourHigh => { x with state := .fourLanes, upperHalf := true }

/-- Lanes that a port may come up on: none of a half that holds a failed lane (R407, R408). -/
def Port.mayUse (x : Port) (m : LaneMode) : Bool :=
  match m with
  | .eight => x.failed == 0
  | .fourLow => !x.failed.getLsbD 0
  | .fourHigh => !x.failed.getLsbD 1

/-- The packets still unacknowledged are sent again when a link is back (R408). -/
def Port.resendAll (x : Port) : Port :=
  { x with unacked := x.unacked.map (fun e => (e.1, 1)), retries := satAdd x.retries x.unacked.length }

/-- LINK_BRINGUP (R390, R452): a port that is down or training comes up on lanes, with its partner's words. -/
def execLinkBringup (port : PortNo) (m : LaneMode) (c : Capability) (s : State) : Res :=
  let x := s.port port.val
  if x.up = false ∧ x.mayUse m ∧ s.power.portDies ∧ s.power.inReset = false then
    let s1 := s.setPort port.val { ((x.onLanes m).resendAll) with partner := some c }
    .next ((s1.settlePort port.val).pumpPort port.val)
  else .next s

/-- Event of a degraded port. -/
def evDegraded (p : Nat) : Event := if p < 16 then evChainDegraded else evTieDegraded
/-- Event of a port that is down. -/
def evDown (p : Nat) : Event := if p < 16 then evChainDown else evTiePortDown

/-- A port that is down; with the last tie port the tie link is down (R453, R463). -/
def State.portDown (s : State) (p : Nat) : State :=
  let s1 := (s.modPort p (fun x => { x with state := .down })).event (evDown p) (srcPort p) (leBytes 1 p)
  if 16 ≤ p then s1.skipClosures else s1

/-- Halves that a failure names. -/
def failedHalves : LaneFailure → BitVec 2
  | .lowHalf => 1
  | .highHalf => 2
  | .bothHalves => 3

/-- LINK_DOWN (R407): failed lanes in one half retrain the port on the other half; in both, it stays down. -/
def execLinkDown (port : PortNo) (f : LaneFailure) (s : State) : Res :=
  let x := s.port port.val
  if x.up then
    let fail := x.failed ||| failedHalves f
    let s1 := s.setPort port.val { x with failed := fail }
    if fail = 3 then .next (s1.portDown port.val)
    else
      let y := (({ x with failed := fail }).onLanes (if fail = 1 then .fourHigh else .fourLow)).resendAll
      .next (((s1.setPort port.val y).event (evDegraded port.val) (srcPort port.val) (leBytes 1 port.val)).pumpPort port.val)
  else .next s

/-- LINK_RETRAIN_TIMER (R407): a port that is down tries training again; `ok` are the lanes it comes up on. -/
def execLinkRetrainTimer (port : PortNo) (ok : Option LaneMode) (s : State) : Res :=
  let x := s.port port.val
  match x.state, ok with
  | .down, some m =>
    if x.partner.isSome ∧ m ≠ .eight ∨ x.failed = 0 ∧ x.partner.isSome then
      .next (((s.setPort port.val ((x.onLanes m).resendAll)).settlePort port.val).pumpPort port.val)
    else .next s
  | _, _ => .next s

/-! ### Retry (R381 to R383, R386) -/

/-- Send again every unacknowledged packet from place `i` on; a packet sent 16 times takes the link down. -/
def State.resendFrom (s : State) (p i : Nat) : State :=
  let x := s.port p
  let again := x.unacked.zipIdx.map (fun (e : (Packet × Nat) × Nat) => if i ≤ e.2 then (e.1.1, e.1.2 + 1) else e.1)
  let s1 := s.setPort p { x with unacked := again, retries := satAdd x.retries (x.unacked.length - i) }
  if again.any (fun e => decide (16 < e.2)) then s1.portDown p else s1

/-- Packets that a cumulative acknowledgement covers: those before its LSEQ. -/
def Port.acked (x : Port) (ack : BitVec 16) : Nat :=
  match x.unacked with
  | [] => 0
  | e :: _ => let n := (ack - e.1.lseq).toNat; if n ≤ x.unacked.length then n else 0

/-- CONTROL_FLIT (R381): the full credit and acknowledgement state, and a negative acknowledgement, if any. -/
def execControlFlit (port : PortNo) (f : ControlFlit) (s : State) : Res :=
  let x := s.port port.val
  if x.up then
    let y := { x with
      unacked := x.unacked.drop (x.acked f.ack), creditC0 := f.c0, creditC1 := f.c1,
      creditC2 := f.c2.zipIdx.map (fun e => (e.2, e.1)) }
    let s1 := s.setPort port.val y
    let s2 := match f.nak with
      | none => s1
      | some l =>
        let i := y.unacked.findIdx (fun (e : Packet × Nat) => e.1.lseq == l)
        if i < y.unacked.length then s1.resendFrom port.val i else s1
    .next (s2.pumpPort port.val)
  else .next s

/-- Flits of the accepted packets of a class that a port's receive buffer still holds; of a virtual channel of C2 in version 1. -/
def Port.heldFlits (x : Port) (cls : Nat) (vc : Option Nat) : Nat :=
  ((x.accepted.filter (fun k => decide (packetClass k.ptype.toNat = cls) && decide (vc.all (· = k.vc)))).map Packet.flits).sum

/-- What a port's next control flit says (R381, R386): the cumulative acknowledgement, a negative one where it is outstanding, and
the credit of the receive buffer: 32 KiB for C0 and for C1, and 960 KiB for C2 or 120 KiB for each of its virtual channels. -/
def Port.controlFlit (x : Port) : ControlFlit :=
  { ack := x.rxSeq, nak := x.nakFor, c0 := 512 - x.heldFlits 0 none, c1 := 512 - x.heldFlits 1 none,
    c2 := if x.version = 2 then [15360 - x.heldFlits 2 none]
      else (List.range 8).map (fun v => 1920 - x.heldFlits 2 (some v)) }

/-- RETRY_TIMEOUT (R383). -/
def execRetryTimeout (port : PortNo) (s : State) : Res :=
  if (s.port port.val).up ∧ (s.port port.val).unacked ≠ [] then .next (s.resendFrom port.val 0) else .next s

/-! ### Reception (R382, R385, R395, R451) -/

/-- Count a discard by type (R385, R451). -/
def State.discardType (s : State) (p : Nat) : State := s.modPort p (fun x => { x with discType := satInc x.discType })
/-- Count a discard by epoch (R395). -/
def State.discardEpoch (s : State) (p : Nat) : State := s.modPort p (fun x => { x with discEpoch := satInc x.discEpoch })
/-- Count a discard by CSEQ (R389). -/
def State.discardCseq (s : State) (p : Nat) : State := s.modPort p (fun x => { x with discCseq := satInc x.discCseq })
/-- Count a discard by job tag (R412). -/
def State.discardJob (s : State) (p : Nat) : State := s.modPort p (fun x => { x with discJob := satInc x.discJob })

/-- The checks of R385 on a chain port and of R451 on a tie port. -/
def State.typeOk (s : State) (p : Nat) (k : Packet) : Bool :=
  let own := match s.domain.moduleId with
    | some m => k.dstModule == m
    | none => k.ptype == 8 || k.ptype == 9
  if p < 16 then
    decide (1 ≤ k.ptype.toNat ∧ k.ptype.toNat ≤ 9) && k.version == (s.port p).version && decide (k.hops.toNat ≤ 7) && own
  else
    (decide (1 ≤ k.ptype.toNat ∧ k.ptype.toNat ≤ 7) || k.ptype == 9 || k.ptype == 10 || k.ptype == 11) &&
    k.version == 1 && k.hops == 0 && s.domain.moduleId.isSome && own && k.srcModule.toNat == s.twinId

/-- A barrier packet that carries the epoch of the change announced (R444, R445). -/
def State.changeBarrier (s : State) (k : Packet) : Bool :=
  (k.ptype == 6 || k.ptype == 7) && (match s.domain.change with
    | some c => c.membership.epoch == k.memberEpoch
    | none => false)

/-- The epoch-table entry that judges a packet. -/
def State.judgeEntry (s : State) (k : Packet) : Option Word :=
  let pair := k.srcModule.toNat / 2
  match s.epochEntry pair with
  | some e => some e
  | none =>
    match s.domain.change with
    | some c => if s.changeBarrier k then (c.epochs.find? (fun e => e.1 == pair)).map (·.2) else none
    | none => none

/-- Accept a packet: it waits to be handled. -/
def State.acceptPacket (s : State) (p : Nat) (k : Packet) : State :=
  s.modPort p (fun x => { x with accepted := x.accepted ++ [{ k with entered := s.runCycle }] })

/-- Raise an entry of the epoch table. -/
def State.raiseEpoch (s : State) (pair : Nat) (e : Word) : State :=
  { s with domain := { s.domain with epochs := mset s.domain.epochs pair e } }

/-- The epoch checks of Table 11.5. -/
def State.judgeEpoch (s : State) (p : Nat) (k : Packet) : State :=
  match s.judgeEntry k with
  | none => s.discardEpoch p
  | some e =>
    if k.pairEpoch < e then s.discardEpoch p
    else
      let s1 := if e < k.pairEpoch then s.raiseEpoch (k.srcModule.toNat / 2) k.pairEpoch else s
      if k.memberEpoch = s.memberEpoch ∨ s.changeBarrier k then s1.acceptPacket p k else s1.discardEpoch p

/-- A packet that passed the link's checks is judged by type and by epoch. -/
def State.judgePacket (s : State) (p : Nat) (k : Packet) : State :=
  if !s.typeOk p k then s.discardType p
  else if k.ptype = 8 ∨ k.ptype = 9 then s.acceptPacket p k
  else s.judgeEpoch p k

/-- CHAIN_PACKET_RECEIVE (R382, R385, R395): a bad packet asks for its retransmission, and every later one is dropped
until it has come; a packet out of sequence is a repeat and is dropped. -/
def execChainPacketReceive (port : PortNo) (r : RawPacket) (s : State) : Res :=
  let x := s.port port.val
  if x.up = false then .next s
  else if r.fecOk ∧ packetGood r.data then
    let k := packetOf r.data
    if k.lseq = x.rxSeq then
      .next ((s.setPort port.val { x with rxSeq := x.rxSeq + 1, nakFor := none }).judgePacket port.val k)
    else .next s
  else if x.nakFor.isSome then .next s
  else .next (s.setPort port.val { x with nakFor := some x.rxSeq })

/-! ### Packets of channels (R387 to R389, R396 to R399, R412) -/

/-- Take the first accepted packet of a type from a port. -/
def State.takePacket (s : State) (p ptype : Nat) : Option (Packet × State) :=
  let acc := (s.port p).accepted
  let i := acc.findIdx (fun k => decide (k.ptype.toNat = ptype))
  match acc[i]? with
  | some k => some (k, s.modPort p (fun x => { x with accepted := x.accepted.eraseIdx i }))
  | none => none

/-- Tile of a DST_EP or SRC_EP field. -/
def fieldTile (f : BitVec 16) : TileNo := Fin.ofNat 128 f.toNat
/-- Endpoint of a DST_EP or SRC_EP field. -/
def fieldEp (f : BitVec 16) : Fin 64 := Fin.ofNat 64 (f.toNat / 128)

/-- Answer a DATA packet with NOENDPOINT (R398). -/
def State.rejectData (s : State) (p : PortNo) (k : Packet) : State :=
  s.sendReverse p 5 k.srcModule (fieldTile k.srcEp) (fieldEp k.srcEp) (fieldTile k.dstEp).val (fieldEp k.dstEp).val
    (pad32 k.header)

/-- Key of a port channel at its receive endpoint. -/
def chanKey (k : Packet) : Nat := k.srcModule.toNat * 8192 + (fieldTile k.srcEp).val * 64 + (fieldEp k.srcEp).val

/-- The slot value of a message: the identity for a filtered endpoint, the SLOT byte for a combining one (R424). -/
def arrivalSlot (r : RecvEp) (k : Packet) : DWord :=
  match r.kind with
  | .combining => k.slot.setWidth 64
  | _ => k.contrib

/-- The oldest DATA packet that a port has accepted. -/
def Port.firstData (x : Port) : Option Packet := x.accepted.find? (fun k => k.ptype == 1)

/-- The deadline of a DATA packet: the need-by offset of its channel at the receive endpoint, counted from the packet's acceptance
(R38; log entry 109). -/
def State.dataDeadline (s : State) (k : Packet) : Option DWord :=
  (mfind ((s.tile (fieldTile k.dstEp).val).recv (fieldEp k.dstEp).val).needBy (chanKey k)).map (fun n => k.entered + BitVec.ofNat 64 n)

/-- The place of a port's DATA packet at the merge before its tile (R37 to R39). -/
def State.dataKey (s : State) (p : PortNo) (k : Packet) : FlowKey := portKey (s.dataDeadline k) (.port p)

/-- The packet goes before those that other ports hold for the same tile. -/
def State.dataGoes (s : State) (p : PortNo) (k : Packet) : Bool :=
  (List.range 20).all (fun q =>
    match (s.port q).firstData with
    | some k' => fieldTile k'.dstEp != fieldTile k.dstEp || !keyLess (s.dataKey (portNo q) k') (s.dataKey p k)
    | none => true)

/-- What a delivered DATA packet does at an open endpoint: the next packet of its channel is expected (R389), reduced saturation
flags are seen (R100), and the message is complete. -/
def State.takeData (s : State) (port : PortNo) (k : Packet) : State :=
  let t := fieldTile k.dstEp
  let e := fieldEp k.dstEp
  let r := (s.tile t.val).recv e
  let m : Msg :=
    { origin := .port port k.srcModule (fieldTile k.srcEp) (fieldEp k.srcEp), slot := arrivalSlot r k,
      data := k.payload, used := 0, accepted := false, sentBy := (slotNone, 0), cycle := 0 }
  let s2 := s.modTile t.val (fun x =>
    x.setRecv e { x.recv e with cseq := mset (x.recv e).cseq (chanKey k) (k.cseq + 1) })
  (s2.noteGather (k.jobId.toNat % 64) k.contrib k.payload).deliver t e.val m

/-- DATA (R389, R398, R412): to firmware, discarded, answered NOENDPOINT, or delivered, where no other port's packet for the
tile goes first (R37 to R39). -/
def execData (port : PortNo) (s : State) : Res :=
  match s.takePacket port.val 1 with
  | none => .next s
  | some (k, s1) =>
    if s.dataGoes port k = false then .next s else
    let tag := k.jobId.toNat / 64
    let v2 := decide (s.domain.version = 2)
    let t := fieldTile k.dstEp
    let e := fieldEp k.dstEp
    let r := (s1.tile t.val).recv e.val
    if v2 && tag == 0 then .next s1
    else if v2 && s1.runActive && some tag != s1.runJob.map (·.tag.toNat) then .next (s1.discardJob port.val)
    else if !s1.runActive || s1.pair.role == .fenced || !r.declared then .next (s1.rejectData port k)
    else if r.closed then
      .next ((s1.modTile t.val (fun x => x.setRecv e.val { x.recv e.val with discards := (x.recv e.val).discards + 1 })).rejectData
        port k)
    else if k.cseq ≠ mget 0 r.cseq (chanKey k) then .next (s1.discardCseq port.val)
    else .next (s1.takeData port k)

/-- Return credits named by the entries of a CREDIT packet (Table 11.4). -/
def State.returnCredits (s : State) : List Nat → State
  | [] => s
  | w :: r =>
    let t := w % 128
    let e := w / 128 % 64
    State.returnCredits
      (s.modTile t (fun x => x.setSend e { x.send e with credit := (x.send e).credit + w / 8192 })) r

/-- The 4-byte entries of a payload. -/
def wordsOf (bs : Bytes) : List Nat := (chunks 4 bs.length bs).map leNat

/-- CREDIT (R388). -/
def execCredit (port : PortNo) (s : State) : Res :=
  match s.takePacket port.val 2 with
  | none => .next s
  | some (k, s1) => .next (s1.returnCredits ((wordsOf k.payload).filter (fun w => decide (8192 ≤ w))))

/-- CLOSE (R308, R309): the channel of the send end becomes CLOSED. -/
def execClose (port : PortNo) (s : State) : Res :=
  match s.takePacket port.val 3 with
  | none => .next s
  | some (k, s1) =>
    let e := (fieldEp k.dstEp).val
    .next (s1.modTile (fieldTile k.dstEp).val (fun x => x.setSend e { x.send e with closed := true }))

/-- OPEN (R311). -/
def execOpenNotice (port : PortNo) (s : State) : Res :=
  match s.takePacket port.val 4 with
  | none => .next s
  | some (k, s1) =>
    let e := (fieldEp k.dstEp).val
    .next (s1.modTile (fieldTile k.dstEp).val (fun x => x.setSend e (x.send e).reopen))

/-- Slot and bundle of the send whose header a NOENDPOINT carries; of one that the endpoint does not know, the channel slot
and the tile's bundle (R237, R398; log entry 19). -/
def Tile.rejectedSend (x : Tile) (e : Nat) (k : Packet) : Byte × Word :=
  match (x.send e).sent.find? (fun q => q.1 == (packetOf k.payload).cseq) with
  | some q => q.2
  | none => (slotChannel, (x.cur).getD 0)

/-- NOENDPOINT (R398, R310): the channel becomes CLOSED, and the packet is the discard report of the send whose header it
carries. -/
def execNoEndpoint (port : PortNo) (s : State) : Res :=
  match s.takePacket port.val 5 with
  | none => .next s
  | some (k, s1) =>
    let t := fieldTile k.dstEp
    let e := (fieldEp k.dstEp).val
    let s2 := s1.modTile t.val (fun x => x.setSend e { x.send e with closed := true })
    if ((s2.tile t.val).send e).tolerant then .next s2
    else
      let q := (s2.tile t.val).rejectedSend e k
      .next (s2.closedFault t e q.1 q.2)

/-! ### Barrier packets (R400 to R402, R454) -/

/-- Barrier, round, level and count of a barrier packet. -/
def barrierFields (k : Packet) : Nat × Word × Nat × Nat :=
  (fieldAt k.payload 0 2, BitVec.ofNat 32 (fieldAt k.payload 4 4), fieldAt k.payload 8 1, fieldAt k.payload 12 4)

/-- BARRIER_ARRIVE: counted at this module's aggregator of the level, or at the pair counter of the even module. Outside a
run it is discarded (Table 11.6). -/
def execBarrierArrive (port : PortNo) (s : State) : Res :=
  match s.takePacket port.val 6 with
  | none => .next s
  | some (k, s1) =>
    let (b, round, level, n) := barrierFields k
    if !s1.runActive || decide (16 ≤ b) then .next s1
    else if 16 ≤ port.val then
      if s1.moduleIdNat % 2 = 0 then .next (s1.pairCount (Fin.ofNat 16 b) round n) else .next s1
    else if 1 ≤ level ∧ level ≤ 5 then .next (State.countAt (Fin.ofNat 16 b) round 6 level n s1)
    else .next s1

/-- BARRIER_RELEASE: passes down from this module's counter of the level. -/
def execBarrierRelease (port : PortNo) (s : State) : Res :=
  match s.takePacket port.val 7 with
  | none => .next s
  | some (k, s1) =>
    let (b, round, level, _) := barrierFields k
    if !s1.runActive || decide (16 ≤ b) then .next s1
    else if 16 ≤ port.val then .next (s1.moduleRelease (Fin.ofNat 16 b) round)
    else if level ≤ 4 then .next (State.releaseDown (Fin.ofNat 16 b) round level s1)
    else .next s1

/-- CREDIT_FLUSH (R388): the credits pending at a port leave. -/
def execCreditFlush (port : PortNo) (s : State) : Res :=
  .next (((s.port port.val).pendingCredits.map (·.1)).dedup.foldl (fun s m => s.flushCredits port m) s)

/-! ### Meridian synchronisation (R403 to R406) -/

/-- The rank that a rank synchronises to, none for rank 0. -/
def syncParent (r : Nat) : Option Nat :=
  ((List.range 5).map (fun l => r / 16 ^ (l + 1) * 16 ^ (l + 1))).find? (fun q => q != r)

/-- Payload of SYNC: the exchange number, the number of stamps, and the stamps (log entry 20). -/
def syncPayload (n : Word) (stamps : List DWord) : Bytes :=
  leBytes 4 n.toNat ++ leBytes 4 stamps.length ++ padTo 24 (stamps.flatMap (fun t => leBytes 8 t.toNat))

/-- One step of the trim towards the wanted value (R482). -/
def stepTrim (cur want : Int) : Int := if cur < want then cur + 1 else if want < cur then cur - 1 else cur

/-- SYNC_EXCHANGE_TIMER (R403, R482): every millisecond the child starts an exchange, and the trim moves by at most one
step. -/
def execSyncExchangeTimer (s : State) : Res :=
  let s1 := { s with clock := { s.clock with trim := stepTrim s.clock.trim s.clock.wantTrim } }
  match s.domain.moduleId, syncParent s.ownRank with
  | some _, some r =>
    let p := s.lowestChain
    let n := s.domain.exchangeNo + 1
    let s2 := { s1 with domain := { s1.domain with exchangeNo := n } }
    .next (s2.sendOn p (s2.mkPacket p.val 8 (s.memberOfRank r) 0 0 (syncPayload n [s.clock.meridian])))
  | _, _ => .next s1

/-- Difference of two stamps. -/
def stampDiff (a b : DWord) : Int := (a.toNat : Int) - b.toNat

/-- The exchange of the smallest excess (R404). -/
def bestExchange (xs : List (Int × Int)) : Int × Int :=
  xs.foldl (fun m x => if x.2 < m.2 then x else m) (xs.headD (0, 0))

/-- Correct the meridian by an offset (R405, R506): a step outside a run beyond 1 µs, else a trim within ±20 ppm. -/
def State.correctMeridian (s : State) (off : Int) : State :=
  if s.runActive = false ∧ 400 < off.natAbs then
    let c := s.clock
    let s1 := { s with domain := { s.domain with exchanges := [] } }
    if 0 < off then { s1 with clock := { c with meridian := c.meridian + BitVec.ofNat 64 off.natAbs } }
    else { s1 with clock := { c with holdTicks := off.natAbs } }
  else { s with clock := { s.clock with wantTrim := max (-80) (min 80 (Config.trimFor off)) } }

/-- Watch the agreement of ±40 ns (R406). -/
def State.watchLock (s : State) (off : Int) : State :=
  if 16 < off.natAbs then
    let n := s.domain.unlockedRun + 1
    let s1 := { s with domain := { s.domain with
      unlockedRun := n, meridianLocked := s.domain.meridianLocked && decide (n < 16) } }
    if n = 16 then s1.event evMeridianUnlocked (srcOf 0x0E 0) (leBytes 8 (BitVec.ofInt 64 off).toNat) else s1
  else
    let s1 := { s with domain := { s.domain with unlockedRun := 0, meridianLocked := true } }
    if 16 ≤ s.domain.unlockedRun then s1.event evMeridianLocked (srcOf 0x0E 0) (leBytes 8 (BitVec.ofInt 64 off).toNat)
    else s1

/-- SYNC (R404, R405): a request is answered on its port; the reply to the exchange under way gives an offset. -/
def execSync (port : PortNo) (ingress : DWord) (s : State) : Res :=
  match s.takePacket port.val 8 with
  | none => .next s
  | some (k, s1) =>
    let n := BitVec.ofNat 32 (fieldAt k.payload 0 4)
    let t1 := BitVec.ofNat 64 (fieldAt k.payload 8 8)
    if fieldAt k.payload 4 4 = 1 then
      .next (s1.sendOn port
        (s1.mkPacket port.val 8 k.srcModule.toNat 0 0 (syncPayload n [t1, ingress, s.clock.meridian])))
    else if n = s.domain.exchangeNo then
      let t2 := BitVec.ofNat 64 (fieldAt k.payload 16 8)
      let t3 := BitVec.ofNat 64 (fieldAt k.payload 24 8)
      let off := (stampDiff t2 t1 - stampDiff ingress t3) / 2
      let excess := stampDiff ingress t1 - stampDiff t3 t2
      let xs := ((off, excess) :: s1.domain.exchanges).take 16
      let s2 := { s1 with domain := { s1.domain with exchanges := xs } }
      let best := (bestExchange xs).1
      .next ((s2.watchLock best).correctMeridian best)
    else .next s1

end Sys2Proof.Machine
end

