-- ==== Sys2Proof/Machine/Pair.lean ====
section
/-! DEFINITION. Twin pairs (R455 to R478): heartbeats, the lease with its witness, suspension and fencing, the closure checks,
management messages, step digests formed, and the transfer of state at a membership change (R444 to R448). -/

namespace Sys2Proof.Machine

/-- A lease term: 2,000 ms (R465). -/
def leaseTerm : Nat := 800000000
/-- Time without a heartbeat after which the twin is lost: 300 ms (R456). -/
def twinTimeout : Nat := 120000000

/-! ### Lease requests (R464, R465, R535) -/

/-- LEASE_REQUEST (Table 13.4). -/
def State.leaseBytes (s : State) (kind : Byte) (nonce : DWord) : Bytes :=
  leBytes 4 (s.moduleIdNat / 2) ++ leBytes 4 s.moduleIdNat ++ [kind] ++ leBytes 4 s.pair.epoch.toNat ++ leBytes 8 nonce.toNat

/-- Post to the owner session, if there is one. -/
def State.postOwner (s : State) (opcode : BitVec 16) (body : Bytes) : State :=
  match s.ownerPath with
  | some p =>
    let v := ((s.session p).map (·.eventVector)).getD 0
    { s with host := s.host.postUnsolicited p opcode v body }
  | none => s

/-- Send a LEASE_REQUEST on the paths that are configured; its nonce is a free value (Table 13.4 names no source of it). -/
def State.askWitness (s : State) (kind : Byte) : State :=
  let nonce := Config.freeDWord s.freeCtr
  let msg := s.leaseBytes kind nonce
  let s1 := ({ s with pair := { s.pair with asked := s.pair.asked ++ [(kind, nonce, s.clock.meridian)] } }).drawn 1
  let s2 := if s.domain.witnessHost then s1.postOwner 0x8480 msg else s1
  if s.domain.witnessChain then s2.sendMgmt s.domain.witnessId.toNat (.leaseRequest msg) else s2

/-- The bytes that the witness signs. -/
def leaseSigned (r : LeaseReplyMsg) : Bytes :=
  leBytes 4 r.pairId.toNat ++ leBytes 4 r.holder.toNat ++ leBytes 4 r.epoch.toNat ++ [r.result] ++
  leBytes 8 r.notBefore.toNat ++ leBytes 8 r.nonce.toNat

/-! ### Suspension and fencing (R472 to R474) -/

/-- Keep of the packets that wait at the ports those that satisfy a test. -/
def State.keepEgress (s : State) (p : Packet → Bool) : State :=
  { s with domain := { s.domain with ports := s.domain.ports.map (fun e => (e.1, { e.2 with egress := e.2.egress.filter p })) } }

/-- The packets at the ports that a suspended module holds, port by port in order (R472). -/
def State.toHold (s : State) : List (PortNo × Packet) :=
  s.domain.ports.flatMap (fun e => (e.2.egress.filter (fun k => heldType k.ptype.toNat)).map (fun k => (portNo e.1, k)))

/-- Enter suspension: the tiles of a run halt, and port traffic is held, the packets that wait at the ports too. -/
def State.suspend (s : State) : State :=
  { s.keepEgress (fun k => !heldType k.ptype.toNat) with
    pair := { s.pair with role := .suspended, heldPackets := s.pair.heldPackets ++ s.toHold }
    run := { s.run with state := if s.run.state = .running then .suspended else s.run.state } }

/-- Send the held packets in order, at the pair's epoch. -/
def State.sendHeld (s : State) : List (PortNo × Packet) → State
  | [] => s
  | (p, k) :: r => State.sendHeld (s.sendOn p { k with pairEpoch := s.pair.epoch }) r

/-- Take a role with authority: a suspended module resumes (R473). -/
def State.resumeAs (s : State) (r : Role) : State :=
  let was := s.pair.role
  let held := s.pair.heldPackets
  let s1 := { s with
    pair := { s.pair with role := r }
    run := { s.run with state := if s.run.state = .suspended then .running else s.run.state } }
  if was = .suspended then ({ s1 with pair := { s1.pair with heldPackets := [] } }).sendHeld held else s1

/-- Learn of an epoch of the own pair above the own one: the run ends with LEASE_LOST and the module is fenced (R474). -/
def State.learnEpoch (s : State) (e : Word) : State :=
  if s.pair.epoch < e ∧ s.pair.role ≠ .fenced then
    let s1 := if s.runActive then
        s.raiseHw hwLease srcMcb (s.pair.epoch.setWidth 64) (e.setWidth 64) [] else s
    { s1.keepEgress (fun k => freeType k.ptype.toNat) with
      pair := { s1.pair with role := .fenced, heldPackets := [], nextEpoch := none } }
  else s

/-- Epoch notices to every member (R470). -/
def State.epochNotices (s : State) : State :=
  (s.members.filter (fun m => m != s.moduleIdNat)).foldl
    (fun s m => s.sendMgmt m (.epochNotice (BitVec.ofNat 19 (s.moduleIdNat / 2)) s.pair.epoch)) s

/-- Adopt a higher epoch: the table's own entry follows and the members hear of it. -/
def State.adoptEpoch (s : State) (e : Word) : State :=
  (({ s with pair := { s.pair with epoch := e, nextEpoch := none } }).raiseEpoch (s.moduleIdNat / 2) e).epochNotices

/-- EPOCH_SWITCH (R467): at NOT_BEFORE the holder switches to the epoch of its fence. -/
def execEpochSwitch (s : State) : Res :=
  match s.pair.nextEpoch with
  | some (e, nb) => if nb ≤ s.clock.meridian then .next (s.adoptEpoch e) else .next s
  | none => .next s

/-! ### Lease replies (R464, R465, R467, R473) -/

/-- A grant that names this module. -/
def State.granted (s : State) (kind : Byte) (sent : DWord) (r : LeaseReplyMsg) : State :=
  let fin := sent + BitVec.ofNat 64 leaseTerm
  if s.pair.role = .fenced ∨ fin ≤ s.clock.meridian ∨ kind = 4 ∨ r.epoch < s.pair.epoch then s
  else
    let s1 := { s with pair := { s.pair with leaseEnd := if s.pair.leaseEnd < fin then fin else s.pair.leaseEnd } }
    if r.epoch = s.pair.epoch then s1.resumeAs .holder
    else if kind = 3 ∧ s.pair.role = .holder then
      { s1 with pair := { s1.pair with nextEpoch := some (r.epoch, r.notBefore) } }
    else
      let s2 := (s1.adoptEpoch r.epoch).resumeAs .holder
      if s.pair.authorityEnd ≠ 0 then
        s2.event evTwinTakeover srcMcb (leBytes 4 s.moduleIdNat ++ leBytes 4 r.epoch.toNat)
      else s2

/-- A LEASE_REPLY: acted on only where it verifies under the enrolled key and echoes the nonce of a request. -/
def State.takeLeaseReply (s : State) (r : LeaseReplyMsg) : State :=
  match s.pair.asked.find? (fun a => a.2.1 == r.nonce) with
  | none => s
  | some a =>
    if r.pairId.toNat = s.moduleIdNat / 2 ∧ ed25519Verify s.domain.witnessKey (leaseSigned r) r.signature = true then
      let s1 := { s with pair := { s.pair with asked := s.pair.asked.filter (fun x => x.2.1 != r.nonce) } }
      if r.result = 0 ∧ r.holder.toNat = s.moduleIdNat then s1.granted a.1 a.2.2 r else s1.learnEpoch r.epoch
    else s

/-- LEASE_REPLY (R464). -/
def execLeaseReply (r : LeaseReplyMsg) (s : State) : Res := .next (s.takeLeaseReply r)

/-- LEASE_RENEW_TIMER (R465): every 500 ms the holder asks for a renewal; a module of a mirror or shadow pair that has no
authority asks for the lease (log entry 21). -/
def execLeaseRenewTimer (s : State) : Res :=
  if s.pair.mode = .solo then .next s
  else
    match s.pair.role with
    | .holder => .next (s.askWitness 2)
    | .suspended => .next (s.askWitness 1)
    | _ => .next s

/-- LEASE_TERM_END (R465, R468): the authority of the holder or of the secondary has ended. -/
def execLeaseTermEnd (s : State) : Res :=
  match s.pair.role with
  | .holder => if s.pair.leaseEnd ≤ s.clock.meridian then .next s.suspend else .next s
  | .secondary => if s.pair.authorityEnd ≤ s.clock.meridian then .next s.suspend else .next s
  | _ => .next s

/-! ### Heartbeats (R455, R456, R468) -/

/-- ROLE of a heartbeat. -/
def roleCode : Role → Nat
  | .holder => 1
  | .secondary => 2
  | .suspended => 3
  | .fenced => 4
  | .solo => 5

/-- The holder that this module knows, with the end of its lease. -/
def State.knownHolder (s : State) : Nat × DWord :=
  match s.pair.role with
  | .holder => (s.moduleIdNat, s.pair.leaseEnd)
  | .secondary => (s.twinId, s.pair.authorityEnd)
  | _ => (0xFFFFF, 0)

/-- Payload of a heartbeat (Table 13.2); LAST_STEP and CLOSED_STEP are all ones before any step (log entry 21). -/
def State.heartbeatPayload (s : State) : Bytes :=
  let h := s.knownHolder
  leBytes 1 (modeCode s.pair.mode) ++ leBytes 1 (roleCode s.pair.role) ++ zeros 2 ++ leBytes 4 s.pair.hbSeq.toNat ++
  leBytes 4 s.pair.epoch.toNat ++ leBytes 4 h.1 ++ leBytes 8 h.2.toNat ++ leBytes 4 ((s.lastStep).getD 0xFFFFFFFF) ++
  leBytes 4 s.pair.closedStep.toNat ++ zeros 32

/-- HEARTBEAT_TIMER (R456): one heartbeat on every tie port that is up. -/
def execHeartbeatTimer (s : State) : Res :=
  let s1 := { s with pair := { s.pair with hbSeq := s.pair.hbSeq + 1 } }
  .next (s1.upTie.foldl (fun s p => s.sendOn (portNo p) (s.mkPacket p 10 s.twinId 0 0 s1.heartbeatPayload)) s1)

/-- The heartbeat that a payload spells. -/
def heartbeatOf (bs : Bytes) : HeartbeatMsg :=
  { mode := BitVec.ofNat 8 (fieldAt bs 0 1), role := BitVec.ofNat 8 (fieldAt bs 1 1),
    hbSeq := BitVec.ofNat 32 (fieldAt bs 4 4), pairEpoch := BitVec.ofNat 32 (fieldAt bs 8 4),
    holder := BitVec.ofNat 20 (fieldAt bs 12 4), leaseEnd := BitVec.ofNat 64 (fieldAt bs 16 8),
    lastStep := BitVec.ofNat 32 (fieldAt bs 24 4), closedStep := BitVec.ofNat 32 (fieldAt bs 28 4) }

/-- Compare the pair's modes; a difference raises TIE_MODE_MISMATCH as it begins (R455). -/
def State.compareModes (s : State) (h : HeartbeatMsg) : State :=
  let bad := decide (h.mode.toNat ≠ modeCode s.pair.mode)
  let s1 := { s with pair := { s.pair with modeMismatch := bad } }
  if bad && !s.pair.modeMismatch then
    s1.event evModeMismatch srcMcb (leBytes 1 (modeCode s.pair.mode) ++ [h.mode])
  else s1

/-- The heartbeat names the twin as a valid holder at the own epoch (R468, R473). -/
def State.namesHolder (s : State) (h : HeartbeatMsg) : Bool :=
  s.pair.mode != .solo && h.holder.toNat == s.twinId && h.pairEpoch == s.pair.epoch && decide (s.clock.meridian < h.leaseEnd)

/-- HEARTBEAT: the twin's mode, role, epoch and lease end. -/
def execHeartbeat (port : PortNo) (s : State) : Res :=
  match s.takePacket port.val 10 with
  | none => .next s
  | some (k, s1) =>
    let h := heartbeatOf k.payload
    let s2 := (s1.modPort port.val (fun x => { x with lastHb := h.hbSeq }))
    let s3 := ({ s2 with pair := { s2.pair with lastHb := some h, lastHbAt := s.clock.meridian, twinLost := false } }).compareModes h
    if s.pair.epoch < h.pairEpoch then .next (s3.learnEpoch h.pairEpoch)
    else if s.pair.role ≠ .fenced ∧ s.pair.role ≠ .holder ∧ s.namesHolder h = true then
      .next (({ s3 with pair := { s3.pair with authorityEnd := h.leaseEnd } }).resumeAs .secondary)
    else .next s3

/-- TWIN_LOST (R456, Table 13.5): the holder asks for a fence, another module of a mirror or shadow pair for the lease. -/
def execTwinLost (s : State) : Res :=
  if s.pair.twinLost = false ∧ s.pair.lastHbAt.toNat + twinTimeout ≤ s.clock.meridian.toNat then
    let s1 := ({ s with pair := { s.pair with twinLost := true } }).event evTwinLost srcMcb (leBytes 4 s.twinId)
    if s.pair.mode = .solo ∨ s.pair.role = .fenced then .next s1
    else .next (s1.askWitness (if s.pair.role = .holder then 3 else 1))
  else .next s

/-! ### Closure checks (R460 to R463) -/

/-- A closure check failed: the event, the exchange of records, and under STOP the end of the run (R462, R463). -/
def State.closeFailed (s : State) (t : Nat) (own twin : Digest) : State :=
  let s1 := s.closureDiffers t own twin
  if ((s.runJob.map (·.closureContinue)).getD false) = false ∧ s.runActive = true then
    s1.raiseHw hwClosure srcMcb (BitVec.ofNat 64 t) 0 []
  else s1

/-- Compare the digests of a step once both are there (R460, R461). -/
def State.compareClosure (s : State) (t : Nat) : State :=
  match s.takeClosure t with
  | some (a, b, s1) => if a = b then s1.closePassed t else s1.closeFailed t a b
  | none => s

/-- The records of a step as the stacks hold them now, of entries that have gone no further (R462: the rescan). -/
def State.rescan (s : State) (t : Nat) : List Bytes :=
  s.mem.stackMap.flatMap (fun e =>
    match e.2.plan with
    | none => []
    | some plan => (List.range plan.entries.length).flatMap (fun i =>
        match plan.entries[i]? with
        | some x => if (e.2.entry plan i).completed = some t then s.passRecords e.1 x t else []
        | none => []))

/-- Two records name the same fragment of the same tensor. -/
def sameFragment (a b : Bytes) : Bool :=
  decide (recTensor a = recTensor b ∧ recBlock a = recBlock b ∧ recOffset a = recOffset b)

/-- The twin's records: own records that differ from them are rescanned, and a rescan that differs from the own record
quarantines this module (R462). -/
def State.judgeRecords (s : State) (t : Nat) (twin : List Bytes) : State :=
  let own := s.mem.records.filter (fun r => decide (recStep r = t))
  let differ := own.filter (fun r => twin.any (fun x => sameFragment r x && recCrc r != recCrc x))
  let again := s.rescan t
  let faulty := differ.any (fun r => again.any (fun x => sameFragment r x && recCrc r != recCrc x))
  let s1 := s.event evClosureMismatch srcMcb
    (leBytes 4 t ++ leBytes 1 (if faulty then 1 else 0) ++ ((differ.take 16).flatMap (fun r => r.take 32)))
  if differ = [] then s
  else if faulty then
    ({ s1 with pair := { s1.pair with quarantined := true } }).event evQuarantine srcMcb (leBytes 4 s.moduleIdNat)
  else s1

/-- CLOSURE: the twin's digest is compared with the own one, and its records with the own ones. -/
def execClosure (port : PortNo) (s : State) : Res :=
  match s.takePacket port.val 11 with
  | none => .next s
  | some (k, s1) =>
    let t := fieldAt k.payload 0 4
    let kind : Byte := BitVec.ofNat 8 (fieldAt k.payload 4 1)
    if kind = 3 then .next (s1.judgeRecords t (chunks 32 127 (k.payload.drop 32)))
    else
      let d : Digest := BitVec.ofNat 512 (beNat (slice k.payload 8 64))
      .next (({ s1 with pair := { s1.pair with twinDigests := mset s1.pair.twinDigests t (kind, d) } }).compareClosure t)

/-! ### Step digests (R568, R79, R80) -/

/-- Fingerprint records of a step are still in a stack's engine. -/
def State.recordsPending (s : State) (t : Nat) : Bool :=
  s.mem.stackMap.any (fun e => e.2.fingerprints.any (fun r => decide (recStep r = t)))

/-- STEP_DIGEST_FORMED (R568): every plan entry has completed the step in progress and its records are there; on the record
module those of the other members too. -/
def execStepDigestFormed (step : Word) (s : State) : Res :=
  let t := step.toNat
  if s.runActive ∧ step = s.currentStep ∧ s.hasPlan ∧ s.stepDone t ∧ s.recordsPending t = false ∧
      (s.isRecordModule t = true → (s.stepDigest t).isSome = true) then
    .next (((s.addStep t).reportStep t).compareClosure t)
  else .next s

/-! ### Management messages (R470, R80, R464, R444, R393) -/

/-- The release of a membership change's round leaves once every share of the transfer is reported (R444). -/
def State.tryHeldRelease (s : State) : State :=
  match s.domain.heldRelease with
  | some (b, round) =>
    match s.changeAt b round with
    | some c =>
      if s.transferDone c then
        let m := (s.treeMembers b round).length
        State.releaseDown b round (if m ≤ 1 then 0 else topLevel m)
          { s with domain := { s.domain with heldRelease := none } }
      else s
    | none => s
  | none => s

/-- Note a member's report. -/
def State.noteReport (s : State) (rank : Nat) : State :=
  ({ s with domain := { s.domain with transferReports := s.domain.transferReports ++ [rank] } }).tryHeldRelease

/-- Keep records that another module sent. -/
def State.addForeign (s : State) (m : Nat) (step : Word) (recs : List Bytes) : State :=
  let old := s.mem.foreign
  let new :=
    if old.any (fun e => e.1 == m && e.2.1 == step) then
      old.map (fun e => if e.1 = m ∧ e.2.1 = step then (e.1, e.2.1, e.2.2 ++ recs) else e)
    else old ++ [(m, step, recs)]
  { s with mem := { s.mem with foreign := new } }

/-- An epoch notice (R470). -/
def State.noticeEpoch (s : State) (pair : Nat) (e : Word) : State :=
  let s1 := match s.epochEntry pair with
    | some x => if x < e then s.raiseEpoch pair e else s
    | none => s
  if pair = s.moduleIdNat / 2 ∧ s.domain.moduleId.isSome then s1.learnEpoch e else s1

/-- MGMT: `m` is what firmware reads in the packet (log entry 14). -/
def execMgmt (port : PortNo) (m : MgmtMsg) (s : State) : Res :=
  match s.takePacket port.val 9 with
  | none => .next s
  | some (k, s1) =>
    match m with
    | .epochNotice pair e => .next (s1.noticeEpoch pair.toNat e)
    | .fingerprints step recs => .next (s1.addForeign k.srcModule.toNat step recs)
    | .leaseRequest msg => .next (s1.postOwner 0x8480 msg)
    | .leaseReply r => if s.domain.witnessChain then .next (s1.takeLeaseReply r) else .next s1
    | .transferComplete rank => .next (s1.noteReport rank)
    | .tileTable id tiles =>
      let s2 := { s1 with domain := { s1.domain with tileTables := mset s1.domain.tileTables id.toNat tiles } }
      .next (s2.bindAll (s2.tiles.map (·.1)))

/-! ### State transfer (R444, R446, R377) -/

/-- Replace the plan of a stack: its entries start again at the plan's first step (R377). -/
def State.replacePlan (s : State) (k : Nat) (plan : UpdatePlan) : State :=
  s.modStack k (fun x => { x with plan := some plan, entries := [] })

/-- The image of the run keeps the new plans, so that its next RUN starts from them. -/
def State.keepPlans (s : State) (plans : List (StackNo × UpdatePlan)) : State :=
  match s.runImage with
  | none => s
  | some im =>
    let all := plans.foldl (fun ps p => ps.filter (fun q => q.1 != p.1) ++ [p]) im.body.plans
    { s with host := { s.host with
        images := mset s.host.images s.run.handle.val { im with body := { im.body with plans := all } } } }

/-- Buckets of a parameter group, as the running image's contexts declare it (Table 12.1). -/
def State.groupBuckets (s : State) (g : Nat) : Option Nat :=
  (s.runImage.bind (fun im => (im.body.contexts.flatMap (·.groups)).find? (fun x => x.1 == g))).map (·.2.1)

/-- The module that owns bucket b of a group of n buckets in a membership (R417). -/
def ownerIn (members : List Nat) (n b : Nat) : Nat := members.getD (bucketOwner n members.length b) 0

/-- The plan entry's state is this module's to send: its own slice, or in a forced change the mirror of a stopped twin (R444,
R448). -/
def State.sendsEntry (s : State) (c : Change) (e : PlanEntry) : Bool :=
  !e.mirrored || (c.forced && !c.membership.members.contains s.twinId)

/-- The modules that bucket b of an entry goes to: its new owner where the owner changes, and that owner's twin in mirror mode
(R446). -/
def State.moveTargets (s : State) (c : Change) (n b : Nat) : List Nat :=
  let old := ownerIn s.members n b
  let new := ownerIn c.membership.members n b
  if new = old then []
  else ((new :: (if s.pair.mode = .mirror then [new ^^^ 1] else [])).filter (fun m => m != s.moduleIdNat))

/-- The state of a bucket of an entry, slot by slot in pieces of 2 KiB. -/
def State.bucketState (s : State) (k : Nat) (e : PlanEntry) (j : Nat) : List MovedState :=
  let z := max 1 e.bucketElems
  e.slots.flatMap (fun x =>
    let a := slotLen x.grain (j * z)
    let bs := s.readStack k (x.base + a) (slotLen x.grain (min e.elemCount ((j + 1) * z)) - a)
    (chunks 2048 bs.length bs).zipIdx.map (fun p =>
      { tensorId := x.tensorId, start := slotStart x.grain e.elemFirst + a + 2048 * p.2, data := p.1 }))

/-- Send a piece of state to a module's firmware: a DATA packet of job tag 0 (R412, R446). -/
def State.sendMoved (s : State) (dst : Nat) (m : MovedState) : State :=
  let p := s.lowestChain
  s.sendOn p { s.mkPacket p.val 1 dst 0 0 (pad32 (Config.movedBytes m)) with jobId := 0 }

/-- Send the buckets of an entry whose owner changes (R446). -/
def State.moveEntry (s : State) (c : Change) (k : Nat) (e : PlanEntry) : State :=
  match s.groupBuckets e.group with
  | none => s
  | some n =>
    if s.sendsEntry c e then
      (List.range (planBuckets e)).foldl (fun s j =>
        (s.moveTargets c n (e.elemFirst / max 1 e.bucketElems + j)).foldl (fun s m =>
          (s.bucketState k e j).foldl (fun s x => s.sendMoved m x) s) s) s
    else s

/-- Send the state of every plan entry whose owner changes. -/
def State.moveState (s : State) (c : Change) : State :=
  s.mem.stackMap.foldl (fun s k =>
    match k.2.plan with
    | none => s
    | some plan => plan.entries.foldl (fun s e => s.moveEntry c k.1 e) s) s

/-- Report the own share to the top aggregator of the new tree. -/
def State.reportTransfer (s : State) (c : Change) : State :=
  let top := c.membership.members.headD s.moduleIdNat
  if top = s.moduleIdNat then s.noteReport s.ownRank else s.sendMgmt top (.transferComplete s.ownRank)

/-- STEP_DIGEST of a step of the run's record. -/
def State.recordedDigest (s : State) (t : Nat) : Option Digest :=
  (s.run.steps.find? (fun e => decide (e.step.toNat = t) && e.digestPresent)).map (·.stepDigest)

/-- STATE_TRANSFER: once every plan entry has completed step t_e − 1, the state that others own from then on is sent, the bytes that
the others sent land, plans are replaced, and the
record module compares the digest with that step's; a difference is MIGRATION_MISMATCH and no share is reported. -/
def execStateTransfer (plans : List (StackNo × UpdatePlan)) (moved : List (StackNo × Nat × Bytes)) (digest : Digest)
    (s : State) : Res :=
  match s.domain.change with
  | none => .next s
  | some c =>
    if c.transferred = false ∧ 0 < c.tE.toNat ∧ (s.hasPlan = true → s.stepDone (c.tE.toNat - 1) = true) then
      let s1 := moved.foldl (fun s x => s.writeStack x.1.val x.2.1 x.2.2) (s.moveState c)
      let s2 := (plans.foldl (fun s x => s.replacePlan x.1.val x.2) s1).keepPlans plans
      let s3 := { s2 with domain := { s2.domain with change := some { c with transferred := true } } }
      let bad := s.isRecordModule (c.tE.toNat - 1) && (match s.recordedDigest (c.tE.toNat - 1) with
        | some d => d != digest
        | none => false)
      if bad then .next (s3.raiseHw hwMigration srcMcb (c.tE.setWidth 64) 0 (digestBytes digest))
      else .next (s3.reportTransfer c)
    else .next s

end Sys2Proof.Machine
end

