-- ==== Sys2Proof/Machine/Clocks.lean ====
section
/-! DEFINITION. Clocks, adaptive timing and the meridian (R480 to R506): stretches and their tokens, the base of the target
frequency, the margin policy, crossings, the root PLL, the datum pulse and the comparison of the meridian's copies. -/

namespace Sys2Proof.Machine

/-- Source field of the clock block's events. -/
def srcClk : BitVec 16 := srcOf 0x0E 0

/-- The compute clocks run: the root is locked and the module is not in reset (R481, R605). -/
def State.clocksRun (s : State) : Bool := s.clock.rootLocked && !s.power.inReset

/-! ### Stretches (R487 to R490) -/

/-- Stretch the period that runs: the largest of the stretches that it receives applies (R490). -/
def RegionState.stretchNow (r : RegionState) (n : Nat) : RegionState :=
  if r.stretch < n then
    { r with stretch := n, stretched := if r.stretch = 0 then satInc r.stretched else r.stretched }
  else r

/-- Stretch a period that has not begun. -/
def RegionState.stretchAhead (r : RegionState) (period n : Nat) : RegionState :=
  { r with ahead := mset r.ahead period (max (mget 0 r.ahead period) n) }

/-- A token for period `period` modulo 16: the named period is lengthened if it has not ended, else the one that runs, and a
deferred token is counted (R489). A number up to 7 ahead of the region's own names a period to come. -/
def RegionState.takeToken (r : RegionState) (period n : Nat) : RegionState :=
  let lead := (period + 16 - r.count.toNat % 16) % 16
  if lead = 0 then r.stretchNow n
  else if lead ≤ 7 then r.stretchAhead period n
  else { (r.stretchNow n) with deferred := satInc r.deferred }

/-- STRETCH_TOKEN: a token under way reaches its region. -/
def execStretchToken (region : Region) (period : Fin 16) (n : Fin 5) (s : State) : Res :=
  let tok := (region.val, period.val, n.val)
  if s.clocksRun ∧ tok ∈ s.clock.tokens then
    let s1 := { s with clock := { s.clock with tokens := s.clock.tokens.erase tok } }
    .next (s1.modRegion region.val (fun r => r.takeToken period.val n.val))
  else .next s

/-- The stretch that a lowest margin code asks for (Table 14.2; log entry 24). -/
def stretchOf (critical code : Nat) : Nat := if critical < code then 0 else min 4 (critical - code + 1)

/-- REPLICA_MARGIN_STRETCH (R488, R489): the region stretches the period that starts, and a token goes to every other. -/
def execReplicaMarginStretch (region : Region) (codes : List (Fin 64)) (s : State) : Res :=
  let n := stretchOf s.clock.criticalCode (codes.foldl (fun m c => min m c.val) 63)
  if s.clocksRun ∧ 0 < n then
    let period := (s.region region.val).count.toNat % 16
    let s1 := s.modRegion region.val (fun r => r.stretchNow n)
    let toks := ((List.range 10).filter (fun r => r != region.val)).map (fun r => (r, period, n))
    .next { s1 with clock := { s1.clock with tokens := s1.clock.tokens ++ toks } }
  else .next s

/-! ### The base (R492, R494) -/

/-- The highest count of any region. -/
def State.highestCount (s : State) : Nat := (List.range 10).foldl (fun m r => max m (s.region r).count.toNat) 0

/-- The base that will be in force once a token under way has taken effect. -/
def State.comingBase (s : State) : Nat := ((s.clock.nextBase).map (·.1)).getD s.clock.base

/-- Send a target token for a base: its first period is 64 above the highest count (R492). -/
def State.askBase (s : State) (b : Nat) : State :=
  { s with clock := { s.clock with nextBase := some (b, BitVec.ofNat 64 (s.highestCount + 64)) } }

/-- Ask for a base one higher than the one in force, up to 12; of several requests in one window the highest applies. -/
def State.raiseBase (s : State) : State :=
  let b := max s.comingBase (min 12 (s.clock.base + 1))
  if b = s.comingBase then s else s.askBase b

/-- Ask for a base one lower, not below the host's target, and not while another request or a throttle asks for more. -/
def State.lowerBase (s : State) : State :=
  if s.clock.nextBase = none ∧ s.clock.target < s.clock.base ∧ s.mgp.throttling = false ∧
      (s.mgp.powerLimited = false ∨ 100 ≤ s.mgp.underLimit) then s.askBase (s.clock.base - 1)
  else s

/-- TARGET_TOKEN (R492): a base from 8 to 12 whose first period is at least 64 above every region's count. -/
def execTargetToken (base : Fin 16) (first : DWord) (s : State) : Res :=
  if s.clocksRun ∧ 8 ≤ base.val ∧ base.val ≤ 12 ∧ s.highestCount + 64 ≤ first.toNat then
    .next { s with clock := { s.clock with nextBase := some (base.val, first) } }
  else .next s

/-- The base of a target token comes into force once its named period has started. -/
def State.turnBase (s : State) : State :=
  match s.clock.nextBase with
  | some (b, first) =>
    if first ≤ (s.region 0).count then { s with clock := { s.clock with base := b, nextBase := none } } else s
  | none => s

/-- BASE_CHANGE (R492): the named period starts; the end of that period sees to it where no row has (log 37). -/
def execBaseChange (s : State) : Res := if s.clocksRun then .next s.turnBase else .next s

/-! ### Margin policy (R493, R494) -/

/-- Rails: the compute dies 0 to 7 and the port dies' 8. -/
def State.rail (s : State) (d : Nat) : Nat := mget 0 s.clock.rails d

/-- Codes that the units of a rail report. -/
def railCodes (r : MarginReading) (d : Nat) : List (Fin 64) :=
  if d < 8 then (r.codes.drop (4 * d)).take 4 else (r.codes.drop 32).take 2

/-- Stretched periods of a rail's regions. -/
def railStretched (r : MarginReading) (d : Nat) : Nat :=
  if d < 8 then r.stretched.getD d 0 else max (r.stretched.getD 8 0) (r.stretched.getD 9 0)

/-- A rail needs more voltage (Table 14.5, row 1). -/
def railShort (r : MarginReading) (d : Nat) : Bool :=
  (railCodes r d).any (fun c => decide (c.val < 8)) || decide (1000 < railStretched r d)

/-- Raise the rails that are short and not at V_MAX; the answer says whether one was at V_MAX. -/
def State.raiseRails (s : State) (r : MarginReading) : List Nat → State × Bool
  | [] => (s, false)
  | d :: rest =>
    if railShort r d then
      if s.rail d < Config.railMax s.mgp.calStore d s.clock.base then
        State.raiseRails { s with clock := { s.clock with rails := mset s.clock.rails d (s.rail d + 1) } } r rest
      else ((State.raiseRails s r rest).1, true)
    else State.raiseRails s r rest

/-- Lower each rail that is above V_MIN. -/
def State.lowerRails (s : State) : List Nat → State
  | [] => s
  | d :: rest =>
    State.lowerRails
      (if Config.railMin s.mgp.calStore d s.clock.base < s.rail d then
        { s with clock := { s.clock with rails := mset s.clock.rails d (s.rail d - 1) } } else s) rest

/-- An entry of the margin ring (Table 17.4). -/
def State.marginEntry (s : State) (r : MarginReading) : Bytes :=
  leBytes 8 s.clock.meridian.toNat ++ padTo 34 (r.codes.map (fun c => BitVec.ofNat 8 c.val)) ++
  padTo 40 (r.stretched.flatMap (leBytes 4)) ++ (List.range 9).flatMap (fun d => leBytes 2 (s.rail d * 25 / 4)) ++ zeros 12

/-- Keep the newest 1,024 entries of a ring. -/
def ringPush (ring : List Bytes) (e : Bytes) : List Bytes := (ring ++ [e]).drop (ring.length + 1 - 1024)

/-- Raise the base for the margin policy: never above the cap; MARGIN_CAPPED once per episode. -/
def State.marginRaise (s : State) : State :=
  if max s.clock.base s.comingBase < s.clock.cap then
    let s1 := { s with clock := { s.clock with marginCapped := false } }
    s1.raiseBase
  else if s.clock.marginCapped then s
  else ({ s with clock := { s.clock with marginCapped := true } }).event evMarginCapped srcClk (leBytes 1 s.clock.base)

/-- A throttle or the input limit has B above the cap: only their release rules bring it back (R494). -/
def State.overCap (s : State) : Bool :=
  decide (s.clock.cap < s.clock.base) && (s.mgp.throttling || s.mgp.releasing || s.mgp.powerLimited)

/-- MARGIN_POLICY (R493): one window of 1 ms. -/
def execMarginPolicy (r : MarginReading) (s : State) : Res :=
  if s.clocksRun = false ∨ s.sec.booted = false then .next s
  else
    let quiet := r.stretched.all (fun n => n == 0)
    let windows := if quiet then s.clock.quietWindows + 1 else 0
    let s1 := { s with
      clock := { s.clock with quietWindows := windows }
      mgp := { s.mgp with marginRing := ringPush s.mgp.marginRing (s.marginEntry r) } }
    let (s2, full) := s1.raiseRails r (List.range 9)
    if full then .next s2.marginRaise
    else
      let s3 := { s2 with clock := { s2.clock with marginCapped := false } }
      if (List.range 9).any (railShort r) then .next s3
      else if (r.codes.take 32).all (fun c => decide (20 ≤ c.val)) ∧ 1000 ≤ windows then
        if s3.clock.target < s3.clock.base then .next (if s3.overCap then s3 else s3.lowerBase)
        else .next (s3.lowerRails (List.range 9))
      else .next s3

/-! ### Crossings, root and datum -/

/-- CROSSING_SLIP (R497): a hardware fault with the link, the direction, the receiver's period and the meridian. -/
def execCrossingSlip (link : LinkDir) (s : State) : Res :=
  if s.clocksRun then
    .next (s.raiseHw hwCrossing srcClk (BitVec.ofNat 64 link.val) (s.region 0).count
      (leBytes 1 (link.val / 2) ++ leBytes 1 (link.val % 2) ++ leBytes 8 (s.region 0).count.toNat ++
        leBytes 8 s.clock.meridian.toNat))
  else .next s

/-- ROOT_LOCK (R481, R500): after reset release with a valid reference; a datum pulse is then required. -/
def execRootLock (s : State) : Res :=
  if s.power.inReset = false ∧ s.power.ref100 = true ∧ s.clock.rootLocked = false ∧ s.clock.needsMrst = false then
    .next { s with clock := { s.clock with rootLocked := true, datumReq := true } }
  else .next s

/-- ROOT_UNLOCK (R481): the derived clocks stop, a run ends, and the module needs MRST_N. -/
def execRootUnlock (s : State) : Res :=
  if s.clock.rootLocked then
    let s1 := s.raiseHw hwRoot srcClk 0 0 []
    .next { s1 with clock := { s1.clock with rootLocked := false, needsMrst := true, meridianRuns := false } }
  else .next s

/-- DATUM_PULSE (R500 to R503): every region starts period 0 and every crossing is emptied; the first datum after power-up
starts the meridian at 0, a later one lets it go on. -/
def execDatumPulse (s : State) : Res :=
  if s.clocksRun ∧ s.clock.datumReq ∧ s.runActive = false then
    let restart (r : RegionState) : RegionState := { r with count := 0, stretch := 0, ahead := [] }
    let c := s.clock
    .next { s with clock := { c with
      regions := c.regions.map (fun e => (e.1, restart e.2)), nextBase := none, tokens := [], crossings := [], fifos := [],
      meridian := if c.meridianFresh then 0 else c.meridian, copies := if c.meridianFresh then [] else c.copies,
      meridianFresh := false, meridianRuns := true, rootPhase := 0, datumReq := false } }
  else .next s

/-- MERIDIAN_COMPARE (R504): a difference among the ten copies is a hardware fault. -/
def execMeridianCompare (s : State) : Res :=
  match s.clock.copies.find? (fun e => e.2 != s.clock.meridian) with
  | some e =>
    if s.clocksRun then
      .next (s.raiseHw hwMeridian srcClk (BitVec.ofNat 64 e.1) e.2
        ((List.range 10).flatMap (fun d => leBytes 8 (mget s.clock.meridian s.clock.copies d).toNat)))
    else .next s
  | none => .next s

end Sys2Proof.Machine
end

