-- ==== Sys2Proof/Machine/Session.lean ====
section
/-! DEFINITION. Sessions and the rings (R511 to R526, R540): the checks on a packet, the session commands, the outbox and
its MSI-X vectors. The inbox and MCTP, which run any command, are in Machine/Inbox.lean. -/

namespace Sys2Proof.Machine

/-- Firmware answers commands: it has started or the boot ROM is in recovery (R587, R588). -/
def State.fwRuns (s : State) : Bool := (s.sec.booted || s.sec.recovery) && !s.power.inReset

/-! ### Interrupts (R519) -/

/-- Vector v is masked in the MSI-X table: bit 0 of the entry's vector control (PCIe). -/
def Vectors.masked (x : Vectors) (v : Fin 16) : Bool := (mget 0 x.table (4 * v.val + 3)).getLsbD 0

/-- Signal a vector: at most once per coalescing interval, and a masked vector becomes pending. -/
def Vectors.signal (x : Vectors) (coalesce : BitVec 16) (v : Fin 16) : Vectors :=
  if x.masked v then { x with pba := x.pba ||| (1 <<< v.val) }
  else if v ∈ x.inInterval then { x with heldBack := if v ∈ x.heldBack then x.heldBack else x.heldBack ++ [v] }
  else { x with signalled := x.signalled ++ [v], inInterval := if coalesce = 0 then x.inInterval else v :: x.inInterval }

/-- The coalescing interval of the PCIe session, 0 without one (Table 15.7). -/
def HostState.coalesce (h : HostState) : BitVec 16 := (h.pcie.map (·.coalesce)).getD 0

/-- COALESCING_INTERVAL_EXPIRY: a vector held back in the interval signals now, and another interval begins. -/
def execCoalescingIntervalExpiry (v : Fin 16) (s : State) : Res :=
  let x := s.host.vectors
  if v ∈ x.inInterval then
    let y := { x with inInterval := x.inInterval.erase v, heldBack := x.heldBack.erase v }
    let z := if v ∈ x.heldBack then y.signal s.host.coalesce v else y
    .next { s with host := { s.host with vectors := z } }
  else .next s

/-! ### Packets (R513, R515) -/

/-- The size of a packet with a body of a length (R513). -/
def packetSize (len : Nat) : Nat := 64 * ceilDiv (len + 40) 64

/-- Slots that a packet occupies (R515). -/
def packetSlots (len : Nat) : Nat := ceilDiv (packetSize len) 1024

/-- The bytes of an outgoing packet; an unsolicited one is final too. -/
def HostState.packetBytes (h : HostState) (r : Reply) : Bytes :=
  let id : Word := match r.path with
    | .pcie => (h.pcie.map (·.id)).getD 0
    | .mctp => (h.mctp.map (·.id)).getD 0
  let flags := (if r.final then 1 else 0) + (if r.unsolicited then 2 else 0)
  let head := leBytes 1 (r.version.toNat / 256) ++ leBytes 1 r.version.toNat ++ leBytes 2 r.opcode.toNat ++
    leBytes 4 r.seq.toNat ++ leBytes 2 r.body.length ++ leBytes 2 flags ++ leBytes 2 r.jobId.toNat ++
    leBytes 2 r.status.toNat ++ leBytes 4 h.outWritten.toNat ++ leBytes 4 h.inDone.toNat ++ leBytes 4 id.toNat ++ zeros 4
  let front := padTo (packetSize r.body.length - 8) (head ++ r.body) ++ leBytes 4 r.seq.toNat
  front ++ leBytes 4 (crc32c front).toNat

/-- Write bytes into a ring of 256 KiB from a position, wrapping. -/
def ringWrite (m : Memory) (pos : Nat) (bs : Bytes) : Memory :=
  let n := 0x40000 - pos
  writeBytes (writeBytes m pos (bs.take n)) 0 (bs.drop n)

/-- OUTBOX_REPLY_WRITE (R518, R519): the first packet that waits goes into the outbox, if its slots are free. -/
def execOutboxReplyWrite (s : State) : Res :=
  match s.host.waiting with
  | [] => .next s
  | r :: rest =>
    let h := s.host
    let n := packetSlots r.body.length
    if h.outLive.sum + n ≤ 256 ∧ s.fwRuns = true then
      .next { s with host := { h with
        outbox := ringWrite h.outbox (h.outSlot * 1024) (h.packetBytes r), waiting := rest, outWritten := h.outWritten + 1,
        outSlot := (h.outSlot + n) % 256, outLive := h.outLive ++ [n],
        vectors := h.vectors.signal h.coalesce (Fin.ofNat 16 r.vector.toNat) } }
    else .next s

/-- The host has read the packets before an index: their slots are free (R518). -/
def HostState.ack (h : HostState) (ring : Word) : HostState :=
  let n := (ring - h.acked).toNat
  if n ≤ h.outLive.length then { h with acked := ring, outLive := h.outLive.drop n } else h

/-! ### Checks on a packet (R520, Table 15.7, R588) -/

/-- An opcode exists in a version: 1.x has no groups 0x04 and 0x06. -/
def opcodeInVersion (op : BitVec 16) (major : Nat) : Bool :=
  !(decide (major = 1) && (decide (op.toNat / 256 = 4) || decide (op.toNat / 256 = 6)))

/-- Opcodes that the boot ROM answers in recovery (R588). -/
def recoveryOpcode (op : BitVec 16) : Bool := op == 0x0001 || op == 0x0002 || op == 0x0004 || op == 0x0605 || op == 0x0606

/-- Opcodes that an observer may use. -/
def observerOpcode (path : Path) (op : BitVec 16) : Bool :=
  (decide (op.toNat / 256 = 0) && !(op == 0x0005 && path == .pcie)) || op == 0x0409 || op == 0x0504 || op == 0x0601 ||
  decide (op.toNat / 256 = 8)

/-- Opcodes allowed before any session; SESSION_TAKE too over a path without one (R520). -/
def freeOpcode (op : BitVec 16) : Bool := op == 0x0001 || op == 0x0004 || op == 0x0005 || op == 0x0601

/-- Checks 4 to 6 of R520, then the command. `length` is whether LENGTH fits. -/
def State.checkOpcode (s : State) (h : Hdr) (op : BitVec 16) (known length owner : Bool) (major : Nat)
    (f : State → Res) : Res :=
  if !known || !opcodeInVersion op major || (s.sec.recovery && !recoveryOpcode op) then
    .next (s.answer h op stBadOpcode true (failBody 0xFFFF 0 0))
  else if !length then .next (s.answer h op stBadLength true (failBody 0xFFFF 0 0))
  else if !owner && !observerOpcode h.path op then .next (s.answer h op stDenied true (failBody 0xFFFF 0 0))
  else f s

/-- A fifth outstanding command over MCTP is answered BUSY (R540). -/
def State.mctpBusy (s : State) (h : Hdr) : Bool := h.path == .mctp && !h.noReply && decide (4 ≤ s.host.mctpOutstanding)

/-- Count a command over MCTP as outstanding until its final reply. -/
def State.countMctp (s : State) (h : Hdr) : State :=
  if h.path = .mctp ∧ h.noReply = false then
    { s with host := { s.host with mctpOutstanding := s.host.mctpOutstanding + 1 } }
  else s

/-- The checks of R520 after the CRC, in order. A command whose SEQ is the next one consumes it, whatever follows. -/
def State.admitAs (s : State) (h : Hdr) (op : BitVec 16) (known length : Bool) (f : State → Res) : Res :=
  if !s.fwRuns then .next s
  else
    match s.session h.path with
    | some q =>
      let inOrder := h.seq == q.nextSeq
      let s1 := if inOrder then s.setSession h.path (some { q with nextSeq := q.nextSeq + 1 }) else s
      if s1.mctpBusy h then .next ((s1.countMctp h).answer h op stBusy true (failBody 0xFFFF 0 0))
      else
        let s2 := s1.countMctp h
        let major := q.version.toNat / 256
        if h.major.toNat ≠ major then .next (s2.answer h op stBadVersion true (failBody 0xFFFF 0 0))
        else if h.session ≠ q.id ∨ inOrder = false then .next (s2.answer h op stDenied true (failBody 0xFFFF 0 0))
        else
          let s3 := if h.path = .pcie then { s2 with host := s2.host.ack h.ringIndex } else s2
          s3.checkOpcode h op known length q.owner major f
    | none =>
      if s.mctpBusy h then .next ((s.countMctp h).answer h op stBusy true (failBody 0xFFFF 0 0))
      else
        let s1 := s.countMctp h
        if h.major ≠ 1 ∧ h.major ≠ 2 then .next (s1.answer h op stBadVersion true (failBody 0xFFFF 0 0))
        else if freeOpcode op = false ∨ h.session ≠ 0 then .next (s1.answer h op stDenied true (failBody 0xFFFF 0 0))
        else s1.checkOpcode h op known length true h.major.toNat f

/-- The checks for a command whose operands have been read. -/
def State.accept (s : State) (h : Hdr) (op : BitVec 16) (f : State → Res) : Res := s.admitAs h op true true f

/-! ### Sessions (R523 to R526) -/

/-- Both rings restart at slot 0 (R515). -/
def HostState.restartRings (h : HostState) : HostState :=
  { h with inDone := 0, outWritten := 0, inSlot := 0, outSlot := 0, covered := [], outLive := [], acked := 0,
           vectors := { h.vectors with inInterval := [], heldBack := [] } }

/-- The DMAs of a path's session stop, and their replies are lost (R525). -/
def HostState.stopDmas (h : HostState) (p : Path) : HostState :=
  { h with dmaRunning := h.dmaRunning.filter (fun e => e.2.hdr.path != p),
           dmaQueue := h.dmaQueue.filter (fun e => e.2.hdr.path != p) }

/-- End the session of a path: an active run goes on. -/
def State.endSession (s : State) (p : Path) : State :=
  match s.session p with
  | none => s
  | some _ =>
    let h := s.host.stopDmas p
    match p with
    | .pcie =>
      let h1 := { h.restartRings with pcie := none, waiting := [], ringState := if h.ringState = 2 then 1 else h.ringState }
      { s with host := h1 }
    | .mctp => { s with host := { h with mctp := none, mctpOutstanding := 0 } }

/-- The highest version that both sides support (Table 15.7): 2.1, 2.0, then any 1.x. -/
def chooseVersion (low high : BitVec 16) : Option (BitVec 16) :=
  if low ≤ 0x0201 ∧ 0x0201 ≤ high then some 0x0201
  else if low ≤ 0x0200 ∧ 0x0200 ≤ high then some 0x0200
  else
    let hi := if high < 0x01FF then high else 0x01FF
    if low ≤ hi ∧ 0x0100 ≤ hi then some hi else none

/-- OWNER_PATH. -/
def State.ownerCode (s : State) : Nat :=
  match s.ownerPath with
  | none => 0
  | some .pcie => 1
  | some .mctp => 2

/-- The reply body of SESSION_OPEN and IDENTIFY (R524). CHAIN_VERSIONS has bit v for version v, and ECI 3.0 to 3.255 are
accepted (R231; log entry 27). -/
def State.identBody (s : State) (session : Word) (version : BitVec 16) : Bytes :=
  leBytes 4 session.toNat ++ leBytes 2 version.toNat ++ leBytes 2 s.steppingCode ++ leBytes 2 s.tileCount ++
  leBytes 16 s.fuses.enabled.toNat ++ leBytes 4 ((s.domain.moduleId.map (·.toNat)).getD 0xFFFFFFFF) ++
  leBytes 4 s.sec.fwVersion.toNat ++ leBytes 4 s.sec.routineRom.toNat ++ leBytes 2 s.steppingCode ++
  leBytes 1 6 ++ leBytes 1 1 ++ leBytes 2 0x0300 ++ leBytes 2 0x03FF ++ leBytes 16 s.fuses.serial.toNat ++
  leBytes 1 s.ownerCode

/-- RUN_ENDED events kept for the next owner session are posted (R525). -/
def State.flushRunEnded (s : State) : State :=
  match s.ownerPath with
  | some p =>
    let v := ((s.session p).map (·.eventVector)).getD 0
    let h := { s.host with runEnded := [] }
    { s with host := s.host.runEnded.foldl (fun h r => h.postUnsolicited p 0x8880 v r.body) h }
  | none => s

/-- Open a session; the opening packet is the session's first inbox packet. -/
def State.openSession (s : State) (h : Hdr) (op : BitVec 16) (b : OpenBody) (v : BitVec 16) : State :=
  let q : Session :=
    { id := s.host.nextSession, owner := b.kind == 1, version := v, nextSeq := h.seq + 1,
      eventVector := b.eventVector.setWidth 4, coalesce := b.coalesce, hostTag := b.hostTag, mask := BitVec.allOnes 64 }
  let s1 := { s with host := { s.host with nextSession := s.host.nextSession + 1 } }
  let s2 := match h.path with
    | .pcie =>
      { s1 with host := { (s1.host.restartRings) with
          pcie := some q, inSlot := 1, inDone := 1, ringState := if s1.host.ringState = 1 then 2 else s1.host.ringState } }
    | .mctp => { s1 with host := { s1.host with mctp := some q } }
  (s2.answer h op stOk true (s2.identBody q.id v)).flushRunEnded

/-- The other path. -/
def otherPath : Path → Path
  | .pcie => .mctp
  | .mctp => .pcie

/-- SESSION_OPEN. -/
def execSessionOpen (h : Hdr) (b : OpenBody) (s : State) : Res :=
  s.accept h 0x0001 (fun s =>
    if (s.session h.path).isSome then .next (s.failPlain h 0x0001 stDenied)
    else if b.kind ≠ 1 ∧ b.kind ≠ 2 then .next (s.fail h 0x0001 stDenied 4 0 b.kind.toNat)
    else if 15 < b.eventVector.toNat then .next (s.fail h 0x0001 stDenied 5 0 b.eventVector.toNat)
    else if 1000 < b.coalesce.toNat then .next (s.fail h 0x0001 stDenied 6 0 b.coalesce.toNat)
    else if b.kind = 1 ∧ ((s.session (otherPath h.path)).map (·.owner)).getD false = true then
      .next (s.fail h 0x0001 stDenied 4 0 1)
    else
      match chooseVersion b.versionMin b.versionMax with
      | none => .next (s.fail h 0x0001 stBadVersion 0 0 b.versionMin.toNat)
      | some v => .next (s.openSession h 0x0001 b v))

/-- SESSION_CLOSE: the reply is formed before the session ends. A reply that waits goes with its session. -/
def execSessionClose (h : Hdr) (s : State) : Res :=
  s.accept h 0x0002 (fun s =>
    let s1 := s.endSession h.path
    let r : Reply :=
      { path := h.path, opcode := 0x8002, seq := h.seq, final := true, unsolicited := false, vector := h.vector,
        jobId := h.jobId, status := stOk, version := s.replyVersion h, body := [] }
    if h.noReply then .next s1 else .next (s1.postReply r))

/-- NOP: nothing but the reply; its RING_INDEX has been taken. -/
def execNop (h : Hdr) (s : State) : Res := s.accept h 0x0003 (fun s => .next (s.ok h 0x0003 []))

/-- IDENTIFY: the body of SESSION_OPEN with SESSION 0. -/
def execIdentify (h : Hdr) (s : State) : Res :=
  s.accept h 0x0004 (fun s => .next (s.ok h 0x0004 (s.identBody 0 (s.replyVersion h))))

/-- SESSION_TAKE (R526): over MCTP only; it ends the PCIe session, stops an active run as STOP does, and opens an owner
session in place of any of its own path. -/
def execSessionTake (h : Hdr) (b : OpenBody) (s : State) : Res :=
  s.accept h 0x0005 (fun s =>
    if h.path = .pcie then .next (s.failPlain h 0x0005 stDenied)
    else if b.kind ≠ 1 then .next (s.fail h 0x0005 stDenied 4 0 b.kind.toNat)
    else if 15 < b.eventVector.toNat then .next (s.fail h 0x0005 stDenied 5 0 b.eventVector.toNat)
    else if 1000 < b.coalesce.toNat then .next (s.fail h 0x0005 stDenied 6 0 b.coalesce.toNat)
    else
      match chooseVersion b.versionMin b.versionMax with
      | none => .next (s.fail h 0x0005 stBadVersion 0 0 b.versionMin.toNat)
      | some v =>
        let s1 := (s.endSession .pcie).endSession .mctp
        .next ((s1.endRun .stop).openSession h 0x0005 b v))

end Sys2Proof.Machine
end

