-- ==== Sys2Proof/Machine/Image.lean ====
section
/-! DEFINITION. Images (R225 to R234, R283, R298, R304, R325, R348, R392, R528, R565, R596, R597): the container header, the
loader's nine steps, the placement of tiles and sections, and the commands of group 0x01. -/

namespace Sys2Proof.Machine

/-! ### The container header (Table 06.8) -/

/-- The fields of a container header. -/
structure Header where
  magic : Nat
  format : Nat
  flags : Nat
  headerSize : Nat
  eci : Nat
  tileMin : Nat
  tileMax : Nat
  mapMode : Nat
  routeBound : Nat
  romMin : Nat
  bodySize : Nat
  requiredMap : BitVec 128
  ltHash : Digest
  eciDigest : Digest
  imageDigest : Digest
  signerKey : Key
  signature : Signature
  deriving DecidableEq, Repr

/-- A digest at an offset. -/
def digestAt (bs : Bytes) (o : Nat) : Digest := BitVec.ofNat 512 (beNat (slice bs o 64))

/-- The header that 512 bytes spell. -/
def headerOf (bs : Bytes) : Header :=
  { magic := fieldAt bs 0 4, format := fieldAt bs 4 2, flags := fieldAt bs 6 2, headerSize := fieldAt bs 8 4,
    eci := fieldAt bs 0xC 2, tileMin := fieldAt bs 0xE 2, tileMax := fieldAt bs 0x10 2, mapMode := fieldAt bs 0x12 1,
    routeBound := fieldAt bs 0x13 1, romMin := fieldAt bs 0x14 4, bodySize := fieldAt bs 0x18 8,
    requiredMap := BitVec.ofNat 128 (fieldAt bs 0x20 16), ltHash := digestAt bs 0x40, eciDigest := digestAt bs 0x80,
    imageDigest := digestAt bs 0xC0, signerKey := BitVec.ofNat 256 (fieldAt bs 0x100 32),
    signature := BitVec.ofNat 512 (fieldAt bs 0x120 64) }

/-- Bytes of the module HBM address space (R322). -/
def hbmSize : Nat := 0x28000000000

/-- Step 1: MAGIC, FORMAT, HEADER_SIZE, and a body inside the address space. -/
def headerForm (h : Header) (addr : Nat) : Bool :=
  decide (h.magic = 0x4D495943) && decide (h.format = 3) && decide (h.headerSize = 0x200) &&
  decide (addr + 512 + h.bodySize ≤ hbmSize)

/-- Step 2 with enforcement on: signed, by an enrolled key, and the signature verifies (R597). -/
def SecState.admits (x : SecState) (flags : Nat) (key : Key) (sig : Signature) (front : Bytes) : Bool :=
  decide (flags % 2 = 1) && x.keys.any (fun e => e.2 == key) && ed25519Verify key front sig

/-! ### Latency tables (R73, R75, R621) -/

/-- Canonical form of LT-A1. -/
def ltFormA1 : Bytes := [0x43, 0x59, 0x32, 0x4C, 0x54, 0x42, 0x4C, 0x31, 0xA1, 0x00, 8, 9, 6, 0, 0, 0]
/-- Canonical form of LT-B0. -/
def ltFormB0 : Bytes := [0x43, 0x59, 0x32, 0x4C, 0x54, 0x42, 0x4C, 0x31, 0xB0, 0x00, 6, 7, 5, 0, 0, 0]

/-- LT_ID of an accepted LT_HASH (Table 02.5): LT-B0 does not run on stepping A1. -/
def State.ltOf (s : State) (d : Digest) : Option (BitVec 16) :=
  if d = sha512 ltFormA1 then some 0x00A1
  else if d = sha512 ltFormB0 ∧ s.fuses.steppingA1 = false then some 0x00B0 else none

/-- Every image loaded for a job names the same latency table (R75); the image that the load replaces does not count. -/
def State.ltAgrees (s : State) (handle : Nat) (job lt : BitVec 16) : Bool :=
  s.host.images.all (fun e => e.1 == handle || e.2.jobId != job || e.2.ltId == lt)

/-! ### Tiles (R232) -/

/-- Numbers of the set bits of a map, in increasing order. -/
def mapTileList (m : BitVec 128) : List TileNo := (List.finRange 128).filter (fun t => m.getLsbD t.val)

/-- The physical tiles of the logical tiles, none where the rules of R232 do not hold. -/
def State.placeTiles (s : State) (h : Header) : Option (List TileNo) :=
  let enabled := mapTileList s.fuses.enabled
  match h.mapMode with
  | 0 => if h.tileMin ≤ enabled.length then some (enabled.take (min enabled.length h.tileMax)) else none
  | 1 => if s.fuses.enabled = h.requiredMap then some (mapTileList h.requiredMap) else none
  | 2 => if s.fuses.enabled &&& h.requiredMap = h.requiredMap then some (mapTileList h.requiredMap) else none
  | _ => none

/-! ### Sections (R234, R325, R565) -/

/-- Every band that a range touches has a section's mode and class. -/
def State.bandsFit (s : State) (x : SectionDecl) (a : Nat) : Bool :=
  (List.range ((a + x.size - 1) / 2 ^ 35 + 1 - a / 2 ^ 35)).all (fun i =>
    s.bandMode (a / 2 ^ 35 + i) == x.mode.val && s.bandClassW (a / 2 ^ 35 + i) == x.classW)

/-- Stacks that a range touches. -/
def State.stacksTouched (s : State) (a size : Nat) : List Nat :=
  ((List.range (size / 2 ^ 30 + 1)).flatMap (fun j => (List.range 33).map (fun i =>
    s.stackOf (min (a + size - 1) (a + j * 2 ^ 30 + i * 4096))))).dedup

/-- A class A section keeps off the stacks with a failed core die (R565). -/
def State.stacksFit (s : State) (x : SectionDecl) (a : Nat) : Bool :=
  x.classW || (s.stacksTouched a x.size).all (fun k => (s.stack k).failedDies == 0)

/-- Place a section at the first multiple of 4 KiB from a cursor on, or from a later band's start on, where it fits below the
limit (log entry 28). -/
def State.placeSection (s : State) (x : SectionDecl) (cursor limit : Nat) : Option Nat :=
  let a := ceilDiv cursor 4096 * 4096
  let tries := a :: (List.range 80).map (fun i => (a / 2 ^ 35 + 1 + i) * 2 ^ 35)
  tries.find? (fun b => decide (b + x.size ≤ limit) && decide (b + x.size ≤ hbmSize) && (x.size == 0 || s.bandsFit x b))

/-- Place the sections one after another. -/
def State.placeSections (s : State) (limit : Nat) : Nat → List SectionDecl → Option (List Nat)
  | _, [] => some []
  | cursor, x :: r =>
    match s.placeSection x cursor limit with
    | none => none
    | some a => (State.placeSections s limit (a + x.size) r).map (fun t => a :: t)

/-- Write the sections. -/
def State.writeSections (s : State) : List (SectionDecl × Nat) → State
  | [] => s
  | (x, a) :: r => State.writeSections (s.writeHbm a (padTo x.size x.data)) r

/-! ### Checks of step 8 -/

/-- Bytes of the channel landing memory that a logical tile's channels and slots take (R283). -/
def landingBytes (b : ImageBody) (l : Nat) : Nat :=
  let chans := b.channels.filter (fun c => match c.recv with
    | .tile t _ => decide (t = l)
    | .port _ _ _ => false)
  let combs := b.combs.filter (fun c => decide (c.logical = l))
  (chans.map (fun c => c.depth * c.msgSize)).sum + (combs.map (fun c => 4 * c.elems * c.slots)).sum

/-- R283 on every logical tile. -/
def landingFits (b : ImageBody) (tiles : Nat) : Bool :=
  (List.range tiles).all (fun l => decide (landingBytes b l + b.holdKiB * 1024 ≤ 1048576))

/-- No target of watches holds more than 32 entries (R298). -/
def watchesFit (b : ImageBody) : Bool :=
  b.watches.all (fun w => decide ((b.watches.filter (fun x => x.target == w.target)).length ≤ 32))

/-- Participants of a cluster or die barrier lie in one cluster or die (R304). -/
def barriersFit (b : ImageBody) (tiles : List TileNo) : Bool :=
  b.barriers.all (fun d =>
    let ps := d.participants.filterMap (fun l => tiles[l]?)
    match d.scope with
    | .cluster => decide ((ps.map (fun t => clusterOf t.val)).dedup.length ≤ 1)
    | .die => decide ((ps.map (fun t => dieOf t.val)).dedup.length ≤ 1)
    | _ => true)

/-- A range of stack addresses lies in the stack and in stack-local bands. -/
def State.stackLocal (s : State) (a n : Nat) : Bool :=
  decide (a + n ≤ 80 * 2 ^ 30) &&
  (List.range ((a + n - 1) / 2 ^ 30 + 1 - a / 2 ^ 30)).all (fun i => s.bandMode (a / 2 ^ 30 + i) == 2)

/-- A compact slot's range is whole groups, or ends with its tensor (R348). -/
def compactFits (e : PlanEntry) (x : PlanSlot) : Bool :=
  match x.grain with
  | .compact =>
    e.elemFirst % 1024 == 0 &&
    ((e.elemFirst + e.elemCount) % 1024 == 0 || x.tensorElems == some (e.elemFirst + e.elemCount))
  | .blockTable => x.role == .passive
  | .full => true

/-- A plan's addresses and slots (R348, R360). -/
def State.planFits (s : State) (p : UpdatePlan) : Bool :=
  s.stackLocal p.markBase (64 * p.markLines) && s.stackLocal p.gateBase (256 * 64 * 64) &&
  p.entries.all (fun e =>
    s.stackLocal e.gradBase (planBuckets e * planBucketStride e) &&
    e.slots.all (fun x => s.stackLocal x.base (slotLen x.grain e.elemCount) && compactFits e x) &&
    decide (e.scalarBase + 64 * e.scalarLines ≤ 80 * 2 ^ 30) &&
    (match e.copy with
     | .none => true
     | .e4m3 => decide (e.copyBase + e.elemCount ≤ 80 * 2 ^ 30)
     | _ => decide (e.copyBase + 2 * e.elemCount ≤ 80 * 2 ^ 30)))

/-- A plan's fields are in the ranges of Table 10.2 and Table 10.3, and a refresh has an order that an update engine
takes (R368). -/
def planRanges (programs : List UpdateProgram) (p : UpdatePlan) : Bool :=
  decide (p.entries.length ≤ 4096 ∧ 1 ≤ p.markLines ∧ p.markLines ≤ 65536 ∧ p.markBase % 64 = 0 ∧ p.gateBase % 64 = 0) &&
  p.entries.all (fun e =>
    decide (e.program < programs.length ∧ 1 ≤ e.slots.length ∧ e.slots.length ≤ 6 ∧ e.elemFirst % 256 = 0 ∧ 256 ≤ e.elemCount ∧
      e.elemCount ≤ 2 ^ 32 ∧ e.gate < 256 ∧ 0 < e.bucketElems ∧ e.bucketElems % 256 = 0 ∧ 1 ≤ e.scalarLines ∧
      e.scalarLines ≤ 4096 ∧ e.markFirst + planBuckets e ≤ p.markLines) &&
    (match programs[e.program]? with
     | some q => (match q.refresh with
        | some r => r.order == 256 || r.order == 512
        | none => true)
     | none => false))

/-- The update programs and plans (R348). -/
def State.plansFit (s : State) (b : ImageBody) : Bool :=
  decide ((b.programs.map (·.codeBytes)).sum ≤ 131072) && b.plans.all (fun p => s.planFits p.2)

/-- The hold area is 128 to 768 KiB in steps of 64 KiB (R253). -/
def holdFits (b : ImageBody) : Bool := decide (128 ≤ b.holdKiB ∧ b.holdKiB ≤ 768 ∧ b.holdKiB % 64 = 0)

/-- Two ranges share no byte. -/
def rangesApart (a n b m : Nat) : Bool := decide (a + n ≤ b) || decide (b + m ≤ a)

/-- The regions of every tile are aligned, lie within the scratchpad and do not overlap (R244). -/
def regionsFit (b : ImageBody) : Bool :=
  b.regions.all (fun r => r.2.2.base % 64 == 0 && r.2.2.length % 64 == 0 && decide (r.2.2.base + r.2.2.length ≤ scratchBytes)) &&
  b.regions.all (fun r => b.regions.all (fun q =>
    q.1 != r.1 || q.2.1 == r.2.1 || rangesApart r.2.2.base r.2.2.length q.2.2.base q.2.2.length))

/-- A tile declares each region number once. -/
def regionsOnce (b : ImageBody) : Bool := decide ((b.regions.map (fun r => (r.1, r.2.1.val))).Nodup)

/-- The parcel configuration is in its ranges (R61, Table 02.7). -/
def parcelsFit (b : ImageBody) : Bool :=
  decide (1 ≤ b.parcelSize.toNat ∧ b.parcelSize.toNat ≤ 65536) &&
  decide (1 ≤ b.contributions.toNat ∧ b.contributions.toNat ≤ 1048576) && (b.gradFormat == 1 || b.gradFormat == 2)

/-- No sequential contraction is split across tiles (R59). -/
def contractionsFit (b : ImageBody) : Bool := b.contractions.all (fun c => !c.1 || decide (c.2.length ≤ 1))

/-- The channels' fields are in their ranges; a send endpoint has at most one channel, a plain receive endpoint is the end of one and
a combining one of at most 64 (Table 08.1, R281). -/
def channelsFit (b : ImageBody) : Bool :=
  b.channels.all (fun c =>
    decide (32 ≤ c.msgSize ∧ c.msgSize ≤ 4096 ∧ c.msgSize % 32 = 0 ∧ 1 ≤ c.depth ∧ c.depth ≤ 64) &&
    (match c.send with
     | .tile _ _ => decide ((b.channels.filter (fun d => d.send == c.send)).length = 1)
     | .port _ _ _ => true) &&
    (match c.recv with
     | .tile _ _ => decide ((b.channels.filter (fun d => d.recv == c.recv)).length ≤ if c.kind = .plain then 1 else 64)
     | .port _ _ _ => true))

/-- The slots and elements of the combining endpoints are in their ranges (R290). -/
def combsFit (b : ImageBody) : Bool :=
  b.combs.all (fun c => decide (1 ≤ c.slots ∧ c.slots ≤ 64 ∧ 256 ≤ c.elems ∧ c.elems ≤ 1024 ∧ c.elems % 256 = 0))

/-- The reduction contexts are numbered once, with groups and bucket sizes in their ranges (R411, Table 12.1). -/
def contextsFit (b : ImageBody) : Bool :=
  decide ((b.contexts.map (·.context.val)).Nodup) &&
  b.contexts.all (fun c => decide (1 ≤ c.groups.length ∧ c.groups.length ≤ 4096) &&
    c.groups.all (fun g => decide (0 < g.2.1 ∧ 0 < g.2.2) && g.2.2 % 1024 == 0))

/-- An image with an FP32 combining queue declares arrival-order combining (R51, R52). -/
def arrivalFits (b : ImageBody) (flags : Nat) : Bool := b.combs.all (fun c => c.op != .addFp32 || flags.testBit 1)

/-- What the loader's verifier refuses of the image's declarations, beside its reading of the schedule (R238): the parcel
configuration, split contractions, undeclared arrival order, channels, contexts, regions, the hold area and the fields of the update plans (log
entry 114). -/
def verifierFits (b : ImageBody) (flags : Nat) : Bool :=
  b.verifierAccepts && parcelsFit b && contractionsFit b && arrivalFits b flags && channelsFit b && combsFit b && contextsFit b &&
  regionsFit b && regionsOnce b && holdFits b && b.plans.all (fun p => planRanges b.programs p.2)

/-- Step 8 but for the sections. -/
def State.step8 (s : State) (h : Header) (b : ImageBody) (tiles : List TileNo) : Bool :=
  routesFit b tiles h.routeBound && landingFits b tiles.length && watchesFit b && barriersFit b tiles && s.plansFit b &&
  !(s.domain.version == 1 && decide (8 < b.contexts.length))

/-! ### The loader (R231) -/

/-- Outcome of the loader's checks: the failed step with its status, or what the checks found. -/
inductive LoadResult where
  | failed (step : Nat) (status : BitVec 16)
  | checked (lt : BitVec 16) (tiles : List TileNo) (body : ImageBody)
  deriving DecidableEq, Repr

/-- Steps 1 to 7 on a container. A body that the private decoder cannot read fails with the verifier. -/
def State.loadChecks (s : State) (handle addr : Nat) (job : BitVec 16) (body : Option ImageBody) : LoadResult :=
  let head := s.readHbm addr 512
  let h := headerOf head
  if !headerForm h addr then .failed 1 stBadVersion
  else if s.sec.enforce && !s.sec.admits h.flags h.signerKey h.signature (head.take 0x120) then .failed 2 stDenied
  else if h.imageDigest ≠ sha512 (head.take 0xC0 ++ s.readHbm (addr + 512) h.bodySize) then .failed 3 stRejected
  else
    match s.ltOf h.ltHash with
    | none => .failed 4 stRejected
    | some lt =>
      if !s.ltAgrees handle job lt then .failed 4 stRejected
      else
        let imports := (body.map (·.imports)).getD []
        if h.eci / 256 ≠ 3 ∨ s.sec.routineRom.toNat < h.romMin ∨
            (imports.all (fun i => s.routines.any (fun r => r.id == i))) = false then .failed 5 stRejected
        else
          match s.placeTiles h with
          | none => .failed 6 stRejected
          | some tiles =>
            match body with
            | some b => if verifierFits b h.flags then .checked lt tiles b else .failed 7 stRejected
            | none => .failed 7 stRejected

/-- The failure reply: the step in VALUE; a load refused at step 2 raises IMAGE_SIGNATURE_REJECTED (R597). -/
def State.loadFailed (s : State) (h : Hdr) (op : BitVec 16) (addr step : Nat) (status : BitVec 16) : State :=
  let s1 := if step = 2 then
      s.event (10, 7) (srcOf 0x0C 0) (digestBytes (headerOf (s.readHbm addr 512)).imageDigest) else s
  s1.fail h op status 0xFFFF 0 step

/-- Bytes of the sections of a kind. -/
def sectionBytes (b : ImageBody) (code : Bool) : Nat := ((b.sections.filter (fun x => x.isCode == code)).map (·.size)).sum

/-- Steps 8 and 9 for an image whose other checks have passed: it is placed and enters its handle. -/
def State.installImage (s : State) (h : Hdr) (x : LoadBody) (lt : BitVec 16) (tiles : List TileNo) (b : ImageBody) : State :=
  let head := s.readHbm x.imageAddr.toNat 512
  let hd := headerOf head
  match s.placeSections x.placeLimit.toNat x.placeBase.toNat b.sections with
  | none => s.loadFailed h 0x0101 x.imageAddr.toNat 8 stRejected
  | some bases =>
    if s.step8 hd b tiles && (b.sections.zip bases).all (fun e => s.stacksFit e.1 e.2) then
      let im : Image :=
        { jobId := h.jobId, ltId := lt, flags := BitVec.ofNat 16 hd.flags, eciVersion := BitVec.ofNat 16 hd.eci,
          tiles := tiles, imageDigest := hd.imageDigest, eciDigest := hd.eciDigest, signerKey := hd.signerKey,
          signatureVerified := s.sec.enforce, head := head, placeBase := x.placeBase.toNat, sectionBases := bases, body := b }
      let s1 := s.writeSections (b.sections.zip bases)
      let s2 := { s1 with host := { s1.host with images := mset s1.host.images x.handle.toNat im } }
      s2.ok h 0x0101 (leBytes 1 x.handle.toNat ++ zeros 7 ++ leBytes 8 (sectionBytes b true) ++ leBytes 8 (sectionBytes b false))
    else s.loadFailed h 0x0101 x.imageAddr.toNat 8 stRejected

/-- LOAD_IMAGE (R231, R528): ACCEPTED, then the loader's nine steps and the final reply. -/
def execLoadImage (h : Hdr) (x : LoadBody) (body : Option ImageBody) (s : State) : Res :=
  s.accept h 0x0101 (fun s =>
    if 15 < x.handle.toNat then .next (s.fail h 0x0101 stDenied 0 0 x.handle.toNat)
    else if s.runActive then .next (s.failPlain h 0x0101 stBusy)
    else
      let s1 := s.reply h 0x0101 stAccepted false []
      match s1.loadChecks x.handle.toNat x.imageAddr.toNat h.jobId body with
      | .failed step status => .next (s1.loadFailed h 0x0101 x.imageAddr.toNat step status)
      | .checked lt tiles b => .next (s1.installImage h x lt tiles b))

/-- VERIFY_IMAGE (R528): steps 1 to 7; it loads nothing. -/
def execVerifyImage (h : Hdr) (x : LoadBody) (body : Option ImageBody) (s : State) : Res :=
  s.accept h 0x0102 (fun s =>
    if 15 < x.handle.toNat then .next (s.fail h 0x0102 stDenied 0 0 x.handle.toNat)
    else if x.placeBase ≠ 0 ∨ x.placeLimit ≠ 0 then .next (s.fail h 0x0102 stDenied 16 0 x.placeBase.toNat)
    else
      let s1 := s.reply h 0x0102 stAccepted false []
      match s1.loadChecks x.handle.toNat x.imageAddr.toNat h.jobId body with
      | .failed step status => .next (s1.loadFailed h 0x0102 x.imageAddr.toNat step status)
      | .checked _ _ _ => .next (s1.ok h 0x0102 []))

/-- UNLOAD_IMAGE: a handle that holds no image is answered DENIED. -/
def execUnloadImage (h : Hdr) (handle : Byte) (s : State) : Res :=
  s.accept h 0x0103 (fun s =>
    if s.runActive then .next (s.failPlain h 0x0103 stBusy)
    else
      match mfind s.host.images handle.toNat with
      | none => .next (s.fail h 0x0103 stDenied 0 0 handle.toNat)
      | some _ =>
        .next (({ s with host := { s.host with images := merase s.host.images handle.toNat } }).ok h 0x0103 []))

/-- LIST_IMAGES: 80 B for each loaded handle. -/
def execListImages (h : Hdr) (s : State) : Res :=
  s.accept h 0x0104 (fun s => .next (s.ok h 0x0104 (s.host.images.flatMap (fun e =>
    leBytes 1 e.1 ++ zeros 1 ++ leBytes 2 e.2.jobId.toNat ++ leBytes 2 e.2.ltId.toNat ++ leBytes 2 e.2.tiles.length ++
    digestBytes e.2.imageDigest ++ zeros 8))))

end Sys2Proof.Machine
end

