-- ==== Sys2Proof/Machine/Data.lean ====
section
/-! DEFINITION. Data movement, group 0x02 and BAR4 (R324, R512, R529, R530): the host DMA engine, the movable aperture and
the memory layout. -/

namespace Sys2Proof.Machine

/-! ### Host DMA (R529, R530) -/

/-- A transfer meets the conditions of R529. -/
def dmaFits (b : DmaBody) : Bool :=
  b.hostAddr.toNat % 64 == 0 && b.hbmAddr.toNat % 64 == 0 && b.length.toNat % 64 == 0 && decide (64 ≤ b.length.toNat) &&
  decide (b.length.toNat ≤ 2 ^ 40) && decide (b.hbmAddr.toNat + b.length.toNat ≤ hbmSize)

/-- Deadline of a transfer: its NEED_BY where OPTIONS[0] says it is valid (R38). -/
def dmaDeadline (b : DmaBody) : Option DWord := if b.options.getLsbD 0 then some b.needBy else none

/-- Transfers queued on a channel behind the running one. -/
def HostState.queued (h : HostState) (c : Nat) : Nat := (h.dmaQueue.filter (fun e => e.1 == c)).length

/-- DMA_START: the transfer runs, or waits in its channel's queue of 64. -/
def execDmaStart (h : Hdr) (b : DmaBody) (s : State) : Res :=
  s.accept h 0x0201 (fun s =>
    let c := b.channel.toNat
    let d : Dma := { hdr := h, body := b }
    if 15 < c then .next (s.fail h 0x0201 stDenied 0 0 c)
    else if 1 < b.dir.toNat then .next (s.fail h 0x0201 stDenied 1 0 b.dir.toNat)
    else if dmaFits b = false then .next (s.failPlain h 0x0201 stDenied)
    else if (mfind s.host.dmaRunning c).isSome = true ∧ 64 ≤ s.host.queued c then .next (s.failPlain h 0x0201 stBusy)
    else
      let s1 := s.reply h 0x0201 stAccepted false []
      let x := s1.host
      if (mfind x.dmaRunning c).isSome then .next { s1 with host := { x with dmaQueue := x.dmaQueue ++ [(c, d)] } }
      else .next { s1 with host := { x with dmaRunning := mset x.dmaRunning c d } })

/-- Take the first queued transfer of a channel into its empty place. -/
def HostState.startNext (h : HostState) (c : Nat) : HostState :=
  let i := h.dmaQueue.findIdx (fun e => e.1 == c)
  match h.dmaQueue[i]? with
  | some e => { h with dmaRunning := mset h.dmaRunning c e.2, dmaQueue := h.dmaQueue.eraseIdx i }
  | none => h

/-- A channel's running transfer is over. -/
def State.endDma (s : State) (c : Nat) : State :=
  { s with host := ({ s.host with dmaRunning := merase s.host.dmaRunning c }).startNext c }

/-- Cut data over a scatter list of ADDR and LEN pairs: host writes in list order (R529). -/
def scatter : Nat → Bytes → Bytes → List (DWord × Bytes)
  | 0, _, _ => []
  | fuel + 1, list, data =>
    if data.isEmpty then []
    else
      let n := fieldAt list 8 8
      (BitVec.ofNat 64 (fieldAt list 0 8), data.take n) :: scatter fuel (list.drop 16) (data.drop n)

/-- A range touches a band that is being zeroed (R324). -/
def State.waitsZero (s : State) (a n : Nat) : Bool := (bandsOf a n).any (fun b => s.mem.zeroing.contains b)

/-- Write to the host. -/
def State.hostWrite (s : State) (ws : List (DWord × Bytes)) : State :=
  { s with host := { s.host with hostWrites := s.host.hostWrites ++ ws } }

/-- The final reply of a transfer that read an uncorrectable codeword: CONTRACT_FAULT with the fault's record (R530, R514). -/
def State.dmaFault (s : State) (d : Dma) (k cw : Nat) : State :=
  let s1 := s.raiseHbm k cw
  let f := s.hwRecord hwHbm (srcOf 6 k) (BitVec.ofNat 64 cw)
    (BitVec.ofNat 64 (k + 256 * (cw / 2 ^ 30) + 65536 * (if s.bandClassW (cw / 2 ^ 30) then 1 else 0)))
  s1.reply d.hdr 0x0201 stContractFault true (leBytes 2 1 ++ f.bytes)

/-- DMA_COMPLETE: the channel's running transfer has moved all its bytes; it waits while a band it touches is zeroed, and while a
request that goes before it waits at one of its controllers (R37, R38). -/
def execDmaComplete (c : Fin 16) (hostData : Bytes) (s : State) : Res :=
  match mfind s.host.dmaRunning c.val with
  | none => .next s
  | some d =>
    let a := d.body.hbmAddr.toNat
    let n := d.body.length.toNat
    if s.waitsZero a n || s.netAhead (dmaDeadline d.body) a n then .next s
    else
      let s1 := s.endDma c.val
      let done := leBytes 8 n
      if d.body.dir = 0 then
        .next ((s1.hbmPut a (padTo n hostData) (dmaDeadline d.body)).reply d.hdr 0x0201 stOk true done)
      else
        match s.poisonAt a n with
        | some (k, cw) => .next (s1.dmaFault d k cw)
        | none =>
          let data := s.readHbm a n
          let ws := if d.body.options.getLsbD 1 then scatter 65536 hostData data else [(d.body.hostAddr, data)]
          .next ((s1.hostWrite ws).reply d.hdr 0x0201 stOk true done)

/-- Stop a running transfer at a 4 KiB boundary: how far it has come is a free value (the spec bounds it and gives no more),
and what it has moved of the host's data is free too. -/
def State.stopDma (s : State) (d : Dma) : State :=
  let n := d.body.length.toNat
  let moved := min n ((Config.freeDWord s.freeCtr).toNat % (n / 4096 + 1) * 4096)
  let s1 := s.drawn 1
  let a := d.body.hbmAddr.toNat
  let s2 := if d.body.dir = 0 then (s1.hbmPut a (freeBytes s1.freeCtr moved) (dmaDeadline d.body)).drawn moved
    else s1.hostWrite [(d.body.hostAddr, s1.readHbm a moved)]
  s2.reply d.hdr 0x0201 stClosed true (leBytes 8 moved)

/-- Answer each discarded transfer CLOSED. -/
def State.discardDmas (s : State) : List Dma → State
  | [] => s
  | d :: r => State.discardDmas (s.reply d.hdr 0x0201 stClosed true (leBytes 8 0)) r

/-- DMA_ABORT (R530). -/
def execDmaAbort (h : Hdr) (channel : Byte) (s : State) : Res :=
  s.accept h 0x0202 (fun s =>
    let c := channel.toNat
    if 15 < c then .next (s.fail h 0x0202 stDenied 0 0 c)
    else
      let queue := (s.host.dmaQueue.filter (fun e => e.1 == c)).map (·.2)
      let s1 := match mfind s.host.dmaRunning c with
        | some d => s.stopDma d
        | none => s
      let s2 := { s1 with host := { s1.host with
        dmaRunning := merase s1.host.dmaRunning c, dmaQueue := s1.host.dmaQueue.filter (fun e => e.1 != c) } }
      .next ((s2.discardDmas queue).ok h 0x0202 []))

/-- DMA_STATUS: BYTES_DONE of a running transfer is a free value up to its length. -/
def execDmaStatus (h : Hdr) (channel : Byte) (s : State) : Res :=
  s.accept h 0x0203 (fun s =>
    let c := channel.toNat
    if 15 < c then .next (s.fail h 0x0203 stDenied 0 0 c)
    else
      let done := match mfind s.host.dmaRunning c with
        | some d => (Config.freeDWord s.freeCtr).toNat % (d.body.length.toNat + 1)
        | none => 0
      .next ((s.drawn 1).ok h 0x0203 (leBytes 1 (s.host.queued c) ++ zeros 7 ++ leBytes 8 done)))

/-! ### The aperture (R512) -/

/-- APERTURE_MOVE: a multiple of 1 GiB with the window inside the address space. -/
def execApertureMove (h : Hdr) (base : DWord) (s : State) : Res :=
  s.accept h 0x0204 (fun s =>
    if base.toNat % 2 ^ 30 ≠ 0 ∨ hbmSize < base.toNat + 2 ^ 36 then .next (s.fail h 0x0204 stDenied 0 0 base.toNat)
    else .next (({ s with host := { s.host with apertureBase := base.toNat } }).ok h 0x0204 []))

/-- A host load at an HBM address. -/
def State.apertureLoad (s : State) (a n : Nat) : State :=
  match s.poisonAt a n with
  | some (k, cw) => s.poisonLoad k cw
  | none => s.completeLoad (some (s.readHbm a n))

/-- APERTURE_ACCESS: an access inside the window of 64 GiB; one to a band that is being zeroed (R324), or behind a request that goes
before it (R38), waits in the memory network. -/
def execApertureAccess (op : ApertureOp) (s : State) : Res :=
  let w := 2 ^ 36
  match op with
  | .load o n =>
    let a := s.host.apertureBase + o
    if w < o + n ∨ n = 0 then .next s
    else if s.waitsZero a n || s.netAhead none a n then
      let r : HbmReq := { who := .aperture, isWrite := false, addr := a, len := n, data := [], deadline := none, remote := none, poison := none }
      .next { s with mem := { s.mem with net := s.mem.net ++ [r] } }
    else .next (s.apertureLoad a n)
  | .store o bs =>
    let a := s.host.apertureBase + o
    if w < o + bs.length ∨ bs = [] then .next s
    else if s.waitsZero a bs.length || s.netAhead none a bs.length then
      let r : HbmReq :=
        { who := .aperture, isWrite := true, addr := a, len := bs.length, data := bs, deadline := none, remote := none, poison := none }
      .next { s with mem := { s.mem with net := s.mem.net ++ [r] } }
    else .next (s.hbmPut a bs none)

/-! ### Memory layout (R324) -/

/-- Zero a band: its bytes and its poisoned codewords go, and requests to it wait. -/
def State.zeroBand (s : State) (b : Nat) : State :=
  let clean (x : Stack) : Stack :=
    let p := x.poison.filter (fun cw => decide (cw / 2 ^ 30 ≠ b))
    { x with poison := p, poisonFull := x.poisonFull && decide (256 ≤ p.length) }
  { s with mem := { s.mem with
      hbm := zeroRange s.mem.hbm (b * 2 ^ 35) (2 ^ 35), zeroing := if b ∈ s.mem.zeroing then s.mem.zeroing else s.mem.zeroing ++ [b],
      stackMap := s.mem.stackMap.map (fun e => (e.1, clean e.2)) } }

/-- Bands whose mode or class a layout changes. -/
def State.changedBands (s : State) (first : Nat) (bs : Bytes) : List Nat :=
  (bs.zipIdx.filter (fun (e : Byte × Nat) => mget 0 s.mem.bands (first + e.2) != e.1.setWidth 3)).map (fun e => first + e.2)

/-- MEMORY_LAYOUT: the band table of every controller is written, and each band that changes is zeroed. -/
def execMemoryLayout (h : Hdr) (first count : Byte) (bands : List (Byte × Byte)) (s : State) : Res :=
  s.accept h 0x0205 (fun s =>
    if bands.length ≠ count.toNat then .next (s.fail h 0x0205 stBadLength 1 0 count.toNat)
    else if count = 0 ∨ 80 < first.toNat + count.toNat then .next (s.fail h 0x0205 stDenied 0 0 first.toNat)
    else if bands.any (fun b => decide (2 < b.1.toNat ∨ 1 < b.2.toNat)) then .next (s.fail h 0x0205 stDenied 2 0 0)
    else if s.runActive then .next (s.failPlain h 0x0205 stBusy)
    else
      let bs := bands.map (fun b => BitVec.ofNat 8 (b.1.toNat + 4 * b.2.toNat))
      let s1 := (s.changedBands first.toNat bs).foldl State.zeroBand s
      .next ((s1.fwBands first.toNat bs).ok h 0x0205 []))

/-- BAND_ZEROING_DONE: requests to the band go on. -/
def execBandZeroingDone (band : Fin 80) (s : State) : Res :=
  .next { s with mem := { s.mem with zeroing := s.mem.zeroing.filter (fun b => b != band.val) } }

end Sys2Proof.Machine
end

