-- ==== Sys2Proof/Machine/RunControl.lean ====
section
/-! DEFINITION. Run control, group 0x03 (R50 to R53, R66, R74, R203, R221 to R225, R280, R301 to R303, R315, R355, R500, R531,
R532): the checks on a RUN, what it sets up on every tile and unit, STOP, STEP and the job's parameters. -/

namespace Sys2Proof.Machine

/-! ### Jobs (R527, Table 15.12) -/

/-- A job of which nothing has been said: T = 12, STOP, a lead of 4. -/
def Job.fresh : Job :=
  { tag := 0, seed := 0, checkT := 12, closureContinue := false, lead := 4, records := [], started := false }

/-- The job of an ID. -/
def State.jobOf (s : State) (id : BitVec 16) : Job := (mfind s.host.jobs id.toNat).getD Job.fresh

/-- Put a job. -/
def State.setJob (s : State) (id : BitVec 16) (j : Job) : State :=
  { s with host := { s.host with jobs := mset s.host.jobs id.toNat j } }

/-- JOB_CONFIG. -/
def execJobConfig (h : Hdr) (checkT closure lead : Byte) (s : State) : Res :=
  s.accept h 0x0304 (fun s =>
    if 30 < checkT.toNat then .next (s.fail h 0x0304 stDenied 0 0 checkT.toNat)
    else if 1 < closure.toNat then .next (s.fail h 0x0304 stDenied 1 0 closure.toNat)
    else if 64 < lead.toNat then .next (s.fail h 0x0304 stDenied 2 0 lead.toNat)
    else if s.runActive && s.run.jobId == h.jobId then .next (s.failPlain h 0x0304 stBusy)
    else
      let j := { s.jobOf h.jobId with
        checkT := if checkT = 0 then 12 else checkT.toNat, closureContinue := closure == 1,
        lead := if lead = 0 then 4 else lead.toNat }
      .next ((s.setJob h.jobId j).ok h 0x0304 []))

/-! ### The patch list (R221, R222) -/

/-- Logical tiles that an entry names, none where it names a register, tile, group or SELECT that does not exist. -/
def patchTiles (im : Image) (p : PatchEntry) : Option (List Nat) :=
  let t := im.tiles.length
  if 63 < p.reg.toNat then none
  else if p.select = 0 then some (List.range t)
  else if p.select = 1 then (if p.target.toNat < t then some [p.target.toNat] else none)
  else if p.select = 2 then (im.body.groups.find? (fun g => decide (g.1 = p.target.toNat))).map (·.2)
  else none

/-- The values of the P registers that a patch list gives a logical tile, in list order. -/
def patchesFor (im : Image) (l : Nat) (ps : List PatchEntry) : List (Nat × DWord) :=
  ps.filterMap (fun p =>
    if ((patchTiles im p).getD []).contains l then some (p.reg.toNat, p.value) else none)

/-! ### What a RUN sets up -/

/-- Physical tile of a logical one. -/
def imageTile (im : Image) (l : Nat) : TileNo := (im.tiles[l]?).getD 0

/-- A mask of logical tiles as one of physical tiles (R234). -/
def physMask (im : Image) (m : BitVec 128) : BitVec 128 :=
  ((List.range im.tiles.length).filter m.getLsbD).foldl (fun p l => p ||| (1 <<< (imageTile im l).val)) 0

/-- The initial value that an image gives a P register of a logical tile, 0 where it gives none. -/
def pValue (im : Image) (l : Nat) (r : PReg) : DWord :=
  ((im.body.pInit.filter (fun e => decide (e.1 = l) && e.2.1 == r)).getLast?.map (·.2.2)).getD 0

/-- The declared window masks of a logical tile, rewritten from logical to physical tiles (R234, R257). -/
def initialMasks (im : Image) (l : Nat) : List (Nat × DWord) :=
  (im.body.masks.filter (fun e => decide (e.1 = l))).flatMap (fun e =>
    let m := physMask im (pValue im l e.2.2 ++ pValue im l e.2.1)
    [(e.2.1.val, m.setWidth 64), (e.2.2.val, (m >>> 64).setWidth 64)])

/-- The P registers at run cycle 0: the image's initial values with its window masks rewritten, relocated section addresses, then
the patch list (R203, R223, R234). -/
def initialP (im : Image) (l : Nat) (ps : List PatchEntry) : List (Nat × DWord) :=
  (im.body.pInit.filter (fun e => decide (e.1 = l))).map (fun e => (e.2.1.val, e.2.2)) ++ initialMasks im l ++
  (im.body.sections.zip im.sectionBases).filterMap (fun e =>
    match e.1.reg with
    | some (who, r) => if who = none ∨ who = some l then some (r.val, BitVec.ofNat 64 e.2) else none
    | none => none) ++
  patchesFor im l ps

/-- Set P registers in list order. -/
def Regs.setPs (r : Regs) : List (Nat × DWord) → Regs
  | [] => r
  | (i, v) :: rest => Regs.setPs (r.setP i v) rest

/-- The registers of Table 06.3. -/
def State.initialRegs (s : State) (im : Image) (l : Nat) (first : Word) (ps : List PatchEntry) : Regs :=
  let r := ((((Regs.zero).setG 0 (BitVec.ofNat 64 l)).setG 1 (BitVec.ofNat 64 im.tiles.length)).setG 2
    (BitVec.ofNat 64 s.moduleIdNat)).setG 3 (first.setWidth 64)
  (r.setM 0 (BitVec.allOnes 256)).setPs (initialP im l ps)

/-- Where the messages of a channel come from, as its receive endpoint sees it. -/
def State.originOf (s : State) (im : Image) : ChanEnd → MsgOrigin
  | .tile l e => .tile (imageTile im l) e
  | .port far l e =>
    let (m, tie) := s.farModule far
    let t := Fin.ofNat 128 (s.farTile m l)
    .port (portNo (s.boundPort tie m (s.farOrdinal m t.val e.val))) (BitVec.ofNat 20 m) t e

/-- The need-by offset of a port channel at its receive endpoint, under the channel's key (R38, Table 08.1). -/
def needByOf (c : ChanDecl) (o : MsgOrigin) : SMap Nat :=
  match o with
  | .port _ m t e => [(m.toNat * 8192 + t.val * 64 + e.val, c.needBy)]
  | .tile _ _ => []

/-- Set up the receive end of a channel on a tile; a combining endpoint gathers the senders of all its channels. -/
def State.setupRecv (s : State) (im : Image) (l : Nat) (x : Tile) (c : ChanDecl) : Tile :=
  match c.recv with
  | .tile t e =>
    if t = l then
      let old := x.recv e.val
      let d := im.body.combs.find? (fun d => decide (d.logical = l) && d.ep == e)
      let base : RecvEp := { RecvEp.reset with discards := old.discards, filterDiscards := old.filterDiscards }
      let keep := if old.declared then old.senders else []
      let needs := if old.declared then old.needBy else []
      x.setRecv e.val { base with
        declared := true, kind := c.kind, msgSize := c.msgSize, slots := (d.map (·.slots)).getD 0,
        elems := (d.map (·.elems)).getD 0, op := (d.map (·.op)).getD .addInt, fmt := (d.map (·.fmt)).getD .int32,
        filter := d.bind (·.filter), senders := keep ++ [s.originOf im c.send],
        needBy := (needByOf c (s.originOf im c.send)).foldl (fun m e => mset m e.1 e.2) needs }
    else x
  | .port _ _ _ => x

/-- The virtual channel of a channel: its context's where it has one (Table 08.1). -/
def chanVc (im : Image) (c : ChanDecl) : Fin 8 :=
  match c.context with
  | some k => ((im.body.contexts.find? (fun d => d.context == k)).map (·.vc)).getD c.vc
  | none => c.vc

/-- Set up the send end of a channel on a tile: its credit is DEPTH. -/
def setupSend (im : Image) (l : Nat) (x : Tile) (c : ChanDecl) : Tile :=
  match c.send with
  | .tile t e =>
    if t = l then
      let dest := match c.recv with
        | .tile r _ => (imageTile im r).val
        | .port _ _ _ => 0xFFFF
      let destEp := match c.recv with
        | .tile _ re => re
        | .port _ _ re => re
      let y : SendEp := { SendEp.reset with
        declared := true, credit := c.depth, discards := (x.send e.val).discards, msgSize := c.msgSize, depth := c.depth,
        tolerant := c.tolerant, kind := c.kind, dest := c.recv, destTile := dest, destEp := destEp, context := c.context,
        vc := chanVc im c }
      x.setSend e.val y
    else x
  | .port _ _ _ => x

/-- Endpoints before the channels are set up: their counters stay (R545). -/
def clearedEndpoints (x : Tile) : Tile :=
  { x with sends := x.sends.map (fun e => (e.1, { SendEp.reset with discards := e.2.discards })),
           recvs := x.recvs.map (fun e => (e.1, { RecvEp.reset with
             discards := e.2.discards, filterDiscards := e.2.filterDiscards })) }

/-- A tile of the image at run cycle 0. The scratchpad, the array's contents and the counters that only MRST_N clears stay. -/
def State.startTile (s : State) (im : Image) (first : Word) (ps : List PatchEntry) (l : Nat) : Tile :=
  let old := clearedEndpoints (s.tile (imageTile im l).val)
  let b := im.body
  let regs := s.initialRegs im l first ps
  let watches := (b.watches.filter (fun w => decide (w.logical = l))).map (fun w =>
    (w.handle.val, { WatchEntry.reset with target := (imageTile im w.target).val, declared := true }))
  let base : Tile := { Tile.reset with
    logical := some l, holdAreaCode := BitVec.ofNat 4 (b.holdKiB / 64 - 2), regs := regs, samp := regs,
    istore := (List.range (min 2048 b.codeLines)).map (fun i => (i, i)), holdFull := old.holdFull, eccW := old.eccW,
    eccA := old.eccA, eccIstore := old.eccIstore, scratch := old.scratch, upsets := old.upsets,
    regions := (b.regions.filter (fun r => decide (r.1 = l))).foldl (fun m r => mset m r.2.1.val r.2.2) [],
    array := { old.array with
      accLate := [], whole := .idle, loader := .idle, feeder := .idle, accumStage := .idle, drainEngine := .idle, issued := 0,
      drained := [], isOpen := false },
    refusals := old.refusals, sends := old.sends, recvs := old.recvs,
    sems := (b.sems.filter (fun r => decide (r.1 = l))).foldl (fun m r => mput 0 m r.2.1.val r.2.2) [],
    watches := watches.foldl (fun m w => mset m w.1 w.2) [] }
  let x := b.channels.foldl (setupSend im l) (b.channels.foldl (State.setupRecv s im l) base)
  { x with atStart := x.view }

/-- What every tile clears at a RUN, in the image or not: the counters of stall, held, miss and freeze cc, the sticky flags and the
check-shot histogram, and the rearm overruns (R120, R141, R179, R207, R227, R545, R548). -/
def Tile.clearAtRun (t : Tile) : Tile :=
  { t with stall := [], held := 0, miss := 0, freeze := 0, flags := 0, checkHist := [], checkEvents := 0,
           descs := t.descs.map (fun e => (e.1, { e.2 with overrun := false })) }

/-- Put the image's tiles. -/
def State.startTiles (s : State) (im : Image) (first : Word) (ps : List PatchEntry) : List Nat → State
  | [] => s
  | l :: r => State.startTiles (s.setTile (imageTile im l).val (s.startTile im first ps l)) im first ps r

/-- Expected arrivals of a barrier's counters: its tiles in each cluster, its clusters in each die, its dies (R301, R303). -/
def barrierCounters (im : Image) (d : BarrierDecl) : List (Nat × BarrierCounter) :=
  let ps := d.participants.map (fun l => (imageTile im l).val)
  let clusters := (ps.map clusterOf).dedup
  let dies := (ps.map dieOf).dedup
  let mk (n : Nat) : BarrierCounter := { expected := n, bank0 := 0, bank1 := 0, round := 0 }
  clusters.map (fun c => (counterKey 0 c d.id.val, mk (ps.filter (fun t => clusterOf t == c)).length)) ++
  dies.map (fun e => (counterKey 1 e d.id.val, mk (clusters.filter (fun c => c / 4 == e)).length)) ++
  [(counterKey 2 0 d.id.val, mk dies.length)]

/-- Install the image's plans: every entry waits for the run's first step (R355; log entry 29). -/
def State.startEngines (s : State) (im : Image) (first : Word) : State :=
  let clean (x : Stack) : Stack :=
    { x with plan := none, entries := [], upeFlags := 0, marks := [], fingerprints := [], status := [] }
  let s1 := { s with mem := { s.mem with
    programs := im.body.programs, records := [], foreign := [], stackMap := s.mem.stackMap.map (fun e => (e.1, clean e.2)) } }
  im.body.plans.foldl (fun s p =>
    s.modStack p.1.val (fun x => { x with plan := some { p.2 with firstStep := first.toNat } })) s1

/-- Firmware writes TCB_LOGICAL and TCB_HOLD_AREA of every enabled tile. -/
def State.configTiles (s : State) (im : Image) : List Nat → State
  | [] => s
  | t :: r =>
    let i := im.tiles.findIdx (fun x => x.val == t)
    let l : Option Nat := if i < im.tiles.length then some i else none
    let hold := leBytes 1 (im.body.holdKiB / 64 - 2)
    State.configTiles ((s.fwCfg (blkTcb t) 0x100 [logicalByte l]).fwCfg (blkTcb t) 0x104 hold) im r

/-! ### RUN (R531) -/

/-- The job's parameters in force: those of the RUN if it is the first of the job that names them. -/
def State.runJobOf (s : State) (h : Hdr) (b : RunBody) : Job :=
  let j := s.jobOf h.jobId
  if b.flags.getLsbD 1 || !j.started then { j with tag := b.jobTag, seed := b.jobSeed, started := true } else j

/-- A later RUN of a job carries another seed or tag than its first. -/
def State.runDiffers (s : State) (h : Hdr) (b : RunBody) : Bool :=
  let j := s.jobOf h.jobId
  !b.flags.getLsbD 1 && j.started && (j.seed != b.jobSeed || j.tag != b.jobTag)

/-- An image's contexts declare a backup (R53, R414). -/
def Image.hasBackup (im : Image) : Bool := im.body.contexts.any (fun c => c.backup != .none)

/-- The pair forbids a RUN (R455, R463, R471); the secondary's authority lasts to LEASE_END. -/
def State.pairForbids (s : State) : Bool :=
  s.pair.modeMismatch || s.pair.quarantined ||
  (s.pair.mode != .solo && s.pair.role != .holder &&
    !(s.pair.role == .secondary && decide (s.clock.meridian < s.pair.authorityEnd)))

/-- A RUN that is answered DENIED. -/
def State.runDenied (s : State) (h : Hdr) (b : RunBody) (im : Image) (ps : List PatchEntry) : Bool :=
  let relaxed := b.flags.getLsbD 0
  s.runDiffers h b || im.jobId != h.jobId || decide (b.jobTag.toNat = 0 ∨ 1023 < b.jobTag.toNat) ||
  decide (b.hangExp.toNat ≠ 0 ∧ (b.hangExp.toNat < 12 ∨ 40 < b.hangExp.toNat)) ||
  (relaxed && (s.pair.mode == .shadow || im.hasBackup)) || ps.any (fun p => (patchTiles im p).isNone) ||
  (s.domain.version == 1 && im.hasBackup) || s.pairForbids ||
  (s.sec.enforce && !s.sec.keys.any (fun e => e.2 == im.signerKey))

/-- A RUN that is answered BUSY: a run is active, a datum pulse is required, or the rails are off (R500, R562, R580). -/
def State.runBusy (s : State) : Bool :=
  s.runActive || s.clock.datumReq || !s.power.computeDies || !s.power.hbmRails || s.mgp.thermalOff ||
  s.power.supply == .halting || !s.clock.rootLocked

/-- Start the run: run cycle 0 is the present cycle of every region. -/
def State.startRun (s : State) (h : Hdr) (b : RunBody) (im : Image) (ps : List PatchEntry) : State :=
  let s1 := (s.configTiles im s.enabledTiles).setJob h.jobId (s.runJobOf h b)
  let run : RunRec := { RunRec.reset with
    state := .running, hdr := some h, handle := Fin.ofNat 16 (b.flags.toNat / 16), relaxed := b.flags.getLsbD 0,
    a1Compat := im.ltId == 0x00A1 && !s.fuses.steppingA1,
    hangLimit := BitVec.ofNat 64 (2 ^ (if b.hangExp = 0 then 28 else b.hangExp.toNat)),
    firstStep := b.firstStep, stepLimit := b.stepLimit, jobId := h.jobId, c0 := (s.region 0).count }
  let counters := (im.body.barriers.flatMap (barrierCounters im)).foldl (fun m e => mset m e.1 e.2) []
  let s2 := { (s1.mapTiles Tile.clearAtRun) with
    run := run
    net := { NetState.reset with counters := counters }
    domain := { s1.domain with banks := [], heldRelease := none, past := [] }
    pair := { s1.pair with
      ownDigests := [], twinDigests := [], contribs := [], closedStep := 0xFFFFFFFF, skippedStep := 0xFFFFFFFF, closureFailed := false } }
  let s3 := ((s2.startTiles im b.firstStep ps (List.range im.tiles.length)).startEngines im b.firstStep).assignParcels
  ((s3.bindAll (im.tiles.map (·.val))).setRunEn true).sendTileTable

/-- RUN: the checks, then ACCEPTED at run cycle 0. -/
def execRun (h : Hdr) (b : RunBody) (ps : List PatchEntry) (s : State) : Res :=
  s.accept h 0x0301 (fun s =>
    if 252 < ps.length then .next (s.failPlain h 0x0301 stBadLength)
    else if s.runBusy then .next (s.failPlain h 0x0301 stBusy)
    else if s.mgp.calValid = false then .next (s.failPlain h 0x0301 stCalInvalid)
    else
      match mfind s.host.images (b.flags.toNat / 16 % 16) with
      | none => .next (s.fail h 0x0301 stDenied 0 0 b.flags.toNat)
      | some im =>
        if s.runDenied h b im ps then .next (s.failPlain h 0x0301 stDenied)
        else if im.flags.getLsbD 1 && !b.flags.getLsbD 0 then .next (s.failPlain h 0x0301 stRejected)
        else .next ((s.startRun h b im ps).reply h 0x0301 stAccepted false []))

/-- STOP (R532): the run ends, its record is emitted and its final reply sent; then STOP's own. -/
def execStop (h : Hdr) (s : State) : Res :=
  s.accept h 0x0302 (fun s => .next ((s.endRun .stop).ok h 0x0302 []))

/-! ### STEP (R532) -/

/-- Tiles of a mask. -/
def maskTiles (m : BitVec 128) : List Nat := (List.range 128).filter m.getLsbD

/-- STEP: each named tile, all of them debug-halted, may issue a number of bundles. -/
def execStep (h : Hdr) (mask : BitVec 128) (bundles : Word) (s : State) : Res :=
  s.accept h 0x0303 (fun s =>
    if bundles = 0 ∨ 1048576 < bundles.toNat then .next (s.fail h 0x0303 stDenied 16 0 bundles.toNat)
    else if (maskTiles mask).any (fun t => !(s.tile t).halted) then .next (s.failPlain h 0x0303 stDenied)
    else
      let go (s : State) (t : Nat) : State := s.modTile t (fun x => { x with stepping := some bundles })
      .next (((maskTiles mask).foldl go s).ok h 0x0303 []))

/-- STEP_BUNDLES_DONE: a stepped tile that has issued its bundles halts again. -/
def execStepBundlesDone (tile : TileNo) (s : State) : Res :=
  if (s.tile tile.val).stepping = some 0 then .next (s.modTile tile.val (fun x => { x with stepping := none })) else .next s

/-- STATE of RUN_STATUS. -/
def State.runCode (s : State) : Nat :=
  if s.pair.role = .fenced then 3
  else
    match s.run.state with
    | .idle => 0
    | .running => 1
    | .suspended => 2

/-- RUN_STATUS: the state, the step in progress (0 outside a run) and the meridian. -/
def execRunStatus (h : Hdr) (s : State) : Res :=
  s.accept h 0x0305 (fun s => .next (s.ok h 0x0305
    (leBytes 1 s.runCode ++ zeros 3 ++ leBytes 4 (if s.runActive then s.currentStep.toNat else 0) ++
      leBytes 8 s.clock.meridian.toNat)))

end Sys2Proof.Machine
end

