-- ==== Sys2Proof/Machine/PairCmds.lean ====
section
/-! DEFINITION. Pair and domain commands, group 0x04 (R14, R390, R415, R443 to R448, R455, R463, R471, R533 to R535). -/

namespace Sys2Proof.Machine

/-- SET_MODULE_ID (R14, R533): an ID of 20 bits (R11; log entry 115) is taken while none is held; the same ID again is OK,
another is DENIED. -/
def execSetModuleId (h : Hdr) (id : Word) (s : State) : Res :=
  s.accept h 0x0401 (fun s =>
    match s.domain.moduleId with
    | some m => if m.toNat = id.toNat then .next (s.ok h 0x0401 []) else .next (s.fail h 0x0401 stDenied 0 0 id.toNat)
    | none =>
      if 0xFFFFF < id.toNat then .next (s.fail h 0x0401 stDenied 0 0 id.toNat)
      else
        let s1 := { s with domain := { s.domain with moduleId := some (id.setWidth 20) } }
        .next (((List.range 4).foldl (fun s p => s.settlePort (16 + p)) s1).ok h 0x0401 []))

/-- SET_DOMAIN (R390, R464): the version and the witness; every chain port settles its version again. -/
def execSetDomain (h : Hdr) (b : DomainBody) (s : State) : Res :=
  s.accept h 0x0402 (fun s =>
    if b.version ≠ 1 ∧ b.version ≠ 2 then .next (s.fail h 0x0402 stDenied 0 0 b.version.toNat)
    else if 3 < b.paths.toNat then .next (s.fail h 0x0402 stDenied 1 0 b.paths.toNat)
    else if s.runActive then .next (s.failPlain h 0x0402 stBusy)
    else
      let s1 := { s with domain := { s.domain with
        version := b.version.setWidth 4, witnessChain := b.paths.getLsbD 0, witnessHost := b.paths.getLsbD 1,
        witnessId := b.witnessId, witnessKey := b.witnessKey } }
      .next ((s1.upChain.foldl (fun s p => (s.settlePort p).pumpPort p) s1).ok h 0x0402 []))

/-- The mode that a code names. -/
def modeOf (b : Byte) : Option PairMode :=
  if b = 1 then some .mirror else if b = 2 then some .shadow else if b = 3 then some .solo else none

/-- The role after a change of mode: solo pairs hold no lease, and a module that comes from solo mode has no authority yet
(R455, R468; log entry 21). -/
def roleAfter (mode : PairMode) (r : Role) : Role :=
  match mode, r with
  | _, .fenced => .fenced
  | .solo, _ => .solo
  | _, .solo => .suspended
  | _, x => x

/-- SET_PAIR_MODE (R455). -/
def execSetPairMode (h : Hdr) (mode : Byte) (s : State) : Res :=
  s.accept h 0x0403 (fun s =>
    match modeOf mode with
    | none => .next (s.fail h 0x0403 stDenied 0 0 mode.toNat)
    | some m =>
      if s.runActive then .next (s.failPlain h 0x0403 stBusy)
      else .next (({ s with pair := { s.pair with mode := m, role := roleAfter m s.pair.role } }).ok h 0x0403 []))

/-! ### Membership (R415, R443 to R448, R534) -/

/-- A membership table. -/
structure MemberTable where
  shape : List Nat
  members : List Nat
  /-- Epoch of each member's pair. -/
  epochs : List (Nat × Word)
  deriving DecidableEq, Repr

/-- Entries of a table from an offset on. -/
def State.tableEntries (s : State) (a : Nat) : Nat → List (Nat × Word)
  | 0 => []
  | n + 1 =>
    (leNat (s.readHbm a 4) % 2 ^ 20, BitVec.ofNat 32 (leNat (s.readHbm (a + 4) 4))) :: s.tableEntries (a + 8) n

/-- A shape follows R415: at most five levels of 2 to 64 whose product is M. -/
def shapeFits (levels : Nat) (shape : List Nat) (m : Nat) : Bool :=
  decide (levels ≤ 5) && shape.all (fun g => decide (2 ≤ g ∧ g ≤ 64)) && decide (shape.foldl (· * ·) 1 = m)

/-- Member IDs rise strictly. -/
def idsRise : List Nat → Bool
  | a :: b :: r => decide (a < b) && idsRise (b :: r)
  | _ => true

/-- The membership table at an address (R534), none where its shape or its order breaks the rules. -/
def State.memberTable (s : State) (a : Nat) : Option MemberTable :=
  let m := leNat (s.readHbm a 4)
  let levels := leNat (s.readHbm (a + 4) 1)
  let shape := ((s.readHbm (a + 5) 5).take levels).map (·.toNat)
  if hbmSize < a + 16 ∨ 1048576 < m ∨ hbmSize < a + 16 + 8 * m ∨ m = 0 then none
  else
    let es := s.tableEntries (a + 16) m
    let ids := es.map (·.1)
    if shapeFits levels shape m ∧ idsRise ids = true then
      some { shape := shape, members := ids, epochs := es.map (fun e => (e.1 / 2, e.2)) }
    else none

/-- The membership that a table announces. -/
def announced (b : AnnounceBody) (t : MemberTable) : Membership := { epoch := b.memberEpoch, shape := t.shape, members := t.members }

/-- Take the own pair's epoch from an announcement; it admits a fenced module again (R469, R474). -/
def State.admitEpoch (s : State) (t : MemberTable) : State :=
  match t.epochs.find? (fun e => decide (e.1 = s.moduleIdNat / 2)) with
  | some (_, e) =>
    let role := if s.pair.role = .fenced then (if s.pair.mode = .solo then .solo else .suspended) else s.pair.role
    { s with pair := { s.pair with epoch := if s.pair.epoch < e then e else s.pair.epoch, role := role } }
  | none => s

/-- ANNOUNCE_MEMBERSHIP, KIND 0: a job's first membership. -/
def execAnnounceInitialMembership (h : Hdr) (b : AnnounceBody) (s : State) : Res :=
  s.accept h 0x0404 (fun s =>
    if s.runActive then .next (s.failPlain h 0x0404 stBusy)
    else
      match s.memberTable b.tableAddr.toNat with
      | none => .next (s.fail h 0x0404 stDenied 16 0 0)
      | some t =>
        if t.members.contains s.moduleIdNat = false then .next (s.fail h 0x0404 stDenied 16 0 s.moduleIdNat)
        else
          let s1 := (s.admitEpoch t).adoptMembership (announced b t) t.epochs
          .next ((s1.bindAll (s1.tiles.map (·.1))).ok h 0x0404 []))

/-- Hold a change until its effective step. -/
def State.announceChange (s : State) (b : AnnounceBody) (t : MemberTable) (forced : Bool) : State :=
  let c : Change :=
    { membership := announced b t, epochs := t.epochs, tE := b.tE, forced := forced, transferred := false }
  let s1 := s.admitEpoch t
  { s1 with domain := { s1.domain with change := some c, transferReports := [] } }

/-- The module is in neither the old nor the new membership. -/
def State.outside (s : State) (t : MemberTable) : Bool :=
  !t.members.contains s.moduleIdNat && !s.members.contains s.moduleIdNat

/-- KIND 1: a planned change, DENIED where t_e is less than the job's lead above the step in progress (R443). -/
def execAnnouncePlannedChange (h : Hdr) (b : AnnounceBody) (s : State) : Res :=
  s.accept h 0x0404 (fun s =>
    match s.memberTable b.tableAddr.toNat with
    | none => .next (s.fail h 0x0404 stDenied 16 0 0)
    | some t =>
      if s.outside t then .next (s.fail h 0x0404 stDenied 16 0 s.moduleIdNat)
      else if s.runActive = true ∧ b.tE.toNat < s.currentStep.toNat + (s.jobOf s.run.jobId).lead then
        .next (s.fail h 0x0404 stDenied 8 0 b.tE.toNat)
      else .next ((s.announceChange b t false).ok h 0x0404 []))

/-- The lowest step that some plan entry of this module has not completed. -/
def State.lowestOpenStep (s : State) : Nat :=
  match s.lastStep with
  | some t => t + 1
  | none => s.run.firstStep.toNat

/-- The state of a stopped member exists nowhere else (R448): the pair is not in mirror mode, its twin has stopped too, or an
S1 context has no backup copy. -/
def State.stateLost (s : State) (t : MemberTable) : Bool :=
  let stopped := s.members.filter (fun m => !t.members.contains m)
  let s1Alone := match s.runImage with
    | some im => im.body.contexts.any (fun c => c.s1 && c.backup == .none)
    | none => false
  !stopped.isEmpty && (s.pair.mode != .mirror || stopped.any (fun m => !t.members.contains (m ^^^ 1)) || s1Alone)

/-- KIND 2: a forced change, DENIED by R447 and R448. -/
def execAnnounceForcedChange (h : Hdr) (b : AnnounceBody) (s : State) : Res :=
  s.accept h 0x0404 (fun s =>
    match s.memberTable b.tableAddr.toNat with
    | none => .next (s.fail h 0x0404 stDenied 16 0 0)
    | some t =>
      if s.outside t then .next (s.fail h 0x0404 stDenied 16 0 s.moduleIdNat)
      else if s.hasPlan = true ∧ s.lowestOpenStep < b.tE.toNat then .next (s.fail h 0x0404 stDenied 8 0 b.tE.toNat)
      else if s.stateLost t then .next (s.failPlain h 0x0404 stDenied)
      else .next ((s.announceChange b t true).ok h 0x0404 []))

/-- WITHDRAW_CHANGE: the change of that MEMBER_EPOCH is dropped; with none, DENIED. -/
def execWithdrawChange (h : Hdr) (epoch : Word) (s : State) : Res :=
  s.accept h 0x0405 (fun s =>
    match s.domain.change with
    | some c =>
      if c.membership.epoch = epoch then
        .next (({ s with domain := { s.domain with change := none, transferReports := [], heldRelease := none } }).ok h 0x0405 [])
      else .next (s.fail h 0x0405 stDenied 0 0 epoch.toNat)
    | none => .next (s.fail h 0x0405 stDenied 0 0 epoch.toNat))

/-- LEASE_DELIVER (R535): the witness's reply by way of the host. -/
def execLeaseDeliver (h : Hdr) (r : LeaseReplyMsg) (s : State) : Res :=
  s.accept h 0x0406 (fun s =>
    .next ((if s.domain.witnessHost then s.takeLeaseReply r else s).ok h 0x0406 []))

/-! ### Ports (R408, Table 15.14) -/

/-- The port that a PORT byte names. -/
def portOf (b : Byte) : Option PortNo :=
  if b.toNat ≤ 0x13 then some (Fin.ofNat 20 b.toNat) else none

/-- PORT_RESET (R408): the port forgets its failed lanes and trains anew; its packets stay in the retry buffer. -/
def execPortReset (h : Hdr) (port : Byte) (s : State) : Res :=
  s.accept h 0x0407 (fun s =>
    match portOf port with
    | none => .next (s.fail h 0x0407 stDenied 0 0 port.toNat)
    | some p =>
      if s.runActive then .next (s.failPlain h 0x0407 stBusy)
      else .next ((s.modPort p.val (fun x => { x with state := .training, upperHalf := false, failed := 0 })).ok h 0x0407 []))

/-- QUARANTINE_CLEAR (R463). -/
def execQuarantineClear (h : Hdr) (s : State) : Res :=
  s.accept h 0x0408 (fun s => .next (({ s with pair := { s.pair with quarantined := false } }).ok h 0x0408 []))

/-- STATE of a port (CPT_STATE). -/
def linkCode : LinkState → Nat
  | .down => 0
  | .training => 1
  | .eightLanes => 2
  | .fourLanes => 3

/-- Lanes in use. -/
def linkLanes : LinkState → Nat
  | .eightLanes => 8
  | .fourLanes => 4
  | _ => 0

/-- The 16 bytes of a port in LINK_STATUS. -/
def Port.statusBytes (x : Port) : Bytes :=
  leBytes 1 (linkCode x.state) ++ leBytes 1 (linkLanes x.state) ++ leBytes 1 x.version.toNat ++ zeros 1 ++
  leBytes 4 ((x.partner.map (·.moduleId.toNat)).getD 0) ++ leBytes 8 x.retries.toNat

/-- LINK_STATUS: the chain ports, then the tie ports. -/
def execLinkStatus (h : Hdr) (s : State) : Res :=
  s.accept h 0x0409 (fun s => .next (s.ok h 0x0409 ((List.range 20).flatMap (fun p => (s.port p).statusBytes))))

end Sys2Proof.Machine
end

