-- ==== Sys2Proof/Machine/Nv.lean ====
section
/-! DEFINITION. Non-volatile writes: calibration, build keys and firmware images (R536, R574 to R577, R579, R586, R588 to R590,
R596), their deferral while the supply is low, and POWER_POLICY. -/

namespace Sys2Proof.Machine

/-! ### Calibration sets (Table 17.8) -/

/-- A set's bytes under its digest. -/
def calBody (m : Memory) : Bytes := readBytes m 0 0x3FFC0

/-- Put the digest of a set. -/
def calSeal (m : Memory) : Memory := writeBytes m 0x3FFC0 (sha512Bytes (calBody m))

/-- A set whose SHA-512 checks. -/
def calGood (m : Memory) : Bool := sha512Bytes (calBody m) == readBytes m 0x3FFC0 64

/-- Section of each scope: its start and size. -/
def calSection (scope : Nat) : Nat × Nat :=
  match scope with
  | 0 => (0x400, 0x10000)
  | 1 => (0x10400, 0x5000)
  | 2 => (0x15400, 0x8800)
  | 3 => (0x1DC00, 0x2000)
  | _ => (0x1FC00, 0x1000)

/-- The sections of the scopes named. -/
def calSections (scopes : Word) : List (Nat × Nat) := ((List.range 5).filter scopes.getLsbD).map calSection

/-- Replace the sections of the scopes with what was measured. -/
def calMerge (old new : Memory) (scopes : Word) : Memory :=
  let secs := calSections scopes
  let base := secs.foldl (fun m e => zeroRange m e.1 e.2) old
  (new.filter (fun e => secs.any (fun x => decide (x.1 ≤ e.1 ∧ e.1 < x.1 + x.2)))).foldl (fun m e => writeByte m e.1 e.2) base

/-- Put the header of a set. -/
def State.calHeadered (s : State) (m : Memory) (origin : Byte) (scopes : Word) : Memory :=
  writeBytes m 0 (padTo 1024
    (Config.calHeader origin s.clock.meridian s.sec.fwVersion scopes s.mgp.calStore))

/-- Write a set: to the staging area, then to the store, and the staging area is erased (R576). -/
def State.writeCal (s : State) (m : Memory) (scopes : Word) : State :=
  let s1 := { s with
    mgp := { s.mgp with calStore := m, calStaging := [], calValid := true }
    clock := { s.clock with criticalCode := (Config.criticalCode m).val } }
  s1.event evCalWritten (srcOf 0x0B 0) (leBytes 4 scopes.toNat)

/-- A store as bytes, with its signature by the device identity key (R577). -/
def State.calExported (s : State) : Bytes :=
  let store := readBytes s.mgp.calStore 0 0x40000
  store ++ signatureBytes (ed25519Sign s.sec.dikSeed store)

/-- Bytes of an exported set. -/
def calTotal : Nat := 262208

/-! ### Firmware images (R585, R586) -/

/-- A field of an image header. -/
def FwImage.field (x : FwImage) (o n : Nat) : Nat := leNat (readBytes x.data o n)

/-- ACTIVATION. -/
def FwImage.activation (x : FwImage) : Nat := x.field 0x100 4

/-- IMAGE_DIGEST. -/
def FwImage.digest (x : FwImage) : Digest := BitVec.ofNat 512 (beNat (readBytes x.data 0x80 64))

/-- The tests of R586. -/
def SecState.imageValid (sec : SecState) (x : FwImage) : Bool :=
  let size := x.field 0x10 8
  decide (x.field 0 4 = 0x57465943) && decide (x.field 4 2 = 1) && decide (x.field 0xC 4 = 0x200) &&
  decide (1 ≤ size ∧ size ≤ 0x4000000 - 512) && sha512 (readBytes x.data 0x40 32) == sec.rootKeyHash &&
  decide (sec.rollback ≤ x.field 6 2 ∧ x.field 6 2 ≤ 64) &&
  x.digest == sha512 (readBytes x.data 0 0x80 ++ readBytes x.data 0x200 size) &&
  ed25519Verify (BitVec.ofNat 256 (x.field 0x40 32)) (readBytes x.data 0 0xC0) (BitVec.ofNat 512 (x.field 0xC0 64))

/-- The image that FW_WRITE and FW_ACTIVATE act on: A in recovery, else the one that does not run (R588, R589). -/
def SecState.otherIsB (sec : SecState) : Bool := !sec.recovery && !sec.runningB

/-- That image. -/
def SecState.other (sec : SecState) : FwImage := if sec.otherIsB then sec.imageB else sec.imageA

/-- Put that image. -/
def SecState.setOther (sec : SecState) (x : FwImage) : SecState :=
  if sec.otherIsB then { sec with imageB := x } else { sec with imageA := x }

/-- The ACTIVATION that an activated image takes. -/
def SecState.nextActivation (sec : SecState) : Nat :=
  if sec.recovery then max sec.imageA.activation sec.imageB.activation + 1
  else (if sec.runningB then sec.imageB.activation else sec.imageA.activation) + 1

/-! ### Carrying a write out -/

/-- The command that asks for a write. -/
def nvOpcode : NvWrite → BitVec 16
  | .calSet _ _ => 0x0501
  | .calChunk _ _ _ => 0x0503
  | .enrol _ _ => 0x0602
  | .revoke _ => 0x0603
  | .enforce _ => 0x0604
  | .fwChunk _ _ => 0x0605
  | .fwActivate _ => 0x0606
  | .rollback _ => 0

/-- Bytes that a write takes in the deferred-write ring. -/
def nvSize : NvWrite → Nat
  | .calSet _ _ => 0x40000
  | .calChunk _ _ c => c.length
  | .enrol _ _ => 36
  | .revoke _ => 1
  | .enforce _ => 1
  | .fwChunk _ d => d.length
  | .fwActivate _ => 64
  | .rollback _ => 8

/-- The final reply of a write, if a command asked for it. -/
def State.nvReply (s : State) (h : Option Hdr) (w : NvWrite) (status : BitVec 16) (reason : Nat) : State :=
  match h with
  | some h =>
    if status = stOk then s.ok h (nvOpcode w) [] else s.fail h (nvOpcode w) status 0xFFFF reason 0
  | none => s

/-- The source of the security block's events. -/
def srcSec : BitVec 16 := srcOf 0x0C 0

/-- A loaded image would fail step 2 of R231 under enforcement. -/
def SecState.refuses (sec : SecState) (im : Image) : Bool :=
  let hd := headerOf im.head
  !sec.admits hd.flags hd.signerKey hd.signature (im.head.take 0x120)

/-- A key command that Table 18.7 denies. -/
def State.keyDenied (s : State) : NvWrite → Bool
  | .enrol i k => (mfind s.sec.keys i.val).isSome || s.sec.keys.any (fun e => e.2 == k)
  | .revoke i => (mfind s.sec.keys i.val).isNone || (s.sec.enforce && decide (s.sec.keys.length ≤ 1))
  | .enforce on => on && (s.sec.keys.isEmpty || s.host.images.any (fun e => s.sec.refuses e.2))
  | _ => false

/-- A key command's effect and event (R596). -/
def State.keyDo (s : State) : NvWrite → State
  | .enrol i k => ({ s with sec := { s.sec with keys := mset s.sec.keys i.val k } }).event (10, 4) srcSec (leBytes 1 i.val)
  | .revoke i => ({ s with sec := { s.sec with keys := merase s.sec.keys i.val } }).event (10, 5) srcSec (leBytes 1 i.val)
  | .enforce on => ({ s with sec := { s.sec with enforce := on } }).event (10, 6) srcSec (leBytes 1 (if on then 1 else 0))
  | _ => s

/-- A key command carried out, or denied. -/
def State.keyRun (s : State) (h : Option Hdr) (w : NvWrite) : State :=
  if s.keyDenied w then s.nvReply h w stDenied 0 else (s.keyDo w).nvReply h w stOk 0

/-- A chunk of an imported set: out of order it is denied, the last one makes the set be checked and written (R577). -/
def State.importDo (s : State) (h : Option Hdr) (offset total : Nat) (chunk : Bytes) : State :=
  let w := NvWrite.calChunk offset total chunk
  let set (b : Bytes) : State := { s with mgp := { s.mgp with calImport := b } }
  if offset ≠ 0 ∧ offset ≠ s.mgp.calImport.length then s.nvReply h w stDenied 0
  else
    let buf := if offset = 0 then chunk else s.mgp.calImport ++ chunk
    if total ≠ calTotal ∨ total < buf.length then (set []).nvReply h w stCalInvalid 0
    else if buf.length < total then (set buf).nvReply h w stOk 0
    else
      let store := buf.take 0x40000
      let sig : Signature := BitVec.ofNat 512 (leNat (buf.drop 0x40000))
      let m := writeBytes [] 0 store
      if ed25519Verify (ed25519Public s.sec.dikSeed) store sig && calGood m then
        ((set []).writeCal (calSeal (s.calHeadered m 3 0x1F)) 0x1F).nvReply h w stOk 0
      else (set []).nvReply h w stCalInvalid 0

/-- FW_ACTIVATE carried out (R588, R589): REASON 2 for an image that is not valid, 1 for another digest. -/
def State.activateDo (s : State) (h : Option Hdr) (digest : Digest) : State :=
  let w := NvWrite.fwActivate digest
  let x := s.sec.other
  if !s.sec.imageValid x then s.nvReply h w stDenied 2
  else if x.digest ≠ digest then s.nvReply h w stDenied 1
  else
    let y : FwImage := { data := writeBytes x.data 0x100 (leBytes 4 s.sec.nextActivation) }
    let s1 := { s with sec := s.sec.setOther y }
    let s2 := if s.sec.recovery then s1 else s1.event (10, 3) srcSec (digestBytes digest)
    s2.nvReply h w stOk 0

/-- Carry a non-volatile write out and send its final reply. -/
def State.nvDo (s : State) (h : Option Hdr) (w : NvWrite) : State :=
  match w with
  | .calSet m scopes => (s.writeCal m scopes).nvReply h w stOk 0
  | .calChunk o t c => s.importDo h o t c
  | .enrol i k => s.keyRun h (.enrol i k)
  | .revoke i => s.keyRun h (.revoke i)
  | .enforce on => s.keyRun h (.enforce on)
  | .fwChunk o d =>
    let x := s.sec.other
    ({ s with sec := s.sec.setOther { data := writeBytes x.data o d } }).nvReply h w stOk 0
  | .fwActivate d => s.activateDo h d
  | .rollback n =>
    if s.sec.rollback < n then
      ({ s with sec := { s.sec with rollback := n } }).event (10, 2) srcSec (leBytes 1 n)
    else s

/-- Carry out the writes of the deferred-write ring in order (R579). -/
def State.nvDrain (s : State) : List (Option Hdr × NvWrite) → State
  | [] => s
  | (h, w) :: r => State.nvDrain (s.nvDo h w) r

/-- Put a write into the deferred-write ring. -/
def State.nvQueue (s : State) (h : Option Hdr) (w : NvWrite) : State :=
  { s with mgp := { s.mgp with deferred := s.mgp.deferred ++ [(h, w)], deferredBytes := s.mgp.deferredBytes + nvSize w } }

/-- A write fits into the ring of 1 MiB. -/
def State.nvFits (s : State) (w : NvWrite) : Bool := decide (s.mgp.deferredBytes + nvSize w ≤ 1048576)

/-- Carry a write out, or put it behind the writes that are still to be carried out in order (R579). -/
def State.nvGo (s : State) (h : Option Hdr) (w : NvWrite) : State :=
  if s.mgp.restoring then s.nvQueue h w else s.nvDo h w

/-- Start a command's write: at once, or in write deferral DEFERRED_LOW_SUPPLY with the write queued, or BUSY for a full
ring (R579). `accept` says that an interim ACCEPTED goes first. -/
def State.nvStart (s : State) (h : Hdr) (w : NvWrite) (accept : Bool) : State :=
  if s.power.supply = .normal then
    (if accept then s.reply h (nvOpcode w) stAccepted false [] else s).nvGo (some h) w
  else if s.nvFits w then (s.reply h (nvOpcode w) stDeferred false []).nvQueue (some h) w
  else s.failPlain h (nvOpcode w) stBusy

/-! ### Calibration commands (R536, R576, R577) -/

/-- Train every stack: what it held is undefined (R326, R576). -/
def State.trainStacks (s : State) : State :=
  let s1 := (List.range 32).foldl (fun s k => s.modStack k (fun x => { x with trained := true })) s
  s1.setHbm []

/-- What measuring does: scope [0] trains the stacks, scopes [0] and [2] ask for a datum pulse. -/
def State.measured (s : State) (scopes : Word) : State :=
  let s1 := if scopes.getLsbD 0 then s.trainStacks else s
  { s1 with clock := { s1.clock with datumReq := s1.clock.datumReq || scopes.getLsbD 0 || scopes.getLsbD 2 } }

/-- CALIBRATE (R576). -/
def execCalibrate (h : Hdr) (scopes : Word) (r : CalResult) (s : State) : Res :=
  s.accept h 0x0501 (fun s =>
    if 31 < scopes.toNat then .next (s.fail h 0x0501 stDenied 0 0 scopes.toNat)
    else if s.runActive || !s.power.computeDies || !s.power.hbmRails then .next (s.failPlain h 0x0501 stBusy)
    else
      let w := NvWrite.calSet (calSeal (s.calHeadered (calMerge s.mgp.calStore r.store scopes) 2 scopes)) scopes
      if s.power.supply ≠ .normal ∧ s.nvFits w = false then .next (s.failPlain h 0x0501 stBusy)
      else
        let interim := if s.power.supply = .normal then stAccepted else stDeferred
        let s1 := (s.reply h 0x0501 interim false []).measured scopes
        if r.withinLimits = false then .next (s1.failPlain h 0x0501 stCalInvalid)
        else if s.power.supply = .normal then .next (s1.nvGo (some h) w)
        else .next (s1.nvQueue (some h) w))

/-- The reply body of a chunked read: TOTAL and up to 4,032 B from OFFSET (R538). -/
def chunkOf (bs : Bytes) (offset : Nat) : Bytes := leBytes 8 bs.length ++ (bs.drop offset).take 4032

/-- CAL_EXPORT (R577). -/
def execCalExport (h : Hdr) (offset : Word) (s : State) : Res :=
  s.accept h 0x0502 (fun s => .next (s.ok h 0x0502 (chunkOf s.calExported offset.toNat)))

/-- CAL_IMPORT (R536, R577): ACCEPTED after the last chunk. -/
def execCalImport (h : Hdr) (offset total : Word) (chunk : Bytes) (s : State) : Res :=
  s.admitAs h 0x0503 true (decide (chunk.length ≤ 4032)) (fun s =>
    .next (s.nvStart h (.calChunk offset.toNat total.toNat chunk) (decide (offset.toNat + chunk.length = calTotal))))

/-- POWER_POLICY (R494, Table 15.15). -/
def execPowerPolicy (h : Hdr) (target cap : Byte) (limit : Word) (s : State) : Res :=
  s.accept h 0x0504 (fun s =>
    if target.toNat < 8 ∨ 12 < target.toNat then .next (s.fail h 0x0504 stDenied 0 0 target.toNat)
    else if cap.toNat < 8 ∨ 12 < cap.toNat ∨ cap.toNat < target.toNat then .next (s.fail h 0x0504 stDenied 1 0 cap.toNat)
    else if 7200 < limit.toNat then .next (s.fail h 0x0504 stDenied 4 0 limit.toNat)
    else .next (({ s with
      clock := { s.clock with target := target.toNat, cap := cap.toNat }
      power := { s.power with inputLimit := limit.toNat } }).ok h 0x0504 []))

/-! ### Keys (R596, Table 18.7) -/

/-- A key command: BUSY during a run, DENIED by Table 18.7, else the write. -/
def State.keyCommand (s : State) (h : Hdr) (w : NvWrite) : Res :=
  if s.runActive then .next (s.failPlain h (nvOpcode w) stBusy)
  else if s.keyDenied w then .next (s.failPlain h (nvOpcode w) stDenied)
  else .next (s.nvStart h w false)

/-- ENROL_BUILD_KEY. -/
def execEnrolBuildKey (h : Hdr) (index : Byte) (key : Key) (s : State) : Res :=
  s.accept h 0x0602 (fun s =>
    if 7 < index.toNat then .next (s.fail h 0x0602 stDenied 0 0 index.toNat)
    else s.keyCommand h (.enrol (Fin.ofNat 8 index.toNat) key))

/-- REVOKE_BUILD_KEY. -/
def execRevokeBuildKey (h : Hdr) (index : Byte) (s : State) : Res :=
  s.accept h 0x0603 (fun s =>
    if 7 < index.toNat then .next (s.fail h 0x0603 stDenied 0 0 index.toNat)
    else s.keyCommand h (.revoke (Fin.ofNat 8 index.toNat)))

/-- SIGNING_ENFORCE. -/
def execSigningEnforce (h : Hdr) (on : Byte) (s : State) : Res :=
  s.accept h 0x0604 (fun s =>
    if 1 < on.toNat then .next (s.fail h 0x0604 stDenied 0 0 on.toNat)
    else s.keyCommand h (.enforce (on == 1)))

/-! ### Firmware (R588, R589) -/

/-- An FW_ACTIVATE is in progress: it waits in the deferred-write ring. -/
def State.activating (s : State) : Bool :=
  s.mgp.deferred.any (fun e => match e.2 with
    | .fwActivate _ => true
    | _ => false)

/-- FW_WRITE: a chunk inside the image's 64 MiB. -/
def execFwWrite (h : Hdr) (offset : Word) (chunk : Bytes) (s : State) : Res :=
  s.admitAs h 0x0605 true (decide (chunk.length ≤ 4048)) (fun s =>
    if 0x4000000 < offset.toNat + chunk.length then .next (s.fail h 0x0605 stDenied 0 0 offset.toNat)
    else if s.activating then .next (s.failPlain h 0x0605 stBusy)
    else .next (s.nvStart h (.fwChunk offset.toNat chunk) false))

/-- FW_ACTIVATE: ACCEPTED, then the tests and the final reply. -/
def execFwActivate (h : Hdr) (digest : Digest) (s : State) : Res :=
  s.accept h 0x0606 (fun s => .next (s.nvStart h (.fwActivate digest) true))

end Sys2Proof.Machine
end

