-- ==== Sys2Proof/Machine/Spdm.lean ====
section
/-! DEFINITION. Attestation (R591 to R595): the keys, the measurements and the SPDM 1.3 responder. Response codes and the
four-byte header are those of DSP0274 (log entry 5). -/

namespace Sys2Proof.Machine

/-- The 32 bytes of a build-key entry, zeros where none is enrolled. -/
def SecState.keyEntry (x : SecState) (i : Nat) : Bytes :=
  match mfind x.keys i with
  | some k => keyBytes k
  | none => zeros 32

/-- The measurement of an image handle (Table 18.6, indices 6 to 21). -/
def State.imageMeasure (s : State) (handle : Nat) : Bytes :=
  match mfind s.host.images handle with
  | some im =>
    sha512Bytes (digestBytes im.imageDigest ++ keyBytes im.signerKey ++ leBytes 1 (if im.signatureVerified then 1 else 0))
  | none => zeros 64

/-- A measurement's value (Table 18.6), none for an index that it does not give. -/
def State.measurement (s : State) (i : Nat) : Option Bytes :=
  if i = 1 then some (digestBytes s.sec.bootRomDigest)
  else if i = 2 then some (digestBytes s.sec.latched)
  else if i = 3 then some (digestBytes s.patchDigest)
  else if i = 4 then some (readBytes s.mgp.calStore 0x3FFC0 64)
  else if i = 5 then
    some (sha512Bytes ((List.range 8).flatMap s.sec.keyEntry ++ leBytes 1 (if s.sec.enforce then 1 else 0)))
  else if 6 ≤ i ∧ i ≤ 21 then some (s.imageMeasure (i - 6))
  else if i = 22 then some (leBytes 8 s.sec.rollback)
  else none

/-- What GET_MEASUREMENTS of an index carries: the count for 0, every value for 0xFF, one value otherwise. -/
def State.measures (s : State) (i : Nat) : Option Bytes :=
  if i = 0 then some [22]
  else if i = 0xFF then some ((List.range 22).flatMap (fun k => (s.measurement (k + 1)).getD []))
  else s.measurement i

/-- The certificate chain of slot 0. -/
def State.chain (s : State) : Bytes :=
  Config.certificateChain s.sec.latched s.sec.rollback (ed25519Public s.sec.akSeed)

/-- An SPDM response: version 1.3, its code, two parameters, the values and the frame's other bytes. -/
def spdmResponse (code p1 p2 : Nat) (values : Bytes) : Bytes :=
  [0x13, BitVec.ofNat 8 code, BitVec.ofNat 8 p1, BitVec.ofNat 8 p2] ++ values ++ Config.spdmFrame code

/-- The error UnsupportedRequest. -/
def spdmUnsupported (code : Nat) : Bytes := [0x13, 0x7F, 0x07, BitVec.ofNat 8 code]

/-- Values with the AK's signature over the response's message. -/
def State.spdmSigned (s : State) (code : Nat) (values nonce : Bytes) : Bytes :=
  values ++ signatureBytes (ed25519Sign s.sec.akSeed (Config.spdmMessage code (values ++ nonce)))

/-- The response to a request (Table 18.5). -/
def State.spdmAnswer (s : State) : SpdmRequest → Bytes
  | .getVersion => spdmResponse 0x04 0 0 []
  | .getCapabilities => spdmResponse 0x61 0 0 []
  | .negotiateAlgorithms => spdmResponse 0x63 0 0 []
  | .getDigests => spdmResponse 0x01 0 1 (sha512Bytes s.chain)
  | .getCertificate slot o n =>
    if slot = 0 then spdmResponse 0x02 0 0 ((s.chain.drop o.toNat).take n.toNat) else spdmUnsupported 0x82
  | .challenge slot nonce =>
    if slot = 0 then spdmResponse 0x03 0 1 (s.spdmSigned 0x03 (sha512Bytes s.chain) (keyBytes nonce))
    else spdmUnsupported 0x83
  | .getMeasurements i signed nonce =>
    match s.measures i.toNat with
    | some v => spdmResponse 0x60 i.toNat 0 (if signed then s.spdmSigned 0x60 v (keyBytes nonce) else v)
    | none => spdmUnsupported 0xE0
  | .other code => spdmUnsupported code.toNat

/-- SPDM (R593, R595): one request, one response. -/
def execSpdm (h : Hdr) (r : SpdmRequest) (s : State) : Res :=
  s.accept h 0x0601 (fun s => .next (s.ok h 0x0601 (s.spdmAnswer r)))

end Sys2Proof.Machine
end

