-- ==== Sys2Proof/Machine/Debug.lean ====
section
/-! DEFINITION. Debug commands, group 0x07 (R318, R319, R532, R537, Table 08.8, Table 15.16). -/

namespace Sys2Proof.Machine

/-! ### Halting tiles -/

/-- Debug-halt a tile, or let it go on. -/
def State.setHalted (s : State) (t : Nat) (on : Bool) : State :=
  if s.enabled t then s.modTile t (fun x => { x with halted := on, stepping := none }) else s

/-- HALT_TILES. -/
def execHaltTiles (h : Hdr) (mask : BitVec 128) (s : State) : Res :=
  s.accept h 0x0701 (fun s => .next (((maskTiles mask).foldl (fun s t => s.setHalted t true) s).ok h 0x0701 []))

/-- RESUME_TILES. -/
def execResumeTiles (h : Hdr) (mask : BitVec 128) (s : State) : Res :=
  s.accept h 0x0702 (fun s => .next (((maskTiles mask).foldl (fun s t => s.setHalted t false) s).ok h 0x0702 []))

/-! ### READ_SYNC (Table 08.8; log entry 34 for the layouts) -/

/-- A number names an object of its kind. -/
def objectBound : SyncObject → Nat
  | .tile => 0xFFFF
  | .semaphore => 63
  | .barrier => 15
  | .watch => 31
  | .recvEndpoint => 63
  | .sendEndpoint => 63

/-- A tile number that names an enabled tile. -/
def State.tileNamed (s : State) (t : BitVec 16) : Bool := decide (t.toNat < 128) && s.enabled t.toNat

/-- A Boolean as a byte. -/
def flagByte (b : Bool) : Bytes := leBytes 1 (if b then 1 else 0)

/-- The read column of Table 08.8. The banks of a barrier are those of the tile's cluster counter. -/
def State.syncRead (s : State) (t n : Nat) : SyncObject → Bytes
  | .tile => flagByte (s.tile t).halted
  | .semaphore => leBytes 2 ((s.tile t).sem n).toNat
  | .barrier =>
    let b := (s.tile t).barrier n
    let c := s.counter 0 (clusterOf t) n
    leBytes 4 b.a.toNat ++ leBytes 4 b.r.toNat ++ leBytes 4 c.bank0 ++ leBytes 4 c.bank1
  | .watch =>
    let w := (s.tile t).watch n
    leBytes 2 w.target ++ leBytes 1 w.sem.val ++ leBytes 1 w.generation.toNat ++ leBytes 2 w.value.toNat ++
      flagByte w.armed ++ flagByte w.fired
  | .recvEndpoint =>
    let r := (s.tile t).recv n
    flagByte r.closed ++ zeros 1 ++ leBytes 2 r.msgs.length ++ leBytes 4 r.discards
  | .sendEndpoint =>
    let x := (s.tile t).send n
    flagByte x.closed ++ zeros 1 ++ leBytes 2 x.credit ++ leBytes 4 x.discards

/-- READ_SYNC. -/
def execReadSync (h : Hdr) (object : SyncObject) (tile number : BitVec 16) (s : State) : Res :=
  s.accept h 0x0703 (fun s =>
    if s.tileNamed tile = false then .next (s.fail h 0x0703 stDenied 2 0 tile.toNat)
    else if objectBound object < number.toNat then .next (s.fail h 0x0703 stDenied 4 0 number.toNat)
    else .next (s.ok h 0x0703 (s.syncRead tile.toNat number.toNat object)))

/-! ### WRITE_SYNC (R318, R319) -/

/-- Code of an object. -/
def objectCode : SyncObject → Nat
  | .tile => 0
  | .semaphore => 1
  | .barrier => 2
  | .watch => 3
  | .recvEndpoint => 4
  | .sendEndpoint => 5

/-- The log entry of a debug write: object, tile, number, old and new value, run cycle and meridian (R319). -/
def State.debugLog (s : State) (object : SyncObject) (t n old new : Nat) : State :=
  s.event evDebugWrite (srcOf 3 t)
    (leBytes 1 (objectCode object) ++ zeros 1 ++ leBytes 2 t ++ leBytes 2 n ++ zeros 2 ++ leBytes 8 old ++ leBytes 8 new ++
      leBytes 8 s.runCycle.toNat ++ leBytes 8 s.clock.meridian.toNat)

/-- A WRITE_SYNC: DENIED where the tile, the number or the value is outside its range, or the object refuses; else `f`
makes the write and gives the old and the new value. -/
def State.syncWrite (s : State) (h : Hdr) (object : SyncObject) (tile number : BitVec 16) (value : Word) (fits : Bool)
    (f : Nat → State × Nat × Nat) : Res :=
  let t := tile.toNat
  if s.tileNamed tile = false then .next (s.fail h 0x0704 stDenied 2 0 t)
  else if objectBound object < number.toNat then .next (s.fail h 0x0704 stDenied 4 0 number.toNat)
  else if fits = false then .next (s.fail h 0x0704 stDenied 10 0 value.toNat)
  else
    let (s1, old, new) := f t
    .next ((s1.debugLog object t number.toNat old new).ok h 0x0704 (leBytes 8 old))

/-- Halt or resume one tile. -/
def State.syncHalt (s : State) (h : Hdr) (tile : BitVec 16) (value : Word) (on : Bool) : Res :=
  s.syncWrite h .tile tile 0 value (decide (value = 0)) (fun t =>
    (s.setHalted t on, (if (s.tile t).halted then 1 else 0), if on then 1 else 0))

/-- SYNC_HALT_TILE. -/
def execSyncHaltTile (h : Hdr) (tile : BitVec 16) (value : Word) (s : State) : Res :=
  s.accept h 0x0704 (fun s => s.syncHalt h tile value true)

/-- SYNC_RESUME_TILE. -/
def execSyncResumeTile (h : Hdr) (tile : BitVec 16) (value : Word) (s : State) : Res :=
  s.accept h 0x0704 (fun s => s.syncHalt h tile value false)

/-- SYNC_SET_COUNT: the count is set (R297). -/
def execSyncSetCount (h : Hdr) (tile number : BitVec 16) (value : Word) (s : State) : Res :=
  s.accept h 0x0704 (fun s =>
    s.syncWrite h .semaphore tile number value (decide (value.toNat ≤ 65535)) (fun t =>
      (s.modTile t (fun x => x.setSem number.toNat (value.setWidth 16)),
        ((s.tile t).sem number.toNat).toNat, value.toNat)))

/-- A barrier number as an ID. -/
def barrierId (n : BitVec 16) : Fin 16 := Fin.ofNat 16 n.toNat

/-- The scope level named by a code. -/
def levelOf (n : Nat) : BarrierScope :=
  match n with
  | 0 => .cluster
  | 1 => .die
  | 2 => .module
  | 3 => .pair
  | _ => .domain

/-- The counter of a level of a barrier is held on this module: its own three levels, the pair counter on the even module,
and the top of the domain tree at rank 0 (R304, R318, R400, R454). -/
def State.holdsLevel (s : State) (d : BarrierDecl) (level : Nat) : Bool :=
  decide (level ≤ scopeLevel d.scope) && decide (level ≤ 4) &&
  (match levelOf level with
   | .pair => d.scope == .pair && s.moduleIdNat % 2 == 0
   | .domain => s.ownRank == 0
   | _ => true)

/-- Unit of a level's counter through which a tile's arrivals pass. -/
def levelUnit (level t : Nat) : Nat := if level = 0 then clusterOf t else if level = 1 then dieOf t else 0

/-- The open round of a counter whose bank is given. -/
def openRound (done : Word) (bank : Nat) : Word := if done.toNat % 2 = bank then done else done + 1

/-- A bank's count at a level. -/
def State.bankCount (s : State) (b : Fin 16) (level t bank : Nat) : Nat :=
  if 3 ≤ level then mget 0 s.domain.banks (bankKey (if level = 3 then 0 else topLevel s.members.length) b.val bank)
  else
    let c := s.counter level (levelUnit level t) b.val
    if bank = 0 then c.bank0 else c.bank1

/-- Add arrivals to a bank of the counter at a level. -/
def State.addArrivals (s : State) (d : BarrierDecl) (level t bank n : Nat) : State :=
  if level = 3 then s.pairCount d.id (openRound ((s.tile t).barrier d.id.val).r bank) n
  else if level = 4 then
    let round := openRound ((s.tile t).barrier d.id.val).r bank
    if s.members.length ≤ 1 then s.releaseTop d.id round 0
    else State.countAt d.id round 7 (topLevel s.members.length) n s
  else
    let c := s.counter level (levelUnit level t) d.id.val
    s.counterArrive d (levelOf level) (levelUnit level t) bank n (openRound c.round bank)

/-- SYNC_ADD_ARRIVALS: VALUE holds the count in [15:0], the bank in [16] and the level in [19:17]. -/
def execSyncAddArrivals (h : Hdr) (tile number : BitVec 16) (value : Word) (s : State) : Res :=
  s.accept h 0x0704 (fun s =>
    let n := value.toNat % 65536
    let bank := value.toNat / 65536 % 2
    let level := value.toNat / 2 ^ 17 % 8
    let b := barrierId number
    match s.barrierDecl b with
    | none => s.syncWrite h .barrier tile number value false (fun _ => (s, 0, 0))
    | some d =>
      s.syncWrite h .barrier tile number value
        (decide (1 ≤ n) && decide (value.toNat < 2 ^ 20) && s.holdsLevel d level) (fun t =>
          let old := s.bankCount b level t bank
          (s.addArrivals d level t bank n, old, old + n)))

/-- Release the open round at the counter at the top of a barrier's scope. -/
def State.releaseRound (s : State) (d : BarrierDecl) (t : Nat) : State :=
  let r := ((s.tile t).barrier d.id.val).r
  match d.scope with
  | .pair => s.pairCount d.id r 2
  | .domain =>
    if s.members.length ≤ 1 then s.releaseTop d.id r 0 else State.countAt d.id r 7 (topLevel s.members.length) 16 s
  | _ =>
    let level := scopeLevel d.scope
    let c := s.counter level (levelUnit level t) d.id.val
    let bank := c.round.toNat % 2
    let c1 := if bank = 0 then { c with bank0 := 0, round := c.round + 1 } else { c with bank1 := 0, round := c.round + 1 }
    (s.setCounter level (levelUnit level t) d.id.val c1).sendRelease d.id c.round

/-- SYNC_RELEASE_ROUND: DENIED where the top counter is not on this module. -/
def execSyncReleaseRound (h : Hdr) (tile number : BitVec 16) (value : Word) (s : State) : Res :=
  s.accept h 0x0704 (fun s =>
    let b := barrierId number
    match s.barrierDecl b with
    | none => s.syncWrite h .barrier tile number value false (fun _ => (s, 0, 0))
    | some d =>
      s.syncWrite h .barrier tile number value (decide (value = 0) && s.holdsLevel d (scopeLevel d.scope)) (fun t =>
        let r := ((s.tile t).barrier b.val).r
        (s.releaseRound d t, r.toNat, (r + 1).toNat)))

/-- SYNC_FIRE_WATCH: the entry disarms and its fire travels to the waiter (R299). -/
def execSyncFireWatch (h : Hdr) (tile number : BitVec 16) (value : Word) (s : State) : Res :=
  s.accept h 0x0704 (fun s =>
    let n := number.toNat
    s.syncWrite h .watch tile number value
      (decide (value = 0) && ((s.tile tile.toNat).watch n).declared) (fun t =>
        let w := (s.tile t).watch n
        let s1 := s.modTile t (fun x => x.setWatch n { w with armed := false })
        ({ s1 with net := { s1.net with watchFires := s1.net.watchFires ++ [(Fin.ofNat 128 t, Fin.ofNat 32 n, w.generation)] } },
          (if w.armed then 1 else 0), 0)))

/-- SYNC_DISARM_WATCH. -/
def execSyncDisarmWatch (h : Hdr) (tile number : BitVec 16) (value : Word) (s : State) : Res :=
  s.accept h 0x0704 (fun s =>
    let n := number.toNat
    s.syncWrite h .watch tile number value
      (decide (value = 0) && ((s.tile tile.toNat).watch n).declared) (fun t =>
        let w := (s.tile t).watch n
        (s.modTile t (fun x => x.setWatch n { w with armed := false }), (if w.armed then 1 else 0), 0)))

/-- SYNC_RESET_ENDPOINT (R308). -/
def execSyncResetEndpoint (h : Hdr) (tile number : BitVec 16) (value : Word) (s : State) : Res :=
  s.accept h 0x0704 (fun s =>
    let n := number.toNat
    s.syncWrite h .recvEndpoint tile number value
      (decide (value = 0) && ((s.tile tile.toNat).recv n).declared) (fun t =>
        (s.resetRecv (Fin.ofNat 128 t) n, (if ((s.tile t).recv n).closed then 1 else 0), 1)))

/-! ### READ_TILE_STATE (R537) -/

/-- A register set of a tile, none for a SET or an INDEX that does not exist. -/
def Regs.setBytes (r : Regs) (set index : Nat) : Option Bytes :=
  match set with
  | 0 => some ((List.range 32).flatMap (fun i => leBytes 8 (r.getG i).toNat))
  | 1 => some ((List.range 64).flatMap (fun i => leBytes 8 (r.getP i).toNat))
  | 2 => some ((List.range 4).flatMap (fun i => leBytes 4 (r.getL i).toNat))
  | 3 => some ((List.range 16).flatMap (fun i => leBytes 32 (r.getM i).toNat))
  | 4 => if index ≤ 63 then some ((List.range 256).flatMap (fun i => leBytes 4 (r.getV index i).toNat)) else none
  | _ => none

/-- READ_TILE_STATE: BUSY for a tile that is not halted. -/
def execReadTileState (h : Hdr) (tile : BitVec 16) (set index : Byte) (s : State) : Res :=
  s.accept h 0x0705 (fun s =>
    if s.tileNamed tile = false then .next (s.fail h 0x0705 stDenied 0 0 tile.toNat)
    else if !(s.tile tile.toNat).halted then .next (s.failPlain h 0x0705 stBusy)
    else
      match (s.tile tile.toNat).regs.setBytes set.toNat index.toNat with
      | some bs => .next (s.ok h 0x0705 bs)
      | none => .next (s.fail h 0x0705 stDenied 2 0 set.toNat))

end Sys2Proof.Machine
end

