-- ==== Sys2Proof/Machine/Telemetry.lean ====
section
/-! DEFINITION. Telemetry and logs, group 0x08 (R120, R181, R538, R539, R569, R573, R624; log entry 35 for the layouts that
Table 17.4 leaves open). -/

namespace Sys2Proof.Machine

/-! ### Telemetry sets (Table 17.4) -/

/-- The six flags, in the order of R179. -/
def Tile.flagBits (t : Tile) : Nat := t.flags.toNat

/-- The 64 bytes of a tile's counters. -/
def Tile.counterBytes (t : Tile) : Bytes :=
  padTo 64 (leBytes 8 t.held.toNat ++ leBytes 8 t.freeze.toNat ++ leBytes 8 t.miss.toNat ++ leBytes 8 t.holdFull.toNat ++
    leBytes 4 t.eccW.toNat ++ leBytes 4 t.eccA.toNat ++ leBytes 4 t.eccIstore.toNat ++ leBytes 1 t.flagBits)

/-- CPT_STATE or TIE_STATE of a port (Table 16.8). -/
def Port.stateWord (x : Port) : Nat :=
  linkCode x.state + (if x.upperHalf then 4 else 0) + 8 * x.version.toNat + (if x.miswired then 128 else 0)

/-- Code of a device kind (CPT_PARTNER). -/
def kindCode : DeviceKind → Nat
  | .cy1 => 1
  | .cy2 => 2
  | .switch => 3

/-- CPT_PARTNER. -/
def Port.partnerWord (x : Port) : Nat :=
  match x.partner with
  | some c => c.moduleId.toNat + 2 ^ 28 * kindCode c.kind
  | none => 0

/-- The 64 bytes of a port's counters. -/
def Port.counterBytes (x : Port) : Bytes :=
  padTo 64 (leBytes 4 x.stateWord ++ leBytes 4 x.partnerWord ++ leBytes 8 x.retries.toNat ++ leBytes 4 x.discType.toNat ++
    leBytes 4 x.discEpoch.toNat ++ leBytes 4 x.discCseq.toNat ++ leBytes 4 x.discJob.toNat ++ leBytes 4 x.lastHb.toNat)

/-- Seconds of a stack's patrol pass (R564). -/
def Stack.passPeriod (x : Stack) : Nat := if x.scrubFast then 3600 else 14400

/-- The 64 bytes of a stack's counters. -/
def Stack.counterBytes (x : Stack) : Bytes :=
  padTo 64 (leBytes 4 x.corrA.toNat ++ leBytes 4 x.corrW.toNat ++ leBytes 4 x.uncorr.toNat ++ leBytes 4 x.poison.length ++
    leBytes 8 x.scrubAddr ++ leBytes 4 x.passPeriod ++ leBytes 2 (BitVec.ofInt 16 x.temp).toNat)

/-- The 16 bytes of a link direction: retries and the crossing's lowest and highest wait. -/
def State.linkBytes (s : State) (k : Nat) : Bytes :=
  let w := mget (0, 0) s.clock.crossings k
  padTo 16 (leBytes 8 (mget 0 s.mem.retries k).toNat ++ leBytes 1 w.1 ++ leBytes 1 w.2)

/-- A telemetry set, none for an undefined BLOCK. -/
def State.telemetry (s : State) (block : Nat) : Option Bytes :=
  match block with
  | 1 => some s.mgp.powerRing.flatten
  | 2 => some s.mgp.marginRing.flatten
  | 3 => some (s.enabledTiles.flatMap (fun t => (s.tile t).counterBytes))
  | 4 => some ((List.range 20).flatMap (fun p => (s.port p).counterBytes))
  | 5 => some ((List.range 32).flatMap (fun k => (s.stack k).counterBytes))
  | 6 => some ((List.range 28).flatMap s.linkBytes)
  | _ => none

/-- READ_TELEMETRY (R569). -/
def execReadTelemetry (h : Hdr) (block : BitVec 16) (offset : Word) (s : State) : Res :=
  s.accept h 0x0801 (fun s =>
    match s.telemetry block.toNat with
    | some bs => .next (s.ok h 0x0801 (chunkOf bs offset.toNat))
    | none => .next (s.fail h 0x0801 stDenied 0 0 block.toNat))

/-! ### Records, log and faults -/

/-- A record of a job: 0 for its latest run, n for its n-th run. -/
def Job.record (j : Job) (n : Nat) : Option Bytes :=
  if n = 0 then j.records.head? else j.records.reverse[n - 1]?

/-- READ_RECORD: of the job that the header names. -/
def execReadRecord (h : Hdr) (runIndex offset : Word) (s : State) : Res :=
  s.accept h 0x0802 (fun s =>
    match (s.jobOf h.jobId).record runIndex.toNat with
    | some bs => .next (s.ok h 0x0802 (chunkOf bs offset.toNat))
    | none => .next (s.fail h 0x0802 stDenied 0 0 runIndex.toNat))

/-- The bytes of log entries; an entry that continues in the next one says so (R570). -/
def logBytes : List LogEntry → Bytes
  | [] => []
  | e :: r => e.bytes ((r.head?.map (·.seq)) == some e.seq) ++ logBytes r

/-- READ_EVENT_LOG: committed and uncommitted entries of a half-open window (R507, R538, R573). -/
def execReadEventLog (h : Hdr) (start finish : DWord) (offset : Word) (s : State) : Res :=
  s.accept h 0x0803 (fun s =>
    if finish < start then .next (s.fail h 0x0803 stDenied 0 0 start.toNat)
    else
      let es := (s.mgp.committed ++ s.mgp.logRing).filter (fun e =>
        decide (start ≤ e.meridian) && decide (e.meridian < finish))
      .next (s.ok h 0x0803 (chunkOf (logBytes es) offset.toNat)))

/-- READ_FAULTS: the fault records of the run. -/
def execReadFaults (h : Hdr) (offset : Word) (s : State) : Res :=
  s.accept h 0x0804 (fun s => .next (s.ok h 0x0804 (chunkOf (s.orderedFaults.flatMap FaultRec.bytes) offset.toNat)))

/-! ### The library directory (R624) -/

/-- The bytes of an ASCII text. -/
def asciiBytes (t : String) : Bytes := t.toList.map (fun c => BitVec.ofNat 8 c.toNat)

/-- The 48 bytes of a parameter, which stands in G20 upward by its place (Table 06.12). -/
def paramBytes (e : RoutineParam × Nat) : Bytes :=
  padTo 16 (asciiBytes e.1.name) ++ leBytes 1 (20 + e.2) ++ leBytes 1 e.1.kind ++ zeros 6 ++ leBytes 8 e.1.lo ++ leBytes 8 e.1.hi ++
  zeros 8

/-- The 260 bytes of an access stream (R625). -/
def accessBytes (a : RoutineAccess) : Bytes :=
  leBytes 1 a.kind ++ leBytes 1 a.base ++ leBytes 1 a.lines ++ zeros 1 ++
  [a.start, a.count, a.cadence, a.stride].flatMap (fun t => padTo 64 (asciiBytes t))

/-- An entry of the directory (Table 06.12). -/
def routineEntry (r : Routine) : Bytes :=
  let text := asciiBytes r.cycles
  let tail := r.params.zipIdx.flatMap paramBytes ++ text ++ r.accesses.flatMap accessBytes
  leBytes 4 (0x30 + tail.length) ++ leBytes 2 r.id.toNat ++ leBytes 1 r.engines.toNat ++ leBytes 1 r.params.length ++
  leBytes 1 r.accesses.length ++ leBytes 1 r.loops ++ leBytes 2 text.length ++ zeros 4 ++ padTo 32 (asciiBytes r.name) ++ tail

/-- Insert a routine by ID. -/
def insertRoutine (r : Routine) : List Routine → List Routine
  | [] => [r]
  | x :: rest => if r.id < x.id then r :: x :: rest else x :: insertRoutine r rest

/-- The directory: header and entries in increasing ID order. -/
def State.directory (s : State) : Bytes :=
  leBytes 2 1 ++ leBytes 2 s.routines.length ++ leBytes 4 s.sec.routineRom.toNat ++ zeros 8 ++
  (s.routines.foldr insertRoutine []).flatMap routineEntry

/-- READ_ROUTINES. -/
def execReadRoutines (h : Hdr) (offset : Word) (s : State) : Res :=
  s.accept h 0x0805 (fun s => .next (s.ok h 0x0805 (chunkOf s.directory offset.toNat)))

/-! ### Histograms, flags, subscription -/

/-- READ_CHECK_HIST (R120). -/
def execReadCheckHist (h : Hdr) (tile : BitVec 16) (s : State) : Res :=
  s.accept h 0x0806 (fun s =>
    if s.tileNamed tile = false then .next (s.fail h 0x0806 stDenied 0 0 tile.toNat)
    else .next (s.ok h 0x0806 ((List.range 32).flatMap (fun i => leBytes 4 (mget 0 (s.tile tile.toNat).checkHist i).toNat))))

/-- READ_FLAGS (R181): one tile's flags, or their OR over all tiles. -/
def execReadFlags (h : Hdr) (tile : BitVec 16) (s : State) : Res :=
  s.accept h 0x0807 (fun s =>
    if tile = 0xFFFF then
      .next (s.ok h 0x0807 (leBytes 1 (s.enabledTiles.foldl (fun f t => f ||| (s.tile t).flags) 0).toNat))
    else if s.tileNamed tile = false then .next (s.fail h 0x0807 stDenied 0 0 tile.toNat)
    else .next (s.ok h 0x0807 (leBytes 1 (s.tile tile.toNat).flagBits)))

/-- SUBSCRIBE (R539): the session's event mask. -/
def execSubscribe (h : Hdr) (mask : DWord) (s : State) : Res :=
  s.accept h 0x0808 (fun s =>
    let s1 := match s.session h.path with
      | some q => s.setSession h.path (some { q with mask := mask })
      | none => s
    .next (s1.ok h 0x0808 []))

end Sys2Proof.Machine
end

