-- ==== Sys2Proof/Machine/RegRead.lean ====
section
/-! DEFINITION. What the registers of BAR0 read (Tables 16.2, 16.6 to 16.8), and the split 64-bit values with their read
shadows (R550). -/

namespace Sys2Proof.Machine

/-! ### Pieces -/

/-- A register word from a number. -/
def word (n : Nat) : Word := BitVec.ofNat 32 n

/-- A bit as a number. -/
def bit (b : Bool) (k : Nat) : Nat := if b then 2 ^ k else 0

/-- Bits of a Boolean list, from bit 0 on. -/
def bitsOf (l : List Bool) : Nat := (l.zipIdx).foldl (fun a e => a + bit e.1 e.2) 0

/-- A signed 16-bit value. -/
def signed16 (t : Int) : Nat := (BitVec.ofInt 16 t).toNat

/-- Half of a 64-bit value: word 0 or word 1. -/
def half (v : DWord) (hi : Bool) : Word := if hi then (v >>> 32).setWidth 32 else v.setWidth 32

/-- The tile that a tile block belongs to. -/
def tileOfBlock (b : Nat) : Nat := (b - 128) / 4

/-! ### The header (Table 16.2) -/

/-- CTRL as it reads, its reserved bits apart. -/
def State.ctrlWord (s : State) (b : Nat) : Nat := bit (s.blockEn b) 0 + bit (s.block b).monArm 1

/-- STATUS as it reads, its reserved bits apart. -/
def Block.statusWord (x : Block) : Nat := bit x.posted.isSome 0 + bit x.wign 1 + bit x.cfgDrift 2 + bit x.wlost 3

/-- The header registers. -/
def State.headerWord (s : State) (b off : Nat) : Nat :=
  let x := s.block b
  match off with
  | 0x00 => blockCode b + 256 * blockInst b + 65536
  | 0x04 => s.ctrlWord b
  | 0x08 => x.statusWord
  | 0x0C => x.crc.toNat
  | 0x10 => x.monument.toNat
  | _ => 0

/-! ### Module and port-die registers (Table 16.6) -/

/-- MCB_STATE. -/
def State.mcbState (s : State) : Nat :=
  s.runCode + bit s.clock.datumReq 2 + bit (s.runActive && s.run.a1Compat) 3 + bit s.hostLock 4 + bit s.pair.quarantined 5

/-- MCB_LT_ID: the latency table in force. -/
def State.ltWord (s : State) : Nat := if s.runActive then ((s.runImage.map (·.ltId.toNat)).getD 0) else 0

/-- MCB registers. -/
def State.mcbWord (s : State) (off : Nat) : Nat :=
  match off with
  | 0x800 => s.steppingCode + 65536 * s.tileCount
  | 0x804 => s.fuses.enabled.toNat % 2 ^ 32
  | 0x808 => s.fuses.enabled.toNat / 2 ^ 32 % 2 ^ 32
  | 0x80C => s.fuses.enabled.toNat / 2 ^ 64 % 2 ^ 32
  | 0x810 => s.fuses.enabled.toNat / 2 ^ 96
  | 0x814 => match s.domain.moduleId with
    | some m => m.toNat + 2 ^ 31
    | none => 0
  | 0x818 => s.mcbState
  | 0x81C => s.hostWign.toNat
  | 0x820 => s.sec.fwVersion.toNat
  | 0x824 => s.sec.routineRom.toNat
  | 0x828 => s.ltWord
  | _ => 0

/-- HIF registers: the link, the DMA channels, the MSI-X table and its pending bits. -/
def State.hifWord (s : State) (off : Nat) : Nat :=
  if off = 0x800 then s.host.linkRate % 256 + 256 * (s.host.linkWidth % 32)
  else if off = 0x804 then bitsOf ((List.range 16).map (fun c => (mfind s.host.dmaRunning c).isSome))
  else if 0x1000 ≤ off ∧ off < 0x1100 then (mget 0 s.host.vectors.table ((off - 0x1000) / 4)).toNat
  else if off = 0x1800 then s.host.vectors.pba.toNat
  else 0

/-- MGP_BOOT. -/
def State.bootWord (s : State) : Nat := bit s.sec.runningB 0 + bit s.sec.fallback 1

/-- SEC_STATE. -/
def State.secWord (s : State) : Nat :=
  bit s.sec.enforce 0 + 256 * bitsOf ((List.range 8).map (fun i => (mfind s.sec.keys i).isSome))

/-- PWR_SUPPLY. -/
def State.supplyWord (s : State) : Nat :=
  (match s.power.supply with
   | .normal => 0
   | .deferring => 1
   | .halting => 2) + bit s.mgp.throttling 4

/-- PWR registers. -/
def State.pwrWord (s : State) (off : Nat) : Nat :=
  match off with
  | 0x800 => s.power.vin % 65536
  | 0x804 => s.power.pin % 65536
  | 0x808 => signed16 s.power.tileMax
  | 0x80C => signed16 s.power.hbmMax
  | 0x810 => s.supplyWord
  | 0x814 => s.power.inputLimit
  | _ => 0

/-- CLK registers outside the split values. -/
def State.clkWord (s : State) (off : Nat) : Nat :=
  if off = 0x808 then s.clock.base % 16 + 256 * s.clock.target + 4096 * s.clock.cap
  else if off = 0x80C then (BitVec.ofInt 8 s.clock.trim).toNat
  else if off = 0x810 then bit s.clock.rootLocked 0 + bit s.domain.meridianLocked 1
  else if 0x1000 ≤ off ∧ off < 0x1070 then
    let w := mget (0, 0) s.clock.crossings ((off - 0x1000) / 4)
    w.1 % 16 + 16 * (w.2 % 16)
  else 0

/-! ### Tile registers (Table 16.7) -/

/-- TCB registers outside the configuration and the split values. -/
def Tile.tcbWord (t : Tile) (off : Nat) : Nat :=
  match off with
  | 0x800 => bit t.halted 0 + bit t.faulted 1 + bit t.computePhase 2
  | 0x804 => t.flags.toNat
  | 0x830 => t.eccW.toNat
  | 0x834 => t.eccA.toNat
  | 0x838 => t.eccIstore.toNat
  | _ => 0

/-- SYU_WATCH word 0. -/
def WatchEntry.word0 (w : WatchEntry) : Nat :=
  w.value.toNat + 2 ^ 16 * w.sem.val + 2 ^ 22 * w.generation.toNat + bit w.armed 26 + bit w.fired 27

/-- SYU registers. -/
def State.syuWord (s : State) (t off : Nat) : Nat :=
  let x := s.tile t
  if 0x1000 ≤ off ∧ off < 0x1100 then (x.sem ((off - 0x1000) / 4)).toNat
  else if 0x1100 ≤ off ∧ off < 0x1180 then
    let b := (off - 0x1100) / 8
    let c := s.counter 0 (clusterOf t) b
    if off % 8 = 0 then (x.barrier b).a.toNat % 65536 + 65536 * ((x.barrier b).r.toNat % 65536)
    else c.bank0 % 65536 + 65536 * (c.bank1 % 65536)
  else if 0x1200 ≤ off ∧ off < 0x1300 then
    let w := x.watch ((off - 0x1200) / 8)
    if off % 8 = 0 then w.word0 else w.target % 128
  else 0

/-- STE registers outside the split values. -/
def Tile.steWord (t : Tile) (off : Nat) : Nat :=
  let ds := (List.range 32).map t.desc
  match off with
  | 0x800 => bitsOf (ds.map (·.running))
  | 0x804 => bitsOf (ds.map (·.shadow.isSome))
  | 0x808 => t.tags.length
  | 0x820 => bitsOf (ds.map (·.overrun))
  | _ => 0

/-- A count as a 32-bit counter shows it, which saturates at all ones (R545). -/
def shown32 (n : Nat) : Nat := min n 0xFFFFFFFF

/-- CHI registers outside the split values. -/
def Tile.chiWord (t : Tile) (off : Nat) : Nat :=
  if 0x1000 ≤ off ∧ off < 0x1100 then shown32 (t.recv ((off - 0x1000) / 4)).discards
  else if 0x1100 ≤ off ∧ off < 0x1200 then shown32 (t.recv ((off - 0x1100) / 4)).filterDiscards
  else if 0x1200 ≤ off ∧ off < 0x1300 then shown32 (t.send ((off - 0x1200) / 4)).discards
  else 0

/-! ### Memory-side and port registers (Table 16.8) -/

/-- HMC registers outside the configuration and the split value. -/
def Stack.hmcWord (x : Stack) (off : Nat) : Nat :=
  match off with
  | 0x800 => bit x.trained 0 + bit x.fastRefresh 1 + 65536 * x.failedDies.toNat
  | 0x804 => x.poison.length % 512 + bit x.poisonFull 31
  | 0x808 => x.corrA.toNat
  | 0x80C => x.corrW.toNat
  | 0x810 => x.uncorr.toNat
  | 0x820 => signed16 x.temp
  | 0x824 => x.intake.length % 2048
  | _ => 0

/-- The lowest completed step of any entry of a stack's plan, 0 before every entry has completed one. -/
def Stack.lowestStep (x : Stack) : Nat :=
  match x.plan with
  | none => 0
  | some p =>
    let done := (List.range p.entries.length).map (fun i => (mfind x.entries i).bind (·.completed))
    if done.all (·.isSome) then (done.filterMap id).foldl min ((done.filterMap id).headD 0) else 0

/-- UPE registers. -/
def Stack.upeWord (x : Stack) (off : Nat) : Nat :=
  match off with
  | 0x800 => x.upeFlags.toNat
  | 0x804 =>
    ((x.plan.map (·.entries.length)).getD 0) % 8192 +
      65536 * ((x.entries.filter (fun (e : Nat × EntryState) => e.2.running)).length % 8192)
  | 0x808 => x.lowestStep % 2 ^ 32
  | 0x80C => x.marksIgnored.toNat
  | 0x810 => x.gateIgnored.toNat
  | _ => 0

/-- CPT and TIE registers outside the split value. -/
def Port.regWord (x : Port) (off : Nat) : Nat :=
  match off with
  | 0x800 => x.stateWord
  | 0x804 => x.partnerWord
  | 0x810 => x.discType.toNat
  | 0x814 => x.discEpoch.toNat
  | 0x818 => x.discCseq.toNat
  | 0x81C => x.discJob.toNat
  | 0x820 => x.lastHb.toNat
  | _ => 0

/-! ### Split values (R550) -/

/-- A split value of a tile's blocks, by its _LO offset. -/
def State.tileSplit (s : State) (b off : Nat) : Option DWord :=
  let t := s.tile (tileOfBlock b)
  match b % 4 with
  | 0 =>
    if off = 0x808 then some (if s.runActive then s.runCycle else 0)
    else if off = 0x810 then some t.held
    else if off = 0x818 then some t.freeze
    else if off = 0x820 then some t.miss
    else if off = 0x828 then some t.holdFull
    else if 0x2000 ≤ off ∧ off < 0x4000 ∧ off % 8 = 0 then some (mget 0 t.stall ((off - 0x2000) / 8))
    else none
  | 2 =>
    if 0x1000 ≤ off ∧ off < 0x1100 ∧ off % 8 = 0 then
      some (BitVec.ofNat 64 (t.desc ((off - 0x1000) / 8)).segs.done)
    else none
  | 3 =>
    if off = 0x800 then some (BitVec.ofNat 64 (bitsOf ((List.range 64).map (fun e => (t.recv e).closed))))
    else if off = 0x808 then some (BitVec.ofNat 64 (bitsOf ((List.range 64).map (fun e => (t.send e).closed))))
    else none
  | _ => none

/-- The split value whose _LO register lies at an offset of a block. -/
def State.splitValue (s : State) (b off : Nat) : Option DWord :=
  if b = 5 then
    if off = 0x800 then some s.clock.meridian
    else if 0x1100 ≤ off ∧ off < 0x1150 ∧ off % 8 = 0 then some (s.region ((off - 0x1100) / 8)).stretched
    else none
  else if 16 ≤ b ∧ b < 36 then
    if off = 0x808 then some (s.port (b - 16)).retries else none
  else if 64 ≤ b ∧ b < 96 then
    if off = 0x818 then some (BitVec.ofNat 64 (s.stack (b - 64)).scrubAddr) else none
  else if 128 ≤ b then s.tileSplit b off
  else none

/-- An offset is a _LO register. -/
def State.isLo (s : State) (b off : Nat) : Bool := (s.splitValue b off).isSome

/-- An offset is a _HI register. -/
def State.isHi (s : State) (b off : Nat) : Bool := decide (4 ≤ off) && s.isLo b (off - 4)

/-! ### A register's value -/

/-- Configuration registers that a block holds (Tables 16.6 to 16.8). -/
def configOffset (b off : Nat) : Bool :=
  decide (off % 4 = 0) &&
  (if b = 2 then decide (off = 0x100)
   else if 64 ≤ b ∧ b < 96 then decide (0x100 ≤ off ∧ off < 0x150)
   else if 128 ≤ b ∧ b % 4 = 0 then decide (off = 0x100 ∨ off = 0x104)
   else false)

/-- A register of the state and array spaces that is no split value. -/
def State.plainWord (s : State) (b off : Nat) : Nat :=
  if b = 0 then s.mcbWord off
  else if b = 1 then s.hifWord off
  else if b = 2 then (if off = 0x800 then s.bootWord else 0)
  else if b = 3 then (if off = 0x800 then s.sec.rollback else if off = 0x804 then s.secWord else 0)
  else if b = 4 then s.pwrWord off
  else if b = 5 then s.clkWord off
  else if b < 16 then 0
  else if b < 36 then (s.port (b - 16)).regWord off
  else if b < 64 then 0
  else if b < 96 then (s.stack (b - 64)).hmcWord off
  else if b < 128 then (s.stack (b - 96)).upeWord off
  else
    match b % 4 with
    | 0 => (s.tile (tileOfBlock b)).tcbWord off
    | 1 => s.syuWord (tileOfBlock b) off
    | 2 => (s.tile (tileOfBlock b)).steWord off
    | _ => (s.tile (tileOfBlock b)).chiWord off

/-- The live value of a register, its reserved bits apart; an offset that no map lists reads 0 (R542). -/
def State.regWord (s : State) (b off : Nat) : Word :=
  if off < 0x100 then word (s.headerWord b off)
  else if off < 0x800 then (if configOffset b off then word (leNat (readBytes (s.block b).cfg off 4)) else 0)
  else
    match s.splitValue b off with
    | some v => half v false
    | none =>
      match (if 4 ≤ off then s.splitValue b (off - 4) else none) with
      | some v => half v true
      | none => word (s.plainWord b off)

/-- A host read of a register at a BAR0 address: a _HI register returns the shadow where the last read of the block was the
matching _LO (R550); a disabled tile's blocks read 0 (R546). -/
def State.hostRead (s : State) (a : Nat) : Word :=
  match blockAt a with
  | some (b, off) =>
    if s.blockLive b then
      match (s.block b).hostShadow with
      | some (lo, v) => if off = lo + 4 then v else s.regWord b off
      | none => s.regWord b off
    else 0
  | none => 0

/-- SPLIT_LO_READ (R550): _HI is latched into the shadow of the reading path. -/
def execSplitLoRead (byFirmware : Bool) (addr : Nat) (s : State) : Res :=
  match blockAt addr with
  | some (b, off) =>
    match s.splitValue b off with
    | some v =>
      if s.blockLive b then
        let x := some (off, half v true)
        .next (s.modBlock b (fun y => if byFirmware then { y with fwShadow := x } else { y with hostShadow := x }))
      else .next s
    | none => .next s
  | none => .next s

end Sys2Proof.Machine
end

