-- ==== Sys2Proof/Machine/RegWrite.lean ====
section
/-! DEFINITION. Writes to the registers of BAR0 (R541 to R556, R566): the access rules, posted writes, the configuration CRC
and its monument, write-1-to-clear fields and the split-write shadow. -/

namespace Sys2Proof.Machine

/-! ### Drift (R554, R566) -/

/-- The payload of CFG_DRIFT: block code, instance, both values and the meridian. -/
def State.driftPayload (s : State) (b : Nat) : Bytes :=
  leBytes 1 (blockCode b) ++ leBytes 1 (blockInst b) ++ zeros 2 ++ leBytes 4 (s.block b).crc.toNat ++
  leBytes 4 (s.block b).monument.toNat ++ leBytes 8 s.clock.meridian.toNat

/-- Firmware rewrites a block's configuration from its own copy. -/
def State.restoreCfg (s : State) (b : Nat) : State :=
  (s.modBlock b (fun x => { x with cfg := x.copy, crc := cfgCrc x.copy })).applyCfg b

/-- Firmware commits a new monument (R554). -/
def Block.commit (x : Block) : Block := { x with monument := x.crc, monArm := true, drifted := false }

/-- What firmware does on a CFG_DRIFT event (R566). -/
def State.driftPolicy (s : State) (b : Nat) : State :=
  let x := s.block b
  if x.cfg = x.copy then s.logCode (eventCode evCfgDrift) 8 0 (srcOf (blockCode b) (blockInst b)) [1]
  else if isRunBlock b then
    if s.runActive then
      s.raiseHw hwCfg (srcOf (blockCode b) (blockInst b)) (BitVec.ofNat 64 (blockCode b + 256 * blockInst b))
        (BitVec.ofNat 64 (x.crc.toNat + 2 ^ 32 * x.monument.toNat)) (s.driftPayload b)
    else (s.restoreCfg b).modBlock b Block.commit
  else s.restoreCfg b

/-- While MON_ARM is 1, compare CFG_CRC with MONUMENT: the first difference sets CFG_DRIFT and raises the event, another
comes only after the two have agreed (R554). -/
def State.compareCrc (s : State) (b : Nat) : State :=
  let x := s.block b
  if !x.monArm then s
  else if x.crc = x.monument then s.modBlock b (fun y => { y with drifted := false })
  else if x.drifted then s
  else
    let s1 := s.modBlock b (fun y => { y with drifted := true, cfgDrift := true })
    (s1.event evCfgDrift (srcOf (blockCode b) (blockInst b)) (s1.driftPayload b)).driftPolicy b

/-- CFG_CRC_RECOMPUTE (R553): from the stored bits, some of which an upset may have flipped. -/
def execCfgCrcRecompute (addr : Nat) (upset : List (Nat × Byte)) (s : State) : Res :=
  match blockAt addr with
  | some (b, _) =>
    if s.blockLive b && !s.power.inReset then
      let flip (m : Memory) (e : Nat × Byte) : Memory :=
        if 0x100 ≤ e.1 ∧ e.1 < 0x800 then writeByte m e.1 (readByte m e.1 ^^^ e.2) else m
      let ups := if hasConfig b then upset else []
      let s1 := s.modBlock b (fun x =>
        let cfg := ups.foldl flip x.cfg
        { x with cfg := cfg, crc := cfgCrc cfg })
      let s2 := if ups = [] then s1 else s1.applyCfg b
      .next (s2.compareCrc b)
    else .next s
  | none => .next s

/-! ### A write that reaches its register -/

/-- Reserved bits of a writable register (Table 16.2, Tables 16.6 to 16.8): a write must leave them as just read (R544). -/
def reservedMask (b off : Nat) : Word :=
  if off = 0x04 then 0xFFFFFFFC
  else if off = 0x08 then 0xFFFFFFF0
  else if b = 2 ∧ off = 0x100 then 0xFFFFFFF0
  else if 64 ≤ b ∧ b < 96 ∧ 0x100 ≤ off ∧ off < 0x150 then 0xF8F8F8F8
  else if 128 ≤ b ∧ b % 4 = 0 ∧ off = 0x100 then 0xFFFFFF00
  else if 128 ≤ b ∧ b % 4 = 0 ∧ off = 0x104 then 0xFFFFFFF0
  else if 96 ≤ b ∧ b < 128 ∧ off = 0x800 then 0xFFFFFFC0
  else 0

/-- What the reserved bits of a register read: stored bits of the configuration space as they are stored, others free (log
entry 3). -/
def State.reservedRead (s : State) (b off : Nat) : Word :=
  if 0x100 ≤ off ∧ off < 0x800 then s.regWord b off &&& reservedMask b off
  else Config.reservedBits (b * 65536 + off) &&& reservedMask b off

/-- A write changes a reserved bit. -/
def State.breaksReserved (s : State) (b off : Nat) (v : Word) : Bool := v &&& reservedMask b off != s.reservedRead b off

/-- Write CTRL: ignored with WIGN during a run (R548); EN of a block without configuration is fixed at 1 (R557). -/
def State.writeCtrl (s : State) (b : Nat) (v : Word) : State :=
  if s.runActive then s.modBlock b (fun x => { x with wign := true })
  else s.modBlock b (fun x => { x with en := if hasConfig b then v.getLsbD 0 else x.en, monArm := v.getLsbD 1 })

/-- Write STATUS: 1 clears WIGN, CFG_DRIFT and WLOST. -/
def Block.clearStatus (x : Block) (v : Word) : Block :=
  { x with wign := x.wign && !v.getLsbD 1, cfgDrift := x.cfgDrift && !v.getLsbD 2, wlost := x.wlost && !v.getLsbD 3 }

/-- Write a configuration register: ignored with WIGN while EN is 1 (R547); else stored, and the CRC is recomputed. -/
def State.writeConfig (s : State) (b off : Nat) (v : Word) : State :=
  if s.blockEn b then s.modBlock b (fun x => { x with wign := true })
  else
    let s1 := s.modBlock b (fun x =>
      let cfg := writeBytes x.cfg off (leBytes 4 v.toNat)
      { x with cfg := cfg, crc := cfgCrc cfg })
    (s1.applyCfg b).compareCrc b

/-- Write a word of the MSI-X table: a vector whose mask clears while it is pending signals (R519). -/
def Vectors.writeTable (x : Vectors) (i : Nat) (v : Word) (coalesce : BitVec 16) : Vectors :=
  let y := { x with table := mput 0 x.table i v }
  let n := i / 4
  if i % 4 = 3 ∧ v.getLsbD 0 = false ∧ x.pba.getLsbD n = true then
    Vectors.signal { y with pba := x.pba &&& ~~~((1 : BitVec 16) <<< n) } coalesce (Fin.ofNat 16 n)
  else y

/-- Clear the rearm-overrun flags whose bit is written 1. -/
def Tile.clearOverrun (t : Tile) (v : Word) : Tile :=
  { t with descs := t.descs.map (fun e => (e.1, if v.getLsbD e.1 then { e.2 with overrun := false } else e.2)) }

/-- Write a register outside the header and the configuration space: the W1C registers and the MSI-X table; every other is
read-only or not listed, and the write is ignored. -/
def State.writeState (s : State) (b off : Nat) (v : Word) : State :=
  if 96 ≤ b ∧ b < 128 ∧ off = 0x800 then s.modStack (b - 96) (fun x => { x with upeFlags := x.upeFlags &&& ~~~(v.setWidth 6) })
  else if 128 ≤ b ∧ b % 4 = 2 ∧ off = 0x820 then s.modTile (tileOfBlock b) (fun t => t.clearOverrun v)
  else if b = 1 ∧ 0x1000 ≤ off ∧ off < 0x1100 then
    { s with host := { s.host with vectors := s.host.vectors.writeTable ((off - 0x1000) / 4) v s.host.coalesce } }
  else s

/-- A write to a split value (R551): _LO is held in the block's write shadow, and _HI applies both halves in one update, which
uses the shadow up. Every split register of the map is read-only (Tables 16.6 to 16.8), so the update itself is ignored
(R543). -/
def State.writeSplit (s : State) (b off : Nat) (v : Word) : State :=
  s.modBlock b (fun x => { x with writeShadow := if s.isLo b off then some (off, v) else none })

/-- A write reaches its register. -/
def State.applyReg (s : State) (b off : Nat) (v : Word) : Res :=
  if s.breaksReserved b off v then .fault .reservedFieldChanged
  else if off = 0x04 then .next (s.writeCtrl b v)
  else if off = 0x08 then .next (s.modBlock b (fun x => x.clearStatus v))
  else if off = 0x10 then .next ((s.modBlock b (fun x => { x with monument := v })).compareCrc b)
  else if off < 0x100 then .next s
  else if off < 0x800 then .next (if configOffset b off then s.writeConfig b off v else s)
  else if s.isLo b off || s.isHi b off then .next (s.writeSplit b off v)
  else .next (s.writeState b off v)

/-- Count a write that is ignored under R542 or R549. -/
def State.countIgnored (s : State) : State := { s with hostWign := satInc s.hostWign }

/-- A host write to one register: HOST_LOCK keeps it out of every block but MCB and HIF (R549); a posted block takes it
later, and drops one that arrives while BUSY (R552). -/
def State.hostStore (s : State) (a : Nat) (v : Word) : Res :=
  match blockAt a with
  | none => .next s
  | some (b, off) =>
    if !s.blockLive b || s.power.inReset then .next s
    else if s.hostLock && decide (2 ≤ b) then .next s.countIgnored
    else if blockPosted b then
      if (s.block b).posted.isSome then .next (s.modBlock b (fun x => { x with wlost := true }))
      else .next (s.modBlock b (fun x => { x with
        posted := some { addr := a, value := v.setWidth 64, eight := false, byteEnable := 0xF } }))
    else s.applyReg b off v

/-! ### Rows -/

/-- Write one register of an access, by its four byte enables: none is no write to it, some is a write that is ignored and
counted (R542). -/
def State.storeLane (s : State) (a : Nat) (v : Word) (be : BitVec 4) : Res :=
  if be = 0xF then s.hostStore a v else if be = 0 then .next s else .next s.countIgnored

/-- REGISTER_WRITE (R541, R542): a naturally aligned access of 4 B, or of 8 B to the lower register and then to the upper
one; an access that covers no whole register is ignored and counted. -/
def execRegisterWrite (w : RegWrite) (s : State) : Res :=
  if s.power.inReset then .next s
  else if w.eight then
    if w.addr % 8 = 0 ∧ w.byteEnable ≠ 0 then
      match s.storeLane w.addr (half w.value false) (w.byteEnable.setWidth 4) with
      | .next s1 => s1.storeLane (w.addr + 4) (half w.value true) ((w.byteEnable >>> 4).setWidth 4)
      | r => r
    else .next s.countIgnored
  else if w.addr % 4 = 0 ∧ w.byteEnable.setWidth 4 = (0xF : BitVec 4) then s.hostStore w.addr (half w.value false)
  else .next s.countIgnored

/-- The offset of an address within its block. -/
def offsetAt (a : Nat) : Option Nat := (blockAt a).map (·.2)

/-- CTRL_EN_WRITE: a write to CTRL that leaves its other bits as read. -/
def execCtrlEnWrite (addr : Nat) (en : Bool) (s : State) : Res :=
  match blockAt addr with
  | some (b, 0x04) =>
    s.hostStore addr (word (bit en 0 + bit (s.block b).monArm 1) ||| s.reservedRead b 0x04)
  | _ => .next s

/-- CTRL_MON_ARM_WRITE: a write to CTRL that leaves its other bits as read. -/
def execCtrlMonArmWrite (addr : Nat) (arm : Bool) (s : State) : Res :=
  match blockAt addr with
  | some (b, 0x04) => s.hostStore addr (word (bit (s.blockEn b) 0 + bit arm 1) ||| s.reservedRead b 0x04)
  | _ => .next s

/-- MONUMENT_WRITE: the reference CRC, compared while armed (R554). -/
def execMonumentWrite (addr : Nat) (value : Word) (s : State) : Res :=
  match offsetAt addr with
  | some 0x10 => s.hostStore addr value
  | _ => .next s

/-- A register with W1C fields: STATUS, UPE_FLAGS, STE_REARM_OVERRUN. -/
def isW1c (b off : Nat) : Bool :=
  decide (off = 0x08) || decide (96 ≤ b ∧ b < 128 ∧ off = 0x800) || decide (128 ≤ b ∧ b % 4 = 2 ∧ off = 0x820)

/-- W1C_WRITE (R543): the named bits clear; reserved bits are written as read. -/
def execW1cWrite (addr : Nat) (value : Word) (s : State) : Res :=
  match blockAt addr with
  | some (b, off) =>
    if isW1c b off then s.hostStore addr ((value &&& ~~~(reservedMask b off)) ||| s.reservedRead b off) else .next s
  | none => .next s

/-- SPLIT_LO_WRITE (R551): a host write to a _LO register. -/
def execSplitLoWrite (addr : Nat) (value : Word) (s : State) : Res :=
  match blockAt addr with
  | some (b, off) => if s.isLo b off then s.hostStore addr value else .next s
  | none => .next s

/-- SPLIT_HI_WRITE (R551): a host write to a _HI register. -/
def execSplitHiWrite (addr : Nat) (value : Word) (s : State) : Res :=
  match blockAt addr with
  | some (b, off) => if s.isHi b off then s.hostStore addr value else .next s
  | none => .next s

/-- POSTED_WRITE_APPLIED (R552): the write reaches its register, and BUSY clears. -/
def execPostedWriteApplied (addr : Nat) (s : State) : Res :=
  match blockAt addr with
  | some (b, _) =>
    match (s.block b).posted with
    | some w =>
      match offsetAt w.addr with
      | some off => (s.modBlock b (fun x => { x with posted := none })).applyReg b off (w.value.setWidth 32)
      | none => .next s
    | none => .next s
  | none => .next s

end Sys2Proof.Machine
end

