-- ==== Sys2Proof/Machine/Power.lean ====
section
/-! DEFINITION. What firmware does alone about temperature, input power, the supply and the log (R562, R563, R569, R573, R578 to
R580, R604). -/

namespace Sys2Proof.Machine

/-- Source of the supply's events. -/
def srcPwr : BitVec 16 := srcOf 0x0D 0

/-- Firmware runs: it has booted, and the module is not in reset. -/
def State.fwUp (s : State) : Bool := s.sec.booted && !s.power.inReset

/-! ### Rails (R562, R580, R604; log entry 26) -/

/-- A stack without power: nothing is held, and it is not trained. -/
def Stack.off (x : Stack) : Stack :=
  { x with trained := false, intake := [], heldGates := [], plan := none, entries := [], marks := [], fingerprints := [],
           status := [], scrubWriteBack := none }

/-- A tile after a loss of power: what firmware writes of it again stays, the rest is at reset. -/
def Tile.off (x : Tile) : Tile := { Tile.reset with logical := x.logical, holdAreaCode := x.holdAreaCode }

/-- Turn the compute-die and HBM rails off. -/
def State.railsOff (s : State) : State :=
  let s1 := s.mapTiles Tile.off
  { s1 with
    power := { s1.power with computeDies := false, hbmRails := false }
    net := .reset
    mem := { s1.mem with hbm := [], net := [], zeroing := [], stackMap := s1.mem.stackMap.map (fun e => (e.1, e.2.off)) } }

/-- Turn them on again and train the stacks, unless another rule holds them off. -/
def State.railsOn (s : State) : State :=
  if s.mgp.thermalOff = false ∧ s.power.supply ≠ .halting ∧ (s.power.computeDies = false ∨ s.power.hbmRails = false) then
    ({ s with power := { s.power with computeDies := true, hbmRails := true } }).trainStacks
  else s

/-- A hardware fault that ends a run and is raised only where one goes on. -/
def State.stopRun (s : State) (code : BitVec 16) (detail : Nat) : State :=
  if s.runActive then s.raiseHw code srcPwr 0 (BitVec.ofNat 64 detail) [] else s

/-! ### Temperature (R562) -/

/-- An entry of the power and thermal ring (Table 17.4). -/
def State.powerEntry (s : State) (r : ThermalReading) : Bytes :=
  let two (t : Int) : Bytes := leBytes 2 (BitVec.ofInt 16 t).toNat
  leBytes 8 s.clock.meridian.toNat ++ leBytes 2 s.power.vin ++ leBytes 2 s.power.pin ++ two r.tileMax ++ two r.stackMax ++
  two r.coolantIn ++ two r.coolantOut ++ leBytes 1 s.clock.base ++ leBytes 1 s.supplyWord ++ zeros 10

/-- 95 °C at a tile, or 90 °C at a stack. -/
def thermalHot (r : ThermalReading) : Bool := decide (1520 ≤ r.tileMax) || decide (1440 ≤ r.stackMax)

/-- Below 90 °C at every tile and below 85 °C at every stack. -/
def thermalCool (r : ThermalReading) : Bool := decide (r.tileMax < 1440) && decide (r.stackMax < 1360)

/-- 105 °C at a tile, or 95 °C at a stack. -/
def thermalOver (r : ThermalReading) : Bool := decide (1680 ≤ r.tileMax) || decide (1520 ≤ r.stackMax)

/-- Below 85 °C at every tile and below 80 °C at every stack. -/
def thermalSafe (r : ThermalReading) : Bool := decide (r.tileMax < 1360) && decide (r.stackMax < 1280)

/-- Payload of the thermal events. -/
def thermalPayload (r : ThermalReading) : Bytes :=
  leBytes 2 (BitVec.ofInt 16 r.tileMax).toNat ++ leBytes 2 (BitVec.ofInt 16 r.stackMax).toNat

/-- A window in which a tile or a stack is hot: B rises by 1, and an episode begins with THERMAL_THROTTLE. -/
def State.throttle (s : State) (r : ThermalReading) : State :=
  let s1 := if s.mgp.throttling then s else s.event evThermalThrottle srcPwr (thermalPayload r)
  ({ s1 with mgp := { s1.mgp with throttling := true, releasing := false, coolWindows := 0 } }).raiseBase

/-- A cool window: the episode ends with THERMAL_RELEASE, and every tenth one lowers B by 1 down to the host's target. -/
def State.release (s : State) (r : ThermalReading) : State :=
  let s1 :=
    if s.mgp.throttling then
      ({ s with mgp := { s.mgp with throttling := false, releasing := true, coolWindows := 0 } }).event evThermalRelease srcPwr
        (thermalPayload r)
    else s
  if s1.mgp.releasing then
    if s1.clock.base ≤ s1.clock.target then { s1 with mgp := { s1.mgp with releasing := false, coolWindows := 0 } }
    else if s1.mgp.coolWindows + 1 < 10 then { s1 with mgp := { s1.mgp with coolWindows := s1.mgp.coolWindows + 1 } }
    else ({ s1 with mgp := { s1.mgp with coolWindows := 0 } }).lowerBase
  else s1

/-- Too hot: a run ends with OVER_TEMPERATURE, and the rails go off. -/
def State.overheat (s : State) (r : ThermalReading) : State :=
  let s1 := s.stopRun hwTemp (leNat (thermalPayload r))
  let s2 := { s1 with mgp := { s1.mgp with thermalOff := true } }
  s2.railsOff

/-- THERMAL_POLICY: one window of 10 ms. -/
def execThermalPolicy (r : ThermalReading) (s : State) : Res :=
  if s.fwUp then
    let s1 := { s with
      power := { s.power with tileMax := r.tileMax, hbmMax := r.stackMax }
      mgp := { s.mgp with powerRing := ringPush s.mgp.powerRing (s.powerEntry r) } }
    if s1.mgp.thermalOff then
      if thermalSafe r then
        let s2 := { s1 with mgp := { s1.mgp with thermalOff := false } }
        .next s2.railsOn
      else .next s1
    else if thermalOver r then .next (s1.overheat r)
    else if thermalHot r then .next (s1.throttle r)
    else if thermalCool r then .next (s1.release r)
    else .next { s1 with mgp := { s1.mgp with coolWindows := 0 } }
  else .next s

/-! ### Input power (R563) -/

/-- INPUT_POWER_WINDOW: the input power averaged over 10 ms. -/
def execInputPowerWindow (watts : Nat) (s : State) : Res :=
  if s.fwUp then
    let limit := s.power.inputLimit
    let s1 := { s with power := { s.power with pin := watts } }
    if limit < watts then
      let s2 := if s1.mgp.powerLimited then s1 else s1.event evPowerLimit srcPwr (leBytes 4 watts ++ leBytes 4 limit)
      .next ({ s2 with mgp := { s2.mgp with powerLimited := true, underLimit := 0 } }).raiseBase
    else if watts * 100 < limit * 95 then
      let s2 := { s1 with mgp := { s1.mgp with underLimit := s1.mgp.underLimit + 1 } }
      if s2.mgp.powerLimited ∧ 100 ≤ s2.mgp.underLimit then
        if s2.clock.base ≤ s2.clock.target then .next { s2 with mgp := { s2.mgp with powerLimited := false } }
        else .next s2.lowerBase
      else .next s2
    else .next { s1 with mgp := { s1.mgp with underLimit := 0 } }
  else .next s

/-! ### The log (R573, R579) -/

/-- Entries that the flash's sectors hold: two are kept erased, and the retired ones hold none. -/
def MgpState.logRoom (m : MgpState) : Nat := (510 - m.retired) * 512

/-- Drop the oldest sectors of entries that do not fit. -/
def fitLog (room : Nat) (es : List LogEntry) : List LogEntry := es.drop (512 * ceilDiv (es.length - room) 512)

/-- Commit the ring to flash; entries that had to wait for the supply say so. -/
def State.commitLog (s : State) (deferred : Bool) : State :=
  let m := s.mgp
  let es := m.logRing.map (fun e => { e with deferred := deferred })
  { s with mgp := { m with
      committed := fitLog m.logRoom (m.committed ++ es), logRing := [], overflowEpisode := false,
      lastCommit := s.clock.meridian } }

/-- A commit is due: 512 entries, 1 s, or an entry of severity 3. -/
def State.commitDue (s : State) : Bool :=
  decide (512 ≤ s.mgp.logRing.length) || s.mgp.logRing.any (fun e => decide (e.severity.val = 3)) ||
  (!s.mgp.logRing.isEmpty && decide (s.mgp.lastCommit.toNat + 400000000 ≤ s.clock.meridian.toNat))

/-- LOG_COMMIT: `ok` is whether the sector erased and programmed; one that fails is retired and LOG_SECTOR_RETIRED raised. -/
def execLogCommit (ok : Bool) (s : State) : Res :=
  if s.fwUp ∧ s.power.supply = .normal ∧ s.mgp.restoring = false ∧ s.commitDue then
    let s1 := if ok then s else { s with mgp := { s.mgp with retired := s.mgp.retired + 1 } }
    let s2 := s1.commitLog false
    let s3 := { s2 with mgp := { s2.mgp with flashBusy := true } }
    .next (if ok then s3 else s3.event evLogSectorRetired (srcOf 0x0B 0) (leBytes 2 s3.mgp.retired))
  else .next s

/-! ### Supply sag (R578 to R580) -/

/-- Deferral has been left and the flash is free: the queued writes are carried out in order with their final replies,
SUPPLY_RESTORED is raised, and the log is committed (R579, Table 17.10). -/
def State.restoreSupply (s : State) : State :=
  let q := s.mgp.deferred
  let s1 := { s with mgp := { s.mgp with deferred := [], deferredBytes := 0, restoring := false } }
  ((s1.nvDrain q).event evSupplyRestored srcPwr (leBytes 2 s.power.vin)).commitLog true

/-- Enter write deferral or orderly halt: SUPPLY_LOW, and on a halt the run ends with SUPPLY_HALT and the rails go off. -/
def State.sag (s : State) (halt : Bool) : State :=
  let s1 := if s.power.supply = .normal then s.event evSupplyLow srcPwr (leBytes 2 s.power.vin) else s
  let s2 := { s1 with mgp := { s1.mgp with restoring := false } }
  if halt then
    let s3 := s2.stopRun hwSupply s2.power.vin
    ({ s3 with power := { s3.power with supply := .halting } }).railsOff
  else { s2 with power := { s2.power with supply := .deferring } }

/-- Leave deferral or halt: after a halt the rails and stacks come back and a datum pulse is required. -/
def State.recover (s : State) : State :=
  let halted := s.power.supply == .halting
  let s1 := { s with power := { s.power with supply := .normal } }
  let s2 := if halted then { s1.railsOn with clock := { s1.clock with datumReq := true } } else s1
  if s2.mgp.flashBusy then { s2 with mgp := { s2.mgp with restoring := true } } else s2.restoreSupply

/-- SUPPLY_SAMPLE: the input voltage every 100 µs, and whether it has been above 49.5 V for 100 ms. Firmware acts on it. -/
def execSupplySample (r : SupplyReading) (s : State) : Res :=
  if s.power.inReset then .next s
  else
    let s0 := { s with power := { s.power with vin := r.millivolt } }
    if s.sec.booted then
      let n485 := if r.millivolt < 48500 then s.power.low485 + 1 else 0
      let n460 := if r.millivolt < 46000 then s.power.low460 + 1 else 0
      let s1 := { s0 with
        power := { s0.power with low485 := n485, low460 := n460 }
        mgp := { s.mgp with retainedMeridian := s.clock.meridian } }
      if 3 ≤ n460 ∧ s1.power.supply ≠ .halting then .next (s1.sag true)
      else if 3 ≤ n485 ∧ s1.power.supply = .normal then .next (s1.sag false)
      else if s1.power.supply ≠ .normal ∧ r.above100ms ∧ 49500 < r.millivolt then .next s1.recover
      else .next s1
    else .next s0

/-- FLASH_OPERATION_DONE: the page program or sector erase that was under way completes; what waited for it goes on. -/
def execFlashOperationDone (_op : FlashOp) (s : State) : Res :=
  if s.mgp.flashBusy ∧ s.power.inReset = false then
    let s1 := { s with mgp := { s.mgp with flashBusy := false } }
    .next (if s1.mgp.restoring && s1.power.supply == .normal then s1.restoreSupply else s1)
  else .next s

end Sys2Proof.Machine
end

