-- ==== Sys2Proof/Machine/Reset.lean ====
section
/-! DEFINITION. Resets, power-up, the boot chain and the PCIe link (R500, R503, R509, R545, R559, R575, R581, R586 to R590, R603 to
R610). -/

namespace Sys2Proof.Machine

/-! ### What a reset leaves (R545, R609) -/

/-- The split of the management SRAM that a reset puts in force: 7 and 8 act as 6 (R559). -/
def splitInForce (v : BitVec 4) : BitVec 4 := if 6 < v then 6 else v

/-- What the management processor keeps: its flash, and the register that holds a meridian through a power-fail reset. -/
def MgpState.afterReset (m : MgpState) : MgpState :=
  { MgpState.reset with
    sramInForce := splitInForce m.sramSplit, logSeq := m.logSeq, committed := m.committed, retired := m.retired,
    calStore := m.calStore, calStaging := m.calStaging, retainedMeridian := m.retainedMeridian,
    powerFailed := m.powerFailed }

/-- What the security block keeps: its fuses, its store and the images in flash. -/
def SecState.afterReset (x : SecState) : SecState :=
  { SecState.reset with
    rootKeyHash := x.rootKeyHash, rollback := x.rollback, uds := x.uds, dikSeed := x.dikSeed, lifecycle := x.lifecycle,
    imageA := x.imageA, imageB := x.imageB, routineRom := x.routineRom, bootRomDigest := x.bootRomDigest, keys := x.keys,
    enforce := x.enforce }

/-- The clocks after a reset: the meridian is stopped and held (R503). -/
def ClockState.afterReset (c : ClockState) : ClockState :=
  { ClockState.reset with meridian := c.meridian, copies := c.copies, meridianFresh := c.meridianFresh }

/-- The MSI-X vectors after a reset; what has been signalled stays as a record of what left the module. -/
def Vectors.afterReset (v : Vectors) : Vectors := { Vectors.reset with signalled := v.signalled }

/-- The host interface after a reset; what has left the module stays as a record. -/
def HostState.afterReset (h : HostState) : HostState :=
  { HostState.reset with
    mctpSent := h.mctpSent, apertureReads := h.apertureReads, hostWrites := h.hostWrites, vectors := h.vectors.afterReset }

/-- The internal reset: every register at its reset value, every session and run ended; fuses, flash, rails, pins and the
meridian stay. -/
def State.internalReset (s : State) : State :=
  { State.reset with
    fuses := s.fuses, clock := s.clock.afterReset, mgp := s.mgp.afterReset, sec := s.sec.afterReset,
    host := s.host.afterReset,
    power := { s.power with supply := .normal, low485 := 0, low460 := 0, inputLimit := 7200, inReset := true },
    routines := s.routines, freeCtr := s.freeCtr, pending := s.pending }

/-- MRST (R608): MRST_N has been low long enough. -/
def execMrst (s : State) : Res :=
  let s1 := s.internalReset
  .next { s1 with power := { s1.power with mrstN := false } }

/-- POWER_FAIL_RESET (R581): the comparator below 44.0 V for 20 µs; as MRST_N, and the compute-die and HBM rails go off. -/
def execPowerFailReset (s : State) : Res :=
  if s.power.keepAlive then
    let s1 := s.internalReset
    .next { s1 with
      mgp := { s1.mgp with powerFailed := true }
      power := { s1.power with computeDies := false, hbmRails := false } }
  else .next s

/-- INPUT_LOSS (R603): below 40.0 V every rail is off and the meridian is cleared. -/
def execInputLoss (s : State) : Res :=
  let s1 := s.internalReset
  .next { s1 with
    clock := { s1.clock with meridian := 0, copies := [], meridianFresh := true }
    mgp := { s1.mgp with retainedMeridian := 0, powerFailed := false }
    power := { s1.power with
      vin := 0, pin := 0, keepAlive := false, portDies := false, computeDies := false, hbmRails := false, pwrgd := false } }

/-- POWER_UP (R605): the input has been above 49.5 V for 100 ms; the rails come up in the order of Table 19.2 and PWRGD rises. -/
def execPowerUp (s : State) : Res :=
  if s.power.inReset ∧ (s.power.keepAlive = false ∨ s.power.computeDies = false ∨ s.power.hbmRails = false) then
    .next { s with power := { s.power with
      keepAlive := true, portDies := true, computeDies := true, hbmRails := true, pwrgd := true } }
  else .next s

/-- Every rail is in regulation. -/
def PowerState.railsUp (p : PowerState) : Bool := p.keepAlive && p.portDies && p.computeDies && p.hbmRails

/-- RESET_RELEASE (R605, R606, R608): MRST_N is high, REF100 valid and every rail in regulation (log entry 25). -/
def execResetRelease (s : State) : Res :=
  if s.power.inReset ∧ s.power.railsUp = true then
    .next { s with
      power := { s.power with inReset := false, mrstN := true, ref100 := true }
      clock := { s.clock with datumReq := true } }
  else .next s

/-! ### PCIe and I3C (R509, R525, R607) -/

/-- The PCIe configuration space and the MSI-X vectors are reset and the PCIe session ends; nothing else changes (R545). -/
def State.pcieReset (s : State) : State :=
  let s1 := s.endSession .pcie
  { s1 with host := { s1.host with vectors := s1.host.vectors.afterReset } }

/-- PERST: PERST_N goes low; the link goes down. -/
def execPerst (s : State) : Res :=
  let s1 := s.pcieReset
  .next { s1 with host := { s1.host with linkRate := 0, linkWidth := 0 }, power := { s1.power with perstN := false } }

/-- FLR: a Function Level Reset. -/
def execFlr (s : State) : Res := if s.power.inReset then .next s else .next s.pcieReset

/-- I3C_LOSS: the session over MCTP ends (R525). -/
def execI3cLoss (s : State) : Res := .next (s.endSession .mctp)

/-- PCIE_LINK_TRAINING: PERST_N is high, and the link trains to a rate in GT/s and a width. -/
def execPcieLinkTraining (rate width : Nat) (s : State) : Res :=
  if s.power.inReset then .next s
  else
    let s1 := { s with
      host := { s.host with linkRate := rate, linkWidth := width }
      power := { s.power with perstN := true } }
    if rate < 32 ∨ width < 4 then .next (s1.event evPcieDegraded (srcOf 0x0A 0) (leBytes 1 rate ++ leBytes 1 width))
    else .next s1

/-! ### Boot (R586 to R588, R575, R581) -/

/-- The image tried first: the one of higher ACTIVATION, A on a tie. -/
def SecState.firstIsB (x : SecState) : Bool := decide (x.imageA.activation < x.imageB.activation)

/-- The image that boots and whether it was the second one tried, none for recovery. -/
def SecState.choice (x : SecState) : Option (Bool × Bool) :=
  let b := x.firstIsB
  let img (b : Bool) : FwImage := if b then x.imageB else x.imageA
  if x.imageValid (img b) then some (b, false)
  else if x.imageValid (img (!b)) then some (!b, true)
  else none

/-- The routine patch of an image (R214). -/
def FwImage.patch (x : FwImage) : Bytes := readBytes x.data (0x200 + x.field 0x20 4) (min 65536 (x.field 0x24 4))

/-- The security block once an image has been chosen: its digest is latched and its patch loaded. -/
def SecState.start (x : SecState) (isB second : Bool) (now : DWord) : SecState :=
  let im := if isB then x.imageB else x.imageA
  { x with
    runningB := isB, fallback := second, recovery := false, booted := true, bootedAt := now, latched := im.digest,
    fwVersion := BitVec.ofNat 32 (im.field 8 4), patchRam := writeBytes [] 0 im.patch, fwFault := false }

/-- The calibration store's check at boot (R575): an interrupted write is completed from the staging area; a store that
fails leaves built-in defaults at B = 12. -/
def State.checkCal (s : State) : State :=
  let staged := calGood s.mgp.calStaging
  let store := if staged then s.mgp.calStaging else s.mgp.calStore
  let valid := calGood store
  let s1 := { s with mgp := { s.mgp with
    calStore := store, calStaging := if staged then [] else s.mgp.calStaging, calValid := valid } }
  if valid then { s1 with clock := { s1.clock with criticalCode := (Config.criticalCode store).val } }
  else { s1 with clock := { s1.clock with criticalCode := 4, base := 12 } }

/-- A boot after a power-fail reset raises SUPPLY_LOW with the meridian at which it came (R581). -/
def State.reportPowerFail (s : State) : State :=
  if s.mgp.powerFailed then
    ({ s with mgp := { s.mgp with powerFailed := false } }).event evSupplyLow srcPwr (leBytes 8 s.mgp.retainedMeridian.toNat)
  else s

/-- The resident routine library once firmware has loaded its patch (R214): the ROM's routines as they are, and the patch's under the
IDs that are a patch's. -/
def State.loadLibrary (s : State) : State :=
  { s with routines := s.routines.filter (fun r => decide (r.id < 0xC000)) ++
      (Config.patchRoutines s.sec.patchRam).filter (fun r => decide (0xC000 ≤ r.id)) }

/-- BOOT: the boot ROM selects, tests and starts an image, or enters recovery. -/
def execBoot (s : State) : Res :=
  if s.power.inReset = false ∧ s.sec.booted = false ∧ s.sec.recovery = false ∧ s.sec.lifecycle = 0b0011 then
    match s.sec.choice with
    | some (isB, second) =>
      let s1 := ({ s with sec := s.sec.start isB second s.clock.meridian }).loadLibrary
      let s2 := if second then s1.event (10, 1) srcSec (leBytes 1 (if isB then 1 else 0)) else s1
      let s3 := s2.checkCal.reportPowerFail.trainStacks
      .next { s3 with host := { s3.host with ringState := if s3.host.pcie.isSome then 2 else 1 } }
    | none => .next { s with sec := { s.sec with recovery := true }, host := { s.host with ringState := 3 } }
  else .next s

/-! ### Anti-rollback (R590) -/

/-- ROLLBACK of the running image. -/
def SecState.ownRollback (x : SecState) : Nat := (if x.runningB then x.imageB else x.imageA).field 6 2

/-- A burn of the ROLLBACK fuses waits for the supply. -/
def MgpState.burnWaits (m : MgpState) : Bool :=
  m.deferred.any (fun e => match e.2 with
    | .rollback _ => true
    | _ => false)

/-- ROLLBACK_ADVANCE: 600 s after firmware started without a hardware fault of its own, the fuses advance to its ROLLBACK. -/
def execRollbackAdvance (s : State) : Res :=
  let n := s.sec.ownRollback
  if s.fwUp ∧ s.sec.fwFault = false ∧ s.sec.bootedAt.toNat + 240000000000 ≤ s.clock.meridian.toNat ∧ s.sec.rollback < n ∧
      s.mgp.burnWaits = false then
    if s.power.supply = .normal ∧ s.mgp.restoring = false then .next (s.nvDo none (.rollback n))
    else .next (s.nvQueue none (.rollback n))
  else .next s

end Sys2Proof.Machine
end

