-- ==== Sys2Proof/Machine/Inbox.lean ====
section
/-! DEFINITION. The inbox and MCTP (R513 to R517, R520, R521, R540): the commit watcher, the CRC, and the command that a
packet carries, run by the same meaning as its row of the table. -/

namespace Sys2Proof.Machine

/-- Run the command of a packet. Rows that no packet carries do not come from the decoder. -/
def State.runCommand (i : Instr) (s : State) : Res :=
  match i with
  | .sessionOpen h b => execSessionOpen h b s
  | .sessionClose h => execSessionClose h s
  | .nop h => execNop h s
  | .identify h => execIdentify h s
  | .sessionTake h b => execSessionTake h b s
  | .loadImage h b x => execLoadImage h b x s
  | .verifyImage h b x => execVerifyImage h b x s
  | .unloadImage h n => execUnloadImage h n s
  | .listImages h => execListImages h s
  | .dmaStart h b => execDmaStart h b s
  | .dmaAbort h c => execDmaAbort h c s
  | .dmaStatus h c => execDmaStatus h c s
  | .apertureMove h b => execApertureMove h b s
  | .memoryLayout h f n ps => execMemoryLayout h f n ps s
  | .run h b ps => execRun h b ps s
  | .stop h => execStop h s
  | .step h m n => execStep h m n s
  | .jobConfig h a b c => execJobConfig h a b c s
  | .runStatus h => execRunStatus h s
  | .setModuleId h v => execSetModuleId h v s
  | .setDomain h b => execSetDomain h b s
  | .setPairMode h m => execSetPairMode h m s
  | .announceInitialMembership h b => execAnnounceInitialMembership h b s
  | .announcePlannedChange h b => execAnnouncePlannedChange h b s
  | .announceForcedChange h b => execAnnounceForcedChange h b s
  | .withdrawChange h e => execWithdrawChange h e s
  | .leaseDeliver h r => execLeaseDeliver h r s
  | .portReset h p => execPortReset h p s
  | .quarantineClear h => execQuarantineClear h s
  | .linkStatus h => execLinkStatus h s
  | .calibrate h v r => execCalibrate h v r s
  | .calExport h o => execCalExport h o s
  | .calImport h o t c => execCalImport h o t c s
  | .powerPolicy h a b l => execPowerPolicy h a b l s
  | .spdm h r => execSpdm h r s
  | .enrolBuildKey h i k => execEnrolBuildKey h i k s
  | .revokeBuildKey h i => execRevokeBuildKey h i s
  | .signingEnforce h v => execSigningEnforce h v s
  | .fwWrite h o c => execFwWrite h o c s
  | .fwActivate h d => execFwActivate h d s
  | .haltTiles h m => execHaltTiles h m s
  | .resumeTiles h m => execResumeTiles h m s
  | .readSync h o t n => execReadSync h o t n s
  | .syncHaltTile h t v => execSyncHaltTile h t v s
  | .syncResumeTile h t v => execSyncResumeTile h t v s
  | .syncSetCount h t n v => execSyncSetCount h t n v s
  | .syncAddArrivals h t n v => execSyncAddArrivals h t n v s
  | .syncReleaseRound h t n v => execSyncReleaseRound h t n v s
  | .syncFireWatch h t n v => execSyncFireWatch h t n v s
  | .syncDisarmWatch h t n v => execSyncDisarmWatch h t n v s
  | .syncResetEndpoint h t n v => execSyncResetEndpoint h t n v s
  | .readTileState h t a b => execReadTileState h t a b s
  | .readTelemetry h b o => execReadTelemetry h b o s
  | .readRecord h r o => execReadRecord h r o s
  | .readEventLog h a b o => execReadEventLog h a b o s
  | .readFaults h o => execReadFaults h o s
  | .readRoutines h o => execReadRoutines h o s
  | .readCheckHist h t => execReadCheckHist h t s
  | .readFlags h t => execReadFlags h t s
  | .subscribe h m => execSubscribe h m s
  | _ => .next s

/-- Firmware's checks of a committed packet, and the start of its command (R520). A packet whose CRC is wrong is answered
BAD_CRC and does not consume its SEQ. -/
def State.takeBerno (x : Berno) (body : Option ImageBody) (s : State) : Res :=
  if !s.fwRuns then .next s
  else if !x.crcGood then .next ((s.countMctp x.hdr).answer x.hdr x.opcode stBadCrc true (failBody 0xFFFF 0 0))
  else
    let cal : CalResult := { withinLimits := Config.freeBit s.freeCtr, store := Config.measuredCal s.freeCtr }
    match decodeBody x.hdr x.opcode x.body body cal with
    | .command i => (s.drawn 1).runCommand i
    | .badOpcode => s.admitAs x.hdr x.opcode false true (fun s => .next s)
    | .badLength => s.admitAs x.hdr x.opcode true false (fun s => .next s)
    | .badValue field v => s.admitAs x.hdr x.opcode true true (fun s => .next (s.fail x.hdr x.opcode stDenied field 0 v))

/-! ### The commit watcher (R516, R517) -/

/-- Read a ring of 256 KiB from a position, wrapping. -/
def ringRead (m : Memory) (pos n : Nat) : Bytes :=
  readBytes m pos (min n (0x40000 - pos)) ++ readBytes m 0 (n - (0x40000 - pos))

/-- The bytes of the next expected inbox packet, as its header's LENGTH now gives its size. -/
def HostState.expected (h : HostState) : Bytes :=
  let pos := h.inSlot * 1024
  ringRead h.inbox pos (packetLength (ringRead h.inbox pos 32))

/-- The place of that packet's trailer in the inbox. -/
def HostState.trailerPlace (h : HostState) : Nat := (h.inSlot * 1024 + h.expected.length - 8) % 0x40000

/-- That packet commits: its trailer's place is covered, and its trailer's SEQ is its header's. -/
def HostState.commits (h : HostState) (covered : List Nat) : Bool :=
  let x := readPacket .pcie h.expected
  covered.contains h.trailerPlace && x.trailer == x.hdr.seq

/-- Slots of the next expected packet. -/
def HostState.expectedSlots (h : HostState) : Nat := ceilDiv h.expected.length 1024

/-- A place of the inbox lies in the packet that begins at the expected slot. -/
def HostState.inExpected (h : HostState) (place : Nat) : Bool :=
  decide ((place / 1024 + 256 - h.inSlot) % 256 < h.expectedSlots)

/-- The packet has been copied: IN_DONE counts it, the watcher moves to the next one (R517). -/
def HostState.advance (h : HostState) : HostState :=
  { h with inDone := h.inDone + 1, inSlot := (h.inSlot + h.expectedSlots) % 256,
           covered := h.covered.filter (fun p => !h.inExpected p) }

/-- Commit packets in ring order while the next one's trailer is there. -/
def State.watch : Nat → List Nat → Option ImageBody → State → Res
  | 0, _, _, s => .next s
  | n + 1, covered, body, s =>
    if s.fwRuns && s.host.commits covered then
      match State.takeBerno (readPacket .pcie s.host.expected) body { s with host := s.host.advance } with
      | .next t => State.watch n t.host.covered body t
      | .fault e => .fault e
      | .refused e => .refused e
    else .next s

/-- Aligned 8-byte places of the inbox that a write covers. -/
def placesOf (offset len : Nat) : List Nat :=
  ((List.range (len / 8 + 1)).map (fun k => 8 * (ceilDiv offset 8 + k))).filter (fun p =>
    decide (p + 8 ≤ offset + len ∧ p < 0x40000))

/-- INBOX_COMMIT: a host write to BAR2; one that covers the expected packet's trailer commits it, and those that follow it.
Bytes beyond the inbox are ignored (Table 15.3). -/
def execInboxCommit (offset : Nat) (data : Bytes) (body : Option ImageBody) (s : State) : Res :=
  if s.power.inReset ∨ 0x40000 ≤ offset then .next s
  else
    let places := placesOf offset data.length
    let h := s.host
    let h1 := { h with inbox := writeBytes h.inbox offset (data.take (0x40000 - offset)),
                       covered := h.covered.filter (fun p => !places.contains p) ++ places }
    State.watch 257 places body { s with host := h1 }

/-- MCTP_MESSAGE: a packet that came whole as the body of an MCTP message (R540). A trailer whose SEQ differs from its
header's never commits. -/
def execMctpMessage (packet : Bytes) (body : Option ImageBody) (s : State) : Res :=
  let x := readPacket .mctp packet
  if x.trailer = x.hdr.seq then s.takeBerno x body else .next s

end Sys2Proof.Machine
end

