-- ==== Sys2Proof/Machine/Slots.lean ====
section
/-! DEFINITION. The slot operations as commands: what the error-correcting codes find as the bundle issues (R229, R248),
and then the operation itself. -/

namespace Sys2Proof.Machine

/-! ### Upsets in the scratchpad (R246, R248) -/

/-- The class whose code protects a line: that of the region it lies in. -/
def Tile.lineClassW (t : Tile) (line : Nat) : Bool :=
  t.regions.any (fun e => e.2.classW && decide (e.2.base ≤ 64 * line) && decide (64 * line < e.2.base + e.2.length))

/-- A read of a line that holds a corrected error counts it. -/
def Tile.countUpset (t : Tile) (line : Nat) : Tile :=
  if mfind t.upsets line = some false then
    if t.lineClassW line then { t with eccW := satInc t.eccW } else { t with eccA := satInc t.eccA }
  else t

/-- SCRATCHPAD_ECC of a line: the record holds the tile and the line address (R248). -/
def State.raiseScratch (s : State) (t line : Nat) : State :=
  s.raiseHw hwScratchEcc (srcTile t) (BitVec.ofNat 64 t) (BitVec.ofNat 64 (64 * line))
    (leBytes 2 t ++ leBytes 4 (64 * line) ++ leBytes 8 s.clock.meridian.toNat)

/-- Lines of a tile's scratchpad are read: corrected errors are counted, and the first error beyond the code's power stops the
run. -/
def State.meetUpsets (s : State) (t : Nat) (lines : List Nat) : State :=
  if (s.tile t).upsets.isEmpty then s
  else
    let s1 := s.modTile t (fun x => lines.foldl Tile.countUpset x)
    match lines.find? (fun l => mfind (s.tile t).upsets l == some true) with
    | some l => s1.raiseScratch t l
    | none => s1

/-- An upset strikes a line of the scratchpad. -/
def Tile.strike (t : Tile) (line : Nat) (uncorrectable : Bool) : Tile :=
  { t with upsets := mset t.upsets line (uncorrectable || mget false t.upsets line) }

/-- ISTORE_ECC of a tile at a place of its instruction store or of its routine store. -/
def State.raiseIstore (s : State) (t place : Nat) : State :=
  s.raiseHw hwIstoreEcc (srcTile t) (BitVec.ofNat 64 t) (BitVec.ofNat 64 place)
    (leBytes 2 t ++ leBytes 4 place ++ leBytes 8 s.clock.meridian.toNat)

/-- An operation under the error-correcting codes. A corrected error of the line that is about to issue is counted and changes
nothing, a double-bit error in it stops the run (R25, R229). -/
def eccGuard (i : Iss) (f : State → Res) (s : State) : Res :=
  let t := i.tile.val
  if mayIssue s i && storeHolds (s.tile t) i.bundle then
    match i.ecc with
    | .istoreCorrected => f (s.modTile t (fun x => { x with eccIstore := satInc x.eccIstore }))
    | .istoreDouble => .next (s.raiseIstore t (Config.bundleLine i.bundle))
    | .scratchUpset line u => f (s.modTile t (fun x => x.strike line u))
    | _ => f s
  else f s

/-- A routine call under the code of the routine store (R229; log entry 116). -/
def routineGuard (i : Iss) (id : BitVec 16) (f : State → Res) (s : State) : Res :=
  let t := i.tile.val
  if mayIssue s i && storeHolds (s.tile t) i.bundle then
    match i.ecc with
    | .routineCorrected => f (s.modTile t (fun x => { x with eccIstore := satInc x.eccIstore }))
    | .routineDouble offset => .next (s.raiseIstore t (routineBundle id offset).toNat)
    | _ => eccGuard i f s
  else f s

/-- SET_MODE: `opSetMode` under the codes. -/
def execSetMode (i : Iss) (a : ModeArg) (s : State) : Res :=
  eccGuard i (opSetMode i a) s

/-- LOAD_WEIGHTS: `opLoadWeights` under the codes. -/
def execLoadWeights (i : Iss) (a : LoadArg) (s : State) : Res :=
  eccGuard i (opLoadWeights i a) s

/-- FEED: `opFeed` under the codes. -/
def execFeed (i : Iss) (a : FeedArg) (s : State) : Res :=
  eccGuard i (opFeed i a) s

/-- FINISH_TREE: `opFinishTree` under the codes. -/
def execFinishTree (i : Iss) (a : FinishArg) (s : State) : Res :=
  eccGuard i (opFinishTree i a) s

/-- DRAIN: `opDrain` under the codes. -/
def execDrain (i : Iss) (a : DrainArg) (s : State) : Res :=
  eccGuard i (opDrain i a) s

/-- VECTOR_PASS: `opVectorPass` under the codes. -/
def execVectorPass (i : Iss) (p : Pass) (s : State) : Res :=
  eccGuard i (opVectorPass i p) s

/-- REDUCTION: `opReduction` under the codes. -/
def execReduction (i : Iss) (r : Reduction) (s : State) : Res :=
  eccGuard i (opReduction i r) s

/-- COMBINE: `opCombine` under the codes. -/
def execCombine (i : Iss) (a : CombineArg) (s : State) : Res :=
  eccGuard i (opCombine i a) s

/-- SCALAR_OP: `opScalarOp` under the codes. -/
def execScalarOp (i : Iss) (op : ScalarOp) (s : State) : Res :=
  eccGuard i (opScalarOp i op) s

/-- SCALAR_MULTIPLY: `opScalarMultiply` under the codes. -/
def execScalarMultiply (i : Iss) (d : ScalarDst) (a b : ScalarSrc) (s : State) : Res :=
  eccGuard i (opScalarMultiply i d a b) s

/-- READ_LOOP_INDEX: `opReadLoopIndex` under the codes. -/
def execReadLoopIndex (i : Iss) (d : ScalarDst) (level : Fin 4) (s : State) : Res :=
  eccGuard i (opReadLoopIndex i d level) s

/-- SCALAR_LOAD: `opScalarLoad` under the codes. -/
def execScalarLoad (i : Iss) (d : ScalarDst) (addr : ScalarSrc) (region : Fin 64) (s : State) : Res :=
  eccGuard i (opScalarLoad i d addr region) s

/-- SCALAR_STORE: `opScalarStore` under the codes. -/
def execScalarStore (i : Iss) (a : ScalarSrc) (addr : ScalarSrc) (region : Fin 64) (s : State) : Res :=
  eccGuard i (opScalarStore i a addr region) s

/-- P_BLOCK_LOAD: `opPBlockLoad` under the codes. -/
def execPBlockLoad (i : Iss) (first : PReg) (addr : ScalarSrc) (region : Fin 64) (s : State) : Res :=
  eccGuard i (opPBlockLoad i first addr region) s

/-- LANE_INSERT_EXTRACT: `opLaneInsertExtract` under the codes. -/
def execLaneInsertExtract (i : Iss) (op : LaneOp) (s : State) : Res :=
  eccGuard i (opLaneInsertExtract i op) s

/-- LOOP_START: `opLoopStart` under the codes. -/
def execLoopStart (i : Iss) (l : LReg) (last : Word) (s : State) : Res :=
  eccGuard i (opLoopStart i l last) s

/-- ROUTINE_CALL: `opRoutineCall` under the codes. -/
def execRoutineCall (i : Iss) (id : BitVec 16) (s : State) : Res :=
  routineGuard i id (opRoutineCall i id) s

/-- SETUP: `opSetup` under the codes. -/
def execSetup (i : Iss) (d : Fin 32) (a : SetupArg) (s : State) : Res :=
  eccGuard i (opSetup i d a) s

/-- START: `opStart` under the codes. -/
def execStart (i : Iss) (d : Fin 32) (s : State) : Res :=
  eccGuard i (opStart i d) s

/-- REARM: `opRearm` under the codes. -/
def execRearm (i : Iss) (d : Fin 32) (base : Src) (last : Bool) (s : State) : Res :=
  eccGuard i (opRearm i d base last) s

/-- PHASE: `opPhase` under the codes. -/
def execPhase (i : Iss) (compute : Bool) (s : State) : Res :=
  eccGuard i (opPhase i compute) s

/-- FILL: `opFill` under the codes. -/
def execFill (i : Iss) (a : FillArg) (s : State) : Res :=
  eccGuard i (opFill i a) s

/-- COPY: `opCopy` under the codes. -/
def execCopy (i : Iss) (a : CopyArg) (s : State) : Res :=
  eccGuard i (opCopy i a) s

/-- CODE_PREFETCH: `opCodePrefetch` under the codes. -/
def execCodePrefetch (i : Iss) (a : PrefetchArg) (s : State) : Res :=
  eccGuard i (opCodePrefetch i a) s

/-- WINDOW_OPEN: `opWindowOpen` under the codes. -/
def execWindowOpen (i : Iss) (w : Fin 16) (a : WindowArg) (s : State) : Res :=
  eccGuard i (opWindowOpen i w a) s

/-- WINDOW_CLOSE: `opWindowClose` under the codes. -/
def execWindowClose (i : Iss) (w : Fin 16) (s : State) : Res :=
  eccGuard i (opWindowClose i w) s

/-- POST_SEND: `opPostSend` under the codes. -/
def execPostSend (i : Iss) (d : Fin 32) (segment : Src) (ep : Fin 64) (g : GReg) (s : State) : Res :=
  eccGuard i (opPostSend i d segment ep g) s

/-- SEND_G: `opSendG` under the codes. -/
def execSendG (i : Iss) (a : SendArg) (g : GReg) (s : State) : Res :=
  eccGuard i (opSendG i a g) s

/-- SEND_V: `opSendV` under the codes. -/
def execSendV (i : Iss) (a : SendArg) (v : VReg) (count : Fin 4) (s : State) : Res :=
  eccGuard i (opSendV i a v count) s

/-- RECV_G: `opRecvG` under the codes. -/
def execRecvG (i : Iss) (ep : Fin 64) (g : GReg) (wp : Fin 1024) (s : State) : Res :=
  eccGuard i (opRecvG i ep g wp) s

/-- RECV_V: `opRecvV` under the codes. -/
def execRecvV (i : Iss) (ep : Fin 64) (v : VReg) (count : Fin 4) (wp : Fin 1024) (s : State) : Res :=
  eccGuard i (opRecvV i ep v count wp) s

/-- RECV_DROP: `opRecvDrop` under the codes. -/
def execRecvDrop (i : Iss) (ep : Fin 64) (wp : Fin 1024) (s : State) : Res :=
  eccGuard i (opRecvDrop i ep wp) s

/-- WAIT_ARRIVED: `opWaitArrived` under the codes. -/
def execWaitArrived (i : Iss) (ep : Fin 64) (slot : Src) (k : Nat) (wp : Fin 1024) (s : State) : Res :=
  eccGuard i (opWaitArrived i ep slot k wp) s

/-- EP_RESET: `opEpReset` under the codes. -/
def execEpReset (i : Iss) (ep : Fin 64) (s : State) : Res :=
  eccGuard i (opEpReset i ep) s

/-- EP_OPEN: `opEpOpen` under the codes. -/
def execEpOpen (i : Iss) (ep : Fin 64) (s : State) : Res :=
  eccGuard i (opEpOpen i ep) s

/-- SIGNAL: `opSignal` under the codes. -/
def execSignal (i : Iss) (k : Fin 64) (n : BitVec 16) (s : State) : Res :=
  eccGuard i (opSignal i k n) s

/-- WAIT: `opWait` under the codes. -/
def execWait (i : Iss) (k : Fin 64) (v : BitVec 16) (take : Bool) (wp : Fin 1024) (s : State) : Res :=
  eccGuard i (opWait i k v take wp) s

/-- WATCH_REG: `opWatchReg` under the codes. -/
def execWatchReg (i : Iss) (handle : Fin 32) (k : Fin 64) (v : BitVec 16) (s : State) : Res :=
  eccGuard i (opWatchReg i handle k v) s

/-- WATCH_WAIT: `opWatchWait` under the codes. -/
def execWatchWait (i : Iss) (handle : Fin 32) (wp : Fin 1024) (s : State) : Res :=
  eccGuard i (opWatchWait i handle wp) s

/-- ARRIVE: `opArrive` under the codes. -/
def execArrive (i : Iss) (b : Fin 16) (s : State) : Res :=
  eccGuard i (opArrive i b) s

/-- BWAIT: `opBwait` under the codes. -/
def execBwait (i : Iss) (b : Fin 16) (wp : Fin 1024) (s : State) : Res :=
  eccGuard i (opBwait i b wp) s

/-- FILL_COPY_DONE: `opFillCopyDone`, with the reads of a copy's source under the codes. -/
def execFillCopyDone (tile : TileNo) (s : State) : Res :=
  let ending := (s.tile tile.val).fillRuns.find? (fun f => !f.done && decide (f.ends ≤ s.runCycle.toNat))
  let lines := ((ending.bind (fun f => f.source.map (fun a => linesOf a f.length))).getD [])
  opFillCopyDone tile (if s.runActive then s.meetUpsets tile.val lines else s)

/-- TRANSFER_ISSUE: `opTransferIssue`, with its reads of the scratchpad under the codes. -/
def execTransferIssue (tile : TileNo) (s : State) : Res :=
  let r := s.transferReads tile
  opTransferIssue tile (s.meetUpsets tile.val (linesOf r.1 r.2))

end Sys2Proof.Machine
end

