-- ==== Sys2Proof/Machine/Cycle.lean ====
section
/-! DEFINITION. What one compute cycle does on a tile beside the commands (R140, R170, R187, R204, R207, R242, R248, R250 to R255,
R306, R315): its engines move, the accesses of the cc are judged, results become readable, and the next cc begins. -/

namespace Sys2Proof.Machine

/-! ### Open values of a faulting operation (R236) -/

/-- Byte runs with free values. -/
def openRuns (ctr : Nat) : List (Nat × Bytes) → List (Nat × Bytes)
  | [] => []
  | (a, bs) :: r => (a, freeBytes ctr bs.length) :: openRuns (ctr + bs.length) r

/-- A result with free values in its place. -/
def LateEff.openWith (ctr : Nat) : LateEff → LateEff
  | .scratch runs => .scratch (openRuns ctr runs)
  | .bits a _ mask => .bits a (Config.freeMask ctr) mask
  | .scalar d _ => .scalar d (Config.freeDWord ctr)
  | .p first vals => .p first (vals.zipIdx.map (fun e => Config.freeDWord (ctr + e.2)))
  | .v reg lane vals => .v reg lane (vals.zipIdx.map (fun e => (Config.freeWord (ctr + e.2), e.1.2)))
  | .m reg _ mask => .m reg (Config.freeMask ctr) mask
  | .slot ep k first vals => .slot ep k first (vals.zipIdx.map (fun e => Config.freeWord (ctr + e.2)))
  | .slotEnd ep k => .slotEnd ep k
  | .check c regs => .check c regs

/-- Free values that a result takes at most. -/
def LateEff.size : LateEff → Nat
  | .scratch runs => (runs.map (fun r => r.2.length)).sum
  | .p _ vals => vals.length
  | .v _ _ vals => vals.length
  | .slot _ _ _ vals => vals.length
  | .bits _ _ _ | .scalar _ _ | .m _ _ _ | .slotEnd _ _ | .check _ _ => 1

/-- The operation of a slot that has raised a contract fault: what it writes from now on is open. -/
def Tile.openSlot (t : Tile) (slot : Byte) (b : Word) : Tile :=
  let late := t.late.map (fun l => if l.slot = slot then { l with isOpen := true } else l)
  if slot = slotMatrix then
    { t with late := late, array := { t.array with
        isOpen := true,
        accLate := t.array.accLate.map (fun w => { w with cells := w.cells.map (fun c => (c.1, Config.openLane b 0 w.ready c.1)) }) } }
  else if slot = slotVector ∨ slot = slotReduction then
    { t with late := late, vector := { t.vector with
        isOpen := true, redDue := t.vector.redDue.map (fun l => { l with isOpen := true }) } }
  else { t with late := late }

/-- Open the operations that a record names: its slot, and of a bank conflict the other one (Table 06.9). -/
def Tile.openNamed (t : Tile) (f : AccessFault) : Tile :=
  let t1 := t.openSlot f.slot f.bundle
  if f.code = cfBankConflict then t1.openSlot (BitVec.ofNat 8 (f.detail / 256)) f.bundle else t1

/-! ### Accesses of a cc (R241 to R248) -/

/-- The accesses that results on their way make in the cc `now`. -/
def Tile.lateUses (t : Tile) (now : Nat) : List RangeUse :=
  t.late.flatMap (fun l => (l.uses.filter (fun u => l.ready == now + u.cycle)).map (fun u => { u with cycle := now }))

/-- The lines that accesses read, merge writes among them (R241). -/
def linesRead (us : List RangeUse) : List Nat :=
  (us.flatMap RangeUse.accesses).filterMap (fun x => if x.isWrite && !x.isMerge then none else some x.line)

/-- Judge the accesses `new` beside the earlier ones `old`: a tile that raises a contract fault leaves the operations that it names
open (R236, R242, R243). -/
def State.judge (s : State) (t : Nat) (old new : List RangeUse) : State :=
  match nameFault ((s.tile t).conditions old new) with
  | some f => (s.raiseAccess t f).modTile t (fun x => x.openNamed f)
  | none => s

/-! ### Results that become readable -/

/-- A result becomes readable: what it changes. -/
def State.applyLate (s0 : State) (t : TileNo) (l : Late) : State :=
  let e := if l.isOpen then l.eff.openWith s0.freeCtr else l.eff
  let s := if l.isOpen then s0.drawn l.eff.size else s0
  match e with
  | .scratch runs => s.modTile t.val (fun x => runs.foldl (fun x r => x.writeScratch r.1 r.2) x)
  | .bits a b m => s.modTile t.val (fun x =>
      x.writeScratch a (leBytes 32 ((b &&& m) ||| (maskOfBytes (readBytes x.scratch a 32) &&& ~~~m)).toNat))
  | .slot ep k first vals => s.modTile t.val (fun x => x.setRecv ep.val ((x.recv ep.val).putSlot k first vals))
  | .slotEnd ep k => s.endSlot t ep k
  | .check c regs => s.checkShot t.val regs c
  | .scalar _ _ | .p _ _ | .v _ _ _ | .m _ _ _ => s.modTile t.val (fun x => x.modRegs e.onRegs)

/-- The results that are readable from the cc after `now` on, in the order of R187. -/
def Tile.dueLates (t : Tile) (now : Nat) : List Late :=
  (List.range 3).flatMap (fun k => t.late.filter (fun l => l.order == k && decide (l.ready ≤ now + 1)))

/-- Results become readable. -/
def State.settleLates (s : State) (t : TileNo) (now : Nat) : State :=
  (((s.tile t.val).dueLates now).foldl (fun s l => s.applyLate t l)
    (s.modTile t.val (fun x => { x with late := x.late.filter (fun l => decide (now + 1 < l.ready)) })))

/-! ### Counters of a cc (R141, R206, R207, R227, R254) -/

/-- A wait of the next bundle counts a stall in the cc that ends (R207). -/
def Blocked.stalls (b : Blocked) : Bool := b.gated || !b.ready

/-- Count a stall at a wait point. -/
def countStall (m : SMap DWord) (wp : Nat) : SMap DWord := mset m wp (satInc (mget 0 m wp))

/-- The tile is halted by the debugger or suspended, and not stepping (R207, R472). -/
def Tile.standsStill (t : Tile) (suspended : Bool) : Bool :=
  suspended || (t.halted && (match t.stepping with
    | some n => n == 0
    | none => true))

/-- The counters of a cc that is no freeze cc (R207, R227). -/
def Tile.countCycle (t : Tile) (suspended : Bool) : Tile :=
  if t.standsStill suspended then { t with stall := countStall t.stall 1023, held := satInc t.held }
  else
    let t1 := if t.istoreHeld.isSome then { t with miss := satInc t.miss } else t
    let bs := t1.blocked.filter Blocked.stalls
    if bs.isEmpty then t1
    else { t1 with stall := bs.foldl (fun m b => countStall m b.wp.val) t1.stall, held := satInc t1.held }

/-! ### One cc of a tile -/

/-- A freeze cc of a tile: it is counted, and the compute side keeps its state for one cc more (R139 to R141). -/
def Tile.frozenCycle (t : Tile) : Tile := t.countFreeze.shift

/-- The engines of a tile move in a cc that is no freeze cc, and the loops of its bundle are resolved; the accesses of the cc are
listed behind those of its rows. -/
def State.moveEngines (s : State) (t : TileNo) : State :=
  let now := s.runCycle.toNat
  let s1 := ((s.cycleArray t).cycleVector t).modTile t.val (fun x => (x.redResults now).endBundle s.runCycle)
  let s2 := s1.modTile t.val (fun x => { x with plan := x.plan ++ x.lateUses now ++ s1.routineUses x now })
  s2.routineReturn t.val

/-- A cc of a tile that is no freeze cc. -/
def State.openCycle (s : State) (t : TileNo) : State :=
  let now := s.runCycle.toNat
  let old := (s.tile t.val).plan.filter (fun u => decide (u.cycle < now))
  let faulted := (s.tile t.val).faulted
  let s1 := (s.modTile t.val (fun x => { x with plan := x.plan.filter (fun u => decide (now ≤ u.cycle)) })).moveEngines t
  let new := (s1.tile t.val).plan
  let s2 := ((s1.meetUpsets t.val (linesRead new)).judge t.val old new).settleLates t now
  s2.modTile t.val (fun x =>
    let y := { x with array := x.array.settle (now + 1), plan := (old ++ new).filter (fun u => decide (now ≤ u.cycle + 1)) }
    if faulted then y else y.countCycle (s.run.state == .suspended))

/-- The fills and copies that have their last cc now end, and the finished ones leave the engine (R255). -/
def State.endFills (s : State) (t : TileNo) : State :=
  let now := s.runCycle.toNat
  let reads := (s.tile t.val).fillRuns.flatMap (fun f =>
    if !f.done && decide (f.ends ≤ now) then (f.source.map (fun a => linesOf a f.length)).getD [] else [])
  ((s.meetUpsets t.val reads).allFillsEnd t.val).modTile t.val (fun x =>
    { x with fillRuns := x.fillRuns.filter (fun f => !(f.done && decide (f.ends ≤ now))) })

/-- One cc of a tile of the image: its compute side, its stream engine, the hold area's count (R254), and the phase and the windows
of the next cc (R250, R257). -/
def State.cycleTile (s : State) (t : TileNo) : State :=
  let x := s.tile t.val
  let blocked := s.holdBlocked t
  let s1 := if x.freezeNow = .none then s.openCycle t else s.modTile t.val Tile.frozenCycle
  let s2 := s1.endFills t
  s2.modTile t.val (fun x =>
    let y := { x with holdFull := if blocked then satInc x.holdFull else x.holdFull,
                      postSends := x.postSends.map (fun (p : PostSend) => { p with ready := x.postDone p }) }
    y.turn (s.runCycle.toNat + 1))

/-! ### The start of a cc -/

/-- The wait at the start of the next cc: a satisfied gated wait has its wake cc, and after it the clocks run (R306). A WAIT with
TAKE that did not find its value gates the clocks as a failed first evaluation does (R295; log entry 113). -/
def Blocked.next (t : Tile) (b : Blocked) : Blocked :=
  let holds := condHolds t b.cond
  if b.gated then
    if b.waking then { b with gated := false, waking := false, ready := holds } else { b with waking := holds }
  else { b with ready := holds, gated := condGates b.cond && !holds }

/-- The block of a unit that is blocked in this cc: from when it began, none for a unit that is not (R315). -/
def blockOf (now mt : DWord) (on : Bool) (b : Option BlockTime) : Option BlockTime :=
  if on then some (b.getD { cycle := now, mt := mt, hung := false }) else none

/-- A descriptor awaits READY_SEM. -/
def Tile.awaitsReady (t : Tile) (d : Descriptor) : Bool :=
  d.running && decide (d.position < d.passLen) && d.needsReady && decide (t.sem d.readySem = 0)

/-- A post-send awaits credit. -/
def Tile.awaitsCredit (t : Tile) (p : PostSend) : Bool := t.postDone p && !(t.send p.ep.val).sendable

/-- The blocks of a tile's units in the cc that begins: of the array, a row or a credit that is missing (R142). -/
def Tile.seeBlocks (t : Tile) (now mt : DWord) : Tile :=
  let block (on : Bool) (e : EngineState) : EngineState := { e with block := blockOf now mt on e.block }
  { t with
    array := { t.array with
      feeder := block (t.feederWaits now.toNat).isSome t.array.feeder,
      drainEngine := block (t.drainWaits now.toNat).isSome t.array.drainEngine },
    descs := t.descs.map (fun e => (e.1, { e.2 with block := blockOf now mt (t.awaitsReady e.2) e.2.block })),
    postSends := t.postSends.map (fun p => { p with block := blockOf now mt (t.awaitsCredit p) p.block }) }

/-- A tile of the image at the start of a cc: what waits find, the waits, the blocks, and whether the cc is a freeze cc. -/
def Tile.startCycle (t : Tile) (now mt : DWord) : Tile :=
  let t1 := t.seeBlocks now mt
  { t1 with atStart := t1.view, blocked := t1.blocked.map (Blocked.next t1),
            freezeNow := if t1.freezes now.toNat then .due else .none }

/-! ### An array access that meets one of a routine (Table 06.11) -/

/-- An access of a resident routine. -/
def Access.inRoutine (x : Access) : Bool := decide (0xF0000000 ≤ x.bundle)

/-- Two accesses of a cc that Table 07.1 keeps apart, one of an operation of the array and one of a resident routine. -/
def Tile.arrayMeetsRoutine (t : Tile) (now : Nat) : Bool :=
  let xs := (t.plan.flatMap RangeUse.accesses).filter (fun x => x.cycle == now)
  xs.any (fun x => x.slot == slotMatrix && !x.inRoutine && xs.any (fun y =>
    y.inRoutine && x.line % 32 == y.line % 32 && conflicts x y))

/-- Some tile of the run has had such accesses in the cc `now`. -/
def State.arrayMeetsRoutine (s : State) (now : Nat) : Bool :=
  s.runActive && s.imageTiles.any (fun t => (s.tile t).arrayMeetsRoutine now)

end Sys2Proof.Machine
end

