-- ==== Sys2Proof/Machine/Tick.lean ====
section
/-! DEFINITION. One compute cycle, which passes while no command waits (log entry 37): the tiles' cc, the regions' counts and
stretches, the crossings' FIFOs, and the meridian (R66, R483 to R490, R495, R496, R498, R504, R506). -/

namespace Sys2Proof.Machine

/-! ### Clocks -/

/-- A region's next period: the stretch that it was told of beforehand applies to it (R489, R490). -/
def RegionState.advance (r : RegionState) : RegionState :=
  let k := (r.count + 1).toNat % 16
  let n := mget 0 r.ahead k
  { r with count := r.count + 1, stretch := n, ahead := merase r.ahead k,
           stretched := if n = 0 then r.stretched else satInc r.stretched }

/-- The largest stretch of the period that ends, over the regions: they advance in step. -/
def State.longest (s : State) : Nat := (List.range 10).foldl (fun m r => max m (s.region r).stretch) 0

/-- The meridian moves by a number of ticks, less those for which a backward correction holds it (R506). -/
def ClockState.moveMeridian (c : ClockState) (n : Nat) : ClockState :=
  let d := n - c.holdTicks
  { c with meridian := c.meridian + BitVec.ofNat 64 d, holdTicks := c.holdTicks - n,
           copies := c.copies.map (fun e => (e.1, e.2 + BitVec.ofNat 64 d)) }

/-- The root periods of a cc, 24 of which are one tick of the meridian (Table 14.1). -/
def ClockState.moveRoot (c : ClockState) (periods : Nat) : ClockState :=
  let p := c.rootPhase + periods
  if c.meridianRuns then { (c.moveMeridian (p / 24)) with rootPhase := p % 24 } else c

/-! ### Crossings (R495, R496, R498) -/

/-- A crossing's lowest and highest wait with another one seen. -/
def seeWait (m : SMap (Nat × Nat)) (k w : Nat) : SMap (Nat × Nat) :=
  match mfind m k with
  | some (lo, hi) => mset m k (min lo w, max hi w)
  | none => mset m k (w, w)

/-- The value L of every crossing: the receiver releases entry n at the start of its period n + L. -/
def crossingDelay : Nat := 12

/-- An entry of a FIFO is due at the start of a period. -/
def crossingDue (period : DWord) (e : DWord × Nat) : Bool := e.1 + BitVec.ofNat 64 crossingDelay == period

/-- One period of a crossing: the sender writes the entry of its period `n`, which will wait `w` cc, and the receiver releases the
entry that is due at the start of its period n + 1, whose wait is seen. -/
def ClockState.crossOnce (c : ClockState) (n : DWord) (k w : Nat) : ClockState :=
  let q := mget [] c.fifos k ++ [(n, w)]
  { c with fifos := mset c.fifos k (q.filter (fun e => !crossingDue (n + 1) e)),
           crossings := (q.filter (crossingDue (n + 1))).foldl (fun m e => seeWait m k e.2) c.crossings }

/-- A period of the 28 crossings: an entry waits 5 cc at B = 8 with no stretch; otherwise the lag is the hardware's, within 2 to
8 cc (R496; log entry 38). -/
def State.seeCrossings (s : State) : State :=
  let steady := decide (s.clock.base = 8 ∧ s.longest = 0)
  let wait (k : Nat) : Nat := if steady then 5 else 2 + (Config.freeWord (s.freeCtr + k)).toNat % 7
  ({ s with clock := (List.range 28).foldl (fun c k => c.crossOnce (s.region 0).count k (wait k)) s.clock }).drawn 28

/-- The regions' next periods. -/
def State.advanceRegions (s : State) : State := (List.range 10).foldl (fun s r => s.modRegion r RegionState.advance) s

/-! ### The cc -/

/-- The tiles that take part in a run. -/
def State.runTiles (s : State) : List TileNo := if s.runActive then s.imageTiles.map (Fin.ofNat 128) else []

/-- The clocks at the end of a cc; a base whose first period this is has been in force in it. -/
def State.moveClocks (s0 : State) : State :=
  let s := s0.turnBase
  let periods := s.clock.base + s.longest
  let s1 := s.seeCrossings.advanceRegions
  { s1 with clock := s1.clock.moveRoot periods }

/-- The end of a cc for the watches of a run (R299). -/
def State.endWatches (s : State) : State := if s.runActive then s.judgeWatches else s

/-- One compute cycle of the module: the cc ends on every tile of the run, watches are judged, the clocks move, and the next cc
begins. -/
def State.tick (s : State) : State :=
  if s.clocksRun then
    let s1 := (s.runTiles.foldl State.cycleTile s).endWatches.moveClocks
    s.runTiles.foldl (fun s t => s.modTile t.val (fun x => x.startCycle s1.runCycle s1.clock.meridian)) s1
  else s

end Sys2Proof.Machine
end

