-- ==== Sys2Proof/Machine/Dispatch.lean ====
section
/-! DEFINITION. One arm for each row of the table of operations and events. -/

namespace Sys2Proof.Machine

def exec (i : Instr) (s : State) : Host.Outcome State Fault Refusal :=
  match i with
  -- rings and paths
  | .inboxCommit offset data body => Sys2Proof.Machine.execInboxCommit offset data body s
  | .mctpMessage packet body => Sys2Proof.Machine.execMctpMessage packet body s
  | .outboxReplyWrite => Sys2Proof.Machine.execOutboxReplyWrite s
  | .coalescingIntervalExpiry vector => Sys2Proof.Machine.execCoalescingIntervalExpiry vector s
  -- 0x00xx
  | .sessionOpen h b => Sys2Proof.Machine.execSessionOpen h b s
  | .sessionClose h => Sys2Proof.Machine.execSessionClose h s
  | .nop h => Sys2Proof.Machine.execNop h s
  | .identify h => Sys2Proof.Machine.execIdentify h s
  | .sessionTake h b => Sys2Proof.Machine.execSessionTake h b s
  -- 0x01xx
  | .loadImage h b body => Sys2Proof.Machine.execLoadImage h b body s
  | .verifyImage h b body => Sys2Proof.Machine.execVerifyImage h b body s
  | .unloadImage h handle => Sys2Proof.Machine.execUnloadImage h handle s
  | .listImages h => Sys2Proof.Machine.execListImages h s
  -- 0x02xx
  | .dmaStart h b => Sys2Proof.Machine.execDmaStart h b s
  | .dmaComplete channel hostData => Sys2Proof.Machine.execDmaComplete channel hostData s
  | .dmaAbort h channel => Sys2Proof.Machine.execDmaAbort h channel s
  | .dmaStatus h channel => Sys2Proof.Machine.execDmaStatus h channel s
  | .apertureMove h base => Sys2Proof.Machine.execApertureMove h base s
  | .apertureAccess op => Sys2Proof.Machine.execApertureAccess op s
  | .memoryLayout h firstBand count bands => Sys2Proof.Machine.execMemoryLayout h firstBand count bands s
  | .bandZeroingDone band => Sys2Proof.Machine.execBandZeroingDone band s
  -- 0x03xx
  | .run h b patches => Sys2Proof.Machine.execRun h b patches s
  | .stop h => Sys2Proof.Machine.execStop h s
  | .step h mask bundles => Sys2Proof.Machine.execStep h mask bundles s
  | .stepBundlesDone tile => Sys2Proof.Machine.execStepBundlesDone tile s
  | .jobConfig h checkT closure lead => Sys2Proof.Machine.execJobConfig h checkT closure lead s
  | .runStatus h => Sys2Proof.Machine.execRunStatus h s
  | .runEnd cause => Sys2Proof.Machine.execRunEnd cause s
  -- 0x04xx
  | .setModuleId h id => Sys2Proof.Machine.execSetModuleId h id s
  | .setDomain h b => Sys2Proof.Machine.execSetDomain h b s
  | .setPairMode h mode => Sys2Proof.Machine.execSetPairMode h mode s
  | .announceInitialMembership h b => Sys2Proof.Machine.execAnnounceInitialMembership h b s
  | .announcePlannedChange h b => Sys2Proof.Machine.execAnnouncePlannedChange h b s
  | .announceForcedChange h b => Sys2Proof.Machine.execAnnounceForcedChange h b s
  | .withdrawChange h memberEpoch => Sys2Proof.Machine.execWithdrawChange h memberEpoch s
  | .leaseDeliver h r => Sys2Proof.Machine.execLeaseDeliver h r s
  | .portReset h port => Sys2Proof.Machine.execPortReset h port s
  | .quarantineClear h => Sys2Proof.Machine.execQuarantineClear h s
  | .linkStatus h => Sys2Proof.Machine.execLinkStatus h s
  -- 0x05xx and 0x06xx
  | .calibrate h scope r => Sys2Proof.Machine.execCalibrate h scope r s
  | .calExport h offset => Sys2Proof.Machine.execCalExport h offset s
  | .calImport h offset total chunk => Sys2Proof.Machine.execCalImport h offset total chunk s
  | .powerPolicy h targetB capB inputLimit => Sys2Proof.Machine.execPowerPolicy h targetB capB inputLimit s
  | .spdm h r => Sys2Proof.Machine.execSpdm h r s
  | .enrolBuildKey h index key => Sys2Proof.Machine.execEnrolBuildKey h index key s
  | .revokeBuildKey h index => Sys2Proof.Machine.execRevokeBuildKey h index s
  | .signingEnforce h on => Sys2Proof.Machine.execSigningEnforce h on s
  | .fwWrite h offset chunk => Sys2Proof.Machine.execFwWrite h offset chunk s
  | .fwActivate h digest => Sys2Proof.Machine.execFwActivate h digest s
  -- 0x07xx
  | .haltTiles h mask => Sys2Proof.Machine.execHaltTiles h mask s
  | .resumeTiles h mask => Sys2Proof.Machine.execResumeTiles h mask s
  | .readSync h object tile number => Sys2Proof.Machine.execReadSync h object tile number s
  | .syncHaltTile h tile value => Sys2Proof.Machine.execSyncHaltTile h tile value s
  | .syncResumeTile h tile value => Sys2Proof.Machine.execSyncResumeTile h tile value s
  | .syncSetCount h tile number value => Sys2Proof.Machine.execSyncSetCount h tile number value s
  | .syncAddArrivals h tile number value => Sys2Proof.Machine.execSyncAddArrivals h tile number value s
  | .syncReleaseRound h tile number value => Sys2Proof.Machine.execSyncReleaseRound h tile number value s
  | .syncFireWatch h tile number value => Sys2Proof.Machine.execSyncFireWatch h tile number value s
  | .syncDisarmWatch h tile number value => Sys2Proof.Machine.execSyncDisarmWatch h tile number value s
  | .syncResetEndpoint h tile number value => Sys2Proof.Machine.execSyncResetEndpoint h tile number value s
  | .readTileState h tile set index => Sys2Proof.Machine.execReadTileState h tile set index s
  -- 0x08xx
  | .readTelemetry h block offset => Sys2Proof.Machine.execReadTelemetry h block offset s
  | .readRecord h runIndex offset => Sys2Proof.Machine.execReadRecord h runIndex offset s
  | .readEventLog h start finish offset => Sys2Proof.Machine.execReadEventLog h start finish offset s
  | .readFaults h offset => Sys2Proof.Machine.execReadFaults h offset s
  | .readRoutines h offset => Sys2Proof.Machine.execReadRoutines h offset s
  | .readCheckHist h tile => Sys2Proof.Machine.execReadCheckHist h tile s
  | .readFlags h tile => Sys2Proof.Machine.execReadFlags h tile s
  | .subscribe h mask => Sys2Proof.Machine.execSubscribe h mask s
  -- BAR0
  | .registerWrite w => Sys2Proof.Machine.execRegisterWrite w s
  | .ctrlEnWrite addr en => Sys2Proof.Machine.execCtrlEnWrite addr en s
  | .ctrlMonArmWrite addr arm => Sys2Proof.Machine.execCtrlMonArmWrite addr arm s
  | .monumentWrite addr value => Sys2Proof.Machine.execMonumentWrite addr value s
  | .splitLoRead byFirmware addr => Sys2Proof.Machine.execSplitLoRead byFirmware addr s
  | .splitLoWrite addr value => Sys2Proof.Machine.execSplitLoWrite addr value s
  | .splitHiWrite addr value => Sys2Proof.Machine.execSplitHiWrite addr value s
  | .w1cWrite addr value => Sys2Proof.Machine.execW1cWrite addr value s
  | .postedWriteApplied addr => Sys2Proof.Machine.execPostedWriteApplied addr s
  | .cfgCrcRecompute addr upset => Sys2Proof.Machine.execCfgCrcRecompute addr upset s
  -- matrix slot
  | .setMode iss a => Sys2Proof.Machine.execSetMode iss a s
  | .loadWeights iss a => Sys2Proof.Machine.execLoadWeights iss a s
  | .feed iss a => Sys2Proof.Machine.execFeed iss a s
  | .finishTree iss a => Sys2Proof.Machine.execFinishTree iss a s
  | .drain iss a => Sys2Proof.Machine.execDrain iss a s
  | .pendingArrayOpStart tile engine => Sys2Proof.Machine.execPendingArrayOpStart tile engine s
  | .arrayFreeze tile => Sys2Proof.Machine.execArrayFreeze tile s
  -- vector and reduction slots
  | .vectorPass iss p => Sys2Proof.Machine.execVectorPass iss p s
  | .pendingPassStart tile => Sys2Proof.Machine.execPendingPassStart tile s
  | .reduction iss r => Sys2Proof.Machine.execReduction iss r s
  | .reductionSegmentResult tile => Sys2Proof.Machine.execReductionSegmentResult tile s
  | .combine iss a => Sys2Proof.Machine.execCombine iss a s
  | .faultStop => Sys2Proof.Machine.execFaultStop s
  -- scalar slot
  | .scalarOp iss op => Sys2Proof.Machine.execScalarOp iss op s
  | .scalarMultiply iss d a b => Sys2Proof.Machine.execScalarMultiply iss d a b s
  | .readLoopIndex iss d level => Sys2Proof.Machine.execReadLoopIndex iss d level s
  | .scalarLoad iss d addr region => Sys2Proof.Machine.execScalarLoad iss d addr region s
  | .scalarStore iss a addr region => Sys2Proof.Machine.execScalarStore iss a addr region s
  | .pBlockLoad iss first addr region => Sys2Proof.Machine.execPBlockLoad iss first addr region s
  | .laneInsertExtract iss op => Sys2Proof.Machine.execLaneInsertExtract iss op s
  | .loopStart iss l last => Sys2Proof.Machine.execLoopStart iss l last s
  | .loopBodyEnd tile => Sys2Proof.Machine.execLoopBodyEnd tile s
  | .routineCall iss id => Sys2Proof.Machine.execRoutineCall iss id s
  | .routineReturn tile => Sys2Proof.Machine.execRoutineReturn tile s
  | .istoreMissFill tile line => Sys2Proof.Machine.execIstoreMissFill tile line s
  -- stream slot and stream engine
  | .setup iss d a => Sys2Proof.Machine.execSetup iss d a s
  | .start iss d => Sys2Proof.Machine.execStart iss d s
  | .rearm iss d base last => Sys2Proof.Machine.execRearm iss d base last s
  | .phase iss compute => Sys2Proof.Machine.execPhase iss compute s
  | .fill iss a => Sys2Proof.Machine.execFill iss a s
  | .copy iss a => Sys2Proof.Machine.execCopy iss a s
  | .fillCopyDone tile => Sys2Proof.Machine.execFillCopyDone tile s
  | .codePrefetch iss a => Sys2Proof.Machine.execCodePrefetch iss a s
  | .prefetchLineArrival tile => Sys2Proof.Machine.execPrefetchLineArrival tile s
  | .windowOpen iss w a => Sys2Proof.Machine.execWindowOpen iss w a s
  | .windowClose iss w => Sys2Proof.Machine.execWindowClose iss w s
  | .postSend iss d segment ep g => Sys2Proof.Machine.execPostSend iss d segment ep g s
  | .postSendDispatch tile => Sys2Proof.Machine.execPostSendDispatch tile s
  | .readyTake tile d => Sys2Proof.Machine.execReadyTake tile d s
  | .transferIssue tile => Sys2Proof.Machine.execTransferIssue tile s
  | .transferComplete tile tag => Sys2Proof.Machine.execTransferComplete tile tag s
  | .inboundDataArrival tile => Sys2Proof.Machine.execInboundDataArrival tile s
  | .holdAreaWrite tile => Sys2Proof.Machine.execHoldAreaWrite tile s
  | .remoteWriteJudged tile => Sys2Proof.Machine.execRemoteWriteJudged tile s
  | .windowViolation writer => Sys2Proof.Machine.execWindowViolation writer s
  -- channel slot and channels
  | .sendG iss a g => Sys2Proof.Machine.execSendG iss a g s
  | .sendV iss a v count => Sys2Proof.Machine.execSendV iss a v count s
  | .recvG iss ep g wp => Sys2Proof.Machine.execRecvG iss ep g wp s
  | .recvV iss ep v count wp => Sys2Proof.Machine.execRecvV iss ep v count wp s
  | .recvDrop iss ep wp => Sys2Proof.Machine.execRecvDrop iss ep wp s
  | .waitArrived iss ep slot k wp => Sys2Proof.Machine.execWaitArrived iss ep slot k wp s
  | .epReset iss ep => Sys2Proof.Machine.execEpReset iss ep s
  | .epOpen iss ep => Sys2Proof.Machine.execEpOpen iss ep s
  | .messageArrival tile ep => Sys2Proof.Machine.execMessageArrival tile ep s
  | .creditArrival tile ep => Sys2Proof.Machine.execCreditArrival tile ep s
  | .closingNoticeArrival tile ep => Sys2Proof.Machine.execClosingNoticeArrival tile ep s
  | .openingNoticeArrival tile ep => Sys2Proof.Machine.execOpeningNoticeArrival tile ep s
  | .discardReportArrival tile ep => Sys2Proof.Machine.execDiscardReportArrival tile ep s
  -- sync slot and sync units
  | .signal iss sem n => Sys2Proof.Machine.execSignal iss sem n s
  | .wait iss sem v take wp => Sys2Proof.Machine.execWait iss sem v take wp s
  | .watchReg iss handle sem v => Sys2Proof.Machine.execWatchReg iss handle sem v s
  | .watchRegArrival waiter handle => Sys2Proof.Machine.execWatchRegArrival waiter handle s
  | .watchFiredArrival waiter handle => Sys2Proof.Machine.execWatchFiredArrival waiter handle s
  | .watchWait iss handle wp => Sys2Proof.Machine.execWatchWait iss handle wp s
  | .arrive iss b => Sys2Proof.Machine.execArrive iss b s
  | .bwait iss b wp => Sys2Proof.Machine.execBwait iss b wp s
  | .barrierCounterArrival b => Sys2Proof.Machine.execBarrierCounterArrival b s
  | .barrierReleaseArrival b => Sys2Proof.Machine.execBarrierReleaseArrival b s
  -- hangs
  | .hang tile u => Sys2Proof.Machine.execHang tile u s
  | .hangReport => Sys2Proof.Machine.execHangReport s
  -- die-to-die links
  | .scheduleFlitError link => Sys2Proof.Machine.execScheduleFlitError link s
  | .d2dMemoryRetry link => Sys2Proof.Machine.execD2dMemoryRetry link s
  -- memory side
  | .hbmRequestIntake stack => Sys2Proof.Machine.execHbmRequestIntake stack s
  | .hbmReadReturn stack err => Sys2Proof.Machine.execHbmReadReturn stack err s
  | .refresh stack channel => Sys2Proof.Machine.execRefresh stack channel s
  | .phyTracking stack channel => Sys2Proof.Machine.execPhyTracking stack channel s
  | .patrolScrub stack err => Sys2Proof.Machine.execPatrolScrub stack err s
  | .stackStatusRead stack temp => Sys2Proof.Machine.execStackStatusRead stack temp s
  | .gatedRead stack => Sys2Proof.Machine.execGatedRead stack s
  | .markWrite stack => Sys2Proof.Machine.execMarkWrite stack s
  | .updatePassComplete stack entry => Sys2Proof.Machine.execUpdatePassComplete stack entry s
  | .fingerprintRecord stack => Sys2Proof.Machine.execFingerprintRecord stack s
  | .stepDigestFormed step => Sys2Proof.Machine.execStepDigestFormed step s
  -- ports
  | .linkBringup port lanes cap => Sys2Proof.Machine.execLinkBringup port lanes cap s
  | .controlFlit port f => Sys2Proof.Machine.execControlFlit port f s
  | .retryTimeout port => Sys2Proof.Machine.execRetryTimeout port s
  | .chainPacketReceive port p => Sys2Proof.Machine.execChainPacketReceive port p s
  | .data port => Sys2Proof.Machine.execData port s
  | .credit port => Sys2Proof.Machine.execCredit port s
  | .close port => Sys2Proof.Machine.execClose port s
  | .openNotice port => Sys2Proof.Machine.execOpenNotice port s
  | .noEndpoint port => Sys2Proof.Machine.execNoEndpoint port s
  | .barrierArrive port => Sys2Proof.Machine.execBarrierArrive port s
  | .barrierRelease port => Sys2Proof.Machine.execBarrierRelease port s
  | .sync port ingress => Sys2Proof.Machine.execSync port ingress s
  | .mgmt port m => Sys2Proof.Machine.execMgmt port m s
  | .syncExchangeTimer => Sys2Proof.Machine.execSyncExchangeTimer s
  | .creditFlush port => Sys2Proof.Machine.execCreditFlush port s
  | .linkDown port f => Sys2Proof.Machine.execLinkDown port f s
  | .linkRetrainTimer port ok => Sys2Proof.Machine.execLinkRetrainTimer port ok s
  | .heartbeatTimer => Sys2Proof.Machine.execHeartbeatTimer s
  | .heartbeat port => Sys2Proof.Machine.execHeartbeat port s
  | .twinLost => Sys2Proof.Machine.execTwinLost s
  | .closure port => Sys2Proof.Machine.execClosure port s
  | .leaseRenewTimer => Sys2Proof.Machine.execLeaseRenewTimer s
  | .leaseReply r => Sys2Proof.Machine.execLeaseReply r s
  | .leaseTermEnd => Sys2Proof.Machine.execLeaseTermEnd s
  | .epochSwitch => Sys2Proof.Machine.execEpochSwitch s
  | .stateTransfer plans moved digest => Sys2Proof.Machine.execStateTransfer plans moved digest s
  -- clocks
  | .stretchToken region period sem => Sys2Proof.Machine.execStretchToken region period sem s
  | .targetToken base first => Sys2Proof.Machine.execTargetToken base first s
  | .baseChange => Sys2Proof.Machine.execBaseChange s
  | .crossingSlip link => Sys2Proof.Machine.execCrossingSlip link s
  | .marginPolicy r => Sys2Proof.Machine.execMarginPolicy r s
  | .rootLock => Sys2Proof.Machine.execRootLock s
  | .rootUnlock => Sys2Proof.Machine.execRootUnlock s
  | .datumPulse => Sys2Proof.Machine.execDatumPulse s
  | .meridianCompare => Sys2Proof.Machine.execMeridianCompare s
  -- autonomous policies
  | .thermalPolicy r => Sys2Proof.Machine.execThermalPolicy r s
  | .inputPowerWindow watts => Sys2Proof.Machine.execInputPowerWindow watts s
  | .logCommit ok => Sys2Proof.Machine.execLogCommit ok s
  | .supplySample r => Sys2Proof.Machine.execSupplySample r s
  | .flashOperationDone op => Sys2Proof.Machine.execFlashOperationDone op s
  | .powerFailReset => Sys2Proof.Machine.execPowerFailReset s
  | .inputLoss => Sys2Proof.Machine.execInputLoss s
  | .powerUp => Sys2Proof.Machine.execPowerUp s
  | .mrst => Sys2Proof.Machine.execMrst s
  | .resetRelease => Sys2Proof.Machine.execResetRelease s
  | .perst => Sys2Proof.Machine.execPerst s
  | .flr => Sys2Proof.Machine.execFlr s
  | .i3cLoss => Sys2Proof.Machine.execI3cLoss s
  | .boot => Sys2Proof.Machine.execBoot s
  | .rollbackAdvance => Sys2Proof.Machine.execRollbackAdvance s
  | .replicaMarginStretch region codes => Sys2Proof.Machine.execReplicaMarginStretch region codes s
  | .pcieLinkTraining rate width => Sys2Proof.Machine.execPcieLinkTraining rate width s

end Sys2Proof.Machine
end

