-- ==== Sys2Proof/Machine/Step.lean ====
section
/-! DEFINITION. A step of the block: the command at the front of the queue, or one compute cycle where none waits. -/

namespace Sys2Proof.Machine

/-- Run the command at the front of the queue on the state with the queue's rest. On an empty queue a compute cycle passes
(log entry 37); one in which an array access meets a routine's stops the model (Table 06.11). -/
def step (s : State) : Host.Outcome State Fault Refusal :=
  match s.pending with
  | [] => if s.tick.arrayMeetsRoutine s.runCycle.toNat then .fault .arrayMeetsRoutine else .next s.tick
  | c :: rest => exec c { s with pending := rest }

/-- The state with the command that a word spells put at the front of its queue. -/
def State.withFetchWord (s : State) (nbits w : Nat) : State :=
  match decodeTableWord nbits w with
  | some c => { s with pending := c :: s.pending }
  | none => s

end Sys2Proof.Machine
end

