-- ==== Sys2Proof/Safety.lean ====
section
/-! DEFINITION. The terms that claims use: what a safe step and a safe run are, when a command of a packet is admitted, when an
operation of a bundle issues, and the invariants of the state. -/

namespace Sys2Proof.Machine

/-! ### Safe runs -/

/-- A step that neither faults nor is refused. -/
def State.stepsSafely (s : State) : Prop := ∃ t, step s = .next t

/-- A run of a number of steps that neither faults nor is refused. -/
def State.runsSafely (s : State) (n : Nat) : Prop := ∃ t, core.run n s = .next t

/-! ### Admitted commands (R520, R540, Table 15.7) -/

/-- A command passes the checks of R520 in its path's open session. -/
def Admitted (s : State) (h : Hdr) (op : BitVec 16) : Prop :=
  s.fwRuns = true ∧ s.mctpBusy h = false ∧
  ∃ q, s.session h.path = some q ∧ h.seq = q.nextSeq ∧ h.session = q.id ∧ h.major.toNat = q.version.toNat / 256 ∧
    opcodeInVersion op (q.version.toNat / 256) = true ∧ (s.sec.recovery = true → recoveryOpcode op = true) ∧
    (q.owner = true ∨ observerOpcode h.path op = true)

/-- The state in which an admitted command acts: its SEQ is consumed, a command over MCTP counts as outstanding, and over PCIe
its RING_INDEX is taken. -/
def State.admitted (s : State) (h : Hdr) : State :=
  match s.session h.path with
  | none => s.countMctp h
  | some q =>
    let s1 := (s.setSession h.path (some { q with nextSeq := q.nextSeq + 1 })).countMctp h
    if h.path = .pcie then { s1 with host := s1.host.ack h.ringIndex } else s1

/-- A command that is admitted on a path without a session (R520). -/
def AdmittedFree (s : State) (h : Hdr) (op : BitVec 16) : Prop :=
  s.fwRuns = true ∧ s.mctpBusy h = false ∧ s.session h.path = none ∧ (h.major = 1 ∨ h.major = 2) ∧ h.session = 0 ∧
  freeOpcode op = true ∧ opcodeInVersion op h.major.toNat = true ∧ (s.sec.recovery = true → recoveryOpcode op = true)

/-! ### Operations that issue (R197 to R201, R206, R227) -/

/-- The operation of a slot, with wait points of its own, issues: its tile may issue, the wait points are encodable, the codes find
no error, and either its bundle has issued in this cc and its slot has not yet come, or the bundle's line is in the store and every
wait point of the bundle is satisfied. -/
def IssuesOn (s : State) (i : Iss) (slot : Byte) (own : List WaitPoint) : Prop :=
  mayIssue s i = true ∧ i.ecc = .none ∧ waitsOk (bundleWaits i own) = true ∧
  (if inBundle s i = true then
     (s.tile i.tile.val).slotsIn.contains slot = false ∧ (s.tile i.tile.val).slotOk slot = true ∧
     own.all (fun w => i.waits.contains w || (s.tile i.tile.val).waitMet w) = true
   else
     storeHolds (s.tile i.tile.val) i.bundle = true ∧
     (bundleWaits i own).all ((s.tile i.tile.val).waitOver i.bundle) = true)

/-- The operation of a slot that is no wait point issues. -/
def Issues (s : State) (i : Iss) (slot : Byte) : Prop := IssuesOn s i slot []

/-- The tile in which the operation of a slot acts: its bundle has issued, and its slot has come. -/
def Tile.begunAt (t : Tile) (s : State) (i : Iss) (slot : Byte) : Tile :=
  (if inBundle s i then t else t.begin s.runCycle i.bundle).takeSlot slot

/-- The state in which it acts. -/
def begun (s : State) (i : Iss) (slot : Byte) : State := s.modTile i.tile.val (fun t => t.begunAt s i slot)

/-- A bundle comes to wait points that do not all hold: no operation of it has issued, its tile may issue it, its line is in the
store and the wait points are encodable, but one of them is not satisfied in this cc (R206). -/
def Waits (s : State) (i : Iss) (own : List WaitPoint) : Prop :=
  mayIssue s i = true ∧ i.ecc = .none ∧ waitsOk (bundleWaits i own) = true ∧ inBundle s i = false ∧
  storeHolds (s.tile i.tile.val) i.bundle = true ∧
  (bundleWaits i own).all ((s.tile i.tile.val).waitOver i.bundle) = false

/-! ### Frames -/

/-- Nothing outside one tile has changed, but for the model's counter of free values. -/
def OnlyTile (s t : State) (k : Nat) : Prop :=
  t = { s with tiles := t.tiles, freeCtr := t.freeCtr } ∧ ∀ j, j ≠ k → t.tile j = s.tile j

/-! ### Invariants -/

/-- Every byte store of the module keeps the canonical form: keys rising, no listed zero. -/
def State.storesWf (s : State) : Prop :=
  memWf s.mem.hbm = true ∧ (∀ e ∈ s.tiles, memWf e.2.scratch = true)

/-- What manufacture fixed: fuses, keys of the device, boot ROM and the routine store's ROM (R5, R214, R584). -/
def State.fixed (s : State) : Fuses × Digest × Key × Key × BitVec 4 × Digest × List Routine :=
  (s.fuses, s.sec.rootKeyHash, s.sec.uds, s.sec.dikSeed, s.sec.lifecycle, s.sec.bootRomDigest,
   s.routines.filter (fun r => decide (r.id < 0xC000)))

end Sys2Proof.Machine
end

