-- ==== Sys2Proof/WellFormed.lean ====
section
/-! DEFINITION. Well-formed commands: the ranges that the spec gives a command's own fields, apart from the state in which it
acts. A slot operation's checks are those that its meaning makes (Table 06.11); a packet's are those that its body can
hold; an event's are the ranges of what it brings. -/

namespace Sys2Proof

open Machine

/-- The form of a hexadecimal range: at most a bound. -/
def atMost (n bound : Nat) : Bool := decide (n ≤ bound)

/-- An SPDM request whose code is one of Table 18.5 is not spelled as another one. -/
def spdmWf : SpdmRequest → Bool
  | .other code => !([0x84, 0xE1, 0xE3, 0x81, 0x82, 0x83, 0xE0].contains code.toNat)
  | _ => true

/-- An address of a register of BAR0: 64 MiB, 4-byte aligned (R541). -/
def regAddrWf (a : Nat) : Bool := decide (a < 0x4000000) && decide (a % 4 = 0)

/-- A wait point number: code 0x3FF names no wait point (Table 06.2). -/
def wpWf (wp : Fin 1024) : Bool := decide (wp.val < 1023)

/-- Commands that a packet carries (Tables 15.9 to 15.16): counts agree with what follows, and a body fits in four slots. -/
def packetWf : Instr → Bool
  | .memoryLayout _ _ n ps => decide (ps.length = n.toNat)
  | .run _ _ ps => atMost ps.length 252
  | .calImport _ _ _ c => atMost c.length 4032
  | .fwWrite _ _ c => atMost c.length 4048
  | .spdm _ r => spdmWf r
  | _ => true

/-- Operations of a bundle's slots (Table 06.11). -/
def slotWf : Instr → Bool
  | .setMode _ a => modeWf a
  | .drain _ a => drainFmt a.fmt
  | .vectorPass _ p => passShape p
  | .reduction _ r => redShape r
  | .combine _ a => decide (1 ≤ a.k ∧ a.k ≤ 64)
  | .pBlockLoad _ f _ _ => decide (f.val % 8 = 0)
  | .loopStart i _ last => decide (i.bundle < last)
  | .setup _ _ a => atMost a.counts.length 5 && atMost a.strides.length 5
  | .sendG _ a g => decide (g.val % 4 = 0) && wpWf a.wp
  | .sendV _ a _ _ => wpWf a.wp
  | .recvG _ _ g wp => decide (g.val % 4 = 0) && wpWf wp
  | .recvV _ _ _ _ wp => wpWf wp
  | .recvDrop _ _ wp => wpWf wp
  | .postSend _ _ _ _ g => decide (g.val % 4 = 0)
  | .waitArrived _ _ _ k wp => decide (1 ≤ k ∧ k ≤ 64) && wpWf wp
  | .signal _ _ n => n != 0
  | .wait _ _ _ _ wp => wpWf wp
  | .watchReg _ _ _ v => v != 0
  | .watchWait _ _ wp => wpWf wp
  | .bwait _ _ wp => wpWf wp
  | _ => true

/-- Accesses and events of the module's units. -/
def eventWf : Instr → Bool
  | .inboxCommit o _ _ => decide (o < 0x40000)
  | .mctpMessage p _ => decide (64 ≤ p.length ∧ p.length ≤ 4096 ∧ p.length % 64 = 0)
  | .registerWrite w => decide (w.addr < 0x4000000)
  | .ctrlEnWrite a _ => regAddrWf a
  | .ctrlMonArmWrite a _ => regAddrWf a
  | .monumentWrite a _ => regAddrWf a
  | .splitLoRead _ a => regAddrWf a
  | .splitLoWrite a _ => regAddrWf a
  | .splitHiWrite a _ => regAddrWf a
  | .w1cWrite a _ => regAddrWf a
  | .postedWriteApplied a => regAddrWf a
  | .cfgCrcRecompute a _ => regAddrWf a
  | .marginPolicy r => decide (r.codes.length = 34) && decide (r.stretched.length = 10)
  | _ => true

/-- A command whose own fields lie in the ranges that the spec gives them. -/
def wellFormed (i : Instr) : Bool := packetWf i && slotWf i && eventWf i

end Sys2Proof
end

