-- ==== Sys2Proof/Certificates/Slice0/Obligations.lean ====
section
/-! DEFINITION. The statements for the provers. -/

open Sys2Proof Sys2Proof.Machine

/-- A step on a queue that holds commands is `exec` of the one at the front, on the state with the queue's rest. -/
def Obligations.StepRunsTheFrontCommand : Prop :=
  ∀ (c : Instr) (rest : List Instr) (s : State),
    s.pending = c :: rest → step s = exec c { s with pending := rest }

/-- On an empty queue a compute cycle passes (the model's choice, log entry 37), but for one in which an access of the array meets one
of a resident routine, which Table 06.11 leaves undefined: every region's cycle count rises by 1, and outside a run the tiles, the
memory and the host interface stay. With the root clock stopped, or in reset, nothing changes. -/
def Obligations.EmptyQueueIsOneCycle : Prop :=
  ∀ s : State, s.pending = [] →
    (s.tick.arrayMeetsRoutine s.runCycle.toNat = false → step s = .next s.tick) ∧
    (s.tick.arrayMeetsRoutine s.runCycle.toNat = true → step s = .fault .arrayMeetsRoutine) ∧
    (s.clocksRun = false → s.tick = s) ∧
    (s.clocksRun = true → ∀ r : Region, (s.tick.region r.val).count = (s.region r.val).count + 1) ∧
    s.tick.pending = [] ∧ s.tick.fixed = s.fixed ∧
    (s.runActive = false → step s = .next s.tick ∧ s.tick.mem = s.mem ∧ s.tick.host = s.host ∧ s.tick.tiles = s.tiles ∧
      s.tick.run = s.run)

/-- What reset leaves (Tables 16.6 to 16.8, R14, R324, R500, R512): base 8, target 8, cap 12, no datum pulse yet, an
input limit of 7,200 W, no module ID, domain version 2, solo mode, no session, no run, no image, every band die-local of
class A, hold-area code 6 on every tile, and HOST_LOCK clear. The state after reset meets the invariant of the byte
stores. -/
def Obligations.ResetState : Prop :=
  (State.reset.clock.base = 8 ∧ State.reset.clock.target = 8 ∧ State.reset.clock.cap = 12 ∧
  State.reset.clock.datumReq = true ∧ State.reset.power.inputLimit = 7200 ∧
  State.reset.domain.moduleId = none ∧ State.reset.domain.version = 2 ∧ State.reset.pair.mode = .solo ∧
  State.reset.host.pcie = none ∧ State.reset.host.mctp = none ∧ State.reset.run.state = .idle ∧
  State.reset.host.images = [] ∧ State.reset.hostLock = false ∧ State.reset.pending = [] ∧
  (∀ b : Fin 80, mget 0 State.reset.mem.bands b.val = 0) ∧
  (∀ t : TileNo, (State.reset.tile t.val).holdAreaCode = 6 ∧ (State.reset.tile t.val).logical = none) ∧
  (∀ p : PortNo, (State.reset.port p.val).state = .down)) ∧
  (State.reset.storesWf)

/-! ### Sessions and rings -/

/-- R520: on a path whose session is open, a command with the wrong major version is answered BAD_VERSION, and else one
of another session or out of sequence DENIED; nothing else of the command happens. Before any session only SESSION_OPEN,
SESSION_TAKE, IDENTIFY and SPDM are taken. A reply goes to the path of its command and changes nothing else; one under
NO_REPLY, or of a session that has ended, does not go out (R521, R525, R540). -/
def Obligations.ChecksAndReplies : Prop :=
  (∀ (s : State) (h : Hdr) (op : BitVec 16) (f : State → Res),
    s.fwRuns = true → s.mctpBusy h = false →
    (∀ q, s.session h.path = some q → h.seq = q.nextSeq → h.major.toNat ≠ q.version.toNat / 256 →
      s.accept h op f = .next (((s.setSession h.path (some { q with nextSeq := q.nextSeq + 1 })).countMctp h).answer h op
        stBadVersion true (failBody 0xFFFF 0 0))) ∧
    (∀ q, s.session h.path = some q → h.seq ≠ q.nextSeq → h.major.toNat = q.version.toNat / 256 →
      s.accept h op f = .next ((s.countMctp h).answer h op stDenied true (failBody 0xFFFF 0 0))) ∧
    (s.session h.path = none → (h.major = 1 ∨ h.major = 2) →
      ¬ (op = 0x0001 ∨ op = 0x0004 ∨ op = 0x0005 ∨ op = 0x0601) →
      s.accept h op f = .next ((s.countMctp h).answer h op stDenied true (failBody 0xFFFF 0 0)))) ∧
  (∀ (s : State) (h : Hdr) (op st : BitVec 16) (final : Bool) (body : Bytes),
    (h.noReply = true → s.reply h op st final body = s) ∧
    (s.sessionAlive h = false → s.reply h op st final body = s) ∧
    (h.noReply = false → s.sessionAlive h = true →
      let r : Reply := { path := h.path, opcode := op ||| 0x8000, seq := h.seq, final := final, unsolicited := false,
                         vector := h.vector, jobId := h.jobId, status := st, version := s.replyVersion h, body := body }
      (h.path = .pcie → s.reply h op st final body = { s with host := { s.host with waiting := s.host.waiting ++ [r] } }) ∧
      (h.path = .mctp → s.reply h op st final body = { s with host := { s.host with
        mctpSent := s.host.mctpSent ++ [r],
        mctpOutstanding := s.host.mctpOutstanding - (if final then 1 else 0) } })))

/-- NOP, IDENTIFY and SESSION_CLOSE complete: NOP changes only what its checks change and its reply; IDENTIFY answers
the module's body; SESSION_CLOSE ends its path's session, and an active run goes on (R525). SESSION_OPEN on a free path:
the version is the highest that both sides support, the session expects the next SEQ, and the module's session numbers
advance; tiles, memory and run stay. SESSION_TAKE over MCTP (R526): the PCIe session ends, no run stays active, and the
taker owns the module. -/
def Obligations.SessionRowsComplete : Prop :=
  (∀ (s : State) (h : Hdr),
    (Admitted s h 0x0003 → exec (.nop h) s = .next ((s.admitted h).ok h 0x0003 [])) ∧
    (Admitted s h 0x0004 ∨ AdmittedFree s h 0x0004 →
      exec (.identify h) s =
        .next ((s.admitted h).ok h 0x0004 ((s.admitted h).identBody 0 ((s.admitted h).replyVersion h)))) ∧
    (Admitted s h 0x0002 → ∃ t, exec (.sessionClose h) s = .next t ∧ t.session h.path = none ∧
      t.session (otherPath h.path) = s.session (otherPath h.path) ∧ t.run = s.run ∧ t.tiles = s.tiles ∧ t.mem = s.mem ∧
      t.domain = s.domain ∧ t.pair = s.pair ∧ t.clock = s.clock ∧ t.blocks = s.blocks ∧ t.mgp = s.mgp ∧ t.sec = s.sec)) ∧
  (∀ (s : State) (h : Hdr) (b : OpenBody) (v : BitVec 16),
    AdmittedFree s h 0x0001 → (b.kind = 1 ∨ b.kind = 2) → b.eventVector.toNat ≤ 15 → b.coalesce.toNat ≤ 1000 →
    (b.kind = 1 → ∀ q, s.session (otherPath h.path) = some q → q.owner = false) →
    chooseVersion b.versionMin b.versionMax = some v →
    ∃ t q, exec (.sessionOpen h b) s = .next t ∧ t.session h.path = some q ∧ q.owner = (b.kind == 1) ∧ q.version = v ∧
      q.nextSeq = h.seq + 1 ∧ q.id = s.host.nextSession ∧ q.coalesce = b.coalesce ∧ q.hostTag = b.hostTag ∧
      t.host.nextSession = s.host.nextSession + 1 ∧ t.session (otherPath h.path) = s.session (otherPath h.path) ∧
      t.run = s.run ∧ t.tiles = s.tiles ∧ t.mem = s.mem ∧ t.domain = s.domain ∧ t.clock = s.clock ∧ t.sec = s.sec) ∧
  (∀ (s : State) (h : Hdr) (b : OpenBody) (v : BitVec 16),
    (Admitted s h 0x0005 ∨ AdmittedFree s h 0x0005) → h.path = .mctp → b.kind = 1 → b.eventVector.toNat ≤ 15 →
    b.coalesce.toNat ≤ 1000 → chooseVersion b.versionMin b.versionMax = some v →
    ∃ t q, exec (.sessionTake h b) s = .next t ∧ t.host.pcie = none ∧ t.host.mctp = some q ∧ q.owner = true ∧
      q.version = v ∧ t.runActive = false ∧ t.sec.keys = s.sec.keys)

/-- OUTBOX_REPLY_WRITE, COALESCING_INTERVAL_EXPIRY, INBOX_COMMIT and MCTP_MESSAGE complete (R516 to R520, R540). The first packet
that waits goes into the outbox where its slots are free, and its vector is signalled; an interval that ends signals a vector held
back in it and begins the next one; a host write stores its bytes, and one that completes the expected packet commits it: IN_DONE
counts it and its command acts; a message over MCTP whose trailer is its header's SEQ acts too. A packet whose CRC is wrong is
answered BAD_CRC. -/
def Obligations.RingsAndCommits : Prop :=
  (∀ (s : State) (r : Reply) (rest : List Reply), s.host.waiting = r :: rest → s.fwRuns = true →
    s.host.outLive.sum + packetSlots r.body.length ≤ 256 →
    ∃ t, exec .outboxReplyWrite s = .next t ∧ t.host.waiting = rest ∧ t.host.outWritten = s.host.outWritten + 1 ∧
      t.host.outSlot = (s.host.outSlot + packetSlots r.body.length) % 256 ∧
      t.host.outLive = s.host.outLive ++ [packetSlots r.body.length] ∧
      t.host.outbox = ringWrite s.host.outbox (s.host.outSlot * 1024) (s.host.packetBytes r) ∧
      t.host.vectors = s.host.vectors.signal s.host.coalesce (Fin.ofNat 16 r.vector.toNat) ∧
      t = { s with host := t.host }) ∧
  (∀ (s : State) (v : Fin 16), v ∈ s.host.vectors.inInterval →
    let y : Vectors := { s.host.vectors with inInterval := s.host.vectors.inInterval.erase v,
                                             heldBack := s.host.vectors.heldBack.erase v }
    (v ∉ s.host.vectors.heldBack →
      exec (.coalescingIntervalExpiry v) s = .next { s with host := { s.host with vectors := y } }) ∧
    (v ∈ s.host.vectors.heldBack →
      exec (.coalescingIntervalExpiry v) s = .next { s with host := { s.host with vectors := y.signal s.host.coalesce v } })) ∧
  (∀ (s s1 : State) (o : Nat) (data : Bytes) (body : Option ImageBody),
    s.power.inReset = false → o < 0x40000 →
    s1 = { s with host := { s.host with
      inbox := writeBytes s.host.inbox o (data.take (0x40000 - o)),
      covered := s.host.covered.filter (fun p => !(placesOf o data.length).contains p) ++ placesOf o data.length } } →
    let x := readPacket .pcie s1.host.expected
    let s2 := { s1 with host := s1.host.advance }
    (∃ t, exec (.inboxCommit o data body) s = .next t) ∧
    ((s.fwRuns = false ∨ (placesOf o data.length).contains s1.host.trailerPlace = false ∨ x.trailer ≠ x.hdr.seq) →
      exec (.inboxCommit o data body) s = .next s1) ∧
    (s.fwRuns = true → (placesOf o data.length).contains s1.host.trailerPlace = true → x.trailer = x.hdr.seq →
      s2.host.commits s2.host.covered = false →
      (x.crcGood = false → ∃ t, exec (.inboxCommit o data body) s = .next t ∧ t.host.inDone = s.host.inDone + 1 ∧
        t.tiles = s.tiles ∧ t.mem = s.mem ∧ t.run = s.run) ∧
      (∀ h : Hdr, x = { hdr := h, opcode := 0x0003, body := [], trailer := h.seq, crcGood := true } → Admitted s1 h 0x0003 →
        ∃ t, exec (.inboxCommit o data body) s = .next t ∧ t.host.inDone = s.host.inDone + 1 ∧
          t.tiles = s.tiles ∧ t.mem = s.mem ∧ t.run = s.run))) ∧
  (∀ (s : State) (p : Bytes) (body : Option ImageBody), s.fwRuns = true →
    let x := readPacket .mctp p
    let cal : CalResult := { withinLimits := Config.freeBit s.freeCtr, store := Config.measuredCal s.freeCtr }
    (x.trailer ≠ x.hdr.seq → exec (.mctpMessage p body) s = .next s) ∧
    (x.trailer = x.hdr.seq → x.crcGood = false → exec (.mctpMessage p body) s =
      .next ((s.countMctp x.hdr).answer x.hdr x.opcode stBadCrc true (failBody 0xFFFF 0 0))) ∧
    (∀ i : Instr, x.trailer = x.hdr.seq → x.crcGood = true → decodeBody x.hdr x.opcode x.body body cal = .command i →
      exec (.mctpMessage p body) s = exec i (s.drawn 1)) ∧
    (∀ h : Hdr, x = { hdr := h, opcode := 0x0003, body := [], trailer := h.seq, crcGood := true } → Admitted s h 0x0003 →
      exec (.mctpMessage p body) s = .next (((s.drawn 1).admitted h).ok h 0x0003 [])))

/-! ### Images, data movement and run control -/

/-- LIST_IMAGES, UNLOAD_IMAGE, VERIFY_IMAGE and LOAD_IMAGE complete (R231, R528): LIST_IMAGES answers 80 B for each handle;
UNLOAD_IMAGE empties its handle; VERIFY_IMAGE answers ACCEPTED and then what steps 1 to 7 found, and loads nothing; LOAD_IMAGE of a
container that passes all nine steps puts the image into its handle with its sections in memory, and answers the failed step for any
other. The loader stops at the first of its steps that a container fails (R231): bad form is BAD_VERSION in step 1, and under
enforcement an unsigned or wrongly signed one is DENIED in step 2, whatever comes after. -/
def Obligations.ImagesLoad : Prop :=
  ((∀ (s : State) (h : Hdr), Admitted s h 0x0104 →
    exec (.listImages h) s = .next ((s.admitted h).ok h 0x0104 (s.host.images.flatMap (fun e =>
      leBytes 1 e.1 ++ zeros 1 ++ leBytes 2 e.2.jobId.toNat ++ leBytes 2 e.2.ltId.toNat ++ leBytes 2 e.2.tiles.length ++
      digestBytes e.2.imageDigest ++ zeros 8)))) ∧
  (∀ (s : State) (h : Hdr) (n : Byte) (im : Image), Admitted s h 0x0103 → s.runActive = false →
    mfind s.host.images n.toNat = some im →
    ∃ t, exec (.unloadImage h n) s = .next t ∧ t.host.images = merase s.host.images n.toNat ∧ t.mem = s.mem ∧
      t.tiles = s.tiles ∧ t.run = s.run) ∧
  (∀ (s u : State) (h : Hdr) (x : LoadBody) (body : Option ImageBody), Admitted s h 0x0102 → x.handle.toNat ≤ 15 →
    x.placeBase = 0 → x.placeLimit = 0 → u = (s.admitted h).reply h 0x0102 stAccepted false [] →
    (∀ lt tiles b, u.loadChecks x.handle.toNat x.imageAddr.toNat h.jobId body = .checked lt tiles b →
      exec (.verifyImage h x body) s = .next (u.ok h 0x0102 [])) ∧
    (∀ n st, u.loadChecks x.handle.toNat x.imageAddr.toNat h.jobId body = .failed n st →
      exec (.verifyImage h x body) s = .next (u.loadFailed h 0x0102 x.imageAddr.toNat n st))) ∧
  (∀ (s u : State) (h : Hdr) (x : LoadBody) (body : Option ImageBody), Admitted s h 0x0101 → x.handle.toNat ≤ 15 →
    s.runActive = false → u = (s.admitted h).reply h 0x0101 stAccepted false [] →
    (∀ n st, u.loadChecks x.handle.toNat x.imageAddr.toNat h.jobId body = .failed n st →
      exec (.loadImage h x body) s = .next (u.loadFailed h 0x0101 x.imageAddr.toNat n st)) ∧
    (∀ lt tiles (b : ImageBody), u.loadChecks x.handle.toNat x.imageAddr.toNat h.jobId body = .checked lt tiles b →
      (∀ bases, u.placeSections x.placeLimit.toNat x.placeBase.toNat b.sections = some bases →
        u.step8 (headerOf (u.readHbm x.imageAddr.toNat 512)) b tiles = true →
        (b.sections.zip bases).all (fun e => u.stacksFit e.1 e.2) = true →
        ∃ t im, exec (.loadImage h x body) s = .next t ∧ mfind t.host.images x.handle.toNat = some im ∧ im.body = b ∧
          im.tiles = tiles ∧ im.ltId = lt ∧ im.jobId = h.jobId ∧ im.sectionBases = bases ∧
          t.mem = (u.writeSections (b.sections.zip bases)).mem ∧
          (∀ k, k ≠ x.handle.toNat → mfind t.host.images k = mfind s.host.images k) ∧ t.run = s.run ∧ t.tiles = s.tiles) ∧
      (u.step8 (headerOf (u.readHbm x.imageAddr.toNat 512)) b tiles = false →
        exec (.loadImage h x body) s = .next (u.loadFailed h 0x0101 x.imageAddr.toNat 8 stRejected))))) ∧
  (∀ (s : State) (handle addr : Nat) (job : BitVec 16) (body : Option ImageBody),
    (headerForm (headerOf (s.readHbm addr 512)) addr = false →
      s.loadChecks handle addr job body = .failed 1 stBadVersion) ∧
    (headerForm (headerOf (s.readHbm addr 512)) addr = true → s.sec.enforce = true →
      s.sec.admits (headerOf (s.readHbm addr 512)).flags (headerOf (s.readHbm addr 512)).signerKey
        (headerOf (s.readHbm addr 512)).signature ((s.readHbm addr 512).take 0x120) = false →
      s.loadChecks handle addr job body = .failed 2 stDenied) ∧
    (∀ step st, s.loadChecks handle addr job body = .failed step st →
      1 ≤ step ∧ step ≤ 7 ∧ (st = stBadVersion ↔ step = 1) ∧ (st = stDenied ↔ step = 2)))

/-- The host's data movement completes (R324, R512, R529, R530): DMA_START takes its channel, DMA_COMPLETE moves all its bytes and
frees it, DMA_ABORT empties its channel and its queue, DMA_STATUS only answers, APERTURE_MOVE sets the window, an aperture load
returns memory's bytes, and BAND_ZEROING_DONE lets requests to its band go on. MEMORY_LAYOUT (R324): while no run is active the
bands named take their modes and classes, a band that changes reads zero and waits for its zeroing, and no other band's bytes
change. It says so of APERTURE_ACCESS. -/
def Obligations.MemoryCommandsComplete : Prop :=
  ((∀ (s : State) (h : Hdr) (b : DmaBody), Admitted s h 0x0201 → b.channel.toNat ≤ 15 → b.dir.toNat ≤ 1 → dmaFits b = true →
    mfind s.host.dmaRunning b.channel.toNat = none →
    ∃ t, exec (.dmaStart h b) s = .next t ∧
      t.host.dmaRunning = mset s.host.dmaRunning b.channel.toNat { hdr := h, body := b } ∧
      t.host.dmaQueue = s.host.dmaQueue ∧ t.mem = s.mem ∧ t.tiles = s.tiles) ∧
  (∀ (s : State) (c : Fin 16) (data : Bytes) (d : Dma), mfind s.host.dmaRunning c.val = some d → d.body.dir = 0 →
    s.waitsZero d.body.hbmAddr.toNat d.body.length.toNat = false →
    s.netAhead (dmaDeadline d.body) d.body.hbmAddr.toNat d.body.length.toNat = false →
    exec (.dmaComplete c data) s = .next (((s.endDma c.val).hbmPut d.body.hbmAddr.toNat
      (padTo d.body.length.toNat data) (dmaDeadline d.body)).reply d.hdr 0x0201 stOk true
        (leBytes 8 d.body.length.toNat))) ∧
  (∀ (s : State) (c : Fin 16) (list : Bytes) (d : Dma), mfind s.host.dmaRunning c.val = some d → d.body.dir = 1 →
    d.body.options.getLsbD 1 = false → s.waitsZero d.body.hbmAddr.toNat d.body.length.toNat = false →
    s.netAhead (dmaDeadline d.body) d.body.hbmAddr.toNat d.body.length.toNat = false →
    s.poisonAt d.body.hbmAddr.toNat d.body.length.toNat = none →
    exec (.dmaComplete c list) s = .next (((s.endDma c.val).hostWrite
      [(d.body.hostAddr, s.readHbm d.body.hbmAddr.toNat d.body.length.toNat)]).reply d.hdr 0x0201 stOk true
        (leBytes 8 d.body.length.toNat))) ∧
  (∀ (s : State) (h : Hdr) (c : Byte) (d : Dma), Admitted s h 0x0202 → c.toNat ≤ 15 →
    mfind s.host.dmaRunning c.toNat = some d → mrising s.host.dmaRunning = true →
    ∃ t, exec (.dmaAbort h c) s = .next t ∧ mfind t.host.dmaRunning c.toNat = none ∧
      t.host.dmaQueue = s.host.dmaQueue.filter (fun e => e.1 != c.toNat) ∧ t.tiles = s.tiles ∧ t.run = s.run) ∧
  (∀ (s : State) (h : Hdr) (c : Byte), Admitted s h 0x0203 → c.toNat ≤ 15 → mfind s.host.dmaRunning c.toNat = none →
    exec (.dmaStatus h c) s = .next (((s.admitted h).drawn 1).ok h 0x0203
      (leBytes 1 (s.host.queued c.toNat) ++ zeros 7 ++ leBytes 8 0))) ∧
  (∀ (s : State) (h : Hdr) (base : DWord), Admitted s h 0x0204 → base.toNat % 2 ^ 30 = 0 →
    base.toNat + 2 ^ 36 ≤ hbmSize →
    ∃ t, exec (.apertureMove h base) s = .next t ∧ t.host.apertureBase = base.toNat ∧ t.mem = s.mem ∧ t.tiles = s.tiles) ∧
  (∀ (s : State) (o n : Nat), 0 < n → o + n ≤ 2 ^ 36 → s.waitsZero (s.host.apertureBase + o) n = false →
    s.netAhead none (s.host.apertureBase + o) n = false → s.poisonAt (s.host.apertureBase + o) n = none →
    exec (.apertureAccess (.load o n)) s = .next { s with host := { s.host with
      apertureReads := s.host.apertureReads ++ [some (s.readHbm (s.host.apertureBase + o) n)] } }) ∧
  (∀ (s : State) (o : Nat) (bs : Bytes), bs ≠ [] → o + bs.length ≤ 2 ^ 36 →
    s.waitsZero (s.host.apertureBase + o) bs.length = false → s.netAhead none (s.host.apertureBase + o) bs.length = false →
    exec (.apertureAccess (.store o bs)) s = .next (s.hbmPut (s.host.apertureBase + o) bs none)) ∧
  (∀ (s : State) (b : Fin 80), ∃ t, exec (.bandZeroingDone b) s = .next t ∧ b.val ∉ t.mem.zeroing ∧
    (∀ c, c ≠ b.val → (c ∈ t.mem.zeroing ↔ c ∈ s.mem.zeroing)) ∧ t = { s with mem := { s.mem with zeroing := t.mem.zeroing } })) ∧
  (∀ (s : State) (h : Hdr) (first count : Byte) (bands : List (Byte × Byte)),
    Admitted s h 0x0205 → bands.length = count.toNat → 0 < count.toNat → first.toNat + count.toNat ≤ 80 →
    (∀ b ∈ bands, b.1.toNat ≤ 2 ∧ b.2.toNat ≤ 1) → s.runActive = false →
    ∃ t, exec (.memoryLayout h first count bands) s = .next t ∧
      (∀ k, k < 80 → k < first.toNat ∨ first.toNat + count.toNat ≤ k →
        ∀ a, a / 2 ^ 35 = k → readByte t.mem.hbm a = readByte s.mem.hbm a) ∧
      (∀ i, i < count.toNat → ∀ b, bands[i]? = some b →
        mget 0 s.mem.bands (first.toNat + i) ≠ BitVec.ofNat 3 (b.1.toNat + 4 * b.2.toNat) →
        (first.toNat + i) ∈ t.mem.zeroing ∧ ∀ a, a / 2 ^ 35 = first.toNat + i → readByte t.mem.hbm a = 0) ∧
      (mwf 0 s.mem.bands = true → (∀ k, k < 32 → memWf (s.block (blkHmc k)).cfg = true) →
        ∀ i b, bands[i]? = some b →
          mget 0 t.mem.bands (first.toNat + i) = BitVec.ofNat 3 (b.1.toNat + 4 * b.2.toNat)))

/-- RUN (R531): with an image of the job in its handle and no reason to refuse, the run starts at this cycle and the reply is
ACCEPTED; STOP ends an active run and answers OK after the run's own final reply (R532). STEP, STEP_BUNDLES_DONE, JOB_CONFIG and
RUN_STATUS complete (R527, R531, R532), and a run that has reached its step limit ends. It says so of RUN_END and FAULT_STOP. -/
def Obligations.RunCommandsComplete : Prop :=
  ((∀ (s : State) (h : Hdr) (b : RunBody) (ps : List PatchEntry) (im : Image), Admitted s h 0x0301 → ps.length ≤ 252 →
    s.runBusy = false → s.mgp.calValid = true → mfind s.host.images (b.flags.toNat / 16 % 16) = some im →
    (s.admitted h).runDenied h b im ps = false → (im.flags.getLsbD 1 = true → b.flags.getLsbD 0 = true) →
    exec (.run h b ps) s = .next (((s.admitted h).startRun h b im ps).reply h 0x0301 stAccepted false [])) ∧
  (∀ (s : State) (h : Hdr), Admitted s h 0x0302 →
    exec (.stop h) s = .next (((s.admitted h).endRun .stop).ok h 0x0302 [])) ∧
  (∀ (s : State) (c : EndCause), (s.endRun c).runActive = false)) ∧
  ((∀ (s : State) (h : Hdr) (mask : BitVec 128) (n : Word), Admitted s h 0x0303 → n ≠ 0 → n.toNat ≤ 1048576 →
    (∀ t ∈ maskTiles mask, (s.tile t).halted = true) →
    ∃ t, exec (.step h mask n) s = .next t ∧ (∀ k ∈ maskTiles mask, (t.tile k).stepping = some n) ∧
      (∀ k, k ∉ maskTiles mask → t.tile k = s.tile k) ∧ t.mem = s.mem ∧ t.run = s.run) ∧
  (∀ (s : State) (k : TileNo), (s.tile k.val).stepping = some 0 →
    exec (.stepBundlesDone k) s = .next (s.modTile k.val (fun x => { x with stepping := none }))) ∧
  (∀ (s : State) (h : Hdr) (a b c : Byte), Admitted s h 0x0304 → a.toNat ≤ 30 → b.toNat ≤ 1 → c.toNat ≤ 64 →
    (s.runActive = false ∨ s.run.jobId ≠ h.jobId) →
    ∃ t, exec (.jobConfig h a b c) s = .next t ∧ (t.jobOf h.jobId).checkT = (if a = 0 then 12 else a.toNat) ∧
      (t.jobOf h.jobId).closureContinue = (b == 1) ∧ (t.jobOf h.jobId).lead = (if c = 0 then 4 else c.toNat) ∧
      (t.jobOf h.jobId).seed = (s.jobOf h.jobId).seed ∧ t.run = s.run ∧ t.tiles = s.tiles ∧ t.mem = s.mem) ∧
  (∀ (s : State) (h : Hdr), Admitted s h 0x0305 →
    exec (.runStatus h) s = .next ((s.admitted h).ok h 0x0305 (leBytes 1 s.runCode ++ zeros 3 ++
      leBytes 4 (if s.runActive then s.currentStep.toNat else 0) ++ leBytes 8 s.clock.meridian.toNat))) ∧
  (∀ s : State, s.runActive = true → s.run.stepLimit ≠ 0 → s.run.stepLimit.toNat ≤ s.run.steps.length →
    exec (.runEnd .stepLimit) s = .next (s.endRun .stepLimit)) ∧
  (∀ s : State, s.runActive = true → exec (.runEnd .stop) s = .next (s.endRun .stop)) ∧
  (∀ s : State, s.runActive = true → s.run.faults ≠ [] →
    exec .faultStop s = .next (s.endRun .fault)) ∧
  (∀ s : State, s.run.state = .running → (∀ k ∈ s.imageTiles, (s.tile k).blocked = [] ∧ (s.tile k).faulted = false) →
    exec (.runEnd .complete) s = .next (s.endRun .complete)))

/-- What a run's first cycle holds on every tile of the image (R66, R203, Table 06.3): G0 the logical number, G1 the
number of tiles, G2 the module ID, G3 the first step, every other G register, every L and V register 0, M0 all ones and
the other masks 0, no loop, no wait, no fault. -/
def Obligations.RunStartsTilesAsTable06_3 : Prop :=
  ∀ (s : State) (h : Hdr) (b : RunBody) (im : Image) (ps : List PatchEntry) (l : Nat),
    im.tiles.Nodup → l < im.tiles.length →
    let t := (s.startRun h b im ps).tile (imageTile im l).val
    t.logical = some l ∧ t.regs.getG 0 = BitVec.ofNat 64 l ∧ t.regs.getG 1 = BitVec.ofNat 64 im.tiles.length ∧
    t.regs.getG 2 = BitVec.ofNat 64 s.moduleIdNat ∧ t.regs.getG 3 = b.firstStep.setWidth 64 ∧
    (∀ g, 4 ≤ g → t.regs.getG g = 0) ∧ (∀ k, t.regs.getL k = 0) ∧ (∀ k n, t.regs.getV k n = 0) ∧
    t.regs.getM 0 = BitVec.allOnes 256 ∧ (∀ k, k ≠ 0 → t.regs.getM k = 0) ∧
    t.loops = [] ∧ t.blocked = [] ∧ t.faulted = false ∧ t.held = 0

/-! ### Pair, domain, calibration, keys and firmware -/

/-- SET_MODULE_ID (R11, R533): an ID of 20 bits is taken while none is assigned; once one is assigned the same ID is OK and every other
is DENIED, and it stays. -/
def Obligations.ModuleIdIsSetOnce : Prop :=
  (∀ (s : State) (h : Hdr) (id : Word), Admitted s h 0x0401 → s.domain.moduleId = none → id.toNat ≤ 0xFFFFF →
    ∃ t, exec (.setModuleId h id) s = .next t ∧ t.domain.moduleId = some (id.setWidth 20) ∧ t.tiles = s.tiles ∧
      t.mem = s.mem ∧ t.run = s.run ∧ t.pair = s.pair) ∧
  (∀ (s : State) (h : Hdr) (id : Word) (m : BitVec 20), Admitted s h 0x0401 → s.domain.moduleId = some m →
    exec (.setModuleId h id) s = .next
      (if m.toNat = id.toNat then (s.admitted h).ok h 0x0401 [] else (s.admitted h).fail h 0x0401 stDenied 0 0 id.toNat))

/-- SET_DOMAIN, SET_PAIR_MODE, WITHDRAW_CHANGE, LEASE_DELIVER, PORT_RESET, QUARANTINE_CLEAR and LINK_STATUS complete
(R390, R408, R443, R455, R463, R464, R535). -/
def Obligations.PairAndDomainRowsComplete : Prop :=
  (∀ (s : State) (h : Hdr) (b : DomainBody), Admitted s h 0x0402 → (b.version = 1 ∨ b.version = 2) → b.paths.toNat ≤ 3 →
    s.runActive = false →
    ∃ t, exec (.setDomain h b) s = .next t ∧ t.domain.version = b.version.setWidth 4 ∧
      t.domain.witnessChain = b.paths.getLsbD 0 ∧ t.domain.witnessHost = b.paths.getLsbD 1 ∧
      t.domain.witnessId = b.witnessId ∧ t.domain.witnessKey = b.witnessKey ∧ t.domain.moduleId = s.domain.moduleId ∧
      t.domain.membership = s.domain.membership ∧ t.tiles = s.tiles ∧ t.mem = s.mem ∧ t.run = s.run) ∧
  (∀ (s : State) (h : Hdr) (mode : Byte) (m : PairMode), Admitted s h 0x0403 → modeOf mode = some m →
    s.runActive = false →
    ∃ t, exec (.setPairMode h mode) s = .next t ∧ t.pair.mode = m ∧ (s.pair.role = .fenced → t.pair.role = .fenced) ∧
      (m = .solo → s.pair.role ≠ .fenced → t.pair.role = .solo) ∧ t.domain = s.domain ∧ t.tiles = s.tiles ∧
      t.mem = s.mem ∧ t.run = s.run) ∧
  (∀ (s : State) (h : Hdr) (e : Word) (c : Change), Admitted s h 0x0405 → s.domain.change = some c →
    c.membership.epoch = e →
    ∃ t, exec (.withdrawChange h e) s = .next t ∧ t.domain.change = none ∧ t.domain.membership = s.domain.membership ∧
      t.tiles = s.tiles ∧ t.mem = s.mem ∧ t.run = s.run ∧ t.pair = s.pair) ∧
  (∀ (s : State) (h : Hdr) (r : LeaseReplyMsg), Admitted s h 0x0406 → s.domain.witnessHost = true →
    exec (.leaseDeliver h r) s = .next (((s.admitted h).takeLeaseReply r).ok h 0x0406 [])) ∧
  (∀ (s : State) (h : Hdr) (b : Byte) (p : PortNo), Admitted s h 0x0407 → portOf b = some p → s.runActive = false →
    exec (.portReset h b) s = .next (((s.admitted h).modPort p.val
      (fun x => { x with state := .training, upperHalf := false, failed := 0 })).ok h 0x0407 [])) ∧
  (∀ (s : State) (h : Hdr), Admitted s h 0x0408 →
    ∃ t, exec (.quarantineClear h) s = .next t ∧ t.pair = { s.pair with quarantined := false } ∧ t.domain = s.domain ∧
      t.tiles = s.tiles ∧ t.mem = s.mem ∧ t.run = s.run) ∧
  (∀ (s : State) (h : Hdr), Admitted s h 0x0409 →
    exec (.linkStatus h) s =
      .next ((s.admitted h).ok h 0x0409 ((List.range 20).flatMap (fun p => (s.port p).statusBytes))))

/-- ANNOUNCE_MEMBERSHIP in its three kinds (R415, R443, R447, R534): the first membership comes into force at once with its epochs;
a planned or forced change is held until its effective step, and the membership in force stays. A planned change whose effective
step is less than the job's lead above the step in progress is DENIED, and no change is held that was not (R443). It says so of
ANNOUNCE_INITIAL_MEMBERSHIP, ANNOUNCE_PLANNED_CHANGE and ANNOUNCE_FORCED_CHANGE. -/
def Obligations.AnnouncementsHold : Prop :=
  ((∀ (s : State) (h : Hdr) (b : AnnounceBody) (t0 : MemberTable), Admitted s h 0x0404 → s.runActive = false →
    s.memberTable b.tableAddr.toNat = some t0 → t0.members.contains s.moduleIdNat = true →
    ∃ t, exec (.announceInitialMembership h b) s = .next t ∧
      t.domain.membership = some { epoch := b.memberEpoch, shape := t0.shape, members := t0.members } ∧
      t.domain.change = none ∧ t.run = s.run ∧ t.mem = s.mem) ∧
  (∀ (s : State) (h : Hdr) (b : AnnounceBody) (t0 : MemberTable), Admitted s h 0x0404 →
    s.memberTable b.tableAddr.toNat = some t0 → s.outside t0 = false →
    (s.runActive = true → s.currentStep.toNat + (s.jobOf s.run.jobId).lead ≤ b.tE.toNat) →
    ∃ t c, exec (.announcePlannedChange h b) s = .next t ∧ t.domain.change = some c ∧ c.tE = b.tE ∧ c.forced = false ∧
      c.membership.members = t0.members ∧ c.membership.epoch = b.memberEpoch ∧
      t.domain.membership = s.domain.membership ∧ t.tiles = s.tiles ∧ t.run = s.run ∧ t.mem = s.mem) ∧
  (∀ (s : State) (h : Hdr) (b : AnnounceBody) (t0 : MemberTable), Admitted s h 0x0404 →
    s.memberTable b.tableAddr.toNat = some t0 → s.outside t0 = false → s.stateLost t0 = false →
    (s.hasPlan = true → b.tE.toNat ≤ s.lowestOpenStep) →
    ∃ t c, exec (.announceForcedChange h b) s = .next t ∧ t.domain.change = some c ∧ c.tE = b.tE ∧ c.forced = true ∧
      c.membership.members = t0.members ∧ t.domain.membership = s.domain.membership ∧ t.tiles = s.tiles ∧
      t.run = s.run ∧ t.mem = s.mem)) ∧
  (∀ (s : State) (h : Hdr) (b : AnnounceBody) (t0 : MemberTable), Admitted s h 0x0404 →
    s.memberTable b.tableAddr.toNat = some t0 → s.outside t0 = false → s.runActive = true →
    b.tE.toNat < s.currentStep.toNat + (s.jobOf s.run.jobId).lead →
    exec (.announcePlannedChange h b) s = .next ((s.admitted h).fail h 0x0404 stDenied 8 0 b.tE.toNat))

/-- POWER_POLICY, CAL_EXPORT, CALIBRATE, CAL_IMPORT and SPDM complete (R494, R536, R576, R577, R593). The key and firmware commands
complete with a normal supply (R588, R589, R596): a free slot takes its key, a revoked slot is empty, enforcement takes its
value, a chunk goes into the image that does not run, and a valid image with the digest named gets the next ACTIVATION. Key
commands wait for no one: during a run they are BUSY; and what Table 18.7 denies is DENIED with every key and the enforcement as
they were (R596). It says so of ENROL_BUILD_KEY, REVOKE_BUILD_KEY, SIGNING_ENFORCE, FW_WRITE and FW_ACTIVATE. -/
def Obligations.NonVolatileWritesComplete : Prop :=
  ((∀ (s : State) (h : Hdr) (a c : Byte) (l : Word), Admitted s h 0x0504 → 8 ≤ a.toNat → a.toNat ≤ c.toNat →
    c.toNat ≤ 12 → l.toNat ≤ 7200 →
    ∃ t, exec (.powerPolicy h a c l) s = .next t ∧ t.clock = { s.clock with target := a.toNat, cap := c.toNat } ∧
      t.power = { s.power with inputLimit := l.toNat } ∧ t.tiles = s.tiles ∧ t.mem = s.mem ∧ t.run = s.run) ∧
  (∀ (s : State) (h : Hdr) (o : Word), Admitted s h 0x0502 →
    exec (.calExport h o) s = .next ((s.admitted h).ok h 0x0502 (leBytes 8 s.calExported.length ++
      (s.calExported.drop o.toNat).take 4032))) ∧
  (∀ (s : State) (h : Hdr) (scopes : Word) (r : CalResult), Admitted s h 0x0501 → scopes.toNat ≤ 31 →
    s.runActive = false → s.power.computeDies = true → s.power.hbmRails = true → s.power.supply = .normal →
    s.mgp.restoring = false → r.withinLimits = true →
    ∃ t, exec (.calibrate h scopes r) s = .next t ∧ t.mgp.calValid = true ∧
      t.mgp.calStore = calSeal ((s.admitted h).calHeadered (calMerge s.mgp.calStore r.store scopes) 2 scopes) ∧
      t.clock.datumReq = (s.clock.datumReq || scopes.getLsbD 0 || scopes.getLsbD 2) ∧ t.run = s.run ∧
      (scopes.getLsbD 0 = false → t.mem = s.mem) ∧ t.tiles = s.tiles) ∧
  (∀ (s : State) (h : Hdr) (total : Word) (chunk : Bytes), Admitted s h 0x0503 → chunk.length ≤ 4032 →
    s.power.supply = .normal → s.mgp.restoring = false → total.toNat = calTotal →
    ∃ t, exec (.calImport h 0 total chunk) s = .next t ∧ t.mgp.calImport = chunk ∧ t.mgp.calStore = s.mgp.calStore ∧
      t.tiles = s.tiles ∧ t.mem = s.mem ∧ t.run = s.run) ∧
  (∀ (s : State) (h : Hdr) (r : SpdmRequest), Admitted s h 0x0601 ∨ AdmittedFree s h 0x0601 →
    exec (.spdm h r) s = .next ((s.admitted h).ok h 0x0601 (s.spdmAnswer r)))) ∧
  (∀ (s : State) (h : Hdr), s.power.supply = .normal → s.mgp.restoring = false →
    (∀ (i : Byte) (k : Key), Admitted s h 0x0602 → i.toNat ≤ 7 → s.runActive = false → mfind s.sec.keys i.toNat = none →
      (∀ e ∈ s.sec.keys, e.2 ≠ k) →
      ∃ t, exec (.enrolBuildKey h i k) s = .next t ∧ t.sec = { s.sec with keys := mset s.sec.keys i.toNat k } ∧
        t.run = s.run ∧ t.tiles = s.tiles ∧ t.mem = s.mem) ∧
    (∀ (i : Byte) (k : Key), Admitted s h 0x0603 → i.toNat ≤ 7 → s.runActive = false →
      mfind s.sec.keys i.toNat = some k → (s.sec.enforce = true → 1 < s.sec.keys.length) →
      ∃ t, exec (.revokeBuildKey h i) s = .next t ∧ t.sec = { s.sec with keys := merase s.sec.keys i.toNat } ∧
        t.run = s.run ∧ t.tiles = s.tiles ∧ t.mem = s.mem) ∧
    (Admitted s h 0x0604 → s.runActive = false →
      ∃ t, exec (.signingEnforce h 0) s = .next t ∧ t.sec = { s.sec with enforce := false } ∧ t.run = s.run ∧
        t.tiles = s.tiles ∧ t.mem = s.mem) ∧
    (∀ (o : Word) (c : Bytes), Admitted s h 0x0605 → c.length ≤ 4048 → o.toNat + c.length ≤ 0x4000000 →
      s.activating = false →
      exec (.fwWrite h o c) s = .next (({ s.admitted h with
        sec := s.sec.setOther { data := writeBytes s.sec.other.data o.toNat c } }).ok h 0x0605 [])) ∧
    (∀ d : Digest, Admitted s h 0x0606 → s.sec.imageValid s.sec.other = true → s.sec.other.digest = d →
      ∃ t, exec (.fwActivate h d) s = .next t ∧
        t.sec = s.sec.setOther { data := writeBytes s.sec.other.data 0x100 (leBytes 4 s.sec.nextActivation) } ∧
        t.run = s.run ∧ t.tiles = s.tiles ∧ t.mem = s.mem)) ∧
  (∀ (s : State) (h : Hdr),
    (∀ (i : Byte) (k : Key), Admitted s h 0x0602 → i.toNat ≤ 7 → s.runActive = true →
      exec (.enrolBuildKey h i k) s = .next ((s.admitted h).failPlain h 0x0602 stBusy)) ∧
    (∀ (i : Byte), Admitted s h 0x0603 → i.toNat ≤ 7 → s.runActive = false → s.sec.enforce = true →
      s.sec.keys.length ≤ 1 → exec (.revokeBuildKey h i) s = .next ((s.admitted h).failPlain h 0x0603 stDenied)) ∧
    (Admitted s h 0x0604 → s.runActive = false → s.sec.keys = [] →
      exec (.signingEnforce h 1) s = .next ((s.admitted h).failPlain h 0x0604 stDenied)))

/-! ### Debug and telemetry -/

/-- HALT_TILES, RESUME_TILES, READ_SYNC and READ_TILE_STATE complete (R532, R537): the enabled tiles of the mask halt or
go on, no other tile changes, and the reads answer a halted tile's registers and a sync object's state. -/
def Obligations.HaltAndReadComplete : Prop :=
  (∀ (s : State) (h : Hdr) (mask : BitVec 128), Admitted s h 0x0701 →
    ∃ t, exec (.haltTiles h mask) s = .next t ∧
      (∀ k, k ∈ maskTiles mask → s.enabled k = true → (t.tile k).halted = true ∧ (t.tile k).regs = (s.tile k).regs) ∧
      (∀ k, k ∉ maskTiles mask → t.tile k = s.tile k) ∧ t.mem = s.mem ∧ t.run = s.run) ∧
  (∀ (s : State) (h : Hdr) (mask : BitVec 128), Admitted s h 0x0702 →
    ∃ t, exec (.resumeTiles h mask) s = .next t ∧
      (∀ k, k ∈ maskTiles mask → s.enabled k = true → (t.tile k).halted = false ∧ (t.tile k).regs = (s.tile k).regs) ∧
      (∀ k, k ∉ maskTiles mask → t.tile k = s.tile k) ∧ t.mem = s.mem ∧ t.run = s.run) ∧
  (∀ (s : State) (h : Hdr) (o : SyncObject) (t n : BitVec 16), Admitted s h 0x0703 → s.tileNamed t = true →
    n.toNat ≤ objectBound o →
    exec (.readSync h o t n) s = .next ((s.admitted h).ok h 0x0703 (s.syncRead t.toNat n.toNat o))) ∧
  (∀ (s : State) (h : Hdr) (t : BitVec 16) (set index : Byte) (bs : Bytes), Admitted s h 0x0705 → s.tileNamed t = true →
    (s.tile t.toNat).halted = true → (s.tile t.toNat).regs.setBytes set.toNat index.toNat = some bs →
    exec (.readTileState h t set index) s = .next ((s.admitted h).ok h 0x0705 bs))

/-- The debug writes of Table 08.8 complete (R318, R319): each changes its object, is logged with the old and the new value, and
answers the old value; a write to a send endpoint has no row, and a VALUE outside its range is DENIED with nothing written. It
says so of SYNC_HALT_TILE, SYNC_RESUME_TILE, SYNC_SET_COUNT, SYNC_ADD_ARRIVALS, SYNC_RELEASE_ROUND, SYNC_FIRE_WATCH,
SYNC_DISARM_WATCH and SYNC_RESET_ENDPOINT. -/
def Obligations.DebugWritesComplete : Prop :=
  ∀ (s : State) (h : Hdr) (t n : BitVec 16), Admitted s h 0x0704 → s.tileNamed t = true →
    (exec (.syncHaltTile h t 0) s = .next ((((s.admitted h).setHalted t.toNat true).debugLog .tile t.toNat 0
      (if (s.tile t.toNat).halted then 1 else 0) 1).ok h 0x0704 (leBytes 8 (if (s.tile t.toNat).halted then 1 else 0)))) ∧
    (exec (.syncResumeTile h t 0) s = .next ((((s.admitted h).setHalted t.toNat false).debugLog .tile t.toNat 0
      (if (s.tile t.toNat).halted then 1 else 0) 0).ok h 0x0704 (leBytes 8 (if (s.tile t.toNat).halted then 1 else 0)))) ∧
    (∀ v : Word, n.toNat ≤ 63 → v.toNat ≤ 65535 →
      exec (.syncSetCount h t n v) s = .next ((((s.admitted h).modTile t.toNat
        (fun x => x.setSem n.toNat (v.setWidth 16))).debugLog .semaphore t.toNat n.toNat
        ((s.tile t.toNat).sem n.toNat).toNat v.toNat).ok h 0x0704 (leBytes 8 ((s.tile t.toNat).sem n.toNat).toNat))) ∧
    (∀ v : Word, 65535 < v.toNat → n.toNat ≤ 63 →
      exec (.syncSetCount h t n v) s = .next ((s.admitted h).fail h 0x0704 stDenied 10 0 v.toNat)) ∧
    (∀ (v : Word) (d : BarrierDecl), n.toNat ≤ 15 → s.barrierDecl (barrierId n) = some d →
      1 ≤ v.toNat % 65536 → v.toNat < 2 ^ 20 → s.holdsLevel d (v.toNat / 2 ^ 17 % 8) = true →
      exec (.syncAddArrivals h t n v) s = .next ((((s.admitted h).addArrivals d (v.toNat / 2 ^ 17 % 8) t.toNat
        (v.toNat / 65536 % 2) (v.toNat % 65536)).debugLog .barrier t.toNat n.toNat
        (s.bankCount (barrierId n) (v.toNat / 2 ^ 17 % 8) t.toNat (v.toNat / 65536 % 2))
        (s.bankCount (barrierId n) (v.toNat / 2 ^ 17 % 8) t.toNat (v.toNat / 65536 % 2) + v.toNat % 65536)).ok h 0x0704
        (leBytes 8 (s.bankCount (barrierId n) (v.toNat / 2 ^ 17 % 8) t.toNat (v.toNat / 65536 % 2))))) ∧
    (∀ d : BarrierDecl, n.toNat ≤ 15 → s.barrierDecl (barrierId n) = some d →
      s.holdsLevel d (scopeLevel d.scope) = true →
      ∃ u, exec (.syncReleaseRound h t n 0) s = .next u ∧ u.run.faults = s.run.faults ∧ u.mem = s.mem) ∧
    (((s.tile t.toNat).watch n.toNat).declared = true → n.toNat ≤ 31 →
      (∃ u, exec (.syncFireWatch h t n 0) s = .next u ∧ ((u.tile t.toNat).watch n.toNat).armed = false ∧
        u.net.watchFires = s.net.watchFires ++ [(Fin.ofNat 128 t.toNat, Fin.ofNat 32 n.toNat,
          ((s.tile t.toNat).watch n.toNat).generation)] ∧ u.mem = s.mem ∧ u.run = s.run) ∧
      (∃ u, exec (.syncDisarmWatch h t n 0) s = .next u ∧ ((u.tile t.toNat).watch n.toNat).armed = false ∧
        u.net = s.net ∧ u.mem = s.mem ∧ u.run = s.run)) ∧
    (((s.tile t.toNat).recv n.toNat).declared = true → n.toNat ≤ 63 →
      ∃ u, exec (.syncResetEndpoint h t n 0) s = .next u ∧ ((u.tile t.toNat).recv n.toNat).closed = true ∧
        ((u.tile t.toNat).recv n.toNat).msgs = [] ∧ u.mem = s.mem ∧ u.run = s.run)

/-- The reads of group 0x08 and SUBSCRIBE complete (R120, R181, R538, R539, R569, R573, R624): a chunked read answers the whole
length and up to 4,032 B from its offset, and no read changes anything but the session and the reply. It says so of
READ_TELEMETRY, READ_RECORD, READ_EVENT_LOG, READ_FAULTS, READ_ROUTINES, READ_CHECK_HIST and READ_FLAGS. -/
def Obligations.TelemetryReadsComplete : Prop :=
  ∀ (s : State) (h : Hdr) (o : Word),
    (∀ (b : BitVec 16) (bs : Bytes), Admitted s h 0x0801 → s.telemetry b.toNat = some bs →
      exec (.readTelemetry h b o) s = .next ((s.admitted h).ok h 0x0801 (leBytes 8 bs.length ++ (bs.drop o.toNat).take 4032))) ∧
    (∀ (n : Word) (bs : Bytes), Admitted s h 0x0802 → (s.jobOf h.jobId).record n.toNat = some bs →
      exec (.readRecord h n o) s = .next ((s.admitted h).ok h 0x0802 (leBytes 8 bs.length ++ (bs.drop o.toNat).take 4032))) ∧
    (∀ a b : DWord, Admitted s h 0x0803 → a ≤ b →
      let bs := logBytes ((s.mgp.committed ++ s.mgp.logRing).filter (fun e => decide (a ≤ e.meridian) && decide (e.meridian < b)))
      exec (.readEventLog h a b o) s = .next ((s.admitted h).ok h 0x0803 (leBytes 8 bs.length ++ (bs.drop o.toNat).take 4032))) ∧
    (Admitted s h 0x0804 →
      let bs := s.orderedFaults.flatMap FaultRec.bytes
      exec (.readFaults h o) s = .next ((s.admitted h).ok h 0x0804 (leBytes 8 bs.length ++ (bs.drop o.toNat).take 4032))) ∧
    (Admitted s h 0x0805 → exec (.readRoutines h o) s =
      .next ((s.admitted h).ok h 0x0805 (leBytes 8 s.directory.length ++ (s.directory.drop o.toNat).take 4032))) ∧
    (∀ t : BitVec 16, Admitted s h 0x0806 → s.tileNamed t = true →
      exec (.readCheckHist h t) s = .next ((s.admitted h).ok h 0x0806
        ((List.range 32).flatMap (fun i => leBytes 4 (mget 0 (s.tile t.toNat).checkHist i).toNat)))) ∧
    (∀ t : BitVec 16, Admitted s h 0x0807 → s.tileNamed t = true → t ≠ 0xFFFF →
      exec (.readFlags h t) s = .next ((s.admitted h).ok h 0x0807 (leBytes 1 (s.tile t.toNat).flags.toNat))) ∧
    (∀ m : DWord, Admitted s h 0x0808 →
      ∃ t q, exec (.subscribe h m) s = .next t ∧ t.session h.path = some q ∧ q.mask = m ∧ t.tiles = s.tiles ∧
        t.mem = s.mem ∧ t.run = s.run ∧ t.mgp = s.mgp)

/-! ### BAR0 -/

/-- A host write to a posted block waits (R552): BUSY is 1 until POSTED_WRITE_APPLIED, a second write is dropped with WLOST, and the
write applied is that of the register's own rules with BUSY clear. REGISTER_WRITE, CTRL_EN_WRITE, CTRL_MON_ARM_WRITE,
MONUMENT_WRITE and W1C_WRITE all go this way. What a write does at its register (R543, R547, R548, R551, R554): CTRL is ignored
with WIGN during a run and else sets EN and MON_ARM; STATUS clears the bits written 1; a configuration write is ignored with
WIGN while EN is 1, and else is stored and the CRC taken again; a read-only register ignores it. It says so of SPLIT_LO_WRITE
and SPLIT_HI_WRITE. -/
def Obligations.RegisterWritesComplete : Prop :=
  (∀ (s : State) (a b off : Nat) (v : Word), blockAt a = some (b, off) → s.blockLive b = true → s.power.inReset = false →
    s.hostLock = false → blockPosted b = true →
    let waits (v : Word) : State := s.modBlock b (fun x => { x with
      posted := some { addr := a, value := v.setWidth 64, eight := false, byteEnable := 0xF } })
    ((s.block b).posted = none →
      (∀ w : RegWrite, w.addr = a → w.eight = false → a % 4 = 0 → w.byteEnable.setWidth 4 = (0xF : BitVec 4) →
        exec (.registerWrite w) s = .next (waits (half w.value false))) ∧
      (off = 0x04 → ∀ en, exec (.ctrlEnWrite a en) s =
        .next (waits (word (bit en 0 + bit (s.block b).monArm 1) ||| s.reservedRead b 0x04))) ∧
      (off = 0x04 → ∀ arm, exec (.ctrlMonArmWrite a arm) s =
        .next (waits (word (bit (s.blockEn b) 0 + bit arm 1) ||| s.reservedRead b 0x04))) ∧
      (off = 0x10 → exec (.monumentWrite a v) s = .next (waits v)) ∧
      (isW1c b off = true → exec (.w1cWrite a v) s =
        .next (waits ((v &&& ~~~(reservedMask b off)) ||| s.reservedRead b off))) ∧
      (s.isLo b off = true → exec (.splitLoWrite a v) s = .next (waits v)) ∧
      (s.isHi b off = true → exec (.splitHiWrite a v) s = .next (waits v))) ∧
    ((s.block b).posted.isSome = true → ∀ w : RegWrite, w.addr = a → w.eight = false → a % 4 = 0 →
      w.byteEnable.setWidth 4 = (0xF : BitVec 4) →
      exec (.registerWrite w) s = .next (s.modBlock b (fun x => { x with wlost := true }))) ∧
    (∀ w : RegWrite, (s.block b).posted = some w → w.addr = a →
      exec (.postedWriteApplied a) s =
        (s.modBlock b (fun x => { x with posted := none })).applyReg b off (w.value.setWidth 32) ∧
      ((s.modBlock b (fun x => { x with posted := none })).breaksReserved b off (w.value.setWidth 32) = false →
        ∃ t, exec (.postedWriteApplied a) s = .next t ∧ t.run = s.run ∧ t.pending = s.pending))) ∧
  (∀ (s : State) (b off : Nat) (v : Word), s.breaksReserved b off v = false →
    (off = 0x04 → s.runActive = true → s.applyReg b off v = .next (s.modBlock b (fun x => { x with wign := true }))) ∧
    (off = 0x04 → s.runActive = false → hasConfig b = true → s.applyReg b off v =
      .next (s.modBlock b (fun x => { x with en := v.getLsbD 0, monArm := v.getLsbD 1 }))) ∧
    (off = 0x08 → s.applyReg b off v = .next (s.modBlock b (fun x => { x with
      wign := x.wign && !v.getLsbD 1, cfgDrift := x.cfgDrift && !v.getLsbD 2, wlost := x.wlost && !v.getLsbD 3 }))) ∧
    (off = 0x00 ∨ off = 0x0C → s.applyReg b off v = .next s) ∧
    (configOffset b off = true → 0x100 ≤ off → off < 0x800 → s.blockEn b = true →
      s.applyReg b off v = .next (s.modBlock b (fun x => { x with wign := true }))) ∧
    (configOffset b off = true → 0x100 ≤ off → off < 0x800 → s.blockEn b = false → (s.block b).monArm = false →
      ∃ t, s.applyReg b off v = .next t ∧ (t.block b).cfg = writeBytes (s.block b).cfg off (leBytes 4 v.toNat) ∧
        (t.block b).crc = cfgCrc (t.block b).cfg ∧ (t.block b).copy = (s.block b).copy ∧ t.run = s.run ∧
        t.pending = s.pending) ∧
    (0x800 ≤ off → (s.isLo b off || s.isHi b off) = true → s.applyReg b off v = .next (s.modBlock b (fun x => { x with
      writeShadow := if s.isLo b off then some (off, v) else none }))))

/-- The rows of BAR0 on a block that is not posted (MCB, HIF, MGP, SEC), outside a run: the write reaches its register before the
next access (R552); one that changes a reserved field is undefined, and the model stops there (R544). While firmware writes
configuration, a host write to any block but MCB and HIF is ignored and counted (R549), and so is a write at any time whose byte
enables do not cover its whole register (R542). Split values and the configuration CRC: a read of _LO latches _HI for its own
path, and the host then reads the latched value (R550); the CRC is taken again from the stored bits, and without an upset or an
armed monument nothing else changes (R553, R554). A first difference while MON_ARM is 1 sets CFG_DRIFT, and once it is seen a
difference raises nothing more until the two values agree again (R554). It says so of CTRL_EN_WRITE, CTRL_MON_ARM_WRITE,
MONUMENT_WRITE, W1C_WRITE, REGISTER_WRITE, SPLIT_LO_READ and CFG_CRC_RECOMPUTE. -/
def Obligations.OtherRegisterRowsComplete : Prop :=
  (∀ (s : State) (a b off : Nat) (v : Word), blockAt a = some (b, off) → b < 4 → s.power.inReset = false →
    s.hostLock = false →
    (off = 0x04 → s.runActive = false → ∀ en, exec (.ctrlEnWrite a en) s =
      .next (s.modBlock b (fun x => { x with en := if hasConfig b then en else x.en }))) ∧
    (off = 0x04 → s.runActive = false → ∀ arm, exec (.ctrlMonArmWrite a arm) s =
      .next (s.modBlock b (fun x => { x with en := if hasConfig b then x.en else x.en, monArm := arm }))) ∧
    (off = 0x10 → exec (.monumentWrite a v) s = .next ((s.modBlock b (fun x => { x with monument := v })).compareCrc b)) ∧
    (off = 0x08 → exec (.w1cWrite a v) s = .next (s.modBlock b (fun x => x.clearStatus v))) ∧
    (∀ w : RegWrite, w.addr = a → w.eight = false → a % 4 = 0 → w.byteEnable.setWidth 4 = (0xF : BitVec 4) →
      (s.breaksReserved b off (half w.value false) = true → exec (.registerWrite w) s = .fault .reservedFieldChanged) ∧
      (s.breaksReserved b off (half w.value false) = false → ∃ t, exec (.registerWrite w) s = .next t ∧
        s.applyReg b off (half w.value false) = .next t))) ∧
  (∀ (s : State) (w : RegWrite), s.power.inReset = false → w.eight = false → w.addr % 4 = 0 →
    (∀ b off, blockAt w.addr = some (b, off) → s.blockLive b = true → s.hostLock = true → 2 ≤ b →
      w.byteEnable.setWidth 4 = (0xF : BitVec 4) →
      exec (.registerWrite w) s = .next { s with hostWign := if s.hostWign = BitVec.allOnes 32 then s.hostWign else s.hostWign + 1 }) ∧
    (w.byteEnable.setWidth 4 ≠ (0xF : BitVec 4) →
      exec (.registerWrite w) s = .next { s with hostWign := if s.hostWign = BitVec.allOnes 32 then s.hostWign else s.hostWign + 1 })) ∧
  (∀ (s : State) (a b off : Nat), blockAt a = some (b, off) → s.blockLive b = true →
    (∀ v, s.splitValue b off = some v →
      (∃ t, exec (.splitLoRead false a) s = .next t ∧ (t.block b).hostShadow = some (off, half v true) ∧
        (blockAt (a + 4) = some (b, off + 4) → t.hostRead (a + 4) = half v true) ∧
        (t.block b).fwShadow = (s.block b).fwShadow ∧ t.tiles = s.tiles ∧ t.clock = s.clock) ∧
      exec (.splitLoRead true a) s = .next (s.modBlock b (fun x => { x with fwShadow := some (off, half v true) }))) ∧
    (s.power.inReset = false → (s.block b).monArm = false → ∃ t, exec (.cfgCrcRecompute a []) s = .next t ∧
      (t.block b).crc = cfgCrc (s.block b).cfg ∧ (t.block b).cfg = (s.block b).cfg ∧ t.tiles = s.tiles ∧ t.mem = s.mem ∧
      t.host = s.host)) ∧
  (∀ (s : State) (b : Nat), (s.block b).monArm = true →
    ((s.block b).crc = (s.block b).monument → s.compareCrc b = s.modBlock b (fun x => { x with drifted := false })) ∧
    ((s.block b).crc ≠ (s.block b).monument → (s.block b).drifted = true → s.compareCrc b = s))

/-! ### The matrix slot -/

/-- SET_MODE, LOAD_WEIGHTS, FEED, FINISH_TREE and DRAIN complete (Table 04.6, R138): the operation, with its parameters sampled
from the registers of its bundle, becomes the pending operation of its engine, after the pending operations that start in this cc;
nothing outside the tile changes, nor its registers, scratchpad, weights or accumulators. An engine that already holds a pending
operation stops the model (Table 06.11). -/
def Obligations.ArrayOperationsIssue : Prop :=
  ∀ (s : State) (i : Iss), Issues s i slotMatrix →
    let x := (s.tile i.tile.val).begunAt s i slotMatrix
    let y := x.startAll s.runCycle
    let r := x.samp
    let pends (c : Instr) (op : ArrayOp) : Prop :=
      ((y.array.engine op.engine).pending = none → ∃ t, exec c s = .next t ∧ OnlyTile s t i.tile.val ∧
        let z := t.tile i.tile.val
        z.array.engine op.engine = { y.array.engine op.engine with pending := some (y.array.issued, i.bundle, op) } ∧
        (∀ e, e ≠ op.engine → z.array.engine e = y.array.engine e) ∧ z.array.issued = y.array.issued + 1 ∧
        z.array.weights = x.array.weights ∧ z.array.acc = x.array.acc ∧ z.array.accLate = x.array.accLate ∧
        z.regs = x.regs ∧ z.scratch = x.scratch ∧ z.flags = x.flags ∧ z.sems = x.sems ∧ z.late = x.late) ∧
      ((y.array.engine op.engine).pending.isSome = true → exec c s = .fault .engineHoldsPending)
    (∀ m : ModeArg, modeWf m = true → pends (.setMode i m) (.setMode m)) ∧
    (∀ l : LoadArg, pends (.loadWeights i l)
      (.load (r.srcN l.addr) (r.srcN l.stride) (r.srcN l.scaleAddr) (r.srcN l.k) l.diagonal l.region)) ∧
    (∀ f : FeedArg, feedWf (s.tile i.tile.val).array.nextFmt f = true → pends (.feed i f)
      (.feed (feedFrom r f.src) (r.srcN f.m) (r.srcN f.base) (r.srcN f.chunk) f.overwrite f.pass.val)) ∧
    (∀ a : FinishArg, pends (.finishTree i a) (.finish (r.srcN a.base) (r.srcN a.rows) (r.srcN a.n))) ∧
    (∀ d : DrainArg, drainFmt d.fmt = true →
      pends (.drain i d) (.drain (r.srcN d.base) (r.srcN d.rows) d.fmt (drainTo r d.dest)))

/-- What the rows of the array do in their cc. A feed's row in standard mode is readable in the accumulator store 12 cc after it
enters, and a read one cc earlier finds the previous content (R126, R127, R150). A row of a load changes its own weight row alone
(R135). A drained row is the content before the cc's writes, converted, and the store stays (R154, R155). In extended mode a pass
that enters less than 36 cc after the previous pass of its row loses that pass's contribution (R133). In diagonal mode a column is
the product alone, in a format without block or tensor scales (R143); and a padding row contributes +0 whatever its operands
(R125). -/
def Obligations.ArrayRowsMove : Prop :=
  (∀ (a : ArrayState) (r : ArrayRun) (now base chunk col : Nat) (overwrite : Bool) (row : RowData),
    a.mode ≠ .extended → a.accum = .flat → a.accLate = [] → a.isOpen = false → col < 256 →
    let b := a.enterRow r now base chunk overwrite 0 row
    let cell := accCell (base + r.row) col
    let p := a.partialSum r.g row col
    (∀ n, n < now + 12 → (b.settle n).accAt cell = a.accAt cell) ∧
    (b.settle (now + 12)).accAt cell = (if overwrite then p else addW (a.accAt cell) p)) ∧
  (∀ (a : ArrayState) (r : ArrayRun) (now addr stride scaleAddr k row col : Nat) (diagonal : Bool) (region : Fin 64),
    a.loader.running = some r → r.op = .load addr stride scaleAddr k diagonal region → row ≠ r.row → col < 256 →
    (a.loadRow now).weight row col = a.weight row col ∧ (a.loadRow now).acc = a.acc ∧
    (a.loadRow now).accLate = a.accLate) ∧
  (∀ (s : State) (k : TileNo) (r : ArrayRun) (base rows addr now : Nat) (f : Fmt) (region : Fin 64),
    let x := s.tile k.val
    x.array.drainEngine.running = some r → r.op = .drain base rows f (.scratch addr region) → r.row < rows →
    r.due < 2 * (now + 1) → x.array.isOpen = false → drainFmt f = true →
    ∃ l, ((s.drainCycle k now).tile k.val).late = x.late ++ [l] ∧ l.ready = now + 1 ∧
      l.eff = .scratch [(addr + r.row * (32 * fmtBits f), rowOut f (x.array.drainRow (base + r.row) f))] ∧
      ((s.drainCycle k now).tile k.val).array.acc = x.array.acc ∧
      ((s.drainCycle k now).tile k.val).array.accLate = x.array.accLate) ∧
  (∀ (a : ArrayState) (r0 r1 : ArrayRun) (now d base chunk col : Nat) (overwrite : Bool) (row : RowData),
    a.mode = .extended → a.accLate = [] → a.isOpen = false → r1.row = r0.row → d < 36 → col < 256 →
    let b := (a.enterRow r0 now base chunk overwrite 0 row).enterRow r1 (now + d) base chunk overwrite 1 row
    (b.settle (now + 72)).wideAt r0.row col = f64Add (a.wideAt r0.row col) (a.wideSum row 1 col)) ∧
  (∀ (a : ArrayState) (g : Word) (row : RowData) (col : Nat), a.mode = .diagonal → col < a.validRows →
    fmtIsMx a.inFmt = false → fmtIsMx a.wFmt = false → a.inFmt ≠ .fp4 → a.wFmt ≠ .fp4 →
    a.partialSum g row col = arrayProduct a.inFmt a.wFmt (row.elems.getD col 0) (a.weight col col)) ∧
  (∀ (a : ArrayState) (row : RowData) (col lo n k : Nat), k < n → a.validRows ≤ lo + k →
    (a.leaves row col lo n).getD k 0 = 0)

/-- PENDING_ARRAY_OP_START and ARRAY_FREEZE complete. The pending operation of an engine starts where Table 04.7 lets it: it runs,
nothing is pending, and registers, scratchpad and accumulators stay (R138). In a freeze cc the compute side holds its state and the
freeze counter rises by 1, once for the cc (R139 to R141): the row counts it, the end of the cc counts it where no row did, and
the array, the accumulators, the running pass, the registers and the tile's bundles stay. -/
def Obligations.ArrayOperationsStart : Prop :=
  (∀ (s : State) (k : TileNo) (e : ArrayEngine) (n : Nat) (b : Word) (op : ArrayOp), s.computes k = true →
    ((s.tile k.val).array.engine e).pending = some (n, b, op) → (s.tile k.val).array.mayStart e n = true →
    ∃ t, exec (.pendingArrayOpStart k e) s = .next t ∧ OnlyTile s t k.val ∧
      ((t.tile k.val).array.engine e).pending = none ∧
      (∃ r, ((t.tile k.val).array.engine e).running = some r ∧ r.op = op ∧ r.bundle = b ∧ r.row = 0 ∧
        r.due = 2 * s.runCycle.toNat) ∧
      (t.tile k.val).array.acc = (s.tile k.val).array.acc ∧ (t.tile k.val).array.weights = (s.tile k.val).array.weights ∧
      (t.tile k.val).regs = (s.tile k.val).regs ∧ (t.tile k.val).scratch = (s.tile k.val).scratch) ∧
  (∀ (s : State) (k : TileNo), s.runActive = true → (s.tile k.val).logical.isSome = true → (s.tile k.val).freezeNow = .due →
    ∃ t, exec (.arrayFreeze k) s = .next t ∧ OnlyTile s t k.val ∧
      t.tile k.val = { s.tile k.val with freezeNow := .counted, freeze := (s.tile k.val).freeze + 1 } ∧
      ∃ u, exec (.arrayFreeze k) t = .next u ∧ u.tile k.val = t.tile k.val) ∧
  (∀ (s : State) (k : TileNo), (s.tile k.val).freezeNow ≠ .none → (s.tile k.val).fillRuns = [] →
    let x := s.tile k.val
    let y := (s.cycleTile k).tile k.val
    y.freeze = (if x.freezeNow = .due then x.freeze + 1 else x.freeze) ∧ y.regs = x.regs ∧ y.scratch = x.scratch ∧
    y.array.acc = x.array.acc ∧ y.array.weights = x.array.weights ∧ y.vector.running = x.vector.running ∧
    y.array.drained = x.array.drained ∧ y.cur = x.cur ∧ y.nextBundle = x.nextBundle ∧ y.stall = x.stall ∧ y.held = x.held)

/-! ### The vector and reduction slots -/

/-- VECTOR_PASS completes (R162, R166): it becomes the engine's pending pass, with the registers of its bundle, and nothing else of
the tile changes; a position that gives no output, a V range that would pass V63 and a second pending pass stop the model (Table
06.11). PENDING_PASS_START completes: where the engine is free the pending pass runs. The results of a vector are on their way from
the cc of its last fetch, and readable `passLatency` cc after its first (R170); no lane that is masked off or lies in the tail is
written to a result stream (R174, R177). -/
def Obligations.VectorPassesComplete : Prop :=
  (∀ (s : State) (i : Iss) (p : Pass), Issues s i slotVector → passShape p = true →
    let x := (s.tile i.tile.val).begunAt s i slotVector
    let y := ((begun s i slotVector).startVec i.tile).tile i.tile.val
    let named := passNames p && redFits x.vector.waitingRed i.bundle p
    (named = false → exec (.vectorPass i p) s = .fault .positionGivesNoOutput) ∧
    (named = true → passRange p (x.samp.srcN p.n) = false → exec (.vectorPass i p) s = .fault .vRangePassesV63) ∧
    (named = true → passRange p (x.samp.srcN p.n) = true → y.vector.pending.isSome = true →
      exec (.vectorPass i p) s = .fault .engineHoldsPending) ∧
    (named = true → passRange p (x.samp.srcN p.n) = true → y.vector.pending = none →
      ∃ t v, exec (.vectorPass i p) s = .next t ∧ (∀ j, j ≠ i.tile.val → t.tile j = s.tile j) ∧ t.mem = s.mem ∧
        t.net = s.net ∧ (t.tile i.tile.val).vector.pending = some v ∧ v.bundle = i.bundle ∧ v.op = .pass p x.samp ∧
        v.vec = 0 ∧ v.cyc = 0 ∧ (t.tile i.tile.val).vector.running = y.vector.running ∧ (t.tile i.tile.val).regs = x.regs ∧
        (t.tile i.tile.val).scratch = x.scratch ∧ (t.tile i.tile.val).flags = x.flags ∧
        (t.tile i.tile.val).array = x.array ∧ (t.tile i.tile.val).sems = x.sems ∧ (t.tile i.tile.val).recvs = x.recvs)) ∧
  (∀ (s : State) (k : TileNo) (v : VecRun) (p : Pass) (regs : Regs), s.computes k = true →
    let x := (s.tile k.val).vector
    x.running = none → x.pending = some v → v.op = .pass p regs →
    exec (.pendingPassStart k) s = .next (s.setTile k.val { s.tile k.val with
      vector := { x with running := some v, pending := none } })) ∧
  (∀ (t : Tile) (s : State) (v : VecRun) (p : Pass) (regs : Regs) (now : Nat), p.check = none →
    let u := t.vectorDone s v p regs now
    let o := runVector v.bundle v.serial p v.seen regs (t.array.drained.headD []) (regs.srcN p.n) v.vec
    u.regs = t.regs ∧ u.scratch = t.scratch ∧ u.late.take t.late.length = t.late ∧
    (u.late.drop t.late.length).map (fun l => (l.ready, l.order, l.slot, l.bundle, l.eff)) =
      o.effs.map (fun e => (now - v.cyc + passLatency s t p, 0, slotVector, v.bundle, e.1))) ∧
  (∀ (addr size : Nat) (act : BitVec 256) (codes : List Nat), 0 < size → codes.length = 256 →
    ∀ r ∈ resultRuns addr size act codes, ∀ m, r.1 ≤ m → m < r.1 + r.2.length →
      act.getLsbD ((m - addr) / size) = true) ∧
  (∀ lanes k : Nat, lanes ≤ k → (tailMask lanes).getLsbD k = false)

/-- REDUCTION completes: it attaches to its bundle's pass, or waits for the pass to come in its bundle (R189), and a tap that names
no output stops the model. REDUCTION_SEGMENT_RESULT completes: the results that are readable from the next cc leave the reduction
unit (R195). COMBINE completes: it becomes the vector engine's pending operation (R291). A combine takes, for each vector of the
slot, the k messages in order and the slot's own elements, readable k − 1 cc and the latency of Table 08.3 after its first fetch,
and without FINAL nothing else (R291, R293). -/
def Obligations.ReductionsAndCombines : Prop :=
  (∀ (s : State) (i : Iss) (r : Reduction), Issues s i slotReduction → redShape r = true →
    let x := (s.tile i.tile.val).begunAt s i slotReduction
    let y := x.vector
    let put (v : VectorState) : State := (begun s i slotReduction).setTile i.tile.val { x with vector := v }
    (passOf i.bundle y.pending = none → passOf i.bundle y.running = none →
      exec (.reduction i r) s = .next (put { y with waitingRed := some (i.bundle, r, x.samp) })) ∧
    (∀ (v : VecRun) (p : Pass), y.pending = some v → passOf i.bundle y.pending = some p →
      (redNames r p = true → exec (.reduction i r) s = .next (put { y with pending := some (v.attach r x.samp) })) ∧
      (redNames r p = false → exec (.reduction i r) s = .fault .positionGivesNoOutput)) ∧
    (∀ (v : VecRun) (p : Pass), passOf i.bundle y.pending = none → y.running = some v →
      passOf i.bundle y.running = some p → redNames r p = true →
      exec (.reduction i r) s = .next (put { y with running := some (v.attach r x.samp) }))) ∧
  (∀ (s : State) (k : TileNo), s.computes k = true →
    ∃ t, exec (.reductionSegmentResult k) s = .next t ∧ OnlyTile s t k.val ∧
      (t.tile k.val).late = (s.tile k.val).late ++
        (s.tile k.val).vector.redDue.filter (fun l => decide (l.ready ≤ s.runCycle.toNat + 1)) ∧
      (t.tile k.val).vector.redDue =
        (s.tile k.val).vector.redDue.filter (fun l => decide (s.runCycle.toNat + 1 < l.ready)) ∧
      (t.tile k.val).regs = (s.tile k.val).regs ∧ (t.tile k.val).scratch = (s.tile k.val).scratch) ∧
  (∀ (s : State) (i : Iss) (c : CombineArg), Issues s i slotVector → combineShape c = true →
    let x := (s.tile i.tile.val).begunAt s i slotVector
    let y := ((begun s i slotVector).startVec i.tile).tile i.tile.val
    combineRange x c = true → y.vector.pending = none →
    ∃ t v, exec (.combine i c) s = .next t ∧ (∀ j, j ≠ i.tile.val → t.tile j = s.tile j) ∧ t.mem = s.mem ∧
      (t.tile i.tile.val).vector.pending = some v ∧ v.bundle = i.bundle ∧ v.op = .combine c x.samp ∧ v.vec = 0 ∧
      (t.tile i.tile.val).regs = x.regs ∧ (t.tile i.tile.val).scratch = x.scratch ∧
      (t.tile i.tile.val).recvs = x.recvs ∧ (t.tile i.tile.val).flags = x.flags) ∧
  (∀ (t : Tile) (v : VecRun) (c : CombineArg) (regs : Regs) (now j : Nat), c.final = none →
    let r := t.recv c.ep.val
    let slot := combineSlot r c regs
    (combineLates t v c regs now j).1.map (fun l => (l.ready, l.eff)) =
      [(now + c.k - 1 + combineLatency r.op, .slot c.ep slot (256 * j)
        ((List.range 256).map (fun e => (combineElem r slot (combineInputs r v c.k) (256 * j + e)).1)))])

/-- The exact combines do not depend on the order of the messages (R97, R294). What an inactive lane contributes to an
integer max, min or argmax never changes the value of an active one; and a 64-bit sum wraps and sets the integer-
overflow flag exactly where the true sum leaves the range (R192, R194). -/
def Obligations.ExactSums : Prop :=
  (∀ (r : RecvEp) (slot e : Nat) (ms ns : List (Nat → Word)), r.op ≠ .addFp32 → ms.Perm ns →
    (combineElem r slot ms e).1 = (combineElem r slot ns e).1) ∧
  ((∀ (op : RedOp) (isInt : Bool) (x : RedVal), op = .max ∨ op = .min ∨ op = .argmax → isInt = true →
    (-(2 ^ 31) ≤ x.bits.toInt ∧ x.bits.toInt < 2 ^ 31) → x.flags = 0 → x.live = true →
    (redCombine op isInt (redIdle op isInt) x).bits = x.bits ∧ (redCombine op isInt x (redIdle op isInt)).bits = x.bits) ∧
  (∀ x y : RedVal, (sum64 x y).bits = x.bits + y.bits ∧
    ((-(2 ^ 63) ≤ x.bits.toInt + y.bits.toInt ∧ x.bits.toInt + y.bits.toInt < 2 ^ 63) →
      (sum64 x y).bits.toInt = x.bits.toInt + y.bits.toInt ∧ (sum64 x y).flags = x.flags ||| y.flags) ∧
    (¬ (-(2 ^ 63) ≤ x.bits.toInt + y.bits.toInt ∧ x.bits.toInt + y.bits.toInt < 2 ^ 63) →
      (sum64 x y).flags = x.flags ||| y.flags ||| fIntOverflow)))

/-- A result on its way is readable from its cc on and not before (R170, R195, R204): the tick that ends the cc before it puts it
into its register, or into the scratchpad, and until then the register keeps its content. Where a result of the scalar slot and one
of the vector engine reach a register in one cc, the scalar slot's stands (R187). -/
def Obligations.ResultsBecomeReadable : Prop :=
  (∀ (s : State) (k : TileNo) (now : Nat) (l : Late), (s.tile k.val).late = [l] → l.isOpen = false → l.order < 3 →
    let t := s.settleLates k now
    (now + 1 < l.ready → (t.tile k.val).late = [l] ∧ (t.tile k.val).regs = (s.tile k.val).regs ∧
      (t.tile k.val).scratch = (s.tile k.val).scratch) ∧
    (l.ready ≤ now + 1 → (t.tile k.val).late = [] ∧
      (∀ d v, l.eff = .scalar d v → (t.tile k.val).regs = (s.tile k.val).regs.setScalar d v ∧
        (t.tile k.val).scratch = (s.tile k.val).scratch) ∧
      (∀ a bs, l.eff = .scratch [(a, bs)] → a + bs.length ≤ scratchBytes →
        (t.tile k.val).scratch = writeBytes (s.tile k.val).scratch a bs ∧ (t.tile k.val).regs = (s.tile k.val).regs))) ∧
  (∀ (s : State) (k : TileNo) (now : Nat) (g : GReg) (x y : Late) (v w : DWord), (s.tile k.val).late = [x, y] →
    x.isOpen = false → y.isOpen = false → x.ready ≤ now + 1 → y.ready ≤ now + 1 → x.order = 2 → y.order = 0 →
    x.eff = .scalar (.g g) v → y.eff = .scalar (.g g) w →
    ((s.settleLates k now).tile k.val).regs.getG g.val = v)

/-! ### The scalar slot, loops and routines -/

/-- SCALAR_OP, SCALAR_MULTIPLY, READ_LOOP_INDEX and LANE_INSERT_EXTRACT complete (R200, R204, Table 06.4): the result comes from the
registers as the bundle sampled them and goes to its destination alone, from the next bundle on for an operation of latency 1, after
3 cc for a multiply and after 2 cc for a lane; until then no register changes. Shifts take all 64 bits of the amount: 64 or more
gives 0, or the sign fill of an arithmetic right shift; a compare writes 1 or 0. -/
def Obligations.ScalarOperationsComplete : Prop :=
  (∀ (s : State) (i : Iss), Issues s i slotScalar →
    let x := (s.tile i.tile.val).begunAt s i slotScalar
    let r := x.samp
    let ends (c : Instr) (f : Regs → Regs) (n : Nat) (e : LateEff) : Prop :=
      ∃ t, exec c s = .next t ∧ OnlyTile s t i.tile.val ∧ (t.tile i.tile.val).regs = f x.regs ∧
        (t.tile i.tile.val).late = x.late ++ [{
          ready := s.runCycle.toNat + n, order := 2, slot := slotScalar, bundle := i.bundle, eff := e, uses := [],
          isOpen := false }] ∧
        (t.tile i.tile.val).scratch = x.scratch ∧ (t.tile i.tile.val).flags = x.flags ∧
        (t.tile i.tile.val).array = x.array ∧ (t.tile i.tile.val).vector = x.vector ∧ (t.tile i.tile.val).sems = x.sems ∧
        (t.tile i.tile.val).sends = x.sends ∧ (t.tile i.tile.val).recvs = x.recvs ∧ (t.tile i.tile.val).descs = x.descs
    let put (op : ScalarOp) (f : Regs → Regs) : Prop := ends (.scalarOp i op) f 1 (scalarResult op r)
    (∀ f d a b, put (.alu f d a b) (fun g => g.setScalar d (aluValue f (r.scalar a) (r.scalar b)))) ∧
    (∀ d a, put (.not d a) (fun g => g.setScalar d (~~~ r.scalar a))) ∧
    (∀ d a b c, put (.select d a b c) (fun g => g.setScalar d (if r.scalar c = 0 then r.scalar b else r.scalar a))) ∧
    (∀ d a, put (.move d a) (fun g => g.setScalar d (r.scalar a))) ∧
    (∀ d, put (.maskSet d) (fun g => g.setM d.val (BitVec.allOnes 256))) ∧
    (∀ d, put (.maskClear d) (fun g => g.setM d.val 0)) ∧
    (∀ d a, put (.maskNot d a) (fun g => g.setM d.val (~~~ r.getM a.val))) ∧
    (∀ d a, put (.maskCopy d a) (fun g => g.setM d.val (r.getM a.val))) ∧
    (∀ f d a b, put (.mask f d a b) (fun g => g.setM d.val (maskValue f (r.getM a.val) (r.getM b.val)))) ∧
    (∀ d g k, put (.maskFromG d g k) (fun h => h.setM d.val (maskGroup (h.getM d.val) k.val (r.getG g.val)))) ∧
    (∀ d a b, ends (.scalarMultiply i d a b) (fun g => g) 3 (.scalar d (r.scalar a * r.scalar b))) ∧
    (∀ d level, ends (.readLoopIndex i d level) (fun g => g.setScalar d ((x.loopIndex level.val).setWidth 64)) 1
      (.scalar d ((x.loopIndex level.val).setWidth 64))) ∧
    (∀ v lane g, ends (.laneInsertExtract i (.insert v lane g)) (fun h => h) 2
      (.v v.val lane.val [((r.getG g.val).setWidth 32, true)])) ∧
    (∀ g v lane, ends (.laneInsertExtract i (.extract g v lane)) (fun h => h) 2
      (.scalar (.g g) ((r.getV v.val lane.val).setWidth 64)))) ∧
  (∀ a b : DWord,
    (64 ≤ b.toNat → aluValue .shl a b = 0 ∧ aluValue .shr a b = 0 ∧
      aluValue .sar a b = (if a.msb then BitVec.allOnes 64 else 0)) ∧
    (b.toNat < 64 → aluValue .shl a b = a <<< b.toNat ∧ aluValue .shr a b = a >>> b.toNat ∧
      aluValue .sar a b = a.sshiftRight b.toNat) ∧
    (aluValue (.max true) a b).toNat = max a.toNat b.toNat ∧ (aluValue (.min false) a b).toInt = min a.toInt b.toInt ∧
    (∀ c u, aluValue (.cmp c u) a b = 0 ∨ aluValue (.cmp c u) a b = 1))

/-- SCALAR_LOAD, SCALAR_STORE and P_BLOCK_LOAD complete (Table 06.4, Table 07.3, R220): a load's register takes the eight bytes at
its address, the low one first, 3 cc later and 4 from a class W region; a store's eight bytes reach the scratchpad 2 cc later, and no
other byte; a P block load fills eight P registers. Each makes its one access in the issue cc, and registers and scratchpad keep
their content in it. At an address that is not aligned as Table 06.4 says the spec states no bytes: the operation runs, and its
result is a free value (the model's choice). -/
def Obligations.ScalarMemoryComplete : Prop :=
  ∀ (s : State) (i : Iss), Issues s i slotScalar →
    let x := (s.tile i.tile.val).begunAt s i slotScalar
    let now := s.runCycle.toNat
    let leaves (c : Instr) (n : Nat) (e : LateEff) (u : RangeUse) : Prop :=
      ∃ t, exec c s = .next t ∧ OnlyTile s t i.tile.val ∧ (t.tile i.tile.val).regs = x.regs ∧
        (t.tile i.tile.val).scratch = x.scratch ∧ (t.tile i.tile.val).flags = x.flags ∧
        (t.tile i.tile.val).plan = x.plan ++ [u] ∧
        (t.tile i.tile.val).late = x.late ++ [{
          ready := now + n, order := 2, slot := slotScalar, bundle := i.bundle, eff := e, uses := [], isOpen := false }]
    (∀ (d : ScalarDst) (addr : ScalarSrc) (region : Fin 64),
      let a := (x.samp.scalar addr).toNat
      let v : DWord := BitVec.ofNat 64 (leNat (readBytes x.scratch a 8))
      (a % 8 = 0 → leaves (.scalarLoad i d addr region) (if x.classW region.val then 4 else 3) (.scalar d v)
        (scalarUse now i.bundle region.val a 8 false)) ∧
      (a % 8 ≠ 0 → leaves (.scalarLoad i d addr region) (if x.classW region.val then 4 else 3)
        (.scalar d (Config.freeDWord s.freeCtr)) (scalarUse now i.bundle region.val (a / 64 * 64) 64 false))) ∧
    (∀ (v addr : ScalarSrc) (region : Fin 64), (x.samp.scalar addr).toNat % 8 = 0 →
      leaves (.scalarStore i v addr region) 2
        (.scratch [((x.samp.scalar addr).toNat, leBytes 8 (x.samp.scalar v).toNat)])
        (scalarUse now i.bundle region.val (x.samp.scalar addr).toNat 8 true)) ∧
    (∀ (first : PReg) (addr : ScalarSrc) (region : Fin 64), first.val % 8 = 0 → (x.samp.scalar addr).toNat % 64 = 0 →
      leaves (.pBlockLoad i first addr region) (if x.classW region.val then 4 else 3)
        (.p first.val ((List.range 8).map (fun k =>
          BitVec.ofNat 64 (leNat (readBytes x.scratch ((x.samp.scalar addr).toNat + 8 * k) 8)))))
        (scalarUse now i.bundle region.val (x.samp.scalar addr).toNat 64 false))

/-- LOOP_START and LOOP_BODY_END complete. A loop start latches bits [31:0] of its L register as sampled: 0 skips the body, and the
loops that end with its last bundle are resolved; else the body runs with index 0 (R208 to R210, R213); a fifth level stops the
model (Table 06.11). At the end of its last bundle the innermost loop goes on or exits, and an outer one of the same last bundle
only when the inner exits (R211, R212). -/
def Obligations.LoopsComplete : Prop :=
  (∀ (s : State) (i : Iss) (l : LReg) (last : Word), Issues s i slotScalar → i.bundle < last →
    let x := (s.tile i.tile.val).begunAt s i slotScalar
    let n := x.samp.getL l.val
    (x.loops.length < 4 → n = 0 → exec (.loopStart i l last) s =
      .next ((begun s i slotScalar).setTile i.tile.val
        { x with loops := (endLoops last x.loops).1, nextBundle := (endLoops last x.loops).2, resolved := true })) ∧
    (x.loops.length < 4 → n ≠ 0 →
      exec (.loopStart i l last) s = .next ((begun s i slotScalar).setTile i.tile.val
        { x with loops := { first := i.bundle + 1, last := last, count := n, index := 0 } :: x.loops })) ∧
    (4 ≤ x.loops.length → exec (.loopStart i l last) s = .fault .nestingTooDeep)) ∧
  (∀ (b : Word) (f : LoopFrame) (rest : List LoopFrame),
    (f.last ≠ b → endLoops b (f :: rest) = (f :: rest, b + 1)) ∧
    (f.last = b → f.index + 1 < f.count → endLoops b (f :: rest) = ({ f with index := f.index + 1 } :: rest, f.first)) ∧
    (f.last = b → ¬ f.index + 1 < f.count → endLoops b (f :: rest) = endLoops b rest) ∧ endLoops b [] = ([], b + 1)) ∧
  (∀ (s : State) (k : TileNo) (f : LoopFrame) (rest : List LoopFrame), s.run.state = .running →
    let t := s.tile k.val
    t.cur = some f.last → t.loops = f :: rest → t.issuedAt = some s.runCycle → t.resolved = false →
    exec (.loopBodyEnd k) s = .next (s.setTile k.val
      { t with loops := (endLoops f.last t.loops).1, nextBundle := (endLoops f.last t.loops).2, resolved := true }))

/-- ROUTINE_CALL, ROUTINE_RETURN and ISTORE_MISS_FILL complete. A call whose conditions hold records the routine with its parameters,
its cc and the cycle count of its directory entry (R215 to R218); when those cc have passed the routine returns, its flags are raised,
what it writes is readable from the next cc, and the caller's next bundle stays as the call left it (R215, R216). Nesting, a busy
engine and a parameter out of range stop the model (Table 06.11). A missing line that arrives is in the store, and the tile goes on
(R227). -/
def Obligations.RoutinesAndMissesComplete : Prop :=
  (∀ (s : State) (i : Iss) (id : BitVec 16) (r : Routine), Issues s i slotScalar → s.routineOf id = some r →
    let x := (s.tile i.tile.val).begunAt s i slotScalar
    let p := routineParams x.samp
    (x.slotsIn.any (fun k => decide (k.toNat ≤ 2)) = false →
      (x.loops.length ≤ 2 → routineEnginesBusy x r = false → routineInRange r p = true →
        exec (.routineCall i id) s = .next ((begun s i slotScalar).setTile i.tile.val { x with routine := some {
          id := id, params := p, call := s.runCycle.toNat, cycles := (begun s i slotScalar).routineCycles r p } })) ∧
      (2 < x.loops.length → exec (.routineCall i id) s = .fault .nestingTooDeep) ∧
      (x.loops.length ≤ 2 → routineEnginesBusy x r = true → exec (.routineCall i id) s = .fault .routineEngineBusy) ∧
      (x.loops.length ≤ 2 → routineEnginesBusy x r = false → routineInRange r p = false →
        exec (.routineCall i id) s = .fault .routineParameterRange))) ∧
  (∀ (s : State) (k : TileNo) (q : RoutineRun), (s.tile k.val).routine = some q → s.runActive = true →
    q.call + q.cycles ≤ s.runCycle.toNat →
    let x := s.tile k.val
    let out := routineOut q.id q.params x.scratch (((s.runJob).map (·.seed)).getD 0)
    ∃ t l, exec (.routineReturn k) s = .next t ∧ OnlyTile s t k.val ∧ (t.tile k.val).routine = none ∧
      (t.tile k.val).nextBundle = x.nextBundle ∧ (t.tile k.val).flags = x.flags ||| out.flags ∧
      (t.tile k.val).late = x.late ++ [l] ∧ l.ready = s.runCycle.toNat + 1 ∧ l.eff = .scratch out.writes ∧
      (∀ g, g < 20 → (t.tile k.val).regs.getG g = x.regs.getG g) ∧
      (∀ m, m < 12 → (t.tile k.val).regs.getM m = x.regs.getM m) ∧ (t.tile k.val).scratch = x.scratch) ∧
  (∀ (s : State) (k : TileNo) (line : Nat), (s.tile k.val).istoreHeld = some line →
    ∃ t, exec (.istoreMissFill k line) s = .next t ∧ OnlyTile s t k.val ∧ (t.tile k.val).istoreHeld = none ∧
      mfind (t.tile k.val).istore (line % 2048) = some line ∧
      (∀ n, n ≠ line % 2048 → mfind (t.tile k.val).istore n = mfind (s.tile k.val).istore n) ∧
      (t.tile k.val).regs = (s.tile k.val).regs ∧ (t.tile k.val).scratch = (s.tile k.val).scratch)

/-- A bundle issues at most once in a cc and in order (R198, R199): an operation of a bundle that the tile may not issue does nothing.
A faulted tile issues no further bundle (R236); a tile in a freeze cc issues none (R140); and where the next bundle's line is absent
the operation does not act: it raises ISTORE_MISS in STRICT mode and holds the tile in RELAXED mode (R227). Shown for the scalar
slot. -/
def Obligations.NothingIssuesWhereTheTileMayNot : Prop :=
  ∀ (s : State) (i : Iss) (op : ScalarOp),
    let t := s.tile i.tile.val
    (mayIssue s i = false → exec (.scalarOp i op) s = .next s) ∧
    (s.enabled i.tile.val = false → mayIssue s i = false) ∧
    (inBundle s i = false → t.faulted = true ∨ t.freezeNow ≠ .none ∨ t.nextBundle ≠ i.bundle ∨ t.routine ≠ none ∨
      t.issuedAt = some s.runCycle → mayIssue s i = false) ∧
    (mayIssue s i = true → inBundle s i = false → storeHolds t i.bundle = false →
      exec (.scalarOp i op) s = .next (missLine s i) ∧
      (s.run.relaxed = true → ((missLine s i).tile i.tile.val).istoreHeld = some (Config.bundleLine i.bundle) ∧
        (missLine s i).run.missOccurred = true) ∧
      (s.run.relaxed = false → ((missLine s i).tile i.tile.val).faulted = true))

/-! ### The stream slot -/

/-- SETUP, START and REARM complete where no check fails (R262, R264, R272 to R276): SETUP writes the fields and numbers segments
from 0; START begins pass 0 at RING_BASE in the next cc; REARM of an idle descriptor begins its next pass, of a running one it fills
the shadow, and a shadow that was armed sets REARM_OVERRUN. A failed check raises STREAM_DESCRIPTOR on the tile, which then issues
no further bundle (R236, R264, Table 07.6): SETUP or START of a running descriptor, START or REARM of one without SETUP. -/
def Obligations.DescriptorsAreSetUp : Prop :=
  ∀ (s : State) (i : Iss) (d : Fin 32), Issues s i slotStream →
    let x := (s.tile i.tile.val).begunAt s i slotStream
    let s1 := begun s i slotStream
    let c := x.desc d.val
    let put (y : Descriptor) : State := s1.setTile i.tile.val (x.setDesc d.val y)
    let now := s.runCycle.toNat
    let base := if c.dir = 2 then c.remoteBase else c.hbmBase
    let faults (e : Instr) (code : DWord) : Prop := ∃ t f, exec e s = .next t ∧ (t.tile i.tile.val).faulted = true ∧
      t.run.faults = s.run.faults ++ [f] ∧ f.code = 8 ∧ f.detail = code ∧ f.offending = BitVec.ofNat 64 d.val ∧
      f.slot = slotStream ∧ f.bundle = i.bundle ∧ f.runCycle = s.runCycle
    (∀ a : SetupArg, a.counts.length ≤ 5 → a.strides.length ≤ 5 →
      (c.running = false → exec (.setup i d a) s = .next (put (setupDesc c x.samp a i.bundle))) ∧
      (x.faulted = false → c.running = true → faults (.setup i d a) 7)) ∧
    (c.isSetup = true → c.running = false → descCode s1 x c base = none → exec (.start i d) s =
      .next (put { (c.beginPass now base s.runCycle i.bundle false) with ringPos := 0 })) ∧
    (x.faulted = false → c.isSetup = true → c.running = true → descCode s1 x c base = none → faults (.start i d) 7) ∧
    (x.faulted = false → c.isSetup = false → faults (.start i d) 11) ∧
    (∀ (b : Src) (last : Bool),
      (x.faulted = false → c.isSetup = false → faults (.rearm i d b last) 11) ∧
      (c.isSetup = true → c.persistent = true → descCode s1 x c (x.samp.srcN b) = none → c.turned now = false →
        (c.running = false → exec (.rearm i d b last) s =
          .next (put (c.beginPass now (x.samp.srcN b) s.runCycle i.bundle last))) ∧
        (c.running = true → exec (.rearm i d b last) s = .next (put { c with
          shadow := some (x.samp.srcN b, last, s.runCycle, i.bundle), overrun := c.overrun || c.shadow.isSome }))))

/-- PHASE, FILL, COPY, CODE_PREFETCH, WINDOW_OPEN, WINDOW_CLOSE and POST_SEND complete (R226, R250, R255, R257, R313): each is
queued, or takes effect from the next cc; a prefetch puts a request for each line on the memory network. -/
def Obligations.StreamSlotCompletes : Prop :=
  ∀ (s : State) (i : Iss), Issues s i slotStream →
    let x := (s.tile i.tile.val).begunAt s i slotStream
    let r := x.samp
    let now := s.runCycle.toNat
    let put (y : Tile) : State := (begun s i slotStream).setTile i.tile.val y
    (∀ compute, (compute = false ∨ x.fillRuns = []) →
      exec (.phase i compute) s = .next ((begun s i slotStream).modTile i.tile.val (fun y => { y with phaseNext := some compute }))) ∧
    (∀ a : FillArg, x.fillRange a.region.val (r.srcN a.addr) (r.srcN a.length) true = true → x.computePhase = false →
      exec (.fill i a) s = .next (put { x with fillRuns := x.fillRuns ++ [{
        addr := r.srcN a.addr, length := r.srcN a.length, source := none, value := r.getG a.value.val, sem := a.sem,
        bundle := i.bundle, ends := now + ceilDiv (r.srcN a.length) 2048, done := false }] })) ∧
    (∀ a : CopyArg, x.fillRange a.sourceRegion.val (r.srcN a.source) (r.srcN a.length) false = true →
      x.fillRange a.targetRegion.val (r.srcN a.target) (r.srcN a.length) true = true → x.computePhase = false →
      (r.srcN a.source + r.srcN a.length ≤ r.srcN a.target ∨ r.srcN a.target + r.srcN a.length ≤ r.srcN a.source) →
      exec (.copy i a) s = .next (put { x with fillRuns := x.fillRuns ++ [{
        addr := r.srcN a.target, length := r.srcN a.length, source := some (r.srcN a.source), value := 0, sem := a.sem,
        bundle := i.bundle, ends := now + ceilDiv (r.srcN a.length) 1024, done := false }] })) ∧
    (∀ a : PrefetchArg, prefetchWf a.count = true → 1 ≤ r.srcN a.count → r.srcN a.count ≤ 64 →
      let lines := (List.range (r.srcN a.count)).map (r.srcN a.line + ·)
      ∃ t, exec (.codePrefetch i a) s = .next t ∧ (t.tile i.tile.val).prefetches = x.prefetches ++
          [{ lines := lines, sem := a.sem, bundle := i.bundle, needBy := r.src a.needBy }] ∧
        t.mem.net.map (fun q => (q.who, q.isWrite, q.len, q.deadline)) =
          s.mem.net.map (fun q => (q.who, q.isWrite, q.len, q.deadline)) ++
          lines.map (fun l => (.code i.tile l, false, 256, some (r.src a.needBy))) ∧
        (t.tile i.tile.val).regs = x.regs ∧ (t.tile i.tile.val).istore = x.istore ∧ t.mem.hbm = s.mem.hbm ∧
        t.run = s.run ∧ ∀ j, j ≠ i.tile.val → t.tile j = s.tile j) ∧
    (∀ (w : Fin 16) (a : WindowArg), x.windowOk (r.srcN a.base) (r.srcN a.length) = true →
      exec (.windowOpen i w a) s = .next (put { x with windowsNext := x.windowsNext ++
        [(w.val, { base := r.srcN a.base, length := r.srcN a.length,
                   writers := (r.src a.maskLo).setWidth 128 ||| ((r.src a.maskHi).setWidth 128 <<< 64),
                   isOpen := true })] })) ∧
    (∀ w : Fin 16, exec (.windowClose i w) s = .next (put { x with windowsNext := x.windowsNext ++
      [(w.val, { x.windowNow w.val with isOpen := false })] })) ∧
    (∀ (d : Fin 32) (seg : Src) (ep : Fin 64) (g : GReg), g.val % 4 = 0 →
      exec (.postSend i d seg ep g) s = .next (put { x with postSends := x.postSends ++ [{
        desc := d, segment := r.srcN seg, ep := ep, payload := gBytes r g.val, bundle := i.bundle, ready := false,
        block := none }] }))

/-- FILL_COPY_DONE, PREFETCH_LINE_ARRIVAL and POST_SEND_DISPATCH complete (R226, R255, R278, R313): a fill or copy in its last cc has
its range written and signals; of the prefetched lines that have come the one with the earliest need-by cycle enters the store,
and the last one of a prefetch signals; a post-send whose segment was done before the cc is sent. -/
def Obligations.StreamWorkEnds : Prop :=
  ∀ (s : State) (k : TileNo), s.runActive = true →
    let x := s.tile k.val
    (∀ (f : FillRun) (rest : List FillRun), x.fillRuns = f :: rest → f.done = false → f.ends ≤ s.runCycle.toNat →
      f.source = none → f.addr + f.length ≤ scratchBytes → f.length % 8 = 0 → (x.sem f.sem.val).toNat < 65535 →
      ∃ t, exec (.fillCopyDone k) s = .next t ∧ (t.tile k.val).fillRuns = { f with done := true } :: rest ∧
        (t.tile k.val).scratch = writeBytes x.scratch f.addr (fillData x f) ∧
        ((t.tile k.val).sem f.sem.val).toNat = (x.sem f.sem.val).toNat + 1 ∧ (t.tile k.val).regs = x.regs ∧
        t.mem = s.mem ∧ t.run = s.run ∧ t.host = s.host) ∧
    (∀ (n line : Nat) (needBy : DWord) (p : Prefetch) (rest : List Prefetch),
      firstKeyed (fun e : Nat × DWord => tileKey (some e.2) k.val 32 0 (256 * e.1)) x.codeIn = some (n, line, needBy) →
      x.prefetches = p :: rest → p.needBy = needBy → p.lines.contains line = true →
      (p.lines.erase line = [] → (x.sem p.sem.val).toNat < 65535) →
      ∃ t, exec (.prefetchLineArrival k) s = .next t ∧ (t.tile k.val).istore = mset x.istore (line % 2048) line ∧
        (t.tile k.val).codeIn = x.codeIn.eraseIdx n ∧
        (p.lines.erase line ≠ [] → (t.tile k.val).prefetches = { p with lines := p.lines.erase line } :: rest ∧
          (t.tile k.val).sems = x.sems) ∧
        (p.lines.erase line = [] → (t.tile k.val).prefetches = rest ∧
          ((t.tile k.val).sem p.sem.val).toNat = (x.sem p.sem.val).toNat + 1) ∧
        (t.tile k.val).scratch = x.scratch ∧ t.mem = s.mem ∧ t.run = s.run) ∧
    (∀ p : PostSend, x.postSends[x.postSends.findIdx x.postReady]? = some p →
      exec (.postSendDispatch k) s = .next ((s.setTile k.val { x with
        postSends := x.postSends.eraseIdx (x.postSends.findIdx x.postReady) }).sendData k p.ep none p.payload slotStream
          p.bundle).1)

/-- READY_TAKE, TRANSFER_ISSUE, TRANSFER_COMPLETE, INBOUND_DATA_ARRIVAL, HOLD_AREA_WRITE, REMOTE_WRITE_JUDGED and WINDOW_VIOLATION
complete (R237, R252 to R254, R258 to R261, R265 to R269). READY is taken before a segment's first transfer; a ready descriptor with
the earliest deadline takes a free tag and issues, at most one transfer in a cc; a completed transfer frees its tag and counts for its
segment. Data that reaches a tile is written at once in a transfer phase with nothing held, and else enters the hold area; held data
is written in order in a transfer phase. A remote write outside every open window is refused whole and counted, and its writer raises
WINDOW_VIOLATION, which names the bundle that issued the stream, the destination tile and the descriptor. -/
def Obligations.TransfersComplete : Prop :=
  ((∀ (s : State) (k : TileNo) (d : Fin 32), s.runActive = true → (s.tile k.val).faulted = false →
    let x := s.tile k.val
    let c := x.desc d.val
    c.running = true → c.opens ≤ s.runCycle.toNat → c.needsReady = true → x.sem c.readySem ≠ 0 →
    ∃ t, exec (.readyTake k d) s = .next t ∧ ((t.tile k.val).desc d.val).readyTaken = true ∧
      (t.tile k.val).sem c.readySem = x.sem c.readySem - 1 ∧ (∀ n, n ≠ c.readySem → (t.tile k.val).sem n = x.sem n) ∧
      (t.tile k.val).scratch = x.scratch ∧ (t.tile k.val).regs = x.regs ∧ t.mem = s.mem) ∧
  (∀ (s : State) (k : TileNo) (n : Fin 32) (d : Descriptor) (tag : Fin 256), s.runActive = true →
    (s.tile k.val).logical.isSome = true → (s.tile k.val).faulted = false → (s.tile k.val).upsets = [] →
    (s.tile k.val).transferAt ≠ some s.runCycle.toNat →
    (s.tile k.val).nextDesc s.runCycle.toNat = some (n, d) → (s.tile k.val).freeTag = some tag →
    ∃ t tr, exec (.transferIssue k) s = .next t ∧ mfind (t.tile k.val).tags tag.val = some tr ∧ tr.desc = n ∧
      tr.len = d.nextLen ∧ tr.done = false ∧
      (t.tile k.val).desc n.val = d.advance s.runCycle.toNat d.nextLen ∧
      (t.tile k.val).transferAt = some s.runCycle.toNat ∧ (∀ u, exec (.transferIssue k) t = .next u → u = t) ∧
      (d.dir = 0 → t.mem.net = s.mem.net ++ [{
        who := .tile k tag, isWrite := false, addr := (d.hbmAddr (d.position / d.elem)).toNat, len := d.nextLen, data := [],
        deadline := some d.deadline, remote := none, poison := none }]) ∧
      (d.dir = 1 → t.mem.net = s.mem.net ++ [{
        who := .tile k tag, isWrite := true, addr := (d.hbmAddr (d.position / d.elem)).toNat, len := d.nextLen,
        data := readBytes (s.tile k.val).scratch (d.ringBase + d.ringPos) d.nextLen, deadline := some d.deadline,
        remote := none, poison := none }]) ∧
      (t.tile k.val).scratch = (s.tile k.val).scratch ∧ (t.tile k.val).regs = (s.tile k.val).regs ∧
      t.mem.hbm = s.mem.hbm ∧ (∀ j, j ≠ k.val → t.tile j = s.tile j)) ∧
  (∀ (s : State) (k : TileNo) (tag : Fin 256) (tr : Transfer), mfind (s.tile k.val).tags tag.val = some tr →
    tr.done = true → (((s.tile k.val).desc tr.desc.val).complete tr).2.2 = 0 →
    ∃ t, exec (.transferComplete k tag) s = .next t ∧ OnlyTile s t k.val ∧ (t.tile k.val).tags = merase (s.tile k.val).tags tag.val ∧
      (∀ n, n ≠ tag.val → mfind (t.tile k.val).tags n = mfind (s.tile k.val).tags n) ∧
      (t.tile k.val).desc tr.desc.val = (((s.tile k.val).desc tr.desc.val).complete tr).1 ∧
      (t.tile k.val).sems = (s.tile k.val).sems ∧ (t.tile k.val).scratch = (s.tile k.val).scratch)) ∧
  ((∀ (s : State) (k : TileNo) (n : Nat) (x : Inbound), s.nextInbound k = some (n, x) →
    let y := s.tile k.val
    let rest := y.inbound.eraseIdx n
    (y.holdArea = [] → y.canLand s.runCycle.toNat x.bytes = true →
      exec (.inboundDataArrival k) s = .next ((s.setTile k.val { y with inbound := rest }).landInbound k x)) ∧
    (y.holdArea ≠ [] ∨ y.canLand s.runCycle.toNat x.bytes = false →
      exec (.inboundDataArrival k) s = .next (s.setTile k.val { y with inbound := rest, holdArea := y.holdArea ++ [x] }))) ∧
  (∀ (s : State) (k : TileNo) (tag : Fin 256) (a : Nat) (data : Bytes) (dl : Option DWord) (rest : List Inbound),
    (s.tile k.val).holdArea = .read tag a data dl :: rest → (s.tile k.val).canLand s.runCycle.toNat data.length = true →
    a + data.length ≤ scratchBytes →
    ∃ t, exec (.holdAreaWrite k) s = .next t ∧ OnlyTile s t k.val ∧ (t.tile k.val).holdArea = rest ∧
      (t.tile k.val).scratch = writeBytes (s.tile k.val).scratch a data ∧ (t.tile k.val).regs = (s.tile k.val).regs) ∧
  (∀ (s : State) (k w : TileNo) (tag : Fin 256) (a : Nat) (data : Bytes) (dl : Option DWord),
    s.net.remotes.find? (fun e => e.1 == k && (s.tile k.val).takesRemote e.2) = some (k, .remote w tag a data dl) →
    ((s.tile k.val).accepts w a data.length = true → ∃ t, exec (.remoteWriteJudged k) s = .next t ∧
      OnlyTile { s with net := t.net } t k.val ∧
      (t.tile k.val).inbound = (s.tile k.val).inbound ++ [.remote w tag a data dl] ∧
      (t.tile k.val).scratch = (s.tile k.val).scratch) ∧
    ((s.tile k.val).accepts w a data.length = false → ∃ t, exec (.remoteWriteJudged k) s = .next t ∧
      t.net.refusals = s.net.refusals ++ [(w, tag, k.val, a)] ∧ (t.tile k.val).inbound = (s.tile k.val).inbound ∧
      (t.tile k.val).refusals = (if (s.tile k.val).refusals = BitVec.allOnes 32 then (s.tile k.val).refusals
        else (s.tile k.val).refusals + 1) ∧ (t.tile k.val).scratch = (s.tile k.val).scratch)) ∧
  (∀ (s : State) (w : TileNo) (tag : Fin 256) (dest a : Nat) (tr : Transfer), s.runActive = true →
    (s.tile w.val).faulted = false → s.net.refusals.find? (fun e => e.1 == w) = some (w, tag, dest, a) →
    mfind (s.tile w.val).tags tag.val = some tr →
    ∃ t f, exec (.windowViolation w) s = .next t ∧ (t.tile w.val).faulted = true ∧ t.run.faults = s.run.faults ++ [f] ∧
      f.code = 3 ∧ f.bundle = tr.bundle ∧ f.slot = slotStream ∧ f.offending = BitVec.ofNat 64 a ∧
      f.detail = BitVec.ofNat 64 (dest + 65536 * tr.desc.val) ∧ f.runCycle = s.runCycle))

/-! ### Channels -/

/-- SEND_G and SEND_V complete (R285, R287, R309, R310): on an open channel within the module the message of the sampled bytes goes to
its endpoint, one credit is used, and the status register receives 0 for the next bundle. A send on a CLOSED channel completes
without credit: its data is discarded and counted at the endpoint, and its status is 1. On an endpoint that is not tolerant, or that
the image did not declare, it also raises CLOSED_ENDPOINT on the sender (shown for SEND_G). -/
def Obligations.SendsAndClosedChannels : Prop :=
  ∀ (s : State) (i : Iss) (a : SendArg), IssuesOn s i slotChannel [{ wp := a.wp, on := .credit a.ep }] →
    let x := (s.tile i.tile.val).begunAt s i slotChannel
    let e := x.send a.ep.val
    let status (t : State) (v : DWord) : Prop :=
      (t.tile i.tile.val).late = x.late ++ (match a.status with
        | some g => [{ ready := s.runCycle.toNat + 1, order := 2, slot := slotChannel, bundle := i.bundle,
                       eff := .scalar (.g g) v, uses := [], isOpen := false }]
        | none => []) ∧
      (t.tile i.tile.val).regs = x.regs ∧ (t.tile i.tile.val).scratch = x.scratch
    let sends (data : Bytes) (t : State) : Prop :=
      t.net.msgs = s.net.msgs ++ [{
        dest := Fin.ofNat 128 e.destTile, ep := e.destEp,
        msg := { origin := .tile i.tile a.ep, slot := (a.slot.map (fun g => x.samp.getG g.val)).getD 0, data := data,
                 used := 0, accepted := false, sentBy := (slotChannel, i.bundle), cycle := 0 } }] ∧
      (t.tile i.tile.val).send a.ep.val = { e with credit := e.credit - 1, cseq := e.cseq + 1 } ∧
      (∀ n, n ≠ a.ep.val → (t.tile i.tile.val).send n = x.send n) ∧ status t 0 ∧
      (∀ j, j ≠ i.tile.val → t.tile j = s.tile j) ∧ t.mem = s.mem ∧ t.run = s.run
    (∀ (o : TileNo) (oe : Fin 64), e.declared = true → e.closed = false → e.dest = .tile o oe →
      (∀ g : GReg, g.val % 4 = 0 → ∃ t, exec (.sendG i a g) s = .next t ∧ sends (gBytes x.samp g.val) t) ∧
      (∀ (v : VReg) (n : Fin 4), v.val + n.val + 1 ≤ 64 →
        ∃ t, exec (.sendV i a v n) s = .next t ∧ sends (vBytes x.samp v.val (n.val + 1)) t) ∧
      (∀ (v : VReg) (n : Fin 4), 64 < v.val + n.val + 1 → exec (.sendV i a v n) s = .fault .vRangePassesV63)) ∧
    (∀ g : GReg, g.val % 4 = 0 → e.declared = true → e.closed = true →
      ∃ t, exec (.sendG i a g) s = .next t ∧
        (t.tile i.tile.val).send a.ep.val = { e with discards := e.discards + 1 } ∧ t.net.msgs = s.net.msgs ∧ status t 1 ∧
        (e.tolerant = true → (t.tile i.tile.val).faulted = x.faulted ∧ t.run = s.run) ∧
        (e.tolerant = false → x.faulted = false → (t.tile i.tile.val).faulted = true ∧
          ∃ f, t.run.faults = s.run.faults ++ [f] ∧ f.code = 7 ∧ f.offending = BitVec.ofNat 64 a.ep.val ∧
            f.detail = closedDetail e)) ∧
    (∀ g : GReg, g.val % 4 = 0 → e.declared = false → x.faulted = false →
      ∃ t f, exec (.sendG i a g) s = .next t ∧ (t.tile i.tile.val).faulted = true ∧ t.run.faults = s.run.faults ++ [f] ∧
        f.code = 7 ∧ f.detail = 0xFFFF)

/-- A bundle with a wait point that is not satisfied is held at it and none of its operations acts (R198, R205, R206): a send that
finds no credit, a receive that finds no message, a WAIT_ARRIVED that finds too few, a WAIT, a WATCH_WAIT and a BWAIT. The holds
are new ones of this cc, or those it already has; registers, semaphores and endpoints stay. A satisfied gated wait has its wake cc,
and only after it may the bundle issue (R306); a cc in which a wait is gated or its condition does not hold counts as a stall
(R207). -/
def Obligations.WaitsHoldAndWake : Prop :=
  (∀ (s : State) (i : Iss) (w : WaitPoint), Waits s i [w] →
    let held := s.holdAt i (bundleWaits i [w])
    (∀ (a : SendArg) (g : GReg), g.val % 4 = 0 → w = { wp := a.wp, on := .credit a.ep } → exec (.sendG i a g) s = .next held) ∧
    (∀ (a : SendArg) (v : VReg) (n : Fin 4), w = { wp := a.wp, on := .credit a.ep } → exec (.sendV i a v n) s = .next held) ∧
    (∀ (ep : Fin 64) (g : GReg), g.val % 4 = 0 → w.on = .message ep → exec (.recvG i ep g w.wp) s = .next held) ∧
    (∀ (ep : Fin 64) (v : VReg) (n : Fin 4), w.on = .message ep → exec (.recvV i ep v n w.wp) s = .next held) ∧
    (∀ ep : Fin 64, w.on = .message ep → exec (.recvDrop i ep w.wp) s = .next held) ∧
    (∀ (ep : Fin 64) (slot : Src) (k : Nat), 1 ≤ k → k ≤ 64 → w.on = .arrived ep slot k →
      exec (.waitArrived i ep slot k w.wp) s = .next held) ∧
    (∀ (k : Fin 64) (v : BitVec 16) (take : Bool), w.on = (if take then .take k v else .sem k v) →
      exec (.wait i k v take w.wp) s = .next held) ∧
    (∀ h : Fin 32, w.on = .watch h → exec (.watchWait i h w.wp) s = .next held) ∧
    (∀ b : Fin 16, w.on = .barrier b → exec (.bwait i b w.wp) s = .next held) ∧
    OnlyTile s held i.tile.val ∧ (∃ b, b ∈ (held.tile i.tile.val).blocked ∧ b.bundle = i.bundle) ∧
    (held.tile i.tile.val).regs = (s.tile i.tile.val).regs ∧ (held.tile i.tile.val).sems = (s.tile i.tile.val).sems ∧
    (held.tile i.tile.val).recvs = (s.tile i.tile.val).recvs ∧ (held.tile i.tile.val).sends = (s.tile i.tile.val).sends) ∧
  (∀ (t : Tile) (b : Blocked), b.gated = true →
    (b.waking = false → Blocked.next t b = { b with waking := condHolds t b.cond }) ∧
    (b.waking = true → (Blocked.next t b).gated = false ∧ (Blocked.next t b).waking = false) ∧ b.stalls = true) ∧
  (∀ b : Blocked, b.gated = false → (b.stalls = true ↔ b.ready = false))

/-- RECV_G, RECV_V, RECV_DROP and WAIT_ARRIVED complete. A receive consumes the endpoint's head message, whose buffer frees (R287,
R289): its bytes are readable 2 cc after issue, RECV_G's in four G registers with byte 0 in bits [7:0] of the first, RECV_V's in the
named V registers, and RECV_DROP's nowhere; no other register changes. WAIT_ARRIVED consumes nothing (R293). -/
def Obligations.ReceivesFillRegisters : Prop :=
  (∀ (s : State) (i : Iss) (ep : Fin 64) (wp : Fin 1024) (m : Msg) (rest : List Msg),
    IssuesOn s i slotChannel [{ wp := wp, on := .message ep }] →
    let x := (s.tile i.tile.val).begunAt s i slotChannel
    let r := x.recv ep.val
    r.msgs = m :: rest →
    let takes (es : List LateEff) (c : Instr) : Prop :=
      ∃ t, exec c s = .next t ∧ (t.tile i.tile.val).recv ep.val = { r with msgs := rest } ∧
        (∀ n, n ≠ ep.val → (t.tile i.tile.val).recv n = x.recv n) ∧
        (t.tile i.tile.val).late = x.late ++ es.map (fun e =>
          ({ ready := s.runCycle.toNat + 2, order := 2, slot := slotChannel, bundle := i.bundle, eff := e, uses := [],
             isOpen := false } : Late)) ∧
        (t.tile i.tile.val).regs = x.regs ∧ (t.tile i.tile.val).scratch = x.scratch ∧
        (∀ (o : TileNo) (oe : Fin 64), m.origin = .tile o oe →
          t.net.credits = s.net.credits ++ [{ tile := o, ep := oe, sentBy := (0xFF, 0) }]) ∧
        t.mem = s.mem ∧ t.run = s.run ∧ ∀ j, j ≠ i.tile.val → t.tile j = s.tile j
    (∀ g : GReg, g.val % 4 = 0 → takes ((List.range 4).map (fun k =>
      .scalar (.g (Fin.ofNat 32 (g.val + k))) (BitVec.ofNat 64 (leNat (slice m.data (8 * k) 8))))) (.recvG i ep g wp)) ∧
    (∀ (v : VReg) (n : Fin 4), v.val + n.val + 1 ≤ 64 → takes (recvV v.val (n.val + 1) m.data) (.recvV i ep v n wp)) ∧
    takes [] (.recvDrop i ep wp)) ∧
  (∀ (s : State) (i : Iss) (ep : Fin 64) (slot : Src) (k : Nat) (wp : Fin 1024), 1 ≤ k → k ≤ 64 →
    IssuesOn s i slotChannel [{ wp := wp, on := .arrived ep slot k }] →
    exec (.waitArrived i ep slot k wp) s = .next (begun s i slotChannel)) ∧
  (∀ (v n : Nat) (bs : Bytes) (k : Nat) (e : LateEff) (r : Regs), (recvV v n bs)[k]? = some e →
    (∀ j lane, j ≠ v + k → lane < 256 → (e.onRegs r).getV j lane = r.getV j lane) ∧
    (∀ lane, lane < 256 → ((e.onRegs r).getV (v + k) lane).toNat = leNat (slice bs (1024 * k + 4 * lane) 4)) ∧
    (e.onRegs r).g = r.g ∧ (e.onRegs r).m = r.m)

/-- EP_RESET, EP_OPEN, MESSAGE_ARRIVAL, CREDIT_ARRIVAL, CLOSING_NOTICE_ARRIVAL, OPENING_NOTICE_ARRIVAL and DISCARD_REPORT_ARRIVAL
complete (R286 to R288, R308 to R311): a reset discards and counts the messages held, closes the endpoint and clears its slots;
opening a CLOSED endpoint empties its buffers, and opening an open one does nothing. A message enters an open plain endpoint behind
those of earlier cc, and is discarded and counted at a CLOSED one; a credit adds one; a closing notice closes the send endpoint; an
opening notice gives it DEPTH credits; a discard report raises CLOSED_ENDPOINT only on an endpoint that is not tolerant. -/
def Obligations.EndpointsAndArrivals : Prop :=
  (∀ (s : State) (i : Iss) (ep : Fin 64), Issues s i slotChannel →
    let r := (s.tile i.tile.val).recv ep.val
    (r.declared = true → ∃ t, exec (.epReset i ep) s = .next t ∧
      (t.tile i.tile.val).recv ep.val =
        { r with discards := r.discards + r.msgs.length, msgs := [], closed := true, values := [], tags := [] } ∧
      (∀ n, n ≠ ep.val → (t.tile i.tile.val).recv n = (s.tile i.tile.val).recv n) ∧
      (t.tile i.tile.val).regs = (s.tile i.tile.val).regs ∧ (t.tile i.tile.val).scratch = (s.tile i.tile.val).scratch) ∧
    (r.declared = true → r.closed = true → ∃ t, exec (.epOpen i ep) s = .next t ∧
      (t.tile i.tile.val).recv ep.val = { r with msgs := [], closed := false, cseq := [] } ∧
      (t.tile i.tile.val).regs = (s.tile i.tile.val).regs ∧ (t.tile i.tile.val).scratch = (s.tile i.tile.val).scratch) ∧
    (r.closed = false → exec (.epOpen i ep) s = .next (begun s i slotChannel))) ∧
  (∀ (s : State) (k : TileNo) (ep : Fin 64),
    let x := s.tile k.val
    (∀ (n : Nat) (m : FlightMsg), s.nextMessage k ep = some (n, m) →
      ∃ t, exec (.messageArrival k ep) s = .next t ∧ s.net.msgs[n]? = some m ∧ m.dest = k ∧ m.ep = ep ∧
        (∀ q ∈ s.net.msgs, q.dest = k → q.ep = ep → keyLess q.key m.key = false) ∧
        t.net.msgs = s.net.msgs.eraseIdx n ∧
        ((x.recv ep.val).closed = false → (x.recv ep.val).kind ≠ .filtered → (t.tile k.val).recv ep.val =
          { x.recv ep.val with msgs := putMsg { m.msg with cycle := s.runCycle.toNat } (x.recv ep.val).msgs }) ∧
        ((x.recv ep.val).closed = false → (x.recv ep.val).kind ≠ .filtered →
          (∀ y ∈ (x.recv ep.val).msgs, y.cycle < s.runCycle.toNat) → ((t.tile k.val).recv ep.val).msgs =
            (x.recv ep.val).msgs ++ [{ m.msg with cycle := s.runCycle.toNat }]) ∧
        ((x.recv ep.val).closed = true → ((t.tile k.val).recv ep.val).msgs = (x.recv ep.val).msgs ∧
          ((t.tile k.val).recv ep.val).discards = (x.recv ep.val).discards + 1)) ∧
    (s.net.credits.any (Notice.isFor k ep) = true → ∃ t, exec (.creditArrival k ep) s = .next t ∧
      (t.tile k.val).send ep.val = { x.send ep.val with credit := (x.send ep.val).credit + 1 } ∧
      t.net.credits.length + 1 = s.net.credits.length ∧ t.net.msgs = s.net.msgs) ∧
    (s.net.closings.any (Notice.isFor k ep) = true → ∃ t, exec (.closingNoticeArrival k ep) s = .next t ∧
      (t.tile k.val).send ep.val = { x.send ep.val with closed := true } ∧
      t.net.closings.length + 1 = s.net.closings.length) ∧
    (s.net.openings.any (Notice.isFor k ep) = true → ∃ t, exec (.openingNoticeArrival k ep) s = .next t ∧
      (t.tile k.val).send ep.val = { x.send ep.val with closed := false, credit := (x.send ep.val).depth, cseq := 0 } ∧
      t.net.openings.length + 1 = s.net.openings.length) ∧
    (∀ n : Notice, s.net.discards.find? (Notice.isFor k ep) = some n →
      ∃ t, exec (.discardReportArrival k ep) s = .next t ∧ t.net.discards.length + 1 = s.net.discards.length ∧
        ((x.send ep.val).tolerant = true → t.tiles = s.tiles ∧ t.run = s.run) ∧
        ((x.send ep.val).tolerant = false → s.runActive = true → x.faulted = false →
          (t.tile k.val).faulted = true ∧ ∃ f, t.run.faults = s.run.faults ++ [f] ∧ f.code = 7 ∧
            f.bundle = n.sentBy.2)))

/-! ### Semaphores, watches and barriers -/

/-- SIGNAL, WAIT and READY_TAKE complete (R295, R296, R302): a SIGNAL adds to its semaphore, and any addition that would take a
count above 65,535 raises SEMAPHORE_OVERFLOW on the tile, for a SIGNAL and for a completion alike; a TAKE subtracts only when its
wait is satisfied, and the stream engine takes only from a count of at least 1, so a count never falls below 0. -/
def Obligations.SemaphoreOverflowAndTakes : Prop :=
  (∀ (s : State) (i : Iss) (k : Fin 64) (n : BitVec 16), Issues s i slotSync → n ≠ 0 →
    let c := (s.tile i.tile.val).sem k.val
    (c.toNat + n.toNat ≤ 65535 → ∃ t, exec (.signal i k n) s = .next t ∧
      ((t.tile i.tile.val).sem k.val).toNat = c.toNat + n.toNat ∧
      (∀ j, j ≠ k.val → (t.tile i.tile.val).sem j = (s.tile i.tile.val).sem j) ∧ t.run = s.run ∧
      (t.tile i.tile.val).regs = (s.tile i.tile.val).regs) ∧
    (65535 < c.toNat + n.toNat → (s.tile i.tile.val).faulted = false →
      ∃ t f, exec (.signal i k n) s = .next t ∧ (t.tile i.tile.val).faulted = true ∧
        t.run.faults = s.run.faults ++ [f] ∧ f.code = 5 ∧ f.offending = BitVec.ofNat 64 k.val ∧
        f.detail = c.setWidth 64 ∧ f.slot = slotSync ∧ f.bundle = i.bundle ∧ f.runCycle = s.runCycle)) ∧
  (∀ (s : State) (k : TileNo) (f : FillRun) (rest : List FillRun), s.runActive = true → (s.tile k.val).faulted = false →
    (s.tile k.val).fillRuns = f :: rest → f.done = false → f.ends ≤ s.runCycle.toNat → f.source = none →
    ((s.tile k.val).sem f.sem.val).toNat = 65535 →
    ∃ t g, exec (.fillCopyDone k) s = .next t ∧ (t.tile k.val).faulted = true ∧ t.run.faults = s.run.faults ++ [g] ∧
      g.code = 5 ∧ g.slot = 0xFF ∧ g.bundle = f.bundle) ∧
  (∀ (s : State) (i : Iss) (k : Fin 64) (v : BitVec 16) (wp : Fin 1024),
    (IssuesOn s i slotSync [{ wp := wp, on := .take k v }] → v ≤ (s.tile i.tile.val).sem k.val →
      ∃ t, exec (.wait i k v true wp) s = .next t ∧
        (t.tile i.tile.val).sem k.val = (s.tile i.tile.val).sem k.val - v ∧
        (∀ j, j ≠ k.val → (t.tile i.tile.val).sem j = (s.tile i.tile.val).sem j) ∧ t.run = s.run ∧
        (t.tile i.tile.val).regs = (s.tile i.tile.val).regs) ∧
    (IssuesOn s i slotSync [{ wp := wp, on := .sem k v }] →
      exec (.wait i k v false wp) s = .next (begun s i slotSync)) ∧
    ((s.tile i.tile.val).sem k.val < v → (s.tile i.tile.val).waitMet { wp := wp, on := .take k v } = false)) ∧
  (∀ (s : State) (k : TileNo) (d : Fin 32),
    let x := s.tile k.val
    let c := x.sem (x.desc d.val).readySem
    (c = 0 → exec (.readyTake k d) s = .next s) ∧
    (s.runActive = true → x.faulted = false → (x.desc d.val).running = true → (x.desc d.val).opens ≤ s.runCycle.toNat →
      (x.desc d.val).needsReady = true → c ≠ 0 → ∃ t, exec (.readyTake k d) s = .next t ∧
        (t.tile k.val).sem (x.desc d.val).readySem = c - 1 ∧
        (t.tile k.val).desc d.val = { x.desc d.val with readyTaken := true, block := none } ∧
        (t.tile k.val).regs = x.regs ∧ t.mem = s.mem ∧ t.run = s.run))

/-- ARRIVE and BWAIT complete: R302, an ARRIVE sends an arrival for round a to the tile's cluster counter and adds 1 to a, and BWAIT
is satisfied when r = a. R304: an ARRIVE issued while a − r = 2 raises BARRIER_OVERRUN on the arriving tile, with the barrier in
OFFENDING [3:0], the scope level in [6:4] and the round a in DETAIL, and sends no arrival. -/
def Obligations.BarrierArrivesAndWaits : Prop :=
  ∀ (s : State) (i : Iss) (b : Fin 16),
    let c := (s.tile i.tile.val).barrier b.val
    (Issues s i slotSync → c.a - c.r ≠ 2 → ∃ t, exec (.arrive i b) s = .next t ∧
      (t.tile i.tile.val).barrier b.val = { c with a := c.a + 1 } ∧
      t.net.barrierUp = s.net.barrierUp ++
        [{ barrier := b, level := .cluster, unit := clusterOf i.tile.val, round := c.a }] ∧
      (∀ n, n ≠ b.val → (t.tile i.tile.val).barrier n = (s.tile i.tile.val).barrier n) ∧
      (t.tile i.tile.val).regs = (s.tile i.tile.val).regs ∧ (∀ j, j ≠ i.tile.val → t.tile j = s.tile j) ∧ t.run = s.run) ∧
    (∀ wp, IssuesOn s i slotSync [{ wp := wp, on := .barrier b }] →
      exec (.bwait i b wp) s = .next (begun s i slotSync)) ∧
    (∀ wp, ((s.tile i.tile.val).waitMet { wp := wp, on := .barrier b } = true ↔
      ((s.tile i.tile.val).started.barrier b.val).r = ((s.tile i.tile.val).started.barrier b.val).a)) ∧
    (∀ d : BarrierDecl, Issues s i slotSync → c.a - c.r = 2 → s.barrierDecl b = some d → (s.tile i.tile.val).faulted = false →
      ∃ t f, exec (.arrive i b) s = .next t ∧ (t.tile i.tile.val).faulted = true ∧ t.run.faults = s.run.faults ++ [f] ∧
        f.code = 6 ∧ f.detail = c.a.setWidth 64 ∧ f.offending.toNat % 16 = b.val ∧
        f.offending.toNat / 16 = (match d.scope with
          | .cluster => 0
          | .die => 1
          | .module => 2
          | .pair => 3
          | .domain => 4) ∧
        t.net.barrierUp = s.net.barrierUp)

/-- WATCH_REG, WATCH_REG_ARRIVAL, WATCH_FIRED_ARRIVAL and WATCH_WAIT complete (R299, R300): each registration is a new generation that
travels to its target; its arrival arms the entry; the end of a cc fires each armed entry whose count is there, and leaves a tile
none of whose entries fires as it is; the fire of the newest generation sets the flag and an older one is ignored; WATCH_WAIT clears
it. -/
def Obligations.WatchesComplete : Prop :=
  (∀ (s : State) (i : Iss) (h : Fin 32) (k : Fin 64) (v : BitVec 16), Issues s i slotSync → v ≠ 0 →
    let w := (s.tile i.tile.val).watch h.val
    ∃ t, exec (.watchReg i h k v) s = .next t ∧
      (t.tile i.tile.val).watch h.val = { w with lastGen := w.lastGen + 1 } ∧
      t.net.watchRegs = s.net.watchRegs ++ [(i.tile, h, k, v, w.lastGen + 1)] ∧
      (t.tile i.tile.val).sems = (s.tile i.tile.val).sems) ∧
  (∀ (s : State) (q : TileNo) (h : Fin 32) (k : Fin 64) (v : BitVec 16) (g : BitVec 4),
    s.net.watchRegs.find? (fun e => e.1 == q && e.2.1 == h) = some (q, h, k, v, g) →
    let w := (s.tile q.val).watch h.val
    ∃ t, exec (.watchRegArrival q h) s = .next t ∧ ((t.tile q.val).watch h.val).generation = g ∧
      ((t.tile q.val).watch h.val).sem = k ∧ ((t.tile q.val).watch h.val).value = v ∧
      ((t.tile q.val).watch h.val).armed = true ∧ ((t.tile q.val).watch h.val).target = w.target ∧
      t.net.watchFires = s.net.watchFires) ∧
  (∀ (s : State) (q : TileNo) (h : Fin 32) (x : Tile) (w : WatchEntry), s.runActive = true → (q.val, x) ∈ s.tiles →
    (h.val, w) ∈ x.watches → w.armed = true → w.value ≤ (s.tile w.target).sem w.sem.val →
    (q, h, w.generation) ∈ s.endWatches.net.watchFires) ∧
  (∀ (s : State) (k : Nat), (∀ e ∈ (s.tile k).watches, e.2.armed = true → (s.tile e.2.target).sem e.2.sem.val < e.2.value) →
    s.endWatches.tile k = s.tile k) ∧
  (∀ (s : State) (q : TileNo) (h : Fin 32) (g : BitVec 4),
    s.net.watchFires.find? (fun e => e.1 == q && e.2.1 == h) = some (q, h, g) →
    let w := (s.tile q.val).watch h.val
    ∃ t, exec (.watchFiredArrival q h) s = .next t ∧ t.net.watchFires.length + 1 = s.net.watchFires.length ∧
      (g = w.lastGen → (t.tile q.val).watch h.val = { w with fired := true }) ∧
      (g ≠ w.lastGen → t.tile q.val = s.tile q.val)) ∧
  (∀ (s : State) (i : Iss) (h : Fin 32) (wp : Fin 1024), IssuesOn s i slotSync [{ wp := wp, on := .watch h }] →
    ∃ t, exec (.watchWait i h wp) s = .next t ∧ OnlyTile s t i.tile.val ∧
      (t.tile i.tile.val).watch h.val = { (s.tile i.tile.val).watch h.val with fired := false } ∧
      (t.tile i.tile.val).regs = (s.tile i.tile.val).regs)

/-- Barrier counters and releases (R303): an arrival below the expected number is counted in bank n mod 2; the last one resets the
bank, and the counter sends one arrival to its parent; a release adds 1 to r of every participant. It says so of
BARRIER_COUNTER_ARRIVAL and BARRIER_RELEASE_ARRIVAL. -/
def Obligations.BarrierCountersComplete : Prop :=
  (∀ (s : State) (b : Fin 16) (d : BarrierDecl) (m : BarrierMsg), s.barrierDecl b = some d → d.id = b →
    s.net.barrierUp.find? (fun q => q.barrier == b) = some m → m.level = .cluster → d.scope ≠ .cluster →
    let c := s.counter 0 m.unit b.val
    let bank := m.round.toNat % 2
    let v := if bank = 0 then c.bank0 else c.bank1
    ∃ t, exec (.barrierCounterArrival b) s = .next t ∧ t.tiles = s.tiles ∧
      (v + 1 < c.expected → t.counter 0 m.unit b.val =
        (if bank = 0 then { c with bank0 := v + 1 } else { c with bank1 := v + 1 })) ∧
      (c.expected ≤ v + 1 → (if bank = 0 then (t.counter 0 m.unit b.val).bank0 else (t.counter 0 m.unit b.val).bank1) = 0 ∧
        (t.counter 0 m.unit b.val).round = c.round + 1 ∧
        ({ barrier := b, level := .die, unit := m.unit / 4, round := m.round } : BarrierMsg) ∈ t.net.barrierUp)) ∧
  (∀ (s : State) (b : Fin 16) (d : BarrierDecl) (m : BarrierMsg), s.barrierDecl b = some d →
    s.net.barrierDown.find? (fun q => q.barrier == b) = some m → (s.participants d).Nodup →
    ∃ t, exec (.barrierReleaseArrival b) s = .next t ∧
      (∀ k, k ∈ s.participants d → ((t.tile k).barrier b.val).r = ((s.tile k).barrier b.val).r + 1 ∧
        ((t.tile k).barrier b.val).a = ((s.tile k).barrier b.val).a) ∧
      (∀ k, k ∉ s.participants d → t.tile k = s.tile k))

/-! ### Hangs, hardware faults and the memory side -/

/-- A blocked unit raises one HANG when it has been blocked for the run's hang limit (R315), and nothing of the program changes; 1
ms after the first HANG of a run comes one HANG_REPORT (R316, R317). A hardware fault ends a run in progress with one record of
its code, fields and meridian (R25, R571): the schedule network's error, a crossing that slips, the root's loss of lock and a
difference among the meridian's copies. A memory retry is only counted (R26). It says so of SCHEDULE_FLIT_ERROR, CROSSING_SLIP,
ROOT_UNLOCK, MERIDIAN_COMPARE and D2D_MEMORY_RETRY. -/
def Obligations.HangsAndFaultsComplete : Prop :=
  ((∀ (s : State) (k : TileNo) (u : HangUnit) (b : BlockedUnit), (s.tile k.val).blockedUnit u = some b →
    s.runActive = true → (s.tile k.val).faulted = false → b.time.hung = false →
    b.time.mt.toNat + s.run.hangLimit.toNat ≤ s.clock.meridian.toNat →
    ∃ t, exec (.hang k u) s = .next t ∧ t.run.hangs = s.run.hangs + 1 ∧
      t.run.hangAt = (if s.run.hangs = 0 then s.clock.meridian else s.run.hangAt) ∧
      t.mgp = (s.event evHang (srcTile k.val) (hangBytes k.val b s.clock.meridian)).mgp ∧ t.mem = s.mem ∧
      (∀ j, j ≠ k.val → t.tile j = s.tile j) ∧ (t.tile k.val).regs = (s.tile k.val).regs ∧
      (t.tile k.val).scratch = (s.tile k.val).scratch ∧ (t.tile k.val).sems = (s.tile k.val).sems ∧
      exec (.hang k u) t = .next t) ∧
  (∀ s : State, s.runActive = true → s.run.hangs ≠ 0 → s.run.hangReported = false →
    s.run.hangAt.toNat + 400000 ≤ s.clock.meridian.toNat →
    ∃ t, exec .hangReport s = .next t ∧ t.run = { s.run with hangReported := true } ∧
      t.mgp = (s.event evHangReport (srcOf 1 0) (reportBytes s.waitGraph)).mgp ∧ t.tiles = s.tiles ∧ t.mem = s.mem)) ∧
  (∀ s : State,
    let ends (t : State) (code : BitVec 16) (off det : DWord) : Prop :=
      t.run.state = .idle ∧ (s.runActive = true → ∃ f, t.run.faults = s.run.faults ++ [f] ∧ f.code = code ∧
        f.tile = 0xFFFF ∧ f.slot = 0xFF ∧ f.runCycle = s.runCycle ∧ f.meridian = s.clock.meridian ∧
        f.offending = off ∧ f.detail = det)
    (∀ l : LinkDir, ∃ t, exec (.scheduleFlitError l) s = .next t ∧
      ends t 0x0101 (BitVec.ofNat 64 (l.val / 2)) (BitVec.ofNat 64 (l.val % 2)) ∧ t.clock.datumReq = true) ∧
    (s.clocksRun = true → ∀ l : LinkDir, ∃ t, exec (.crossingSlip l) s = .next t ∧
      ends t 0x0106 (BitVec.ofNat 64 l.val) (s.region 0).count ∧ t.clock.datumReq = true) ∧
    (s.clock.rootLocked = true → ∃ t, exec .rootUnlock s = .next t ∧ ends t 0x010B 0 0 ∧ t.clock.rootLocked = false ∧
      t.clock.needsMrst = true ∧ t.clock.meridianRuns = false ∧ t.clock.meridian = s.clock.meridian) ∧
    (s.clocksRun = true → ∀ (d : Nat) (m : DWord),
      s.clock.copies.find? (fun e => e.2 != s.clock.meridian) = some (d, m) →
      ∃ t, exec .meridianCompare s = .next t ∧ ends t 0x0107 (BitVec.ofNat 64 d) m) ∧
    ((∀ e ∈ s.clock.copies, e.2 = s.clock.meridian) → exec .meridianCompare s = .next s) ∧
    (∀ l : LinkDir, ∃ t, exec (.d2dMemoryRetry l) s = .next t ∧
      t = { s with mem := { s.mem with retries := t.mem.retries } } ∧
      mget 0 t.mem.retries l.val = satInc (mget 0 s.mem.retries l.val)))

/-- HBM_REQUEST_INTAKE, HBM_READ_RETURN and GATED_READ complete (R37, R330, R331, R339 to R343, R354, R365, R367): of the requests
that have reached a controller the one that goes first enters while the intake buffer has room. A write takes effect as it enters: it
changes only its own bytes of HBM, keeps the canonical form, and with no update plan loaded stores every byte. A read is queued with
the bytes that it found on its entry, and they return to the tile that asked; a codeword in error ends the run instead. A gated read
is held until its gate's entries have completed the line's step. -/
def Obligations.MemoryTrafficCompletes : Prop :=
  (∀ (s : State) (a : Nat) (bs : Bytes) (dl : Option DWord),
    let t := s.hbmPut a bs dl
    (∀ b, (b < a ∨ a + bs.length ≤ b) → readByte t.mem.hbm b = readByte s.mem.hbm b) ∧
    (memWf s.mem.hbm = true → memWf t.mem.hbm = true) ∧
    ((∀ k, (s.stack k).plan = none) → t.mem.hbm = writeBytes s.mem.hbm a bs) ∧
    t.tiles = s.tiles ∧ t.run = s.run ∧ t.host = s.host) ∧
  (∀ (s : State) (k : StackNo) (n : Nat) (r : HbmReq), s.firstNet (s.mayEnter k.val) = some (n, r) →
    ((s.stack k.val).hasRoom r = false → exec (.hbmRequestIntake k) s = .next s) ∧
    (r.isWrite = true → (s.stack k.val).hasRoom r = true → ∃ t, exec (.hbmRequestIntake k) s = .next t ∧
      t.mem.net = s.mem.net.eraseIdx n ∧ t.mem.hbm = ((s.dropNet n).hbmPut r.addr r.data r.deadline).mem.hbm ∧
      t.run = s.run ∧ ∀ j, (t.tile j).regs = (s.tile j).regs ∧ (t.tile j).scratch = (s.tile j).scratch) ∧
    (r.isWrite = false → s.isGateRead r = false → (s.stack k.val).hasRoom r = true →
      ∃ t, exec (.hbmRequestIntake k) s = .next t ∧ t.mem.net = s.mem.net.eraseIdx n ∧
        (t.stack k.val).intake = (s.stack k.val).intake ++
          [{ r with data := s.readHbm r.addr r.len, poison := s.poisonAt r.addr r.len }] ∧
        t.mem.hbm = s.mem.hbm ∧ t.tiles = s.tiles)) ∧
  (∀ (s : State) (k : StackNo) (n : Nat) (r : HbmReq), s.firstRead (s.stack k.val).intake = some (n, r) →
    (∀ (q : TileNo) (tag : Fin 256), r.poison = none → r.who = .tile q tag → r.remote = none →
      ∃ t, exec (.hbmReadReturn k .none) s = .next t ∧
        (t.tile q.val).inbound = (s.tile q.val).inbound ++
          [.read tag (((mfind (s.tile q.val).tags tag.val).map (·.localAddr)).getD 0) r.data r.deadline] ∧
        (t.stack k.val).intake = (s.stack k.val).intake.eraseIdx n ∧
        t.mem.hbm = s.mem.hbm ∧ ∀ j, j ≠ q.val → t.tile j = s.tile j) ∧
    (r.who ≠ .aperture → ∀ w : Fin 8, ∃ t, exec (.hbmReadReturn k (.uncorrectable w)) s = .next t ∧
      (s.runActive = true → t.run.state = .idle ∧ ∃ f, t.run.faults = s.run.faults ++ [f] ∧ f.code = 0x0104))) ∧
  (∀ (s : State) (k : StackNo) (n : Nat) (r : HbmReq) (q : TileNo) (tag : Fin 256) (plan : UpdatePlan) (l g j : Nat),
    s.firstNet (s.mayEnter k.val) = some (n, r) → s.isGateRead r = true → (s.stack k.val).hasRoom r = true →
    r.who = .tile q tag → r.remote = none → (s.stack k.val).plan = some plan → (s.stack k.val).heldGates = [] →
    s.poisonAt r.addr r.len = none → gateLines plan (s.stackAddr r.addr) r.len = [l] → gateLineOf plan l = some (g, j) →
    ∃ t, exec (.gatedRead k) s = .next t ∧ t.mem.net = s.mem.net.eraseIdx n ∧
      ((s.stack k.val).gateValue plan g j = none → (t.stack k.val).heldGates = [{ req := s.entered r, got := [] }] ∧
        t.tiles = s.tiles) ∧
      (∀ v, (s.stack k.val).gateValue plan g j = some v → (t.stack k.val).heldGates = [] ∧
        ∃ a, (t.tile q.val).inbound = (s.tile q.val).inbound ++
          [.read tag a (s.readWith plan (s.entered r) [(l, v)]) r.deadline]))

/-- A stack's upkeep (R331 to R338, R564): refreshes are issued in their slots, each channel tracks once a millisecond, the scrub
moves by one burst or codeword and lists what it cannot correct, and the temperature sets the next period. It says so of
PHY_TRACKING, PATROL_SCRUB and STACK_STATUS_READ. -/
def Obligations.StackUpkeepCompletes : Prop :=
  ∀ (s : State) (k : StackNo),
    let x := s.stack k.val
    (∀ c : Fin 32,
      let y := x.turnWindow k.val s.clock.meridian.toNat
      let j := mget 0 y.refreshIndex c.val
      s.clock.meridianRuns = true → j < 327680 →
      (if y.fastRefresh then 4 * j + c.val % 4 else 9 * j + c.val % 9) * 4 ≤
        (windowAt y.fastRefresh k.val s.clock.meridian.toNat).2 →
      ∃ t, exec (.refresh k c) s = .next t ∧ (t.stack k.val).refreshCount = y.refreshCount + 1 ∧
        mget 0 (t.stack k.val).refreshIndex c.val = j + 1 ∧ t.mem.hbm = s.mem.hbm ∧ t.tiles = s.tiles) ∧
    (∀ c : Fin 32, s.clock.meridianRuns = false →
      ∃ t, exec (.refresh k c) s = .next t ∧ (t.stack k.val).refreshCount = x.refreshCount + 1 ∧
        mget 0 (t.stack k.val).refreshIndex c.val =
          (if mget 0 x.refreshIndex c.val < 327680 then mget 0 x.refreshIndex c.val + 1 else 1) ∧
        t.mem.hbm = s.mem.hbm ∧ t.tiles = s.tiles) ∧
    (∀ c : Fin 32, mget 0 x.tracking c.val < s.clock.meridian.toNat / 400000 + 1 →
      ∃ t, exec (.phyTracking k c) s = .next t ∧ mget 0 (t.stack k.val).tracking c.val = s.clock.meridian.toNat / 400000 + 1 ∧
        exec (.phyTracking k c) t = .next t) ∧
    (let n := if s.bandClassW (x.scrubAddr / 2 ^ 30) then 1024 else 64
     (∃ t, exec (.patrolScrub k .none) s = .next t ∧ t.mem.hbm = s.mem.hbm ∧ (t.stack k.val).poison = x.poison ∧
       (x.scrubAddr + n < 80 * 2 ^ 30 → (t.stack k.val).scrubAddr = x.scrubAddr + n ∧
         (t.stack k.val).scrubFast = x.scrubFast) ∧
       (80 * 2 ^ 30 ≤ x.scrubAddr + n → (t.stack k.val).scrubAddr = 0 ∧ (t.stack k.val).scrubCorrected = 0 ∧
         (64 < x.scrubCorrected → (t.stack k.val).scrubFast = true) ∧
         (x.scrubCorrected = 0 → (t.stack k.val).scrubFast = false))) ∧
     (∀ w : Fin 8,
       let cw := s.faultWord x.scrubAddr w
       ∃ t, exec (.patrolScrub k (.uncorrectable w)) s = .next t ∧ (t.stack k.val).uncorr = satInc x.uncorr ∧
         (t.stack k.val).poison = (if x.poison.contains cw then x.poison
           else if x.poison.length < 256 then x.poison ++ [cw] else x.poison) ∧ t.mem.hbm = s.mem.hbm)) ∧
    (∀ temp : Int, ∃ t, exec (.stackStatusRead k temp) s = .next t ∧ (t.stack k.val).temp = temp ∧
      (t.stack k.val).fastNext = (if 85 * 16 < temp then true else if temp < 82 * 16 then false else x.fastNext) ∧
      t.tiles = s.tiles)

/-- Update engines (R354 to R356, R363, R372, R374, R568): a mark of an older step, or of a running one, is counted and ignored; a
mark ahead of its entry is UPE_STEP_SKEW; the mark that completes the current step starts the pass; a pass that completes leaves
its entry waiting for the next step; the records reach the management processor, and a step that every entry has completed gets
its entry in the run's record. It says so of MARK_WRITE, UPDATE_PASS_COMPLETE, FINGERPRINT_RECORD and STEP_DIGEST_FORMED. -/
def Obligations.UpdateEnginesComplete : Prop :=
  (∀ (s : State) (k : StackNo) (m : Mark) (rest : List Mark) (plan : UpdatePlan) (i : Nat) (e : PlanEntry),
      (s.stack k.val).marks = m :: rest → (s.stack k.val).plan = some plan → s.markWaits m.value = false →
      s.runActive = true → markEntry plan m.line = some (i, e) →
    let st := (s.stack k.val).entry plan i
    ((m.value.toNat < st.t ∨ (m.value.toNat = st.t ∧ st.running = true)) → ∃ t, exec (.markWrite k) s = .next t ∧
      (t.stack k.val).marks = rest ∧ (t.stack k.val).entry plan i = st ∧
      (t.stack k.val).marksIgnored = satInc (s.stack k.val).marksIgnored ∧ t.run = s.run) ∧
    (st.t < m.value.toNat → ∃ t f, exec (.markWrite k) s = .next t ∧ t.run.state = .idle ∧
      t.run.faults = s.run.faults ++ [f] ∧ f.code = 0x0105 ∧ f.offending = m.value) ∧
    (m.value.toNat = st.t → st.running = false → s.allMarked k.val plan e st.t rest = true →
      ∃ t, exec (.markWrite k) s = .next t ∧ (t.stack k.val).marks = rest ∧
        ((t.stack k.val).entry plan i).running = true ∧ ((t.stack k.val).entry plan i).t = st.t ∧
        ((t.stack k.val).entry plan i).completed = st.completed ∧
        ((t.stack k.val).entry plan i).deadline =
          (if e.needOffset = 0xFFFFFFFF then none else m.deadline.map (fun d => d + e.needOffset.setWidth 64)) ∧
        t.run = s.run ∧ t.tiles = s.tiles) ∧
    (m.value.toNat = st.t → st.running = false → s.allMarked k.val plan e st.t rest = false →
      ∃ t, exec (.markWrite k) s = .next t ∧ (t.stack k.val).marks = rest ∧ (t.stack k.val).entry plan i = st)) ∧
  (∀ (s : State) (k : StackNo) (i : Nat) (plan : UpdatePlan) (e : PlanEntry), (s.stack k.val).plan = some plan →
    plan.entries[i]? = some e → ((s.stack k.val).entry plan i).running = true →
    let st := (s.stack k.val).entry plan i
    (s.passPoison k.val e st.t = none → (∀ g ∈ (s.stack k.val).heldGates, g.req.poison = none) →
      ∃ t, exec (.updatePassComplete k i) s = .next t ∧
      (t.stack k.val).entry plan i = { running := false, t := st.t + 1, completed := some st.t, deadline := none } ∧
      (st.t = 0 → t.mem.hbm = s.mem.hbm) ∧ t.run = s.run ∧ (∀ j, (t.tile j).regs = (s.tile j).regs)) ∧
    (∀ cw, s.passPoison k.val e st.t = some cw → ∃ t, exec (.updatePassComplete k i) s = .next t ∧ t.run.state = .idle)) ∧
  (∀ (s : State) (k : StackNo) (f : Bytes) (rest : List Bytes), (s.stack k.val).fingerprints = f :: rest →
    ∃ t, exec (.fingerprintRecord k) s = .next t ∧ t.mem.records = s.mem.records ++ [f] ∧
      (t.stack k.val).fingerprints = rest ∧ t.mem.hbm = s.mem.hbm ∧ t.tiles = s.tiles) ∧
  (∀ s : State, s.runActive = true → s.hasPlan = true → s.stepDone s.currentStep.toNat = true →
    s.recordsPending s.currentStep.toNat = false → mfind s.pair.ownDigests s.currentStep.toNat = none →
    (s.isRecordModule s.currentStep.toNat = true → (s.stepDigest s.currentStep.toNat).isSome = true) → s.pair.mode = .solo →
    ∃ t e, exec (.stepDigestFormed s.currentStep) s = .next t ∧ t.run.steps = s.run.steps ++ [e] ∧ e.step = s.currentStep ∧
      e.memberEpoch = (s.membershipAt s.currentStep.toNat).epoch ∧
      e.saturated = BitVec.ofNat 32 (s.saturatedBlocks s.currentStep.toNat) ∧ e.sliceDigest = s.sliceDigest s.currentStep.toNat ∧ t.run.state = s.run.state ∧
      t.mem.hbm = s.mem.hbm)

/-! ### Links, chain traffic and synchronisation -/

/-- Links (R381 to R383, R388, R390, R407, R408, R452): bring-up settles the version, a control flit releases what it acknowledges,
a timeout sends the rest again and the seventeenth sending takes the link down, failed lanes move the port to its other half,
and pending credits leave at a flush. Reception (R382, R385, R395): the packet expected next is judged by type and by epoch, a
repeat is dropped, and a bad packet asks once for its retransmission. It says so of LINK_BRINGUP, CONTROL_FLIT, RETRY_TIMEOUT,
LINK_DOWN, LINK_RETRAIN_TIMER, CREDIT_FLUSH and CHAIN_PACKET_RECEIVE. -/
def Obligations.LinksComplete : Prop :=
  (∀ (s : State) (p : PortNo),
    let x := s.port p.val
    (∀ (m : LaneMode) (c : Capability), x.up = false → x.mayUse m = true → s.power.portDies = true →
      s.power.inReset = false → ∃ t, exec (.linkBringup p m c) s = .next t ∧
        (t.port p.val).state = (if m = .eight then .eightLanes else .fourLanes) ∧ (t.port p.val).partner = some c ∧
        (t.port p.val).version = (if p.val < 16 then settleVersion c.versions s.domain.version
          else if c.versions.getLsbD 1 then 1 else 0) ∧
        (∀ q, q ≠ p.val → t.port q = s.port q) ∧ t.tiles = s.tiles ∧ t.mem = s.mem ∧ t.run = s.run) ∧
    (∀ f : ControlFlit, x.up = true →
      let left := x.unacked.drop (x.acked f.ack)
      (f.nak = none → ∃ t sent, exec (.controlFlit p f) s = .next t ∧ (t.port p.val).unacked = left ++ sent ∧
        (t.port p.val).egress.length + sent.length = x.egress.length ∧ (t.port p.val).retries = x.retries ∧
        (t.port p.val).state = x.state ∧ t.tiles = s.tiles) ∧
      (∀ l, f.nak = some l → left.findIdx (fun e => e.1.lseq == l) < left.length →
        ∃ t, exec (.controlFlit p f) s = .next t ∧ t.tiles = s.tiles ∧
          (t.port p.val).retries = satAdd x.retries (left.length - left.findIdx (fun e => e.1.lseq == l)))) ∧
    (x.up = true → x.unacked ≠ [] → ∃ t, exec (.retryTimeout p) s = .next t ∧
      (t.port p.val).unacked = x.unacked.map (fun e => (e.1, e.2 + 1)) ∧
      (t.port p.val).retries = satAdd x.retries x.unacked.length ∧ t.tiles = s.tiles ∧
      ((∀ e ∈ x.unacked, e.2 < 16) → (t.port p.val).state = x.state) ∧
      ((∃ e ∈ x.unacked, 16 ≤ e.2) → (t.port p.val).state = .down)) ∧
    (∀ f : LaneFailure, x.up = true → ∃ t, exec (.linkDown p f) s = .next t ∧
      (t.port p.val).failed = (x.failed ||| failedHalves f) ∧ t.tiles = s.tiles ∧
      (x.failed ||| failedHalves f = 3 → (t.port p.val).state = .down) ∧
      (x.failed ||| failedHalves f ≠ 3 → (t.port p.val).state = .fourLanes ∧
        ((t.port p.val).upperHalf = true ↔ x.failed ||| failedHalves f = 1))) ∧
    (∀ m : LaneMode, x.state = .down → x.partner.isSome = true → (x.failed = 0 ∨ m ≠ .eight) →
      ∃ t, exec (.linkRetrainTimer p (some m)) s = .next t ∧
        (t.port p.val).state = (if m = .eight then .eightLanes else .fourLanes) ∧ t.tiles = s.tiles) ∧
    exec (.linkRetrainTimer p none) s = .next s ∧
    (∃ t, exec (.creditFlush p) s = .next t ∧ (t.port p.val).pendingCredits = [] ∧ t.tiles = s.tiles ∧ t.mem = s.mem)) ∧
  (∀ (s : State) (p : PortNo) (r : RawPacket), (s.port p.val).up = true →
    let x := s.port p.val
    let k := packetOf r.data
    (r.fecOk = true → packetGood r.data = true → k.lseq = x.rxSeq →
      ∃ t, exec (.chainPacketReceive p r) s = .next t ∧ (t.port p.val).rxSeq = x.rxSeq + 1 ∧ (t.port p.val).nakFor = none ∧
        t.tiles = s.tiles ∧
        (s.typeOk p.val k = false → (t.port p.val).accepted = x.accepted ∧ (t.port p.val).discType = satInc x.discType) ∧
        (s.typeOk p.val k = true → (k.ptype = 8 ∨ k.ptype = 9) →
          (t.port p.val).accepted = x.accepted ++ [{ k with entered := s.runCycle }]) ∧
        (s.typeOk p.val k = true → k.ptype ≠ 8 → k.ptype ≠ 9 → s.domain.change = none →
          (s.epochEntry (k.srcModule.toNat / 2) = none → (t.port p.val).discEpoch = satInc x.discEpoch ∧
            (t.port p.val).accepted = x.accepted) ∧
          (∀ e, s.epochEntry (k.srcModule.toNat / 2) = some e →
            (k.pairEpoch < e → (t.port p.val).discEpoch = satInc x.discEpoch ∧ (t.port p.val).accepted = x.accepted) ∧
            (e ≤ k.pairEpoch → k.memberEpoch = s.memberEpoch →
              (t.port p.val).accepted = x.accepted ++ [{ k with entered := s.runCycle }] ∧
              t.epochEntry (k.srcModule.toNat / 2) = some k.pairEpoch)))) ∧
    (r.fecOk = true → packetGood r.data = true → k.lseq ≠ x.rxSeq → exec (.chainPacketReceive p r) s = .next s) ∧
    ((r.fecOk = false ∨ packetGood r.data = false) → x.nakFor = none →
      exec (.chainPacketReceive p r) s = .next (s.setPort p.val { x with nakFor := some x.rxSeq })) ∧
    ((r.fecOk = false ∨ packetGood r.data = false) → x.nakFor ≠ none → exec (.chainPacketReceive p r) s = .next s))

/-- Packets of channels and barriers (R309 to R311, R388, R389, R398, R401, R412, R454): data in sequence for an open endpoint
enters it, data for a CLOSED one is discarded and counted, a CREDIT gives each endpoint its count, and notices close and open
the send end. It says so of NOENDPOINT, BARRIER_ARRIVE and BARRIER_RELEASE. -/
def Obligations.ChainTrafficCompletes : Prop :=
  ∀ (s : State) (p : PortNo) (k : Packet) (s1 : State),
    let q := fieldTile k.dstEp
    let e := fieldEp k.dstEp
    (s.takePacket p.val 1 = some (k, s1) → s.dataGoes p k = false → exec (.data p) s = .next s) ∧
    (s.takePacket p.val 1 = some (k, s1) → s.dataGoes p k = true → s.runActive = true →
      (s.runJob.map (·.tag.toNat) = some (k.jobId.toNat / 64)) → k.jobId.toNat / 64 ≠ 0 →
      let r := (s.tile q.val).recv e.val
      (s.pair.role ≠ .fenced → r.declared = true → r.closed = false → r.kind ≠ .filtered →
        k.cseq = mget 0 r.cseq (chanKey k) → ∃ t m, exec (.data p) s = .next t ∧
          ((t.tile q.val).recv e.val).msgs = putMsg m r.msgs ∧ m.data = k.payload ∧ m.cycle = s.runCycle.toNat ∧
          m.origin = .port p k.srcModule (fieldTile k.srcEp) (fieldEp k.srcEp) ∧
          mget 0 ((t.tile q.val).recv e.val).cseq (chanKey k) = k.cseq + 1 ∧
          (t.tile q.val).regs = (s.tile q.val).regs ∧ ∀ j, j ≠ q.val → t.tile j = s.tile j) ∧
      (s.pair.role ≠ .fenced → r.declared = true → r.closed = true → ∃ t, exec (.data p) s = .next t ∧
        ((t.tile q.val).recv e.val).msgs = r.msgs ∧ ((t.tile q.val).recv e.val).discards = r.discards + 1) ∧
      (r.declared = false → ∃ t, exec (.data p) s = .next t ∧ t.tiles = s.tiles)) ∧
    (s.takePacket p.val 2 = some (k, s1) → ∃ t, exec (.credit p) s = .next t ∧
      (∀ (j : TileNo) (n : Fin 64), ((t.tile j.val).send n.val).credit = ((s.tile j.val).send n.val).credit +
        (((wordsOf k.payload).filter (fun w => w % 128 == j.val && w / 128 % 64 == n.val)).map (· / 8192)).sum) ∧
      t.mem = s.mem ∧ t.run = s.run) ∧
    (s.takePacket p.val 3 = some (k, s1) → ∃ t, exec (.close p) s = .next t ∧
      (t.tile q.val).send e.val = { (s.tile q.val).send e.val with closed := true } ∧
      (∀ n, n ≠ e.val → (t.tile q.val).send n = (s.tile q.val).send n) ∧ ∀ j, j ≠ q.val → t.tile j = s.tile j) ∧
    (s.takePacket p.val 4 = some (k, s1) → ∃ t, exec (.openNotice p) s = .next t ∧
      (t.tile q.val).send e.val =
        { (s.tile q.val).send e.val with closed := false, credit := ((s.tile q.val).send e.val).depth, cseq := 0 } ∧
      ∀ j, j ≠ q.val → t.tile j = s.tile j) ∧
    (s.takePacket p.val 5 = some (k, s1) → ∃ t, exec (.noEndpoint p) s = .next t ∧
      ((t.tile q.val).send e.val).closed = true ∧
      (((s.tile q.val).send e.val).tolerant = true → t.run = s.run) ∧
      (((s.tile q.val).send e.val).tolerant = false → s.runActive = true → (s.tile q.val).faulted = false →
        (t.tile q.val).faulted = true ∧ ∃ f, t.run.faults = s.run.faults ++ [f] ∧ f.code = 7)) ∧
    (s.takePacket p.val 6 = some (k, s1) →
      (s.runActive = false → exec (.barrierArrive p) s = .next s1) ∧
      (∃ t, exec (.barrierArrive p) s = .next t ∧ t.mem = s.mem)) ∧
    (s.takePacket p.val 7 = some (k, s1) →
      (s.runActive = false → exec (.barrierRelease p) s = .next s1) ∧
      (s.runActive = true → 16 ≤ p.val → fieldAt k.payload 0 2 < 16 → s.domain.change = none →
        ∃ t, exec (.barrierRelease p) s = .next t ∧ t.tiles = s.tiles ∧
          t.net.barrierDown = s.net.barrierDown ++
            [{ barrier := Fin.ofNat 16 (fieldAt k.payload 0 2), level := .module, unit := 0,
               round := BitVec.ofNat 32 (fieldAt k.payload 4 4) }]))

/-- Meridian synchronisation and management traffic (R393, R403 to R406, R470, R482, R506): a child starts an exchange each
millisecond and moves its trim by at most one step; the reply to the exchange under way corrects the meridian by the offset of
the exchange with the least excess; an epoch notice raises the pair's entry, and a tile table is kept. It says so of
SYNC_EXCHANGE_TIMER, MGMT and LEASE_REPLY. -/
def Obligations.SynchronisationCompletes : Prop :=
  (∀ s : State, ∃ t, exec .syncExchangeTimer s = .next t ∧ t.clock = { s.clock with trim := stepTrim s.clock.trim s.clock.wantTrim } ∧
    (t.clock.trim - s.clock.trim).natAbs ≤ 1 ∧ t.tiles = s.tiles ∧
    (s.domain.moduleId.isSome = true → syncParent s.ownRank ≠ none → t.domain.exchangeNo = s.domain.exchangeNo + 1) ∧
    (syncParent s.ownRank = none → t.domain = s.domain)) ∧
  (∀ (s : State) (p : PortNo) (k : Packet) (s1 : State) (ingress : DWord), s.takePacket p.val 8 = some (k, s1) →
    (fieldAt k.payload 4 4 = 1 → ∃ t, exec (.sync p ingress) s = .next t ∧ t.clock = s.clock ∧ t.tiles = s.tiles ∧
      t.domain.exchanges = s.domain.exchanges) ∧
    (fieldAt k.payload 4 4 ≠ 1 → BitVec.ofNat 32 (fieldAt k.payload 0 4) ≠ s.domain.exchangeNo →
      exec (.sync p ingress) s = .next s1) ∧
    (fieldAt k.payload 4 4 ≠ 1 → BitVec.ofNat 32 (fieldAt k.payload 0 4) = s.domain.exchangeNo →
      let at8 (o : Nat) : DWord := BitVec.ofNat 64 (fieldAt k.payload o 8)
      let off := (stampDiff (at8 16) (at8 8) - stampDiff ingress (at8 24)) / 2
      let excess := stampDiff ingress (at8 8) - stampDiff (at8 24) (at8 16)
      let best := (bestExchange (((off, excess) :: s.domain.exchanges).take 16)).1
      ∃ t, exec (.sync p ingress) s = .next t ∧ t.tiles = s.tiles ∧
        (s.runActive = false → 400 < best → t.clock.meridian = s.clock.meridian + BitVec.ofNat 64 best.natAbs ∧
          t.domain.exchanges = []) ∧
        (s.runActive = false → best < -400 → t.clock.meridian = s.clock.meridian ∧ t.clock.holdTicks = best.natAbs) ∧
        ((s.runActive = true ∨ best.natAbs ≤ 400) → t.clock.meridian = s.clock.meridian ∧
          -80 ≤ t.clock.wantTrim ∧ t.clock.wantTrim ≤ 80) ∧
        (best.natAbs ≤ 16 → t.domain.meridianLocked = true ∧ t.domain.unlockedRun = 0))) ∧
  (∀ (s : State) (p : PortNo) (k : Packet) (s1 : State), s.takePacket p.val 9 = some (k, s1) →
    (∀ m : MgmtMsg, ∃ t, exec (.mgmt p m) s = .next t) ∧
    (∀ (pair : BitVec 19) (e x : Word), pair.toNat ≠ s.moduleIdNat / 2 → s.epochEntry pair.toNat = some x →
      ∃ t, exec (.mgmt p (.epochNotice pair e)) s = .next t ∧ t.epochEntry pair.toNat = some (if x < e then e else x) ∧
        t.run = s.run ∧ t.tiles = s.tiles) ∧
    (∀ (id : BitVec 20) (tiles : List TileNo), ∃ t, exec (.mgmt p (.tileTable id tiles)) s = .next t ∧
      mget [] t.domain.tileTables id.toNat = tiles ∧ t.mem = s.mem ∧ t.run = s.run) ∧
    (s.domain.witnessChain = false → ∀ r, exec (.mgmt p (.leaseReply r)) s = .next s1))

/-! ### The pair and the clocks -/

/-- Heartbeats and the twin's loss (R455, R456, R468, R474): a heartbeat leaves on every tie port that is up; one that arrives is
kept, gives authority where it names the twin as a valid holder, and fences a module whose epoch is behind; 300 ms without one
asks the witness. The lease (R464, R465, R467, R470, R472 to R474): a holder asks for renewal, a grant that verifies and names
this module at its epoch extends the term and resumes a suspended module, a reply that shows a higher epoch fences it, authority
that has ended suspends the run, and a fence's epoch is adopted at NOT_BEFORE. It says so of HEARTBEAT_TIMER, TWIN_LOST,
LEASE_RENEW_TIMER, LEASE_REPLY, LEASE_TERM_END and EPOCH_SWITCH. -/
def Obligations.PairRowsComplete : Prop :=
  ((∀ s : State, ∃ t, exec .heartbeatTimer s = .next t ∧ t.pair = { s.pair with hbSeq := s.pair.hbSeq + 1 } ∧
    t.tiles = s.tiles ∧ t.run = s.run ∧
    (s.domain.moduleId.isSome = true → ∀ p ∈ s.upTie, ∃ k : Packet,
      (k ∈ (t.port p).egress ∨ ∃ n, (k, n) ∈ (t.port p).unacked) ∧ k.ptype = 10 ∧
      k.payload = ({ s with pair := { s.pair with hbSeq := s.pair.hbSeq + 1 } }).heartbeatPayload)) ∧
  (∀ (s : State) (p : PortNo) (k : Packet) (s1 : State), s.takePacket p.val 10 = some (k, s1) →
    let h := heartbeatOf k.payload
    ∃ t, exec (.heartbeat p) s = .next t ∧ t.pair.lastHb = some h ∧ t.pair.lastHbAt = s.clock.meridian ∧
      t.pair.twinLost = false ∧ t.pair.epoch = s.pair.epoch ∧ (h.pairEpoch ≤ s.pair.epoch → t.mem = s.mem) ∧
      (s.pair.epoch < h.pairEpoch → t.pair.role = .fenced ∧ t.run.state = (if s.pair.role = .fenced then s.run.state else .idle)) ∧
      (h.pairEpoch = s.pair.epoch → s.pair.role = .suspended → s.pair.mode ≠ .solo → h.holder.toNat = s.twinId →
        s.clock.meridian < h.leaseEnd → t.pair.role = .secondary ∧ t.pair.authorityEnd = h.leaseEnd ∧
        (s.run.state = .suspended → t.run.state = .running)) ∧
      (h.pairEpoch = s.pair.epoch → (s.pair.role = .holder ∨ s.pair.role = .fenced) → t.pair.role = s.pair.role)) ∧
  (∀ s : State, s.pair.twinLost = false → s.pair.lastHbAt.toNat + 120000000 ≤ s.clock.meridian.toNat →
    ∃ t, exec .twinLost s = .next t ∧ t.pair.twinLost = true ∧ t.pair.role = s.pair.role ∧ t.run = s.run ∧
      ((s.pair.mode = .solo ∨ s.pair.role = .fenced) → t.pair.asked = s.pair.asked) ∧
      (s.pair.mode ≠ .solo → s.pair.role ≠ .fenced → ∃ nonce, t.pair.asked = s.pair.asked ++
        [(if s.pair.role = .holder then 3 else 1, nonce, s.clock.meridian)]))) ∧
  ((∀ s : State,
    (s.pair.mode = .solo → exec .leaseRenewTimer s = .next s) ∧
    (∀ kind : Byte, s.pair.mode ≠ .solo → ((s.pair.role = .holder ∧ kind = 2) ∨ (s.pair.role = .suspended ∧ kind = 1)) →
      ∃ t nonce, exec .leaseRenewTimer s = .next t ∧
        t.pair = { s.pair with asked := s.pair.asked ++ [(kind, nonce, s.clock.meridian)], heldPackets := t.pair.heldPackets } ∧
        t.run = s.run ∧ t.tiles = s.tiles)) ∧
  (∀ (s : State) (r : LeaseReplyMsg),
    (s.pair.asked.find? (fun a => a.2.1 == r.nonce) = none → exec (.leaseReply r) s = .next s) ∧
    (∀ a, s.pair.asked.find? (fun a => a.2.1 == r.nonce) = some a →
      (ed25519Verify s.domain.witnessKey (leaseSigned r) r.signature = false → exec (.leaseReply r) s = .next s) ∧
      (r.pairId.toNat = s.moduleIdNat / 2 → ed25519Verify s.domain.witnessKey (leaseSigned r) r.signature = true →
        ∃ t, exec (.leaseReply r) s = .next t ∧ (r.epoch ≤ s.pair.epoch → t.mem = s.mem) ∧
          (r.result = 0 → r.holder.toNat = s.moduleIdNat → s.pair.role ≠ .fenced → r.epoch = s.pair.epoch → a.1 ≠ 4 →
            s.clock.meridian < a.2.2 + 800000000 → t.pair.role = .holder ∧
            s.pair.leaseEnd ≤ t.pair.leaseEnd ∧ a.2.2 + 800000000 ≤ t.pair.leaseEnd ∧
            (s.run.state = .suspended → s.pair.role = .suspended → t.run.state = .running)) ∧
          (r.result ≠ 0 → s.pair.epoch < r.epoch → t.pair.role = .fenced)))) ∧
  (∀ s : State,
    ((s.pair.role = .holder ∧ s.pair.leaseEnd ≤ s.clock.meridian ∨
        s.pair.role = .secondary ∧ s.pair.authorityEnd ≤ s.clock.meridian) →
      ∃ t, exec .leaseTermEnd s = .next t ∧ t.pair = { s.pair with role := .suspended, heldPackets := s.pair.heldPackets ++ s.toHold } ∧ t.tiles = s.tiles ∧
        t.run = { s.run with state := if s.run.state = .running then .suspended else s.run.state }) ∧
    (s.pair.role = .holder → s.clock.meridian < s.pair.leaseEnd → exec .leaseTermEnd s = .next s)) ∧
  (∀ (s : State) (e : Word) (nb : DWord), s.pair.nextEpoch = some (e, nb) →
    (nb ≤ s.clock.meridian → ∃ t, exec .epochSwitch s = .next t ∧ t.pair.epoch = e ∧ t.pair.nextEpoch = none ∧
      t.pair.role = s.pair.role ∧ t.epochEntry (s.moduleIdNat / 2) = some e ∧ t.run = s.run) ∧
    (s.clock.meridian < nb → exec .epochSwitch s = .next s)))

/-- Closure checks and the transfer of state (R377, R444, R446, R460 to R463): the twin's digest is kept until the own one is there,
equal digests close the step, and different ones under STOP end the run; a transfer replaces the plans once every entry has
completed the step before the change, and on the record module a digest that differs is MIGRATION_MISMATCH. It says so of
STATE_TRANSFER. -/
def Obligations.ClosureAndTransferComplete : Prop :=
  (∀ (s : State) (p : PortNo) (k : Packet) (s1 : State), s.takePacket p.val 11 = some (k, s1) →
    let n := fieldAt k.payload 0 4
    let d : Digest := BitVec.ofNat 512 (beNat (slice k.payload 8 64))
    let kind : Byte := BitVec.ofNat 8 (fieldAt k.payload 4 1)
    ∃ t, exec (.closure p) s = .next t ∧
      (kind ≠ 3 → mfind s.pair.ownDigests n = none → mfind t.pair.twinDigests n = some (kind, d) ∧ t.run = s.run) ∧
      (kind ≠ 3 → mfind s.pair.ownDigests n = some d → s.run.withheld = none → t.run = s.run ∧
        (s.pair.closedStep = 0xFFFFFFFF ∨ s.pair.closedStep.toNat < n → t.pair.closedStep = BitVec.ofNat 32 n)) ∧
      (∀ own, kind ≠ 3 → mfind s.pair.ownDigests n = some own → own ≠ d → t.pair.closureFailed = true ∧
        (s.runActive = true → (s.runJob.map (·.closureContinue)).getD false = false → t.run.state = .idle ∧
          ∃ f, t.run.faults = s.run.faults ++ [f] ∧ f.code = 0x0109 ∧ f.offending = BitVec.ofNat 64 n))) ∧
  (∀ (s : State) (plans : List (StackNo × UpdatePlan)) (moved : List (StackNo × Nat × Bytes)) (d : Digest) (c : Change),
    s.domain.change = some c → c.transferred = false → 0 < c.tE.toNat →
    (s.hasPlan = true → s.stepDone (c.tE.toNat - 1) = true) →
    (∀ e, s.isRecordModule (c.tE.toNat - 1) = true → s.recordedDigest (c.tE.toNat - 1) = some e → e ≠ d →
      ∃ t, exec (.stateTransfer plans moved d) s = .next t ∧ t.run.state = .idle ∧
        (s.runActive = true → ∃ f, t.run.faults = s.run.faults ++ [f] ∧ f.code = 0x0108)) ∧
    (s.isRecordModule (c.tE.toNat - 1) = false → c.membership.members.headD s.moduleIdNat ≠ s.moduleIdNat →
      (plans.map (·.1)).Nodup →
      ∃ t, exec (.stateTransfer plans moved d) s = .next t ∧ t.domain.change = some { c with transferred := true } ∧
        t.tiles = s.tiles ∧ t.run = s.run ∧
        (∀ (k : StackNo) (plan : UpdatePlan), (k, plan) ∈ plans →
          (t.stack k.val).plan = some plan ∧ (t.stack k.val).entries = []))) ∧
  (∀ (s : State) (plans : List (StackNo × UpdatePlan)) (moved : List (StackNo × Nat × Bytes)) (d : Digest),
    s.domain.change = none → exec (.stateTransfer plans moved d) s = .next s)

/-- Stretches (R487 to R490): a lowest margin code at or below the critical one stretches the region's own period and sends a token
to each other region; a token stretches the period that it names, or the running one where that is past, which is counted. The
target frequency and the meridian (R492, R493, R500 to R503): a token gives the base for a period at least 64 ahead of every
region, which starts it; the root locks after reset with a valid reference; a datum pulse starts every region at period 0 and
the first one the meridian at 0; a window raises each rail that is short and below V_MAX, and after 1,000 quiet windows with
wide margins lowers each rail above V_MIN. It says so of REPLICA_MARGIN_STRETCH, STRETCH_TOKEN, TARGET_TOKEN, BASE_CHANGE,
ROOT_LOCK, DATUM_PULSE and MARGIN_POLICY. -/
def Obligations.TimingRowsComplete : Prop :=
  (∀ s : State, s.clocksRun = true →
    (∀ (r : Region) (codes : List (Fin 64)),
      let n := stretchOf s.clock.criticalCode (codes.foldl (fun m c => min m c.val) 63)
      (n = 0 → exec (.replicaMarginStretch r codes) s = .next s) ∧
      (0 < n → n ≤ 4 ∧ ∃ t, exec (.replicaMarginStretch r codes) s = .next t ∧
        (t.region r.val).stretch = max (s.region r.val).stretch n ∧ (t.region r.val).count = (s.region r.val).count ∧
        (∀ q : Region, q ≠ r → t.region q.val = s.region q.val ∧
          (q.val, (s.region r.val).count.toNat % 16, n) ∈ t.clock.tokens) ∧
        t.clock.tokens.length = s.clock.tokens.length + 9 ∧ t.tiles = s.tiles ∧ t.mem = s.mem)) ∧
    (∀ (r : Region) (period : Fin 16) (n : Fin 5), (r.val, period.val, n.val) ∈ s.clock.tokens →
      let x := s.region r.val
      let lead := (period.val + 16 - x.count.toNat % 16) % 16
      ∃ t, exec (.stretchToken r period n) s = .next t ∧
        t.clock.tokens = s.clock.tokens.erase (r.val, period.val, n.val) ∧
        (∀ q : Region, q ≠ r → t.region q.val = s.region q.val) ∧ t.tiles = s.tiles ∧
        (lead = 0 → (t.region r.val).stretch = max x.stretch n.val ∧ (t.region r.val).deferred = x.deferred) ∧
        (1 ≤ lead → lead ≤ 7 → (t.region r.val).stretch = x.stretch ∧
          mget 0 (t.region r.val).ahead period.val = max (mget 0 x.ahead period.val) n.val) ∧
        (7 < lead → (t.region r.val).stretch = max x.stretch n.val ∧ (t.region r.val).deferred = satInc x.deferred))) ∧
  (∀ s : State,
    (∀ (b : Fin 16) (first : DWord), s.clocksRun = true → 8 ≤ b.val → b.val ≤ 12 → s.highestCount + 64 ≤ first.toNat →
      exec (.targetToken b first) s = .next { s with clock := { s.clock with nextBase := some (b.val, first) } }) ∧
    (∀ (b : Nat) (first : DWord), s.clock.nextBase = some (b, first) → s.clocksRun = true → first ≤ (s.region 0).count →
      exec .baseChange s = .next { s with clock := { s.clock with base := b, nextBase := none } }) ∧
    (s.power.inReset = false → s.power.ref100 = true → s.clock.rootLocked = false → s.clock.needsMrst = false →
      exec .rootLock s = .next { s with clock := { s.clock with rootLocked := true, datumReq := true } }) ∧
    (s.clock.needsMrst = true → exec .rootLock s = .next s) ∧
    (s.clocksRun = true → s.clock.datumReq = true → s.runActive = false → ∃ t, exec .datumPulse s = .next t ∧
      t = { s with clock := t.clock } ∧ (∀ r : Region, (t.region r.val).count = 0 ∧ (t.region r.val).stretch = 0) ∧
      t.clock.datumReq = false ∧ t.clock.meridianRuns = true ∧ t.clock.tokens = [] ∧ t.clock.fifos = [] ∧ t.clock.base = s.clock.base ∧
      (s.clock.meridianFresh = true → t.clock.meridian = 0) ∧
      (s.clock.meridianFresh = false → t.clock.meridian = s.clock.meridian)) ∧
    (∀ r : MarginReading, s.clocksRun = true → s.sec.booted = true → ∃ t, exec (.marginPolicy r) s = .next t ∧
      t.mgp.marginRing = ringPush s.mgp.marginRing (s.marginEntry r) ∧ t.tiles = s.tiles ∧ t.run = s.run ∧
      (∀ d, d < 9 → railShort r d = true → s.rail d < Config.railMax s.mgp.calStore d s.clock.base →
        t.rail d = s.rail d + 1) ∧
      (∀ d, d < 9 → railShort r d = true → Config.railMax s.mgp.calStore d s.clock.base ≤ s.rail d →
        t.rail d = s.rail d ∧ s.comingBase ≤ t.comingBase) ∧
      ((∀ d, d < 9 → railShort r d = false) → (∀ c ∈ r.codes.take 32, 20 ≤ c.val) → (∀ n ∈ r.stretched, n = 0) →
        999 ≤ s.clock.quietWindows → s.clock.base ≤ s.clock.target → ∀ d, d < 9 →
        t.rail d = (if Config.railMin s.mgp.calStore d s.clock.base < s.rail d then s.rail d - 1 else s.rail d))))

/-! ### Firmware's own policies, the supply and resets -/

/-- Temperature and input power (R562, R563): 95 °C at a tile or 90 °C at a stack asks for a base one higher and begins an episode;
105 °C or 95 °C ends the run with OVER_TEMPERATURE and turns the rails off until 85 °C and 80 °C; a power average above the
limit asks for a base one higher, and one at or below 95 % counts towards its release. The supply and the log (R573, R578 to
R580): the third sample below 48.5 V defers writes, the third below 46.0 V halts the module and ends its run with SUPPLY_HALT,
and 100 ms above 49.5 V restores it and carries the deferred writes out; a commit that is due moves the ring to flash. It says
so of THERMAL_POLICY, INPUT_POWER_WINDOW, SUPPLY_SAMPLE, LOG_COMMIT and FLASH_OPERATION_DONE. -/
def Obligations.PoliciesComplete : Prop :=
  (∀ s : State, s.fwUp = true →
    (∀ r : ThermalReading, s.mgp.thermalOff = false → 1680 ≤ r.tileMax ∨ 1520 ≤ r.stackMax →
      ∃ t, exec (.thermalPolicy r) s = .next t ∧ t.mgp.thermalOff = true ∧ t.power.computeDies = false ∧
        t.power.hbmRails = false ∧ t.run.state = .idle ∧
        (s.runActive = true → ∃ f, t.run.faults = s.run.faults ++ [f] ∧ f.code = 0x010D)) ∧
    (∀ r : ThermalReading, s.mgp.thermalOff = false → r.tileMax < 1680 → r.stackMax < 1520 →
      (1520 ≤ r.tileMax ∨ 1440 ≤ r.stackMax) → ∃ t, exec (.thermalPolicy r) s = .next t ∧ t.mgp.throttling = true ∧
        t.power.tileMax = r.tileMax ∧ t.power.hbmMax = r.stackMax ∧ t.run = s.run ∧ t.mem = s.mem ∧
        (s.clock.nextBase = none → s.clock.base < 12 →
          t.clock.nextBase = some (s.clock.base + 1, BitVec.ofNat 64 (s.highestCount + 64)))) ∧
    (∀ r : ThermalReading, s.mgp.thermalOff = false → r.tileMax < 1440 → r.stackMax < 1360 → s.mgp.throttling = true →
      ∃ t, exec (.thermalPolicy r) s = .next t ∧ t.mgp.throttling = false ∧ t.run = s.run ∧ t.clock = s.clock) ∧
    (∀ r : ThermalReading, s.mgp.thermalOff = true → r.tileMax < 1360 → r.stackMax < 1280 → s.power.supply ≠ .halting →
      ∃ t, exec (.thermalPolicy r) s = .next t ∧ t.mgp.thermalOff = false ∧
        (s.power.computeDies = false → t.power.computeDies = true ∧ t.power.hbmRails = true)) ∧
    (∀ w : Nat, ∃ t, exec (.inputPowerWindow w) s = .next t ∧ t.power.pin = w ∧ t.run = s.run ∧ t.mem = s.mem ∧
      t.tiles = s.tiles ∧
      (s.power.inputLimit < w → t.mgp.powerLimited = true ∧ t.mgp.underLimit = 0 ∧
        (s.clock.nextBase = none → s.clock.base < 12 → t.comingBase = s.clock.base + 1)) ∧
      (w * 100 < s.power.inputLimit * 95 → t.mgp.underLimit = s.mgp.underLimit + 1))) ∧
  ((∀ (s : State) (r : SupplyReading), s.power.inReset = false → s.sec.booted = true →
    (r.millivolt < 46000 → s.power.low460 = 2 → s.power.supply ≠ .halting → ∃ t, exec (.supplySample r) s = .next t ∧
      t.power.supply = .halting ∧ t.power.computeDies = false ∧ t.power.hbmRails = false ∧ t.run.state = .idle ∧
      t.power.vin = r.millivolt ∧
      (s.runActive = true → ∃ f, t.run.faults = s.run.faults ++ [f] ∧ f.code = 0x010C)) ∧
    (46000 ≤ r.millivolt → r.millivolt < 48500 → s.power.low485 = 2 → s.power.supply = .normal →
      ∃ t, exec (.supplySample r) s = .next t ∧ t.power.supply = .deferring ∧ t.run = s.run ∧ t.mem = s.mem ∧
        t.tiles = s.tiles) ∧
    (49500 < r.millivolt → r.above100ms = true → s.power.supply = .deferring → s.mgp.flashBusy = false →
      ∃ t, exec (.supplySample r) s = .next t ∧ t.power.supply = .normal ∧ t.mgp.deferred = [] ∧ t.mgp.logRing = [] ∧
        t.run = s.run) ∧
    (48500 ≤ r.millivolt → s.power.supply = .normal → ∃ t, exec (.supplySample r) s = .next t ∧
      t.power = { s.power with vin := r.millivolt, low485 := 0, low460 := 0 } ∧ t.run = s.run ∧ t.tiles = s.tiles ∧
      t.mem = s.mem)) ∧
  (∀ s : State, s.fwUp = true → s.power.supply = .normal → s.mgp.restoring = false → s.commitDue = true →
    s.mgp.committed.length + s.mgp.logRing.length ≤ s.mgp.logRoom →
    ∃ t, exec (.logCommit true) s = .next t ∧ t.mgp.logRing = [] ∧ t.mgp.flashBusy = true ∧
      t.mgp.committed = s.mgp.committed ++ s.mgp.logRing.map (fun e => { e with deferred := false }) ∧
      t.mgp.lastCommit = s.clock.meridian ∧ t.run = s.run ∧ t.tiles = s.tiles) ∧
  (∀ s : State, s.fwUp = true → s.power.supply = .normal → s.mgp.restoring = false → s.commitDue = true →
    ∃ t, exec (.logCommit false) s = .next t ∧ t.mgp.retired = s.mgp.retired + 1) ∧
  (∀ (s : State) (op : FlashOp), s.mgp.flashBusy = true → s.power.inReset = false →
    (s.mgp.restoring = false →
      exec (.flashOperationDone op) s = .next { s with mgp := { s.mgp with flashBusy := false } }) ∧
    (s.mgp.restoring = true → s.power.supply = .normal → ∃ t, exec (.flashOperationDone op) s = .next t ∧
      t.mgp.deferred = [] ∧ t.mgp.restoring = false ∧ t.run = s.run)))

/-- Resets and rails (R503, R545, R581, R603 to R609): MRST_N and a power-fail reset leave every register at its reset value, end
every session and run, and keep fuses, flash, keys and the meridian; a loss of the input also clears the meridian; the rails
come up, and release follows. PCIe, I3C, the boot chain and the ROLLBACK fuses (R509, R525, R545, R586 to R588, R590, R607): a
PCIe reset ends only the PCIe session; a boot starts the valid image of higher ACTIVATION, else the other, else recovery; 600 s
after a start without a fault of firmware's own the fuses advance, and they never go back. It says so of POWER_FAIL_RESET,
INPUT_LOSS, POWER_UP, RESET_RELEASE, PERST, FLR, I3C_LOSS, PCIE_LINK_TRAINING and ROLLBACK_ADVANCE. -/
def Obligations.ResetsAndBootComplete : Prop :=
  (∀ s : State,
    let clean (t : State) : Prop := t.fixed = s.fixed ∧ t.run = State.reset.run ∧ t.tiles = [] ∧ t.host.pcie = none ∧
      t.host.mctp = none ∧ t.host.images = [] ∧ t.blocks = [] ∧ t.hostLock = false ∧ t.domain = State.reset.domain ∧
      t.pair = State.reset.pair ∧ t.net = State.reset.net ∧ t.power.inReset = true ∧ t.clock.meridianRuns = false ∧
      t.clock.rootLocked = false ∧ t.mgp.committed = s.mgp.committed ∧ t.mgp.calStore = s.mgp.calStore ∧
      t.sec.rollback = s.sec.rollback ∧ t.sec.keys = s.sec.keys ∧ t.sec.enforce = s.sec.enforce ∧
      t.sec.imageA = s.sec.imageA ∧ t.sec.imageB = s.sec.imageB ∧ t.sec.booted = false ∧ t.pending = s.pending
    (∃ t, exec .mrst s = .next t ∧ clean t ∧ t.clock.meridian = s.clock.meridian ∧ t.power.mrstN = false) ∧
    (s.power.keepAlive = true → ∃ t, exec .powerFailReset s = .next t ∧ clean t ∧ t.clock.meridian = s.clock.meridian ∧
      t.mgp.powerFailed = true ∧ t.power.computeDies = false ∧ t.power.hbmRails = false) ∧
    (∃ t, exec .inputLoss s = .next t ∧ clean t ∧ t.clock.meridian = 0 ∧ t.clock.meridianFresh = true ∧
      t.power.keepAlive = false ∧ t.power.pwrgd = false ∧ t.power.computeDies = false ∧ t.power.hbmRails = false) ∧
    (s.power.inReset = true → s.power.railsUp = false → s.power.portDies = true ∨ s.power.keepAlive = false →
      ∃ t, exec .powerUp s = .next t ∧ t = { s with power := t.power } ∧ t.power.railsUp = true ∧ t.power.pwrgd = true ∧
        t.power.inReset = true) ∧
    (s.power.inReset = true → s.power.railsUp = true → ∃ t, exec .resetRelease s = .next t ∧ t.power.inReset = false ∧
      t.clock.datumReq = true ∧ t = { s with power := t.power, clock := t.clock } ∧ t.clock.meridian = s.clock.meridian)) ∧
  (∀ s : State,
    (∃ t, exec .perst s = .next t ∧ t.host.pcie = none ∧ t.host.linkWidth = 0 ∧ t.host.mctp = s.host.mctp ∧ t.tiles = s.tiles ∧
      t.run = s.run ∧ t.mem = s.mem ∧ t.power = { s.power with perstN := false } ∧ t.clock = s.clock) ∧
    (s.power.inReset = false → ∃ t, exec .flr s = .next t ∧ t.host.pcie = none ∧ t.host.mctp = s.host.mctp ∧
      t.tiles = s.tiles ∧ t.run = s.run ∧ t.mem = s.mem ∧ t.power = s.power) ∧
    (∃ t, exec .i3cLoss s = .next t ∧ t.host.mctp = none ∧ t.host.pcie = s.host.pcie ∧ t.run = s.run ∧ t.tiles = s.tiles) ∧
    (∀ rate width : Nat, s.power.inReset = false → ∃ t, exec (.pcieLinkTraining rate width) s = .next t ∧
      t.host.linkRate = rate ∧ t.host.linkWidth = width ∧ t.power = { s.power with perstN := true } ∧ t.run = s.run ∧
      (32 ≤ rate → 4 ≤ width → t.mgp = s.mgp) ∧
      (rate < 32 ∨ width < 4 → t.mgp = (s.event evPcieDegraded (srcOf 0x0A 0) (leBytes 1 rate ++ leBytes 1 width)).mgp)) ∧
    (s.power.inReset = false → s.sec.booted = false → s.sec.recovery = false → s.sec.lifecycle = 0b0011 →
      let b := decide (s.sec.imageA.activation < s.sec.imageB.activation)
      let img (b : Bool) : FwImage := if b then s.sec.imageB else s.sec.imageA
      ∃ t, exec .boot s = .next t ∧ t.sec.rollback = s.sec.rollback ∧ t.fixed = s.fixed ∧ t.pending = s.pending ∧
        (s.sec.imageValid (img b) = true → t.sec.booted = true ∧ t.sec.runningB = b ∧ t.sec.fallback = false ∧
          t.sec.latched = (img b).digest ∧ t.sec.bootedAt = s.clock.meridian) ∧
        (s.sec.imageValid (img b) = false → s.sec.imageValid (img (!b)) = true → t.sec.booted = true ∧
          t.sec.runningB = !b ∧ t.sec.fallback = true ∧ t.sec.latched = (img (!b)).digest) ∧
        (s.sec.imageValid (img b) = false → s.sec.imageValid (img (!b)) = false → t.sec.booted = false ∧
          t.sec.recovery = true ∧ t.host.ringState = 3)) ∧
    (s.fwUp = true → s.sec.fwFault = false → s.sec.bootedAt.toNat + 240000000000 ≤ s.clock.meridian.toNat →
      s.sec.rollback < s.sec.ownRollback → s.mgp.burnWaits = false → s.power.supply = .normal → s.mgp.restoring = false →
      ∃ t, exec .rollbackAdvance s = .next t ∧ t.sec = { s.sec with rollback := s.sec.ownRollback } ∧ t.run = s.run))

/-! ### Over all commands -/

/-- Reading back what is written (Tables 15.5 and 15.9 to 15.16): the packet of every well-formed command of the table
that a packet carries spells that command again, with every field of its header and body; of a container or a
measurement, which no packet holds, the reader is given the command's own. -/
def Obligations.PacketsSpellTheirCommands : Prop :=
  (∀ (i : Instr) (h : Hdr) (op : Nat) (bs : Bytes) (img : Option ImageBody) (cal : CalResult), wellFormed i = true →
    encodeBody i = some (h, op, bs) →
    (∀ h' b x, (i = .loadImage h' b x ∨ i = .verifyImage h' b x) → img = x) →
    (∀ h' v r, i = .calibrate h' v r → cal = r) →
    decode h.path (packetBytesOf h op bs) img cal = some i) ∧
  (∀ (i : Instr) (h : Hdr) (op : Nat) (bs : Bytes), wellFormed i = true → encodeBody i = some (h, op, bs) →
    (packetBytesOf h op bs).length % 64 = 0 ∧ (packetBytesOf h op bs).length ≤ 4096)

/-- No command outside the bundles stops the machine, whatever the state: each of a packet (Tables 15.9 to 15.16) and each event of
the module's units answers a next state. Only an operation of a bundle and a write to a register's reserved fields can stop the model
(Table 06.11, R543). -/
def Obligations.PacketCommandsNeverStop : Prop :=
  ∀ s : State,
    let runs (i : Instr) : Prop := ∃ t, exec i s = .next t
    (∀ i : Instr, encodeBody i ≠ none → runs i) ∧
    (∀ o bs b, runs (.inboxCommit o bs b)) ∧ (∀ p b, runs (.mctpMessage p b)) ∧ runs .outboxReplyWrite ∧
    (∀ v, runs (.coalescingIntervalExpiry v)) ∧ (∀ c bs, runs (.dmaComplete c bs)) ∧ (∀ op, runs (.apertureAccess op)) ∧
    (∀ b, runs (.bandZeroingDone b)) ∧ (∀ c, runs (.runEnd c)) ∧ runs .faultStop ∧ runs .hangReport ∧
    (∀ k : TileNo, runs (.stepBundlesDone k) ∧ (∀ e, runs (.pendingArrayOpStart k e)) ∧ runs (.arrayFreeze k) ∧
      runs (.pendingPassStart k) ∧ runs (.reductionSegmentResult k) ∧ runs (.loopBodyEnd k) ∧ runs (.routineReturn k) ∧
      (∀ l, runs (.istoreMissFill k l)) ∧ runs (.fillCopyDone k) ∧ runs (.prefetchLineArrival k) ∧
      runs (.postSendDispatch k) ∧ (∀ d, runs (.readyTake k d)) ∧ runs (.transferIssue k) ∧
      (∀ g, runs (.transferComplete k g)) ∧ runs (.inboundDataArrival k) ∧ runs (.holdAreaWrite k) ∧
      runs (.remoteWriteJudged k) ∧ runs (.windowViolation k) ∧ (∀ e, runs (.messageArrival k e)) ∧
      (∀ e, runs (.creditArrival k e)) ∧ (∀ e, runs (.closingNoticeArrival k e)) ∧ (∀ e, runs (.openingNoticeArrival k e)) ∧
      (∀ e, runs (.discardReportArrival k e)) ∧ (∀ h, runs (.watchRegArrival k h)) ∧ (∀ h, runs (.watchFiredArrival k h)) ∧
      (∀ u, runs (.hang k u))) ∧
    (∀ b, runs (.barrierCounterArrival b) ∧ runs (.barrierReleaseArrival b)) ∧
    (∀ k : StackNo, runs (.hbmRequestIntake k) ∧ (∀ e, runs (.hbmReadReturn k e)) ∧ (∀ c, runs (.refresh k c)) ∧
      (∀ c, runs (.phyTracking k c)) ∧ (∀ e, runs (.patrolScrub k e)) ∧ (∀ t, runs (.stackStatusRead k t)) ∧
      runs (.gatedRead k) ∧ runs (.markWrite k) ∧ (∀ i, runs (.updatePassComplete k i)) ∧ runs (.fingerprintRecord k)) ∧
    (∀ n, runs (.stepDigestFormed n)) ∧ (∀ p m d, runs (.stateTransfer p m d)) ∧
    (∀ l, runs (.scheduleFlitError l) ∧ runs (.d2dMemoryRetry l) ∧ runs (.crossingSlip l)) ∧
    (∀ p : PortNo, (∀ m c, runs (.linkBringup p m c)) ∧ (∀ f, runs (.controlFlit p f)) ∧ runs (.retryTimeout p) ∧
      (∀ r, runs (.chainPacketReceive p r)) ∧ runs (.data p) ∧ runs (.credit p) ∧ runs (.close p) ∧ runs (.openNotice p) ∧
      runs (.noEndpoint p) ∧ runs (.barrierArrive p) ∧ runs (.barrierRelease p) ∧ (∀ t, runs (.sync p t)) ∧
      (∀ m, runs (.mgmt p m)) ∧ runs (.creditFlush p) ∧ (∀ f, runs (.linkDown p f)) ∧ (∀ m, runs (.linkRetrainTimer p m)) ∧
      runs (.heartbeat p) ∧ runs (.closure p)) ∧
    runs .syncExchangeTimer ∧ runs .heartbeatTimer ∧ runs .twinLost ∧ runs .leaseRenewTimer ∧ (∀ r, runs (.leaseReply r)) ∧
    runs .leaseTermEnd ∧ runs .epochSwitch ∧ (∀ r p n, runs (.stretchToken r p n)) ∧ (∀ b f, runs (.targetToken b f)) ∧
    runs .baseChange ∧ (∀ r, runs (.marginPolicy r)) ∧ runs .rootLock ∧ runs .rootUnlock ∧ runs .datumPulse ∧
    runs .meridianCompare ∧ (∀ r c, runs (.replicaMarginStretch r c)) ∧ (∀ r, runs (.thermalPolicy r)) ∧
    (∀ w, runs (.inputPowerWindow w)) ∧ (∀ o, runs (.logCommit o)) ∧ (∀ r, runs (.supplySample r)) ∧
    (∀ o, runs (.flashOperationDone o)) ∧ runs .powerFailReset ∧ runs .inputLoss ∧ runs .powerUp ∧ runs .mrst ∧
    runs .resetRelease ∧ runs .perst ∧ runs .flr ∧ runs .i3cLoss ∧ runs .boot ∧ runs .rollbackAdvance ∧
    (∀ r w, runs (.pcieLinkTraining r w))

/-- A step takes exactly the command at the front of the queue, and leaves what manufacture fixed (R5, R584): the fuses,
the device's keys, the boot ROM's digest and the routines of the ROM. The ROLLBACK fuses never go back (R590). -/
def Obligations.FixedStateIsKept : Prop :=
  (∀ s t : State, step s = .next t → t.fixed = s.fixed ∧ t.pending = s.pending.tail) ∧
  (∀ s t : State, step s = .next t → s.sec.rollback ≤ t.sec.rollback)

/-- Every step keeps the byte stores of the module in their canonical form. -/
def Obligations.StepsKeepTheStores : Prop :=
  ∀ s t : State, s.storesWf → step s = .next t → t.storesWf

/-- An event enters the log as one entry of its code, class, source, meridian and step (R570, R572, Table 17.5), where
the payload fits and the ring has room. -/
def Obligations.EventsEnterTheLog : Prop :=
  ∀ (s : State) (e : Event) (src : BitVec 16) (payload : Bytes), payload.length ≤ 100 → s.mgp.logRing.length < 4096 →
    ∃ x : LogEntry, (s.event e src payload).mgp.logRing = s.mgp.logRing ++ [x] ∧
      (s.event e src payload).mgp.logSeq = s.mgp.logSeq + 1 ∧ x.seq = s.mgp.logSeq ∧ x.meridian = s.clock.meridian ∧
      x.code = BitVec.ofNat 16 ((e.1 + 1) * 256 + e.2) ∧ x.cls = BitVec.ofNat 8 e.1 ∧ x.source = src ∧ x.payload = payload ∧
      x.deferred = false ∧ x.jobId = (if s.runActive then s.run.jobId else 0) ∧
      x.step = (if s.runActive then s.currentStep else 0xFFFFFFFF) ∧ (s.event e src payload).tiles = s.tiles ∧
      (s.event e src payload).mem = s.mem ∧ (s.event e src payload).run = s.run
end

