-- ==== Sys2Proof/Laws/Map.lean ====
section
/-! SUPPORT. Laws of the sparse maps: a read after a write, writes to different keys, and that every operation keeps the
canonical form. -/

namespace Sys2Proof.Machine

/-! ### Lookup -/

@[simp] theorem mfind_nil {α : Type} (k : Nat) : mfind ([] : SMap α) k = none := rfl

/-- A read after a write to the same key. -/
@[simp] theorem mfind_mset_same {α : Type} (m : SMap α) (k : Nat) (v : α) : mfind (mset m k v) k = some v := by
  induction m with
  | nil => simp [mset, mfind]
  | cons e r ih =>
    obtain ⟨a, w⟩ := e
    by_cases h1 : k < a
    · simp [mset, mfind, h1]
    · by_cases h2 : k = a
      · simp [mset, mfind, h2]
      · have h3 : ¬ a = k := fun h => h2 h.symm
        simp [mset, mfind, h1, h2, h3, ih]

/-- A write leaves every other key alone. -/
theorem mfind_mset_other {α : Type} (m : SMap α) (k j : Nat) (v : α) (h : j ≠ k) :
    mfind (mset m k v) j = mfind m j := by
  have hk : ¬ k = j := fun e => h e.symm
  induction m with
  | nil => simp [mset, mfind, hk]
  | cons e r ih =>
    obtain ⟨a, w⟩ := e
    by_cases h1 : k < a
    · simp [mset, mfind, h1, hk]
    · by_cases h2 : k = a
      · subst h2; simp [mset, mfind, hk]
      · simp [mset, mfind, h1, h2, ih]

@[simp] theorem mget_mset_same {α : Type} (d : α) (m : SMap α) (k : Nat) (v : α) : mget d (mset m k v) k = v := by
  simp [mget]

theorem mget_mset_other {α : Type} (d : α) (m : SMap α) (k j : Nat) (v : α) (h : j ≠ k) :
    mget d (mset m k v) j = mget d m j := by
  simp [mget, mfind_mset_other m k j v h]

/-- Two writes to one key: the second stands. -/
@[simp] theorem mset_mset {α : Type} (m : SMap α) (k : Nat) (v w : α) : mset (mset m k v) k w = mset m k w := by
  induction m with
  | nil => simp [mset]
  | cons e r ih =>
    obtain ⟨a, x⟩ := e
    by_cases h1 : k < a
    · simp [mset, h1]
    · by_cases h2 : k = a
      · simp [mset, h2]
      · simp [mset, h1, h2, ih]

/-! ### The canonical form -/

/-- Keys strictly rising, said of the head and of the tail. -/
theorem mrising_cons {α : Type} (e : Nat × α) (r : SMap α) :
    mrising (e :: r) = true ↔ (∀ f ∈ r.head?, e.1 < f.1) ∧ mrising r = true := by
  obtain ⟨a, v⟩ := e
  cases r with
  | nil => simp [mrising]
  | cons f r => obtain ⟨b, w⟩ := f; simp [mrising]

/-- Every key of a rising map is above a key that its head is above. -/
theorem mrising_lt {α : Type} (e : Nat × α) (r : SMap α) (h : mrising (e :: r) = true) : ∀ f ∈ r, e.1 < f.1 := by
  induction r generalizing e with
  | nil => simp
  | cons g r ih =>
    intro f hf
    have h1 := (mrising_cons e (g :: r)).1 h
    have hg : e.1 < g.1 := h1.1 g (by simp)
    rcases List.mem_cons.1 hf with rfl | hf
    · exact hg
    · exact lt_trans hg (ih g h1.2 f hf)

/-- The head of a map after a write is the key or the old head. -/
theorem mset_head {α : Type} (m : SMap α) (k : Nat) (v : α) (f : Nat × α) (h : f ∈ (mset m k v).head?) :
    f.1 = k ∨ f ∈ m.head? := by
  cases m with
  | nil => simp [mset] at h; left; rw [← h]
  | cons e r =>
    obtain ⟨a, w⟩ := e
    by_cases h1 : k < a
    · simp [mset, h1] at h; left; rw [← h]
    · by_cases h2 : k = a
      · simp [mset, h2] at h; left; rw [← h, h2]
      · simp [mset, h1, h2] at h; right; simp [← h]

theorem mrising_mset {α : Type} (m : SMap α) (k : Nat) (v : α) (h : mrising m = true) : mrising (mset m k v) = true := by
  induction m with
  | nil => simp [mset, mrising]
  | cons e r ih =>
    have h0 := (mrising_cons e r).1 h
    obtain ⟨a, w⟩ := e
    by_cases h1 : k < a
    · simp only [mset, h1, if_true]
      exact (mrising_cons _ _).2 ⟨by simp [h1], h⟩
    · by_cases h2 : k = a
      · subst h2
        simp only [mset, lt_irrefl, if_false, if_true]
        exact (mrising_cons _ _).2 ⟨h0.1, h0.2⟩
      · simp only [mset, h1, h2, if_false]
        refine (mrising_cons _ _).2 ⟨?_, ih h0.2⟩
        intro f hf
        rcases mset_head r k v f hf with hk | hr
        · rw [hk]; simp only; omega
        · exact h0.1 f hr

theorem mrising_merase {α : Type} (m : SMap α) (k : Nat) (h : mrising m = true) : mrising (merase m k) = true := by
  induction m with
  | nil => simp [merase, mrising]
  | cons e r ih =>
    have h0 := (mrising_cons e r).1 h
    by_cases h1 : e.1 = k
    · simp [merase, h1, h0.2]
    · simp only [merase, h1, if_false]
      refine (mrising_cons _ _).2 ⟨?_, ih h0.2⟩
      intro f hf
      have hlt := mrising_lt e r h
      have hmem : f ∈ r := by
        have : ∀ (r : SMap α), ∀ f ∈ merase r k, f ∈ r := by
          intro r
          induction r with
          | nil => simp [merase]
          | cons g r ih2 =>
            intro f hf
            by_cases hg : g.1 = k
            · simp [merase, hg] at hf; exact List.mem_cons_of_mem _ hf
            · simp only [merase, hg, if_false, List.mem_cons] at hf
              rcases hf with rfl | hf
              · simp
              · exact List.mem_cons_of_mem _ (ih2 f hf)
        exact this r f (List.mem_of_mem_head? hf)
      exact hlt f hmem

theorem mem_merase {α : Type} (m : SMap α) (k : Nat) (e : Nat × α) (h : e ∈ merase m k) : e ∈ m := by
  induction m with
  | nil => simp [merase] at h
  | cons g r ih =>
    by_cases hg : g.1 = k
    · simp [merase, hg] at h; exact List.mem_cons_of_mem _ h
    · simp only [merase, hg, if_false, List.mem_cons] at h
      rcases h with rfl | h
      · simp
      · exact List.mem_cons_of_mem _ (ih h)

theorem mem_mset {α : Type} (m : SMap α) (k : Nat) (v : α) (e : Nat × α) (h : e ∈ mset m k v) : e = (k, v) ∨ e ∈ m := by
  induction m with
  | nil => simp [mset] at h; left; exact h
  | cons g r ih =>
    obtain ⟨a, w⟩ := g
    by_cases h1 : k < a
    · simp only [mset, h1, if_true, List.mem_cons] at h
      rcases h with h | h
      · left; exact h
      · right; simpa using h
    · by_cases h2 : k = a
      · subst h2
        simp only [mset, lt_irrefl, if_false, if_true, List.mem_cons] at h
        rcases h with h | h
        · left; exact h
        · right; exact List.mem_cons_of_mem _ h
      · simp only [mset, h1, h2, if_false, List.mem_cons] at h
        rcases h with h | h
        · right; simp [h]
        · rcases ih h with h | h
          · left; exact h
          · right; exact List.mem_cons_of_mem _ h

/-- A write keeps the canonical form. -/
theorem mwf_mput {α : Type} [DecidableEq α] (d : α) (m : SMap α) (k : Nat) (v : α) (h : mwf d m = true) :
    mwf d (mput d m k v) = true := by
  simp only [mwf, Bool.and_eq_true, List.all_eq_true, decide_eq_true_eq] at h ⊢
  unfold mput
  split
  · exact ⟨mrising_merase m k h.1, fun e he => h.2 e (mem_merase m k e he)⟩
  · rename_i hv
    refine ⟨mrising_mset m k v h.1, fun e he => ?_⟩
    rcases mem_mset m k v e he with rfl | he
    · exact hv
    · exact h.2 e he

/-! ### Bytes -/

theorem mfind_none_of_lt {α : Type} (m : SMap α) (k : Nat) (h : ∀ e ∈ m, k < e.1) : mfind m k = none := by
  induction m with
  | nil => rfl
  | cons e r ih =>
    have h1 : ¬ e.1 = k := fun he => by have := h e (by simp); omega
    simp [mfind, h1, ih (fun f hf => h f (List.mem_cons_of_mem _ hf))]

theorem mfind_merase_same {α : Type} (m : SMap α) (k : Nat) (h : mrising m = true) : mfind (merase m k) k = none := by
  induction m with
  | nil => rfl
  | cons e r ih =>
    by_cases h1 : e.1 = k
    · simp only [merase, h1, if_true]
      exact mfind_none_of_lt r k (fun f hf => h1 ▸ mrising_lt e r h f hf)
    · simp [merase, mfind, h1, ih ((mrising_cons e r).1 h).2]

theorem mfind_merase_other {α : Type} (m : SMap α) (k j : Nat) (h : j ≠ k) : mfind (merase m k) j = mfind m j := by
  have hk : ¬ k = j := fun e => h e.symm
  induction m with
  | nil => rfl
  | cons e r ih =>
    by_cases h1 : e.1 = k
    · simp [merase, mfind, h1, hk]
    · simp [merase, mfind, h1, ih]

/-- A byte read after a write to its address is the byte written. -/
theorem readByte_writeByte_same (m : Memory) (a : Nat) (b : Byte) (h : memWf m = true) :
    readByte (writeByte m a b) a = b := by
  simp only [memWf, mwf, Bool.and_eq_true] at h
  unfold readByte writeByte mput mget
  split
  · rename_i hb; rw [mfind_merase_same m a h.1]; simp [hb]
  · simp

/-- A byte write leaves every other byte alone. -/
theorem readByte_writeByte_other (m : Memory) (a c : Nat) (b : Byte) (h : c ≠ a) :
    readByte (writeByte m a b) c = readByte m c := by
  unfold readByte writeByte mput mget
  split
  · rw [mfind_merase_other m a c h]
  · rw [mfind_mset_other m a c b h]

/-- Writing bytes leaves every byte outside them alone. -/
theorem readByte_writeBytes_outside (m : Memory) (a c : Nat) (bs : Bytes) (h : c < a ∨ a + bs.length ≤ c) :
    readByte (writeBytes m a bs) c = readByte m c := by
  induction bs generalizing m a with
  | nil => rfl
  | cons b bs ih =>
    simp only [List.length_cons] at h
    rw [writeBytes, ih _ _ (by omega), readByte_writeByte_other _ _ _ _ (by omega)]

/-- Writing bytes keeps a memory's canonical form. -/
theorem memWf_writeBytes (m : Memory) (a : Nat) (bs : Bytes) (h : memWf m = true) : memWf (writeBytes m a bs) = true := by
  induction bs generalizing m a with
  | nil => exact h
  | cons b bs ih => exact ih _ _ (mwf_mput 0 m a b h)

theorem mrising_filter {α : Type} (m : SMap α) (p : Nat × α → Bool) (h : mrising m = true) :
    mrising (m.filter p) = true := by
  induction m with
  | nil => simp [mrising]
  | cons e r ih =>
    have h0 := (mrising_cons e r).1 h
    by_cases hp : p e
    · rw [List.filter_cons_of_pos hp]
      refine (mrising_cons _ _).2 ⟨?_, ih h0.2⟩
      intro f hf
      exact mrising_lt e r h f (List.mem_of_mem_filter (List.mem_of_mem_head? hf))
    · rw [List.filter_cons_of_neg hp]; exact ih h0.2

/-- Zeroing a range keeps a memory's canonical form. -/
theorem memWf_zeroRange (m : Memory) (a n : Nat) (h : memWf m = true) : memWf (zeroRange m a n) = true := by
  simp only [memWf, mwf, Bool.and_eq_true, List.all_eq_true] at h ⊢
  exact ⟨mrising_filter m _ h.1, fun e he => h.2 e (List.mem_of_mem_filter he)⟩

end Sys2Proof.Machine
end

