-- ==== Sys2Proof/Laws/State.lean ====
section
/-! SUPPORT. What each update of a part of the state leaves and what it sets, one lemma per field per update. -/

namespace Sys2Proof.Machine

variable (s : State)

@[simp] theorem State.setTile_fuses (k : Nat) (x : Tile) : (s.setTile k x).fuses = s.fuses := rfl
@[simp] theorem State.setTile_net (k : Nat) (x : Tile) : (s.setTile k x).net = s.net := rfl
@[simp] theorem State.setTile_mem (k : Nat) (x : Tile) : (s.setTile k x).mem = s.mem := rfl
@[simp] theorem State.setTile_domain (k : Nat) (x : Tile) : (s.setTile k x).domain = s.domain := rfl
@[simp] theorem State.setTile_pair (k : Nat) (x : Tile) : (s.setTile k x).pair = s.pair := rfl
@[simp] theorem State.setTile_clock (k : Nat) (x : Tile) : (s.setTile k x).clock = s.clock := rfl
@[simp] theorem State.setTile_host (k : Nat) (x : Tile) : (s.setTile k x).host = s.host := rfl
@[simp] theorem State.setTile_run (k : Nat) (x : Tile) : (s.setTile k x).run = s.run := rfl
@[simp] theorem State.setTile_blocks (k : Nat) (x : Tile) : (s.setTile k x).blocks = s.blocks := rfl
@[simp] theorem State.setTile_hostLock (k : Nat) (x : Tile) : (s.setTile k x).hostLock = s.hostLock := rfl
@[simp] theorem State.setTile_hostWign (k : Nat) (x : Tile) : (s.setTile k x).hostWign = s.hostWign := rfl
@[simp] theorem State.setTile_mgp (k : Nat) (x : Tile) : (s.setTile k x).mgp = s.mgp := rfl
@[simp] theorem State.setTile_sec (k : Nat) (x : Tile) : (s.setTile k x).sec = s.sec := rfl
@[simp] theorem State.setTile_power (k : Nat) (x : Tile) : (s.setTile k x).power = s.power := rfl
@[simp] theorem State.setTile_routines (k : Nat) (x : Tile) : (s.setTile k x).routines = s.routines := rfl
@[simp] theorem State.setTile_freeCtr (k : Nat) (x : Tile) : (s.setTile k x).freeCtr = s.freeCtr := rfl
@[simp] theorem State.setTile_pending (k : Nat) (x : Tile) : (s.setTile k x).pending = s.pending := rfl

@[simp] theorem State.modTile_fuses (k : Nat) (f : Tile → Tile) : (s.modTile k f).fuses = s.fuses := rfl
@[simp] theorem State.modTile_net (k : Nat) (f : Tile → Tile) : (s.modTile k f).net = s.net := rfl
@[simp] theorem State.modTile_mem (k : Nat) (f : Tile → Tile) : (s.modTile k f).mem = s.mem := rfl
@[simp] theorem State.modTile_domain (k : Nat) (f : Tile → Tile) : (s.modTile k f).domain = s.domain := rfl
@[simp] theorem State.modTile_pair (k : Nat) (f : Tile → Tile) : (s.modTile k f).pair = s.pair := rfl
@[simp] theorem State.modTile_clock (k : Nat) (f : Tile → Tile) : (s.modTile k f).clock = s.clock := rfl
@[simp] theorem State.modTile_host (k : Nat) (f : Tile → Tile) : (s.modTile k f).host = s.host := rfl
@[simp] theorem State.modTile_run (k : Nat) (f : Tile → Tile) : (s.modTile k f).run = s.run := rfl
@[simp] theorem State.modTile_blocks (k : Nat) (f : Tile → Tile) : (s.modTile k f).blocks = s.blocks := rfl
@[simp] theorem State.modTile_hostLock (k : Nat) (f : Tile → Tile) : (s.modTile k f).hostLock = s.hostLock := rfl
@[simp] theorem State.modTile_hostWign (k : Nat) (f : Tile → Tile) : (s.modTile k f).hostWign = s.hostWign := rfl
@[simp] theorem State.modTile_mgp (k : Nat) (f : Tile → Tile) : (s.modTile k f).mgp = s.mgp := rfl
@[simp] theorem State.modTile_sec (k : Nat) (f : Tile → Tile) : (s.modTile k f).sec = s.sec := rfl
@[simp] theorem State.modTile_power (k : Nat) (f : Tile → Tile) : (s.modTile k f).power = s.power := rfl
@[simp] theorem State.modTile_routines (k : Nat) (f : Tile → Tile) : (s.modTile k f).routines = s.routines := rfl
@[simp] theorem State.modTile_freeCtr (k : Nat) (f : Tile → Tile) : (s.modTile k f).freeCtr = s.freeCtr := rfl
@[simp] theorem State.modTile_pending (k : Nat) (f : Tile → Tile) : (s.modTile k f).pending = s.pending := rfl

@[simp] theorem State.setStack_fuses (k : Nat) (x : Stack) : (s.setStack k x).fuses = s.fuses := rfl
@[simp] theorem State.setStack_tiles (k : Nat) (x : Stack) : (s.setStack k x).tiles = s.tiles := rfl
@[simp] theorem State.setStack_net (k : Nat) (x : Stack) : (s.setStack k x).net = s.net := rfl
@[simp] theorem State.setStack_domain (k : Nat) (x : Stack) : (s.setStack k x).domain = s.domain := rfl
@[simp] theorem State.setStack_pair (k : Nat) (x : Stack) : (s.setStack k x).pair = s.pair := rfl
@[simp] theorem State.setStack_clock (k : Nat) (x : Stack) : (s.setStack k x).clock = s.clock := rfl
@[simp] theorem State.setStack_host (k : Nat) (x : Stack) : (s.setStack k x).host = s.host := rfl
@[simp] theorem State.setStack_run (k : Nat) (x : Stack) : (s.setStack k x).run = s.run := rfl
@[simp] theorem State.setStack_blocks (k : Nat) (x : Stack) : (s.setStack k x).blocks = s.blocks := rfl
@[simp] theorem State.setStack_hostLock (k : Nat) (x : Stack) : (s.setStack k x).hostLock = s.hostLock := rfl
@[simp] theorem State.setStack_hostWign (k : Nat) (x : Stack) : (s.setStack k x).hostWign = s.hostWign := rfl
@[simp] theorem State.setStack_mgp (k : Nat) (x : Stack) : (s.setStack k x).mgp = s.mgp := rfl
@[simp] theorem State.setStack_sec (k : Nat) (x : Stack) : (s.setStack k x).sec = s.sec := rfl
@[simp] theorem State.setStack_power (k : Nat) (x : Stack) : (s.setStack k x).power = s.power := rfl
@[simp] theorem State.setStack_routines (k : Nat) (x : Stack) : (s.setStack k x).routines = s.routines := rfl
@[simp] theorem State.setStack_freeCtr (k : Nat) (x : Stack) : (s.setStack k x).freeCtr = s.freeCtr := rfl
@[simp] theorem State.setStack_pending (k : Nat) (x : Stack) : (s.setStack k x).pending = s.pending := rfl

@[simp] theorem State.modStack_fuses (k : Nat) (f : Stack → Stack) : (s.modStack k f).fuses = s.fuses := rfl
@[simp] theorem State.modStack_tiles (k : Nat) (f : Stack → Stack) : (s.modStack k f).tiles = s.tiles := rfl
@[simp] theorem State.modStack_net (k : Nat) (f : Stack → Stack) : (s.modStack k f).net = s.net := rfl
@[simp] theorem State.modStack_domain (k : Nat) (f : Stack → Stack) : (s.modStack k f).domain = s.domain := rfl
@[simp] theorem State.modStack_pair (k : Nat) (f : Stack → Stack) : (s.modStack k f).pair = s.pair := rfl
@[simp] theorem State.modStack_clock (k : Nat) (f : Stack → Stack) : (s.modStack k f).clock = s.clock := rfl
@[simp] theorem State.modStack_host (k : Nat) (f : Stack → Stack) : (s.modStack k f).host = s.host := rfl
@[simp] theorem State.modStack_run (k : Nat) (f : Stack → Stack) : (s.modStack k f).run = s.run := rfl
@[simp] theorem State.modStack_blocks (k : Nat) (f : Stack → Stack) : (s.modStack k f).blocks = s.blocks := rfl
@[simp] theorem State.modStack_hostLock (k : Nat) (f : Stack → Stack) : (s.modStack k f).hostLock = s.hostLock := rfl
@[simp] theorem State.modStack_hostWign (k : Nat) (f : Stack → Stack) : (s.modStack k f).hostWign = s.hostWign := rfl
@[simp] theorem State.modStack_mgp (k : Nat) (f : Stack → Stack) : (s.modStack k f).mgp = s.mgp := rfl
@[simp] theorem State.modStack_sec (k : Nat) (f : Stack → Stack) : (s.modStack k f).sec = s.sec := rfl
@[simp] theorem State.modStack_power (k : Nat) (f : Stack → Stack) : (s.modStack k f).power = s.power := rfl
@[simp] theorem State.modStack_routines (k : Nat) (f : Stack → Stack) : (s.modStack k f).routines = s.routines := rfl
@[simp] theorem State.modStack_freeCtr (k : Nat) (f : Stack → Stack) : (s.modStack k f).freeCtr = s.freeCtr := rfl
@[simp] theorem State.modStack_pending (k : Nat) (f : Stack → Stack) : (s.modStack k f).pending = s.pending := rfl

@[simp] theorem State.setPort_fuses (k : Nat) (x : Port) : (s.setPort k x).fuses = s.fuses := rfl
@[simp] theorem State.setPort_tiles (k : Nat) (x : Port) : (s.setPort k x).tiles = s.tiles := rfl
@[simp] theorem State.setPort_net (k : Nat) (x : Port) : (s.setPort k x).net = s.net := rfl
@[simp] theorem State.setPort_mem (k : Nat) (x : Port) : (s.setPort k x).mem = s.mem := rfl
@[simp] theorem State.setPort_pair (k : Nat) (x : Port) : (s.setPort k x).pair = s.pair := rfl
@[simp] theorem State.setPort_clock (k : Nat) (x : Port) : (s.setPort k x).clock = s.clock := rfl
@[simp] theorem State.setPort_host (k : Nat) (x : Port) : (s.setPort k x).host = s.host := rfl
@[simp] theorem State.setPort_run (k : Nat) (x : Port) : (s.setPort k x).run = s.run := rfl
@[simp] theorem State.setPort_blocks (k : Nat) (x : Port) : (s.setPort k x).blocks = s.blocks := rfl
@[simp] theorem State.setPort_hostLock (k : Nat) (x : Port) : (s.setPort k x).hostLock = s.hostLock := rfl
@[simp] theorem State.setPort_hostWign (k : Nat) (x : Port) : (s.setPort k x).hostWign = s.hostWign := rfl
@[simp] theorem State.setPort_mgp (k : Nat) (x : Port) : (s.setPort k x).mgp = s.mgp := rfl
@[simp] theorem State.setPort_sec (k : Nat) (x : Port) : (s.setPort k x).sec = s.sec := rfl
@[simp] theorem State.setPort_power (k : Nat) (x : Port) : (s.setPort k x).power = s.power := rfl
@[simp] theorem State.setPort_routines (k : Nat) (x : Port) : (s.setPort k x).routines = s.routines := rfl
@[simp] theorem State.setPort_freeCtr (k : Nat) (x : Port) : (s.setPort k x).freeCtr = s.freeCtr := rfl
@[simp] theorem State.setPort_pending (k : Nat) (x : Port) : (s.setPort k x).pending = s.pending := rfl

@[simp] theorem State.modPort_fuses (k : Nat) (f : Port → Port) : (s.modPort k f).fuses = s.fuses := rfl
@[simp] theorem State.modPort_tiles (k : Nat) (f : Port → Port) : (s.modPort k f).tiles = s.tiles := rfl
@[simp] theorem State.modPort_net (k : Nat) (f : Port → Port) : (s.modPort k f).net = s.net := rfl
@[simp] theorem State.modPort_mem (k : Nat) (f : Port → Port) : (s.modPort k f).mem = s.mem := rfl
@[simp] theorem State.modPort_pair (k : Nat) (f : Port → Port) : (s.modPort k f).pair = s.pair := rfl
@[simp] theorem State.modPort_clock (k : Nat) (f : Port → Port) : (s.modPort k f).clock = s.clock := rfl
@[simp] theorem State.modPort_host (k : Nat) (f : Port → Port) : (s.modPort k f).host = s.host := rfl
@[simp] theorem State.modPort_run (k : Nat) (f : Port → Port) : (s.modPort k f).run = s.run := rfl
@[simp] theorem State.modPort_blocks (k : Nat) (f : Port → Port) : (s.modPort k f).blocks = s.blocks := rfl
@[simp] theorem State.modPort_hostLock (k : Nat) (f : Port → Port) : (s.modPort k f).hostLock = s.hostLock := rfl
@[simp] theorem State.modPort_hostWign (k : Nat) (f : Port → Port) : (s.modPort k f).hostWign = s.hostWign := rfl
@[simp] theorem State.modPort_mgp (k : Nat) (f : Port → Port) : (s.modPort k f).mgp = s.mgp := rfl
@[simp] theorem State.modPort_sec (k : Nat) (f : Port → Port) : (s.modPort k f).sec = s.sec := rfl
@[simp] theorem State.modPort_power (k : Nat) (f : Port → Port) : (s.modPort k f).power = s.power := rfl
@[simp] theorem State.modPort_routines (k : Nat) (f : Port → Port) : (s.modPort k f).routines = s.routines := rfl
@[simp] theorem State.modPort_freeCtr (k : Nat) (f : Port → Port) : (s.modPort k f).freeCtr = s.freeCtr := rfl
@[simp] theorem State.modPort_pending (k : Nat) (f : Port → Port) : (s.modPort k f).pending = s.pending := rfl

@[simp] theorem State.modRegion_fuses (k : Nat) (f : RegionState → RegionState) : (s.modRegion k f).fuses = s.fuses := rfl
@[simp] theorem State.modRegion_tiles (k : Nat) (f : RegionState → RegionState) : (s.modRegion k f).tiles = s.tiles := rfl
@[simp] theorem State.modRegion_net (k : Nat) (f : RegionState → RegionState) : (s.modRegion k f).net = s.net := rfl
@[simp] theorem State.modRegion_mem (k : Nat) (f : RegionState → RegionState) : (s.modRegion k f).mem = s.mem := rfl
@[simp] theorem State.modRegion_domain (k : Nat) (f : RegionState → RegionState) : (s.modRegion k f).domain = s.domain := rfl
@[simp] theorem State.modRegion_pair (k : Nat) (f : RegionState → RegionState) : (s.modRegion k f).pair = s.pair := rfl
@[simp] theorem State.modRegion_host (k : Nat) (f : RegionState → RegionState) : (s.modRegion k f).host = s.host := rfl
@[simp] theorem State.modRegion_run (k : Nat) (f : RegionState → RegionState) : (s.modRegion k f).run = s.run := rfl
@[simp] theorem State.modRegion_blocks (k : Nat) (f : RegionState → RegionState) : (s.modRegion k f).blocks = s.blocks := rfl
@[simp] theorem State.modRegion_hostLock (k : Nat) (f : RegionState → RegionState) : (s.modRegion k f).hostLock = s.hostLock := rfl
@[simp] theorem State.modRegion_hostWign (k : Nat) (f : RegionState → RegionState) : (s.modRegion k f).hostWign = s.hostWign := rfl
@[simp] theorem State.modRegion_mgp (k : Nat) (f : RegionState → RegionState) : (s.modRegion k f).mgp = s.mgp := rfl
@[simp] theorem State.modRegion_sec (k : Nat) (f : RegionState → RegionState) : (s.modRegion k f).sec = s.sec := rfl
@[simp] theorem State.modRegion_power (k : Nat) (f : RegionState → RegionState) : (s.modRegion k f).power = s.power := rfl
@[simp] theorem State.modRegion_routines (k : Nat) (f : RegionState → RegionState) : (s.modRegion k f).routines = s.routines := rfl
@[simp] theorem State.modRegion_freeCtr (k : Nat) (f : RegionState → RegionState) : (s.modRegion k f).freeCtr = s.freeCtr := rfl
@[simp] theorem State.modRegion_pending (k : Nat) (f : RegionState → RegionState) : (s.modRegion k f).pending = s.pending := rfl

@[simp] theorem State.modBlock_fuses (k : Nat) (f : Block → Block) : (s.modBlock k f).fuses = s.fuses := rfl
@[simp] theorem State.modBlock_tiles (k : Nat) (f : Block → Block) : (s.modBlock k f).tiles = s.tiles := rfl
@[simp] theorem State.modBlock_net (k : Nat) (f : Block → Block) : (s.modBlock k f).net = s.net := rfl
@[simp] theorem State.modBlock_mem (k : Nat) (f : Block → Block) : (s.modBlock k f).mem = s.mem := rfl
@[simp] theorem State.modBlock_domain (k : Nat) (f : Block → Block) : (s.modBlock k f).domain = s.domain := rfl
@[simp] theorem State.modBlock_pair (k : Nat) (f : Block → Block) : (s.modBlock k f).pair = s.pair := rfl
@[simp] theorem State.modBlock_clock (k : Nat) (f : Block → Block) : (s.modBlock k f).clock = s.clock := rfl
@[simp] theorem State.modBlock_host (k : Nat) (f : Block → Block) : (s.modBlock k f).host = s.host := rfl
@[simp] theorem State.modBlock_run (k : Nat) (f : Block → Block) : (s.modBlock k f).run = s.run := rfl
@[simp] theorem State.modBlock_hostLock (k : Nat) (f : Block → Block) : (s.modBlock k f).hostLock = s.hostLock := rfl
@[simp] theorem State.modBlock_hostWign (k : Nat) (f : Block → Block) : (s.modBlock k f).hostWign = s.hostWign := rfl
@[simp] theorem State.modBlock_mgp (k : Nat) (f : Block → Block) : (s.modBlock k f).mgp = s.mgp := rfl
@[simp] theorem State.modBlock_sec (k : Nat) (f : Block → Block) : (s.modBlock k f).sec = s.sec := rfl
@[simp] theorem State.modBlock_power (k : Nat) (f : Block → Block) : (s.modBlock k f).power = s.power := rfl
@[simp] theorem State.modBlock_routines (k : Nat) (f : Block → Block) : (s.modBlock k f).routines = s.routines := rfl
@[simp] theorem State.modBlock_freeCtr (k : Nat) (f : Block → Block) : (s.modBlock k f).freeCtr = s.freeCtr := rfl
@[simp] theorem State.modBlock_pending (k : Nat) (f : Block → Block) : (s.modBlock k f).pending = s.pending := rfl

@[simp] theorem State.setHbm_fuses (m : Memory) : (s.setHbm m).fuses = s.fuses := rfl
@[simp] theorem State.setHbm_tiles (m : Memory) : (s.setHbm m).tiles = s.tiles := rfl
@[simp] theorem State.setHbm_net (m : Memory) : (s.setHbm m).net = s.net := rfl
@[simp] theorem State.setHbm_domain (m : Memory) : (s.setHbm m).domain = s.domain := rfl
@[simp] theorem State.setHbm_pair (m : Memory) : (s.setHbm m).pair = s.pair := rfl
@[simp] theorem State.setHbm_clock (m : Memory) : (s.setHbm m).clock = s.clock := rfl
@[simp] theorem State.setHbm_host (m : Memory) : (s.setHbm m).host = s.host := rfl
@[simp] theorem State.setHbm_run (m : Memory) : (s.setHbm m).run = s.run := rfl
@[simp] theorem State.setHbm_blocks (m : Memory) : (s.setHbm m).blocks = s.blocks := rfl
@[simp] theorem State.setHbm_hostLock (m : Memory) : (s.setHbm m).hostLock = s.hostLock := rfl
@[simp] theorem State.setHbm_hostWign (m : Memory) : (s.setHbm m).hostWign = s.hostWign := rfl
@[simp] theorem State.setHbm_mgp (m : Memory) : (s.setHbm m).mgp = s.mgp := rfl
@[simp] theorem State.setHbm_sec (m : Memory) : (s.setHbm m).sec = s.sec := rfl
@[simp] theorem State.setHbm_power (m : Memory) : (s.setHbm m).power = s.power := rfl
@[simp] theorem State.setHbm_routines (m : Memory) : (s.setHbm m).routines = s.routines := rfl
@[simp] theorem State.setHbm_freeCtr (m : Memory) : (s.setHbm m).freeCtr = s.freeCtr := rfl
@[simp] theorem State.setHbm_pending (m : Memory) : (s.setHbm m).pending = s.pending := rfl

@[simp] theorem State.writeHbm_fuses (a : Nat) (bs : Bytes) : (s.writeHbm a bs).fuses = s.fuses := rfl
@[simp] theorem State.writeHbm_tiles (a : Nat) (bs : Bytes) : (s.writeHbm a bs).tiles = s.tiles := rfl
@[simp] theorem State.writeHbm_net (a : Nat) (bs : Bytes) : (s.writeHbm a bs).net = s.net := rfl
@[simp] theorem State.writeHbm_domain (a : Nat) (bs : Bytes) : (s.writeHbm a bs).domain = s.domain := rfl
@[simp] theorem State.writeHbm_pair (a : Nat) (bs : Bytes) : (s.writeHbm a bs).pair = s.pair := rfl
@[simp] theorem State.writeHbm_clock (a : Nat) (bs : Bytes) : (s.writeHbm a bs).clock = s.clock := rfl
@[simp] theorem State.writeHbm_host (a : Nat) (bs : Bytes) : (s.writeHbm a bs).host = s.host := rfl
@[simp] theorem State.writeHbm_run (a : Nat) (bs : Bytes) : (s.writeHbm a bs).run = s.run := rfl
@[simp] theorem State.writeHbm_blocks (a : Nat) (bs : Bytes) : (s.writeHbm a bs).blocks = s.blocks := rfl
@[simp] theorem State.writeHbm_hostLock (a : Nat) (bs : Bytes) : (s.writeHbm a bs).hostLock = s.hostLock := rfl
@[simp] theorem State.writeHbm_hostWign (a : Nat) (bs : Bytes) : (s.writeHbm a bs).hostWign = s.hostWign := rfl
@[simp] theorem State.writeHbm_mgp (a : Nat) (bs : Bytes) : (s.writeHbm a bs).mgp = s.mgp := rfl
@[simp] theorem State.writeHbm_sec (a : Nat) (bs : Bytes) : (s.writeHbm a bs).sec = s.sec := rfl
@[simp] theorem State.writeHbm_power (a : Nat) (bs : Bytes) : (s.writeHbm a bs).power = s.power := rfl
@[simp] theorem State.writeHbm_routines (a : Nat) (bs : Bytes) : (s.writeHbm a bs).routines = s.routines := rfl
@[simp] theorem State.writeHbm_freeCtr (a : Nat) (bs : Bytes) : (s.writeHbm a bs).freeCtr = s.freeCtr := rfl
@[simp] theorem State.writeHbm_pending (a : Nat) (bs : Bytes) : (s.writeHbm a bs).pending = s.pending := rfl

@[simp] theorem State.drawn_fuses (n : Nat) : (s.drawn n).fuses = s.fuses := rfl
@[simp] theorem State.drawn_tiles (n : Nat) : (s.drawn n).tiles = s.tiles := rfl
@[simp] theorem State.drawn_net (n : Nat) : (s.drawn n).net = s.net := rfl
@[simp] theorem State.drawn_mem (n : Nat) : (s.drawn n).mem = s.mem := rfl
@[simp] theorem State.drawn_domain (n : Nat) : (s.drawn n).domain = s.domain := rfl
@[simp] theorem State.drawn_pair (n : Nat) : (s.drawn n).pair = s.pair := rfl
@[simp] theorem State.drawn_clock (n : Nat) : (s.drawn n).clock = s.clock := rfl
@[simp] theorem State.drawn_host (n : Nat) : (s.drawn n).host = s.host := rfl
@[simp] theorem State.drawn_run (n : Nat) : (s.drawn n).run = s.run := rfl
@[simp] theorem State.drawn_blocks (n : Nat) : (s.drawn n).blocks = s.blocks := rfl
@[simp] theorem State.drawn_hostLock (n : Nat) : (s.drawn n).hostLock = s.hostLock := rfl
@[simp] theorem State.drawn_hostWign (n : Nat) : (s.drawn n).hostWign = s.hostWign := rfl
@[simp] theorem State.drawn_mgp (n : Nat) : (s.drawn n).mgp = s.mgp := rfl
@[simp] theorem State.drawn_sec (n : Nat) : (s.drawn n).sec = s.sec := rfl
@[simp] theorem State.drawn_power (n : Nat) : (s.drawn n).power = s.power := rfl
@[simp] theorem State.drawn_routines (n : Nat) : (s.drawn n).routines = s.routines := rfl
@[simp] theorem State.drawn_pending (n : Nat) : (s.drawn n).pending = s.pending := rfl

@[simp] theorem State.mapTiles_fuses (f : Tile → Tile) : (s.mapTiles f).fuses = s.fuses := rfl
@[simp] theorem State.mapTiles_net (f : Tile → Tile) : (s.mapTiles f).net = s.net := rfl
@[simp] theorem State.mapTiles_mem (f : Tile → Tile) : (s.mapTiles f).mem = s.mem := rfl
@[simp] theorem State.mapTiles_domain (f : Tile → Tile) : (s.mapTiles f).domain = s.domain := rfl
@[simp] theorem State.mapTiles_pair (f : Tile → Tile) : (s.mapTiles f).pair = s.pair := rfl
@[simp] theorem State.mapTiles_clock (f : Tile → Tile) : (s.mapTiles f).clock = s.clock := rfl
@[simp] theorem State.mapTiles_host (f : Tile → Tile) : (s.mapTiles f).host = s.host := rfl
@[simp] theorem State.mapTiles_run (f : Tile → Tile) : (s.mapTiles f).run = s.run := rfl
@[simp] theorem State.mapTiles_blocks (f : Tile → Tile) : (s.mapTiles f).blocks = s.blocks := rfl
@[simp] theorem State.mapTiles_hostLock (f : Tile → Tile) : (s.mapTiles f).hostLock = s.hostLock := rfl
@[simp] theorem State.mapTiles_hostWign (f : Tile → Tile) : (s.mapTiles f).hostWign = s.hostWign := rfl
@[simp] theorem State.mapTiles_mgp (f : Tile → Tile) : (s.mapTiles f).mgp = s.mgp := rfl
@[simp] theorem State.mapTiles_sec (f : Tile → Tile) : (s.mapTiles f).sec = s.sec := rfl
@[simp] theorem State.mapTiles_power (f : Tile → Tile) : (s.mapTiles f).power = s.power := rfl
@[simp] theorem State.mapTiles_routines (f : Tile → Tile) : (s.mapTiles f).routines = s.routines := rfl
@[simp] theorem State.mapTiles_freeCtr (f : Tile → Tile) : (s.mapTiles f).freeCtr = s.freeCtr := rfl
@[simp] theorem State.mapTiles_pending (f : Tile → Tile) : (s.mapTiles f).pending = s.pending := rfl

@[simp] theorem State.drawn_freeCtr (n : Nat) : (s.drawn n).freeCtr = s.freeCtr + n := rfl

@[simp] theorem State.setTile_same (k : Nat) (x : Tile) : (s.setTile k x).tile k = x := by simp [State.setTile, State.tile]
theorem State.setTile_other (k j : Nat) (x : Tile) (h : j ≠ k) : (s.setTile k x).tile j = s.tile j := by
  simp [State.setTile, State.tile, mget_mset_other _ _ k j x h]
@[simp] theorem State.modTile_same (k : Nat) (f : Tile → Tile) : (s.modTile k f).tile k = f (s.tile k) := by simp [State.modTile]
theorem State.modTile_other (k j : Nat) (f : Tile → Tile) (h : j ≠ k) : (s.modTile k f).tile j = s.tile j :=
  State.setTile_other s k j _ h
@[simp] theorem State.setTile_setTile (k : Nat) (x y : Tile) : (s.setTile k x).setTile k y = s.setTile k y := by
  simp [State.setTile]
@[simp] theorem State.modTile_setTile (k : Nat) (f : Tile → Tile) (y : Tile) : (s.modTile k f).setTile k y = s.setTile k y := by
  simp [State.modTile]
@[simp] theorem State.setTile_modTile (k : Nat) (x : Tile) (f : Tile → Tile) : (s.setTile k x).modTile k f = s.setTile k (f x) := by
  simp [State.modTile]
@[simp] theorem State.modTile_modTile (k : Nat) (f g : Tile → Tile) :
    (s.modTile k f).modTile k g = s.modTile k (fun x => g (f x)) := by
  simp [State.modTile]

@[simp] theorem State.setStack_same (k : Nat) (x : Stack) : (s.setStack k x).stack k = x := by simp [State.setStack, State.stack]
theorem State.setStack_other (k j : Nat) (x : Stack) (h : j ≠ k) : (s.setStack k x).stack j = s.stack j := by
  simp [State.setStack, State.stack, mget_mset_other _ _ k j x h]
@[simp] theorem State.modStack_same (k : Nat) (f : Stack → Stack) : (s.modStack k f).stack k = f (s.stack k) := by simp [State.modStack]
theorem State.modStack_other (k j : Nat) (f : Stack → Stack) (h : j ≠ k) : (s.modStack k f).stack j = s.stack j :=
  State.setStack_other s k j _ h
@[simp] theorem State.setStack_setStack (k : Nat) (x y : Stack) : (s.setStack k x).setStack k y = s.setStack k y := by
  simp [State.setStack]
@[simp] theorem State.modStack_setStack (k : Nat) (f : Stack → Stack) (y : Stack) : (s.modStack k f).setStack k y = s.setStack k y := by
  simp [State.modStack]
@[simp] theorem State.setStack_modStack (k : Nat) (x : Stack) (f : Stack → Stack) : (s.setStack k x).modStack k f = s.setStack k (f x) := by
  simp [State.modStack]
@[simp] theorem State.modStack_modStack (k : Nat) (f g : Stack → Stack) :
    (s.modStack k f).modStack k g = s.modStack k (fun x => g (f x)) := by
  simp [State.modStack]

@[simp] theorem State.setPort_same (k : Nat) (x : Port) : (s.setPort k x).port k = x := by simp [State.setPort, State.port]
theorem State.setPort_other (k j : Nat) (x : Port) (h : j ≠ k) : (s.setPort k x).port j = s.port j := by
  simp [State.setPort, State.port, mget_mset_other _ _ k j x h]
@[simp] theorem State.modPort_same (k : Nat) (f : Port → Port) : (s.modPort k f).port k = f (s.port k) := by simp [State.modPort]
theorem State.modPort_other (k j : Nat) (f : Port → Port) (h : j ≠ k) : (s.modPort k f).port j = s.port j :=
  State.setPort_other s k j _ h
@[simp] theorem State.setPort_setPort (k : Nat) (x y : Port) : (s.setPort k x).setPort k y = s.setPort k y := by
  simp [State.setPort]
@[simp] theorem State.modPort_setPort (k : Nat) (f : Port → Port) (y : Port) : (s.modPort k f).setPort k y = s.setPort k y := by
  simp [State.modPort]
@[simp] theorem State.setPort_modPort (k : Nat) (x : Port) (f : Port → Port) : (s.setPort k x).modPort k f = s.setPort k (f x) := by
  simp [State.modPort]
@[simp] theorem State.modPort_modPort (k : Nat) (f g : Port → Port) :
    (s.modPort k f).modPort k g = s.modPort k (fun x => g (f x)) := by
  simp [State.modPort]

@[simp] theorem State.modRegion_same (k : Nat) (f : RegionState → RegionState) :
    (s.modRegion k f).region k = f (s.region k) := by simp [State.modRegion, State.region]
theorem State.modRegion_other (k j : Nat) (f : RegionState → RegionState) (h : j ≠ k) :
    (s.modRegion k f).region j = s.region j := by
  simp [State.modRegion, State.region, mget_mset_other _ _ k j _ h]
@[simp] theorem State.modBlock_same (k : Nat) (f : Block → Block) : (s.modBlock k f).block k = f (s.block k) := by
  simp [State.modBlock, State.block]
theorem State.modBlock_other (k j : Nat) (f : Block → Block) (h : j ≠ k) : (s.modBlock k f).block j = s.block j := by
  simp [State.modBlock, State.block, mfind_mset_other _ k j _ h]
@[simp] theorem State.modBlock_modBlock (k : Nat) (f g : Block → Block) :
    (s.modBlock k f).modBlock k g = s.modBlock k (fun x => g (f x)) := by
  simp [State.modBlock, State.block]

@[simp] theorem State.setTile_stack (k j : Nat) (x : Tile) : (s.setTile k x).stack j = s.stack j := rfl
@[simp] theorem State.modTile_stack (k j : Nat) (f : Tile → Tile) : (s.modTile k f).stack j = s.stack j := rfl
@[simp] theorem State.setTile_port (k j : Nat) (x : Tile) : (s.setTile k x).port j = s.port j := rfl
@[simp] theorem State.modTile_port (k j : Nat) (f : Tile → Tile) : (s.modTile k f).port j = s.port j := rfl
@[simp] theorem State.setTile_region (k j : Nat) (x : Tile) : (s.setTile k x).region j = s.region j := rfl
@[simp] theorem State.modTile_region (k j : Nat) (f : Tile → Tile) : (s.modTile k f).region j = s.region j := rfl
@[simp] theorem State.setTile_block (k j : Nat) (x : Tile) : (s.setTile k x).block j = s.block j := rfl
@[simp] theorem State.modTile_block (k j : Nat) (f : Tile → Tile) : (s.modTile k f).block j = s.block j := rfl
@[simp] theorem State.modStack_tile (k j : Nat) (f : Stack → Stack) : (s.modStack k f).tile j = s.tile j := rfl
@[simp] theorem State.modPort_tile (k j : Nat) (f : Port → Port) : (s.modPort k f).tile j = s.tile j := rfl
@[simp] theorem State.modRegion_tile (k j : Nat) (f : RegionState → RegionState) : (s.modRegion k f).tile j = s.tile j := rfl
@[simp] theorem State.modBlock_tile (k j : Nat) (f : Block → Block) : (s.modBlock k f).tile j = s.tile j := rfl
@[simp] theorem State.drawn_tile (n j : Nat) : (s.drawn n).tile j = s.tile j := rfl

/-! ### Registers -/

@[simp] theorem Regs.getG_setG (r : Regs) (i : Nat) (v : DWord) : (r.setG i v).getG i = v := by
  simp [Regs.getG, Regs.setG]
theorem Regs.getG_setG_other (r : Regs) (i j : Nat) (v : DWord) (h : j ≠ i) : (r.setG i v).getG j = r.getG j := by
  simp [Regs.getG, Regs.setG, mget_mset_other _ _ i j v h]
@[simp] theorem Regs.getP_setG (r : Regs) (i j : Nat) (v : DWord) : (r.setG i v).getP j = r.getP j := rfl
@[simp] theorem Regs.getL_setG (r : Regs) (i j : Nat) (v : DWord) : (r.setG i v).getL j = r.getL j := rfl
@[simp] theorem Regs.getM_setG (r : Regs) (i j : Nat) (v : DWord) : (r.setG i v).getM j = r.getM j := rfl
@[simp] theorem Regs.getV_setG (r : Regs) (i j n : Nat) (v : DWord) : (r.setG i v).getV j n = r.getV j n := rfl
@[simp] theorem Regs.getP_setP (r : Regs) (i : Nat) (v : DWord) : (r.setP i v).getP i = v := by
  simp [Regs.getP, Regs.setP]
theorem Regs.getP_setP_other (r : Regs) (i j : Nat) (v : DWord) (h : j ≠ i) : (r.setP i v).getP j = r.getP j := by
  simp [Regs.getP, Regs.setP, mget_mset_other _ _ i j v h]
@[simp] theorem Regs.getG_setP (r : Regs) (i j : Nat) (v : DWord) : (r.setP i v).getG j = r.getG j := rfl
@[simp] theorem Regs.getL_setP (r : Regs) (i j : Nat) (v : DWord) : (r.setP i v).getL j = r.getL j := rfl
@[simp] theorem Regs.getM_setP (r : Regs) (i j : Nat) (v : DWord) : (r.setP i v).getM j = r.getM j := rfl
@[simp] theorem Regs.getV_setP (r : Regs) (i j n : Nat) (v : DWord) : (r.setP i v).getV j n = r.getV j n := rfl
@[simp] theorem Regs.getL_setL (r : Regs) (i : Nat) (v : Word) : (r.setL i v).getL i = v := by
  simp [Regs.getL, Regs.setL]
theorem Regs.getL_setL_other (r : Regs) (i j : Nat) (v : Word) (h : j ≠ i) : (r.setL i v).getL j = r.getL j := by
  simp [Regs.getL, Regs.setL, mget_mset_other _ _ i j v h]
@[simp] theorem Regs.getG_setL (r : Regs) (i j : Nat) (v : Word) : (r.setL i v).getG j = r.getG j := rfl
@[simp] theorem Regs.getP_setL (r : Regs) (i j : Nat) (v : Word) : (r.setL i v).getP j = r.getP j := rfl
@[simp] theorem Regs.getM_setL (r : Regs) (i j : Nat) (v : Word) : (r.setL i v).getM j = r.getM j := rfl
@[simp] theorem Regs.getV_setL (r : Regs) (i j n : Nat) (v : Word) : (r.setL i v).getV j n = r.getV j n := rfl
@[simp] theorem Regs.getM_setM (r : Regs) (i : Nat) (v : BitVec 256) : (r.setM i v).getM i = v := by
  simp [Regs.getM, Regs.setM]
theorem Regs.getM_setM_other (r : Regs) (i j : Nat) (v : BitVec 256) (h : j ≠ i) : (r.setM i v).getM j = r.getM j := by
  simp [Regs.getM, Regs.setM, mget_mset_other _ _ i j v h]
@[simp] theorem Regs.getG_setM (r : Regs) (i j : Nat) (v : BitVec 256) : (r.setM i v).getG j = r.getG j := rfl
@[simp] theorem Regs.getP_setM (r : Regs) (i j : Nat) (v : BitVec 256) : (r.setM i v).getP j = r.getP j := rfl
@[simp] theorem Regs.getL_setM (r : Regs) (i j : Nat) (v : BitVec 256) : (r.setM i v).getL j = r.getL j := rfl
@[simp] theorem Regs.getV_setM (r : Regs) (i j n : Nat) (v : BitVec 256) : (r.setM i v).getV j n = r.getV j n := rfl

end Sys2Proof.Machine
end

