-- ==== Sys2Proof/Laws/Issue.lean ====
section
/-! SUPPORT. What issuing does: an operation that issues acts on the state in which its bundle has issued and its slot has come, a
bundle whose wait points do not all hold only holds its tile, and an operation that may not issue does nothing. -/

namespace Sys2Proof.Machine

/-- Without an error the codes change nothing. -/
theorem eccGuard_none (i : Iss) (f : State → Res) (s : State) (h : i.ecc = .none) : eccGuard i f s = f s := by
  unfold eccGuard; simp [h]

/-- An operation that issues acts on the state in which its bundle has issued. -/
theorem issueOn_issues {s : State} {i : Iss} {slot : Byte} {own : List WaitPoint} (h : IssuesOn s i slot own)
    (f : State → Res) : issueOn i slot own true s f = f (begun s i slot) := by
  obtain ⟨h1, _, h3, h4⟩ := h
  by_cases hb : inBundle s i = true
  · rw [if_pos hb] at h4
    obtain ⟨h5, h6, h7⟩ := h4
    simp only [issueOn, h1, hb, h5, h3, h6, h7, begun, Tile.begunAt, Bool.not_true, Bool.and_self, if_true, if_false,
      Bool.false_eq_true]
  · rw [if_neg hb] at h4
    obtain ⟨h5, h6⟩ := h4
    simp only [Bool.not_eq_true] at hb
    simp only [issueOn, h1, hb, h5, h3, h6, begun, Tile.begunAt, Bool.not_true, Bool.and_self, if_true, if_false,
      Bool.false_eq_true]

/-- The same under the codes. -/
theorem guard_issues {s : State} {i : Iss} {slot : Byte} {own : List WaitPoint} (h : IssuesOn s i slot own)
    (f : State → Res) : eccGuard i (fun s => issueOn i slot own true s f) s = f (begun s i slot) := by
  rw [eccGuard_none i _ s h.2.1, issueOn_issues h]

/-- A bundle with a wait point that does not hold is held at all of them, and nothing else happens. -/
theorem issueOn_waits {s : State} {i : Iss} {own : List WaitPoint} (h : Waits s i own) (slot : Byte) (f : State → Res) :
    issueOn i slot own true s f = .next (s.holdAt i (bundleWaits i own)) := by
  obtain ⟨h1, _, h3, h4, h5, h6⟩ := h
  simp only [issueOn, h1, h3, h4, h5, h6, Bool.not_true, Bool.and_self, if_false, Bool.false_eq_true]

/-- Where the tile may not issue the bundle nothing happens. -/
theorem issueOn_idle {s : State} {i : Iss} (h : mayIssue s i = false) (slot : Byte) (own : List WaitPoint) (wf : Bool)
    (f : State → Res) : issueOn i slot own wf s f = .next s := by
  simp [issueOn, h]

/-- A missing line stops the bundle before any of its operations (R227). -/
theorem issueOn_miss {s : State} {i : Iss} (h1 : mayIssue s i = true) (h2 : inBundle s i = false)
    (h3 : storeHolds (s.tile i.tile.val) i.bundle = false) (slot : Byte) (own : List WaitPoint) (wf : Bool)
    (f : State → Res) : issueOn i slot own wf s f = .next (missLine s i) := by
  simp [issueOn, h1, h2, h3]

@[simp] theorem begun_tile (s : State) (i : Iss) (slot : Byte) :
    (begun s i slot).tile i.tile.val = (s.tile i.tile.val).begunAt s i slot := by
  simp [begun]

end Sys2Proof.Machine
end

