-- ==== Sys2Proof/Laws/PerInstr.lean ====
section
/-! SUPPORT. One family of statements over the commands: the body of a well-formed command fits in the largest packet of
R513 (four slots, so 4056 bytes of body) and its opcode in the 2 bytes of the header; a row that no packet carries has no
body. -/

namespace Sys2Proof.Laws

open Sys2Proof Sys2Proof.Machine

/-! ### Lengths of the fields and bodies -/

@[simp] theorem leBytes_length (n v : Nat) : (leBytes n v).length = n := by
  induction n generalizing v with
  | zero => rfl
  | succ n ih => simp [leBytes, ih]

@[simp] theorem zeros_length (n : Nat) : (zeros n).length = n := by simp [zeros]
@[simp] theorem le1_length (v : Byte) : (le1 v).length = 1 := leBytes_length 1 _
@[simp] theorem le2_length (v : BitVec 16) : (le2 v).length = 2 := leBytes_length 2 _
@[simp] theorem le4_length (v : Word) : (le4 v).length = 4 := leBytes_length 4 _
@[simp] theorem le8_length (v : DWord) : (le8 v).length = 8 := leBytes_length 8 _
@[simp] theorem keyBytes_length (k : Key) : (keyBytes k).length = 32 := by simp [keyBytes]
@[simp] theorem signatureBytes_length (k : Signature) : (signatureBytes k).length = 64 := by simp [signatureBytes]
@[simp] theorem digestBytes_length (d : Digest) : (digestBytes d).length = 64 := by
  simp [digestBytes, beBytes]
@[simp] theorem openBytes_length (b : OpenBody) : (openBytes b).length = 16 := by simp [openBytes]
@[simp] theorem loadBytes_length (b : LoadBody) : (loadBytes b).length = 32 := by simp [loadBytes]
@[simp] theorem dmaBytes_length (b : DmaBody) : (dmaBytes b).length = 40 := by simp [dmaBytes]
@[simp] theorem domainBytes_length (b : DomainBody) : (domainBytes b).length = 40 := by simp [domainBytes]
@[simp] theorem announceBytes_length (k : Nat) (b : AnnounceBody) : (announceBytes k b).length = 24 := by
  simp [announceBytes]
@[simp] theorem leaseReplyBytes_length (r : LeaseReplyMsg) : (leaseReplyBytes r).length = 93 := by simp [leaseReplyBytes]
@[simp] theorem writeSyncBytes_length (o a : Nat) (t n : BitVec 16) (v : Word) :
    (writeSyncBytes o a t n v).length = 14 := by simp [writeSyncBytes]
@[simp] theorem patchBytes_length (p : PatchEntry) : (patchBytes p).length = 16 := by simp [patchBytes]

/-- The pairs of MEMORY_LAYOUT take two bytes each. -/
@[simp] theorem bandBytes_length (ps : List (Byte × Byte)) : (bandBytes ps).length = 2 * ps.length := by
  induction ps with
  | nil => rfl
  | cons p r ih =>
    simp only [bandBytes, List.flatMap_cons, List.length_append, le1_length, List.length_cons] at ih ⊢
    omega

/-- A RUN body is 24 bytes and 16 for each patch. -/
@[simp] theorem runBytes_length (b : RunBody) (ps : List PatchEntry) : (runBytes b ps).length = 24 + 16 * ps.length := by
  have h : (ps.flatMap patchBytes).length = 16 * ps.length := by
    induction ps with
    | nil => rfl
    | cons p r ih =>
      simp only [List.flatMap_cons, List.length_append, patchBytes_length, List.length_cons, ih]
      omega
  simp only [runBytes, List.length_append, le1_length, le2_length, le4_length, le8_length, zeros_length, leBytes_length, h]

/-! ### The family -/

/-- What a packet carries of a well-formed command fits in it. -/
def CommandShape.Statement (i : Instr) : Prop :=
  wellFormed i = true → ∀ h op bs, encodeBody i = some (h, op, bs) → bs.length ≤ 4056 ∧ op < 65536

/-- A row that no packet carries. -/
theorem CommandShape.ofNone {i : Instr} (e : encodeBody i = none) : CommandShape.Statement i := by
  intro _ h op bs e2
  rw [e] at e2
  cases e2

/-- A row that a packet carries. -/
theorem CommandShape.ofBody {i : Instr} {h : Hdr} {op : Nat} {bs : Bytes} (e : encodeBody i = some (h, op, bs)) (hb : wellFormed i = true → bs.length ≤ 4056)
    (ho : op < 65536) : CommandShape.Statement i := by
  intro w h2 op2 bs2 e2
  rw [e] at e2
  cases e2
  exact ⟨hb w, ho⟩

theorem CommandShape.inboxCommit (offset : Nat) (data : Bytes) (body : Option ImageBody) :
    Statement (Instr.inboxCommit offset data body) := ofNone rfl

theorem CommandShape.mctpMessage (packet : Bytes) (body : Option ImageBody) :
    Statement (Instr.mctpMessage packet body) := ofNone rfl

theorem CommandShape.outboxReplyWrite :
    Statement Instr.outboxReplyWrite := ofNone rfl

theorem CommandShape.coalescingIntervalExpiry (vector : Fin 16) :
    Statement (Instr.coalescingIntervalExpiry vector) := ofNone rfl

theorem CommandShape.sessionOpen (h : Hdr) (b : OpenBody) :
    Statement (Instr.sessionOpen h b) := ofBody rfl (fun _ => by simp) (by decide)

theorem CommandShape.sessionClose (h : Hdr) :
    Statement (Instr.sessionClose h) := ofBody rfl (fun _ => by simp) (by decide)

theorem CommandShape.nop (h : Hdr) :
    Statement (Instr.nop h) := ofBody rfl (fun _ => by simp) (by decide)

theorem CommandShape.identify (h : Hdr) :
    Statement (Instr.identify h) := ofBody rfl (fun _ => by simp) (by decide)

theorem CommandShape.sessionTake (h : Hdr) (b : OpenBody) :
    Statement (Instr.sessionTake h b) := ofBody rfl (fun _ => by simp) (by decide)

theorem CommandShape.loadImage (h : Hdr) (b : LoadBody) (body : Option ImageBody) :
    Statement (Instr.loadImage h b body) := ofBody rfl (fun _ => by simp) (by decide)

theorem CommandShape.verifyImage (h : Hdr) (b : LoadBody) (body : Option ImageBody) :
    Statement (Instr.verifyImage h b body) := ofBody rfl (fun _ => by simp) (by decide)

theorem CommandShape.unloadImage (h : Hdr) (handle : Byte) :
    Statement (Instr.unloadImage h handle) := ofBody rfl (fun _ => by simp) (by decide)

theorem CommandShape.listImages (h : Hdr) :
    Statement (Instr.listImages h) := ofBody rfl (fun _ => by simp) (by decide)

theorem CommandShape.dmaStart (h : Hdr) (b : DmaBody) :
    Statement (Instr.dmaStart h b) := ofBody rfl (fun _ => by simp) (by decide)

theorem CommandShape.dmaComplete (channel : Fin 16) (hostData : Bytes) :
    Statement (Instr.dmaComplete channel hostData) := ofNone rfl

theorem CommandShape.dmaAbort (h : Hdr) (channel : Byte) :
    Statement (Instr.dmaAbort h channel) := ofBody rfl (fun _ => by simp) (by decide)

theorem CommandShape.dmaStatus (h : Hdr) (channel : Byte) :
    Statement (Instr.dmaStatus h channel) := ofBody rfl (fun _ => by simp) (by decide)

theorem CommandShape.apertureMove (h : Hdr) (base : DWord) :
    Statement (Instr.apertureMove h base) := ofBody rfl (fun _ => by simp) (by decide)

theorem CommandShape.apertureAccess (op : ApertureOp) :
    Statement (Instr.apertureAccess op) := ofNone rfl

theorem CommandShape.memoryLayout (h : Hdr) (firstBand count : Byte) (bands : List (Byte × Byte)) :
    Statement (Instr.memoryLayout h firstBand count bands) := by
  refine ofBody rfl (fun w => ?_) (by decide)
  have e : bands.length = count.toNat := by
    simpa [wellFormed, packetWf, slotWf, eventWf] using w
  have := count.isLt
  simp only [List.length_append, le1_length, bandBytes_length]
  omega

theorem CommandShape.bandZeroingDone (band : Fin 80) :
    Statement (Instr.bandZeroingDone band) := ofNone rfl

theorem CommandShape.run (h : Hdr) (b : RunBody) (patches : List PatchEntry) :
    Statement (Instr.run h b patches) := by
  refine ofBody rfl (fun w => ?_) (by decide)
  have e : patches.length ≤ 252 := by
    simpa [wellFormed, packetWf, slotWf, eventWf, atMost] using w
  simp only [runBytes_length]
  omega

theorem CommandShape.stop (h : Hdr) :
    Statement (Instr.stop h) := ofBody rfl (fun _ => by simp) (by decide)

theorem CommandShape.step (h : Hdr) (mask : BitVec 128) (bundles : Word) :
    Statement (Instr.step h mask bundles) := ofBody rfl (fun _ => by simp) (by decide)

theorem CommandShape.stepBundlesDone (tile : TileNo) :
    Statement (Instr.stepBundlesDone tile) := ofNone rfl

theorem CommandShape.jobConfig (h : Hdr) (checkT closure lead : Byte) :
    Statement (Instr.jobConfig h checkT closure lead) := ofBody rfl (fun _ => by simp) (by decide)

theorem CommandShape.runStatus (h : Hdr) :
    Statement (Instr.runStatus h) := ofBody rfl (fun _ => by simp) (by decide)

theorem CommandShape.runEnd (cause : EndCause) :
    Statement (Instr.runEnd cause) := ofNone rfl

theorem CommandShape.setModuleId (h : Hdr) (id : Word) :
    Statement (Instr.setModuleId h id) := ofBody rfl (fun _ => by simp) (by decide)

theorem CommandShape.setDomain (h : Hdr) (b : DomainBody) :
    Statement (Instr.setDomain h b) := ofBody rfl (fun _ => by simp) (by decide)

theorem CommandShape.setPairMode (h : Hdr) (mode : Byte) :
    Statement (Instr.setPairMode h mode) := ofBody rfl (fun _ => by simp) (by decide)

theorem CommandShape.announceInitialMembership (h : Hdr) (b : AnnounceBody) :
    Statement (Instr.announceInitialMembership h b) := ofBody rfl (fun _ => by simp) (by decide)

theorem CommandShape.announcePlannedChange (h : Hdr) (b : AnnounceBody) :
    Statement (Instr.announcePlannedChange h b) := ofBody rfl (fun _ => by simp) (by decide)

theorem CommandShape.announceForcedChange (h : Hdr) (b : AnnounceBody) :
    Statement (Instr.announceForcedChange h b) := ofBody rfl (fun _ => by simp) (by decide)

theorem CommandShape.withdrawChange (h : Hdr) (memberEpoch : Word) :
    Statement (Instr.withdrawChange h memberEpoch) := ofBody rfl (fun _ => by simp) (by decide)

theorem CommandShape.leaseDeliver (h : Hdr) (r : LeaseReplyMsg) :
    Statement (Instr.leaseDeliver h r) := ofBody rfl (fun _ => by simp) (by decide)

theorem CommandShape.portReset (h : Hdr) (port : Byte) :
    Statement (Instr.portReset h port) := ofBody rfl (fun _ => by simp) (by decide)

theorem CommandShape.quarantineClear (h : Hdr) :
    Statement (Instr.quarantineClear h) := ofBody rfl (fun _ => by simp) (by decide)

theorem CommandShape.linkStatus (h : Hdr) :
    Statement (Instr.linkStatus h) := ofBody rfl (fun _ => by simp) (by decide)

theorem CommandShape.calibrate (h : Hdr) (scope : Word) (r : CalResult) :
    Statement (Instr.calibrate h scope r) := ofBody rfl (fun _ => by simp) (by decide)

theorem CommandShape.calExport (h : Hdr) (offset : Word) :
    Statement (Instr.calExport h offset) := ofBody rfl (fun _ => by simp) (by decide)

theorem CommandShape.calImport (h : Hdr) (offset total : Word) (chunk : Bytes) :
    Statement (Instr.calImport h offset total chunk) := by
  refine ofBody rfl (fun w => ?_) (by decide)
  have e : chunk.length ≤ 4032 := by
    simpa [wellFormed, packetWf, slotWf, eventWf, atMost] using w
  simp only [List.length_append, le4_length]
  omega

theorem CommandShape.powerPolicy (h : Hdr) (targetB capB : Byte) (inputLimit : Word) :
    Statement (Instr.powerPolicy h targetB capB inputLimit) := ofBody rfl (fun _ => by simp) (by decide)

theorem CommandShape.spdm (h : Hdr) (r : SpdmRequest) :
    Statement (Instr.spdm h r) := by
  refine ofBody rfl (fun _ => ?_) (by decide)
  cases r <;> simp [spdmBytes]

theorem CommandShape.enrolBuildKey (h : Hdr) (index : Byte) (key : Key) :
    Statement (Instr.enrolBuildKey h index key) := ofBody rfl (fun _ => by simp) (by decide)

theorem CommandShape.revokeBuildKey (h : Hdr) (index : Byte) :
    Statement (Instr.revokeBuildKey h index) := ofBody rfl (fun _ => by simp) (by decide)

theorem CommandShape.signingEnforce (h : Hdr) (on : Byte) :
    Statement (Instr.signingEnforce h on) := ofBody rfl (fun _ => by simp) (by decide)

theorem CommandShape.fwWrite (h : Hdr) (offset : Word) (chunk : Bytes) :
    Statement (Instr.fwWrite h offset chunk) := by
  refine ofBody rfl (fun w => ?_) (by decide)
  have e : chunk.length ≤ 4048 := by
    simpa [wellFormed, packetWf, slotWf, eventWf, atMost] using w
  simp only [List.length_append, le4_length]
  omega

theorem CommandShape.fwActivate (h : Hdr) (digest : Digest) :
    Statement (Instr.fwActivate h digest) := ofBody rfl (fun _ => by simp) (by decide)

theorem CommandShape.haltTiles (h : Hdr) (mask : BitVec 128) :
    Statement (Instr.haltTiles h mask) := ofBody rfl (fun _ => by simp) (by decide)

theorem CommandShape.resumeTiles (h : Hdr) (mask : BitVec 128) :
    Statement (Instr.resumeTiles h mask) := ofBody rfl (fun _ => by simp) (by decide)

theorem CommandShape.readSync (h : Hdr) (object : SyncObject) (tile number : BitVec 16) :
    Statement (Instr.readSync h object tile number) := ofBody rfl (fun _ => by simp) (by decide)

theorem CommandShape.syncHaltTile (h : Hdr) (tile : BitVec 16) (value : Word) :
    Statement (Instr.syncHaltTile h tile value) := ofBody rfl (fun _ => by simp) (by decide)

theorem CommandShape.syncResumeTile (h : Hdr) (tile : BitVec 16) (value : Word) :
    Statement (Instr.syncResumeTile h tile value) := ofBody rfl (fun _ => by simp) (by decide)

theorem CommandShape.syncSetCount (h : Hdr) (tile number : BitVec 16) (value : Word) :
    Statement (Instr.syncSetCount h tile number value) := ofBody rfl (fun _ => by simp) (by decide)

theorem CommandShape.syncAddArrivals (h : Hdr) (tile number : BitVec 16) (value : Word) :
    Statement (Instr.syncAddArrivals h tile number value) := ofBody rfl (fun _ => by simp) (by decide)

theorem CommandShape.syncReleaseRound (h : Hdr) (tile number : BitVec 16) (value : Word) :
    Statement (Instr.syncReleaseRound h tile number value) := ofBody rfl (fun _ => by simp) (by decide)

theorem CommandShape.syncFireWatch (h : Hdr) (tile number : BitVec 16) (value : Word) :
    Statement (Instr.syncFireWatch h tile number value) := ofBody rfl (fun _ => by simp) (by decide)

theorem CommandShape.syncDisarmWatch (h : Hdr) (tile number : BitVec 16) (value : Word) :
    Statement (Instr.syncDisarmWatch h tile number value) := ofBody rfl (fun _ => by simp) (by decide)

theorem CommandShape.syncResetEndpoint (h : Hdr) (tile number : BitVec 16) (value : Word) :
    Statement (Instr.syncResetEndpoint h tile number value) := ofBody rfl (fun _ => by simp) (by decide)

theorem CommandShape.readTileState (h : Hdr) (tile : BitVec 16) (set index : Byte) :
    Statement (Instr.readTileState h tile set index) := ofBody rfl (fun _ => by simp) (by decide)

theorem CommandShape.readTelemetry (h : Hdr) (block : BitVec 16) (offset : Word) :
    Statement (Instr.readTelemetry h block offset) := ofBody rfl (fun _ => by simp) (by decide)

theorem CommandShape.readRecord (h : Hdr) (runIndex offset : Word) :
    Statement (Instr.readRecord h runIndex offset) := ofBody rfl (fun _ => by simp) (by decide)

theorem CommandShape.readEventLog (h : Hdr) (start finish : DWord) (offset : Word) :
    Statement (Instr.readEventLog h start finish offset) := ofBody rfl (fun _ => by simp) (by decide)

theorem CommandShape.readFaults (h : Hdr) (offset : Word) :
    Statement (Instr.readFaults h offset) := ofBody rfl (fun _ => by simp) (by decide)

theorem CommandShape.readRoutines (h : Hdr) (offset : Word) :
    Statement (Instr.readRoutines h offset) := ofBody rfl (fun _ => by simp) (by decide)

theorem CommandShape.readCheckHist (h : Hdr) (tile : BitVec 16) :
    Statement (Instr.readCheckHist h tile) := ofBody rfl (fun _ => by simp) (by decide)

theorem CommandShape.readFlags (h : Hdr) (tile : BitVec 16) :
    Statement (Instr.readFlags h tile) := ofBody rfl (fun _ => by simp) (by decide)

theorem CommandShape.subscribe (h : Hdr) (mask : DWord) :
    Statement (Instr.subscribe h mask) := ofBody rfl (fun _ => by simp) (by decide)

theorem CommandShape.registerWrite (w : RegWrite) :
    Statement (Instr.registerWrite w) := ofNone rfl

theorem CommandShape.ctrlEnWrite (addr : Nat) (en : Bool) :
    Statement (Instr.ctrlEnWrite addr en) := ofNone rfl

theorem CommandShape.ctrlMonArmWrite (addr : Nat) (arm : Bool) :
    Statement (Instr.ctrlMonArmWrite addr arm) := ofNone rfl

theorem CommandShape.monumentWrite (addr : Nat) (value : Word) :
    Statement (Instr.monumentWrite addr value) := ofNone rfl

theorem CommandShape.splitLoRead (byFirmware : Bool) (addr : Nat) :
    Statement (Instr.splitLoRead byFirmware addr) := ofNone rfl

theorem CommandShape.splitLoWrite (addr : Nat) (value : Word) :
    Statement (Instr.splitLoWrite addr value) := ofNone rfl

theorem CommandShape.splitHiWrite (addr : Nat) (value : Word) :
    Statement (Instr.splitHiWrite addr value) := ofNone rfl

theorem CommandShape.w1cWrite (addr : Nat) (value : Word) :
    Statement (Instr.w1cWrite addr value) := ofNone rfl

theorem CommandShape.postedWriteApplied (addr : Nat) :
    Statement (Instr.postedWriteApplied addr) := ofNone rfl

theorem CommandShape.cfgCrcRecompute (addr : Nat) (upset : List (Nat × Byte)) :
    Statement (Instr.cfgCrcRecompute addr upset) := ofNone rfl

theorem CommandShape.setMode (i : Iss) (a : ModeArg) :
    Statement (Instr.setMode i a) := ofNone rfl

theorem CommandShape.loadWeights (i : Iss) (a : LoadArg) :
    Statement (Instr.loadWeights i a) := ofNone rfl

theorem CommandShape.feed (i : Iss) (a : FeedArg) :
    Statement (Instr.feed i a) := ofNone rfl

theorem CommandShape.finishTree (i : Iss) (a : FinishArg) :
    Statement (Instr.finishTree i a) := ofNone rfl

theorem CommandShape.drain (i : Iss) (a : DrainArg) :
    Statement (Instr.drain i a) := ofNone rfl

theorem CommandShape.pendingArrayOpStart (tile : TileNo) (engine : ArrayEngine) :
    Statement (Instr.pendingArrayOpStart tile engine) := ofNone rfl

theorem CommandShape.arrayFreeze (tile : TileNo) :
    Statement (Instr.arrayFreeze tile) := ofNone rfl

theorem CommandShape.vectorPass (i : Iss) (p : Pass) :
    Statement (Instr.vectorPass i p) := ofNone rfl

theorem CommandShape.pendingPassStart (tile : TileNo) :
    Statement (Instr.pendingPassStart tile) := ofNone rfl

theorem CommandShape.reduction (i : Iss) (r : Reduction) :
    Statement (Instr.reduction i r) := ofNone rfl

theorem CommandShape.reductionSegmentResult (tile : TileNo) :
    Statement (Instr.reductionSegmentResult tile) := ofNone rfl

theorem CommandShape.combine (i : Iss) (a : CombineArg) :
    Statement (Instr.combine i a) := ofNone rfl

theorem CommandShape.faultStop :
    Statement Instr.faultStop := ofNone rfl

theorem CommandShape.scalarOp (i : Iss) (op : ScalarOp) :
    Statement (Instr.scalarOp i op) := ofNone rfl

theorem CommandShape.scalarMultiply (i : Iss) (d : ScalarDst) (a b : ScalarSrc) :
    Statement (Instr.scalarMultiply i d a b) := ofNone rfl

theorem CommandShape.readLoopIndex (i : Iss) (d : ScalarDst) (level : Fin 4) :
    Statement (Instr.readLoopIndex i d level) := ofNone rfl

theorem CommandShape.scalarLoad (i : Iss) (d : ScalarDst) (addr : ScalarSrc) (region : Fin 64) :
    Statement (Instr.scalarLoad i d addr region) := ofNone rfl

theorem CommandShape.scalarStore (i : Iss) (a : ScalarSrc) (addr : ScalarSrc) (region : Fin 64) :
    Statement (Instr.scalarStore i a addr region) := ofNone rfl

theorem CommandShape.pBlockLoad (i : Iss) (first : PReg) (addr : ScalarSrc) (region : Fin 64) :
    Statement (Instr.pBlockLoad i first addr region) := ofNone rfl

theorem CommandShape.laneInsertExtract (i : Iss) (op : LaneOp) :
    Statement (Instr.laneInsertExtract i op) := ofNone rfl

theorem CommandShape.loopStart (i : Iss) (l : LReg) (last : Word) :
    Statement (Instr.loopStart i l last) := ofNone rfl

theorem CommandShape.loopBodyEnd (tile : TileNo) :
    Statement (Instr.loopBodyEnd tile) := ofNone rfl

theorem CommandShape.routineCall (i : Iss) (id : BitVec 16) :
    Statement (Instr.routineCall i id) := ofNone rfl

theorem CommandShape.routineReturn (tile : TileNo) :
    Statement (Instr.routineReturn tile) := ofNone rfl

theorem CommandShape.istoreMissFill (tile : TileNo) (line : Nat) :
    Statement (Instr.istoreMissFill tile line) := ofNone rfl

theorem CommandShape.setup (i : Iss) (d : Fin 32) (a : SetupArg) :
    Statement (Instr.setup i d a) := ofNone rfl

theorem CommandShape.start (i : Iss) (d : Fin 32) :
    Statement (Instr.start i d) := ofNone rfl

theorem CommandShape.rearm (i : Iss) (d : Fin 32) (base : Src) (last : Bool) :
    Statement (Instr.rearm i d base last) := ofNone rfl

theorem CommandShape.phase (i : Iss) (compute : Bool) :
    Statement (Instr.phase i compute) := ofNone rfl

theorem CommandShape.fill (i : Iss) (a : FillArg) :
    Statement (Instr.fill i a) := ofNone rfl

theorem CommandShape.copy (i : Iss) (a : CopyArg) :
    Statement (Instr.copy i a) := ofNone rfl

theorem CommandShape.fillCopyDone (tile : TileNo) :
    Statement (Instr.fillCopyDone tile) := ofNone rfl

theorem CommandShape.codePrefetch (i : Iss) (a : PrefetchArg) :
    Statement (Instr.codePrefetch i a) := ofNone rfl

theorem CommandShape.prefetchLineArrival (tile : TileNo) :
    Statement (Instr.prefetchLineArrival tile) := ofNone rfl

theorem CommandShape.windowOpen (i : Iss) (w : Fin 16) (a : WindowArg) :
    Statement (Instr.windowOpen i w a) := ofNone rfl

theorem CommandShape.windowClose (i : Iss) (w : Fin 16) :
    Statement (Instr.windowClose i w) := ofNone rfl

theorem CommandShape.postSend (i : Iss) (d : Fin 32) (segment : Src) (ep : Fin 64) (g : GReg) :
    Statement (Instr.postSend i d segment ep g) := ofNone rfl

theorem CommandShape.postSendDispatch (tile : TileNo) :
    Statement (Instr.postSendDispatch tile) := ofNone rfl

theorem CommandShape.readyTake (tile : TileNo) (d : Fin 32) :
    Statement (Instr.readyTake tile d) := ofNone rfl

theorem CommandShape.transferIssue (tile : TileNo) :
    Statement (Instr.transferIssue tile) := ofNone rfl

theorem CommandShape.transferComplete (tile : TileNo) (tag : Fin 256) :
    Statement (Instr.transferComplete tile tag) := ofNone rfl

theorem CommandShape.inboundDataArrival (tile : TileNo) :
    Statement (Instr.inboundDataArrival tile) := ofNone rfl

theorem CommandShape.holdAreaWrite (tile : TileNo) :
    Statement (Instr.holdAreaWrite tile) := ofNone rfl

theorem CommandShape.remoteWriteJudged (tile : TileNo) :
    Statement (Instr.remoteWriteJudged tile) := ofNone rfl

theorem CommandShape.windowViolation (writer : TileNo) :
    Statement (Instr.windowViolation writer) := ofNone rfl

theorem CommandShape.sendG (i : Iss) (a : SendArg) (g : GReg) :
    Statement (Instr.sendG i a g) := ofNone rfl

theorem CommandShape.sendV (i : Iss) (a : SendArg) (v : VReg) (count : Fin 4) :
    Statement (Instr.sendV i a v count) := ofNone rfl

theorem CommandShape.recvG (i : Iss) (ep : Fin 64) (g : GReg) (wp : Fin 1024) :
    Statement (Instr.recvG i ep g wp) := ofNone rfl

theorem CommandShape.recvV (i : Iss) (ep : Fin 64) (v : VReg) (count : Fin 4) (wp : Fin 1024) :
    Statement (Instr.recvV i ep v count wp) := ofNone rfl

theorem CommandShape.recvDrop (i : Iss) (ep : Fin 64) (wp : Fin 1024) :
    Statement (Instr.recvDrop i ep wp) := ofNone rfl

theorem CommandShape.waitArrived (i : Iss) (ep : Fin 64) (slot : Src) (k : Nat) (wp : Fin 1024) :
    Statement (Instr.waitArrived i ep slot k wp) := ofNone rfl

theorem CommandShape.epReset (i : Iss) (ep : Fin 64) :
    Statement (Instr.epReset i ep) := ofNone rfl

theorem CommandShape.epOpen (i : Iss) (ep : Fin 64) :
    Statement (Instr.epOpen i ep) := ofNone rfl

theorem CommandShape.messageArrival (tile : TileNo) (ep : Fin 64) :
    Statement (Instr.messageArrival tile ep) := ofNone rfl

theorem CommandShape.creditArrival (tile : TileNo) (ep : Fin 64) :
    Statement (Instr.creditArrival tile ep) := ofNone rfl

theorem CommandShape.closingNoticeArrival (tile : TileNo) (ep : Fin 64) :
    Statement (Instr.closingNoticeArrival tile ep) := ofNone rfl

theorem CommandShape.openingNoticeArrival (tile : TileNo) (ep : Fin 64) :
    Statement (Instr.openingNoticeArrival tile ep) := ofNone rfl

theorem CommandShape.discardReportArrival (tile : TileNo) (ep : Fin 64) :
    Statement (Instr.discardReportArrival tile ep) := ofNone rfl

theorem CommandShape.signal (i : Iss) (s : Fin 64) (n : BitVec 16) :
    Statement (Instr.signal i s n) := ofNone rfl

theorem CommandShape.wait (i : Iss) (s : Fin 64) (v : BitVec 16) (take : Bool) (wp : Fin 1024) :
    Statement (Instr.wait i s v take wp) := ofNone rfl

theorem CommandShape.watchReg (i : Iss) (handle : Fin 32) (s : Fin 64) (v : BitVec 16) :
    Statement (Instr.watchReg i handle s v) := ofNone rfl

theorem CommandShape.watchRegArrival (waiter : TileNo) (handle : Fin 32) :
    Statement (Instr.watchRegArrival waiter handle) := ofNone rfl

theorem CommandShape.watchFiredArrival (waiter : TileNo) (handle : Fin 32) :
    Statement (Instr.watchFiredArrival waiter handle) := ofNone rfl

theorem CommandShape.watchWait (i : Iss) (handle : Fin 32) (wp : Fin 1024) :
    Statement (Instr.watchWait i handle wp) := ofNone rfl

theorem CommandShape.arrive (i : Iss) (b : Fin 16) :
    Statement (Instr.arrive i b) := ofNone rfl

theorem CommandShape.bwait (i : Iss) (b : Fin 16) (wp : Fin 1024) :
    Statement (Instr.bwait i b wp) := ofNone rfl

theorem CommandShape.barrierCounterArrival (b : Fin 16) :
    Statement (Instr.barrierCounterArrival b) := ofNone rfl

theorem CommandShape.barrierReleaseArrival (b : Fin 16) :
    Statement (Instr.barrierReleaseArrival b) := ofNone rfl

theorem CommandShape.hang (tile : TileNo) (u : HangUnit) :
    Statement (Instr.hang tile u) := ofNone rfl

theorem CommandShape.hangReport :
    Statement Instr.hangReport := ofNone rfl

theorem CommandShape.scheduleFlitError (link : LinkDir) :
    Statement (Instr.scheduleFlitError link) := ofNone rfl

theorem CommandShape.d2dMemoryRetry (link : LinkDir) :
    Statement (Instr.d2dMemoryRetry link) := ofNone rfl

theorem CommandShape.hbmRequestIntake (stack : StackNo) :
    Statement (Instr.hbmRequestIntake stack) := ofNone rfl

theorem CommandShape.hbmReadReturn (stack : StackNo) (err : HbmError) :
    Statement (Instr.hbmReadReturn stack err) := ofNone rfl

theorem CommandShape.refresh (stack : StackNo) (channel : Fin 32) :
    Statement (Instr.refresh stack channel) := ofNone rfl

theorem CommandShape.phyTracking (stack : StackNo) (channel : Fin 32) :
    Statement (Instr.phyTracking stack channel) := ofNone rfl

theorem CommandShape.patrolScrub (stack : StackNo) (err : HbmError) :
    Statement (Instr.patrolScrub stack err) := ofNone rfl

theorem CommandShape.stackStatusRead (stack : StackNo) (temp : Int) :
    Statement (Instr.stackStatusRead stack temp) := ofNone rfl

theorem CommandShape.gatedRead (stack : StackNo) :
    Statement (Instr.gatedRead stack) := ofNone rfl

theorem CommandShape.markWrite (stack : StackNo) :
    Statement (Instr.markWrite stack) := ofNone rfl

theorem CommandShape.updatePassComplete (stack : StackNo) (entry : Nat) :
    Statement (Instr.updatePassComplete stack entry) := ofNone rfl

theorem CommandShape.fingerprintRecord (stack : StackNo) :
    Statement (Instr.fingerprintRecord stack) := ofNone rfl

theorem CommandShape.stepDigestFormed (step : Word) :
    Statement (Instr.stepDigestFormed step) := ofNone rfl

theorem CommandShape.linkBringup (port : PortNo) (lanes : LaneMode) (cap : Capability) :
    Statement (Instr.linkBringup port lanes cap) := ofNone rfl

theorem CommandShape.controlFlit (port : PortNo) (f : ControlFlit) :
    Statement (Instr.controlFlit port f) := ofNone rfl

theorem CommandShape.retryTimeout (port : PortNo) :
    Statement (Instr.retryTimeout port) := ofNone rfl

theorem CommandShape.chainPacketReceive (port : PortNo) (p : RawPacket) :
    Statement (Instr.chainPacketReceive port p) := ofNone rfl

theorem CommandShape.data (port : PortNo) :
    Statement (Instr.data port) := ofNone rfl

theorem CommandShape.credit (port : PortNo) :
    Statement (Instr.credit port) := ofNone rfl

theorem CommandShape.close (port : PortNo) :
    Statement (Instr.close port) := ofNone rfl

theorem CommandShape.openNotice (port : PortNo) :
    Statement (Instr.openNotice port) := ofNone rfl

theorem CommandShape.noEndpoint (port : PortNo) :
    Statement (Instr.noEndpoint port) := ofNone rfl

theorem CommandShape.barrierArrive (port : PortNo) :
    Statement (Instr.barrierArrive port) := ofNone rfl

theorem CommandShape.barrierRelease (port : PortNo) :
    Statement (Instr.barrierRelease port) := ofNone rfl

theorem CommandShape.sync (port : PortNo) (ingress : DWord) :
    Statement (Instr.sync port ingress) := ofNone rfl

theorem CommandShape.mgmt (port : PortNo) (m : MgmtMsg) :
    Statement (Instr.mgmt port m) := ofNone rfl

theorem CommandShape.syncExchangeTimer :
    Statement Instr.syncExchangeTimer := ofNone rfl

theorem CommandShape.creditFlush (port : PortNo) :
    Statement (Instr.creditFlush port) := ofNone rfl

theorem CommandShape.linkDown (port : PortNo) (f : LaneFailure) :
    Statement (Instr.linkDown port f) := ofNone rfl

theorem CommandShape.linkRetrainTimer (port : PortNo) (ok : Option LaneMode) :
    Statement (Instr.linkRetrainTimer port ok) := ofNone rfl

theorem CommandShape.heartbeatTimer :
    Statement Instr.heartbeatTimer := ofNone rfl

theorem CommandShape.heartbeat (port : PortNo) :
    Statement (Instr.heartbeat port) := ofNone rfl

theorem CommandShape.twinLost :
    Statement Instr.twinLost := ofNone rfl

theorem CommandShape.closure (port : PortNo) :
    Statement (Instr.closure port) := ofNone rfl

theorem CommandShape.leaseRenewTimer :
    Statement Instr.leaseRenewTimer := ofNone rfl

theorem CommandShape.leaseReply (r : LeaseReplyMsg) :
    Statement (Instr.leaseReply r) := ofNone rfl

theorem CommandShape.leaseTermEnd :
    Statement Instr.leaseTermEnd := ofNone rfl

theorem CommandShape.epochSwitch :
    Statement Instr.epochSwitch := ofNone rfl

theorem CommandShape.stateTransfer (plans : List (StackNo × UpdatePlan)) (moved : List (StackNo × Nat × Bytes)) (digest : Digest) :
    Statement (Instr.stateTransfer plans moved digest) := ofNone rfl

theorem CommandShape.stretchToken (region : Region) (period : Fin 16) (s : Fin 5) :
    Statement (Instr.stretchToken region period s) := ofNone rfl

theorem CommandShape.targetToken (base : Fin 16) (first : DWord) :
    Statement (Instr.targetToken base first) := ofNone rfl

theorem CommandShape.baseChange :
    Statement Instr.baseChange := ofNone rfl

theorem CommandShape.crossingSlip (link : LinkDir) :
    Statement (Instr.crossingSlip link) := ofNone rfl

theorem CommandShape.marginPolicy (r : MarginReading) :
    Statement (Instr.marginPolicy r) := ofNone rfl

theorem CommandShape.rootLock :
    Statement Instr.rootLock := ofNone rfl

theorem CommandShape.rootUnlock :
    Statement Instr.rootUnlock := ofNone rfl

theorem CommandShape.datumPulse :
    Statement Instr.datumPulse := ofNone rfl

theorem CommandShape.meridianCompare :
    Statement Instr.meridianCompare := ofNone rfl

theorem CommandShape.thermalPolicy (r : ThermalReading) :
    Statement (Instr.thermalPolicy r) := ofNone rfl

theorem CommandShape.inputPowerWindow (watts : Nat) :
    Statement (Instr.inputPowerWindow watts) := ofNone rfl

theorem CommandShape.logCommit (ok : Bool) :
    Statement (Instr.logCommit ok) := ofNone rfl

theorem CommandShape.supplySample (r : SupplyReading) :
    Statement (Instr.supplySample r) := ofNone rfl

theorem CommandShape.flashOperationDone (op : FlashOp) :
    Statement (Instr.flashOperationDone op) := ofNone rfl

theorem CommandShape.powerFailReset :
    Statement Instr.powerFailReset := ofNone rfl

theorem CommandShape.inputLoss :
    Statement Instr.inputLoss := ofNone rfl

theorem CommandShape.powerUp :
    Statement Instr.powerUp := ofNone rfl

theorem CommandShape.mrst :
    Statement Instr.mrst := ofNone rfl

theorem CommandShape.resetRelease :
    Statement Instr.resetRelease := ofNone rfl

theorem CommandShape.perst :
    Statement Instr.perst := ofNone rfl

theorem CommandShape.flr :
    Statement Instr.flr := ofNone rfl

theorem CommandShape.i3cLoss :
    Statement Instr.i3cLoss := ofNone rfl

theorem CommandShape.boot :
    Statement Instr.boot := ofNone rfl

theorem CommandShape.rollbackAdvance :
    Statement Instr.rollbackAdvance := ofNone rfl

theorem CommandShape.replicaMarginStretch (region : Region) (codes : List (Fin 64)) :
    Statement (Instr.replicaMarginStretch region codes) := ofNone rfl

theorem CommandShape.pcieLinkTraining (rate width : Nat) :
    Statement (Instr.pcieLinkTraining rate width) := ofNone rfl

end Sys2Proof.Laws
end

