-- ==== Sys2Proof/Laws/Session.lean ====
section
/-! SUPPORT. The checks of R520 (`State.accept`): a command that passes them acts on the state in which it is admitted. -/

namespace Sys2Proof.Machine

@[simp] theorem State.setSession_sec (s : State) (p : Path) (x : Option Session) : (s.setSession p x).sec = s.sec := by
  cases p <;> rfl

@[simp] theorem State.countMctp_sec (s : State) (h : Hdr) : (s.countMctp h).sec = s.sec := by
  unfold State.countMctp; split <;> rfl

/-- Changing the PCIe or MCTP session leaves the count of outstanding commands. -/
@[simp] theorem State.setSession_mctpBusy (s : State) (p : Path) (x : Option Session) (h : Hdr) :
    (s.setSession p x).mctpBusy h = s.mctpBusy h := by
  cases p <;> rfl

/-- Checks 4 to 6 pass. -/
theorem State.checkOpcode_pass (s : State) (h : Hdr) (op : BitVec 16) (owner : Bool) (major : Nat) (f : State → Res)
    (h1 : opcodeInVersion op major = true) (h2 : s.sec.recovery = true → recoveryOpcode op = true)
    (h3 : owner = true ∨ observerOpcode h.path op = true) : s.checkOpcode h op true true owner major f = f s := by
  have h4 : (s.sec.recovery && !recoveryOpcode op) = false := by
    cases hrec : s.sec.recovery
    · rfl
    · simp [h2 hrec]
  have h5 : (!owner && !observerOpcode h.path op) = false := by
    rcases h3 with h3 | h3 <;> simp [h3]
  simp only [State.checkOpcode, h1, h4, h5, Bool.not_true, Bool.or_self, if_false, Bool.false_eq_true]

/-- An admitted command acts on the state in which it is admitted. -/
theorem admit_admitted {s : State} {h : Hdr} {op : BitVec 16} (ha : Admitted s h op) (f : State → Res) :
    s.accept h op f = f (s.admitted h) := by
  obtain ⟨h1, h2, q, h3, h4, h5, h6, h7, h8, h9⟩ := ha
  have hq : (h.seq == q.nextSeq) = true := by simp [h4]
  have hn : ¬ (h.session ≠ q.id ∨ (true = false)) := by simp [h5]
  unfold State.accept State.admitAs State.admitted
  simp only [h1, h3, hq, h6, ne_eq, not_true_eq_false, if_false, if_true, Bool.not_true, State.setSession_mctpBusy, h2,
    Bool.false_eq_true, h5]
  refine State.checkOpcode_pass _ _ _ _ _ _ h7 ?_ h9
  split <;> simpa using h8

/-- A command admitted without a session acts on the state in which it counts as outstanding. -/
theorem admit_free {s : State} {h : Hdr} {op : BitVec 16} (ha : AdmittedFree s h op) (f : State → Res) :
    s.accept h op f = f (s.admitted h) := by
  obtain ⟨h1, h2, h3, h4, h5, h6, h7, h8⟩ := ha
  have hm : ¬ (h.major ≠ 1 ∧ h.major ≠ 2) := by rcases h4 with h4 | h4 <;> simp [h4]
  unfold State.accept State.admitAs State.admitted
  simp only [h1, h2, h3, h5, h6, hm, Bool.not_true, if_false, Bool.false_eq_true, ne_eq, not_true_eq_false, or_self,
    Bool.true_eq_false]
  exact State.checkOpcode_pass _ _ _ _ _ _ h7 (by simpa using h8) (Or.inl rfl)

end Sys2Proof.Machine
end

