-- ==== Sys2Proof/Tests/Slice0.lean ====
section
/-! SUPPORT. Tests: for every statement with hypotheses a state that meets them, an ill-formed term for every check of
`wellFormed`, packets written out from Tables 15.5 and 15.9 to 15.16, and a few steps. -/

namespace Sys2Proof.Tests

open Sys2Proof Sys2Proof.Machine

set_option Elab.async false

/-! ### States of the tests -/

/-- An owner session of version 2.1 that expects SEQ 1. -/
def ses : Session :=
  { id := 1, owner := true, version := 0x0201, nextSeq := 1, eventVector := 0, coalesce := 0, hostTag := 0,
    mask := 0xFFF }

/-- The header of its next command. -/
def hd : Hdr :=
  { path := .pcie, major := 2, minor := 1, seq := 1, vector := 0, noReply := false, jobId := 0, ringIndex := 0,
    session := 1 }

/-- The header of a command over MCTP before any session. -/
def hdM : Hdr := { hd with path := .mctp, session := 0 }

/-- The module with firmware started. -/
def booted : State := { State.reset with sec := { SecState.reset with booted := true } }

/-- The module with firmware started and an owner session on PCIe. -/
def up : State := { booted with host := { HostState.reset with pcie := some ses, ringState := 2 } }

/-- The module with its root PLL locked: its compute clocks run. -/
def clocked : State := { up with clock := { ClockState.reset with rootLocked := true } }

/-- A state in which `hd` is admitted with a command of the table. -/
def ready (s : State) : Bool := s.fwRuns && s.host.pcie == some ses && !s.sec.recovery

theorem admits (s : State) (h : ready s = true) (op : BitVec 16) : Admitted s hd op := by
  simp only [ready, Bool.and_eq_true, beq_iff_eq, Bool.not_eq_true'] at h
  obtain ⟨⟨h1, h2⟩, h3⟩ := h
  refine ⟨h1, rfl, ses, h2, rfl, rfl, rfl, ?_, ?_, Or.inl rfl⟩
  · show opcodeInVersion op 2 = true
    simp [opcodeInVersion]
  · intro h4; rw [h3] at h4; cases h4

/-- The bundle that the tests issue. -/
def at5 : Iss := { tile := 0, bundle := 5 }

/-- A tile of the running image that comes to bundle 5, with its line in the store. -/
def withLine (t : Tile) : Tile :=
  { t with logical := some 0, nextBundle := 5, istore := [(Config.bundleLine 5 % 2048, Config.bundleLine 5)] }

/-- A running module whose tile 0 is `withLine t`. -/
def running (t : Tile) : State :=
  { up with tiles := [(0, withLine t)], run := { RunRec.reset with state := .running } }

/-- What a tile needs to issue a bundle. -/
def goes (t : Tile) : Bool :=
  !t.faulted && t.routine.isNone && t.istoreHeld.isNone && t.freezeNow == .none && t.issuedAt.isNone && !t.halted &&
  t.blocked.isEmpty

theorem running_tile (t : Tile) : (running t).tile 0 = withLine t := rfl

theorem running_holds (t : Tile) : storeHolds ((running t).tile 0) 5 = true := by
  simp [running_tile, storeHolds, withLine, mfind]

theorem running_outside (t : Tile) (h : goes t = true) : inBundle (running t) at5 = false := by
  simp only [goes, Bool.and_eq_true, Option.isNone_iff_eq_none] at h
  have e : ((running t).tile at5.tile.val).issuedAt = none := h.1.1.2
  simp [inBundle, e]

theorem running_may (t : Tile) (h : goes t = true) : mayIssue (running t) at5 = true := by
  have e : (running t).enabled at5.tile.val = true := by
    show (BitVec.allOnes 128).getLsbD 0 = true
    decide
  have r : (running t).run.state = .running := rfl
  have q : (running t).tile at5.tile.val = withLine t := rfl
  simp only [goes, Bool.and_eq_true, Bool.not_eq_true', Option.isNone_iff_eq_none, beq_iff_eq] at h
  obtain ⟨⟨⟨⟨⟨⟨h1, h2⟩, h3⟩, h4⟩, h5⟩, h6⟩, _⟩ := h
  simp only [mayIssue, mayBegin, q, e, r, withLine, h1, h2, h3, h4, h5, h6]
  exact Bool.or_eq_true _ _ ▸ Or.inr rfl

theorem running_free (t : Tile) (h : goes t = true) : (withLine t).blocked = [] := by
  simp only [goes, Bool.and_eq_true, List.isEmpty_iff] at h
  exact h.2

theorem issues (t : Tile) (h : goes t = true) (slot : Byte) : Issues (running t) at5 slot :=
  ⟨running_may t h, rfl, by decide, by rw [if_neg (by simp [running_outside t h])]; exact ⟨running_holds t, rfl⟩⟩

/-- A wait point of bundle 5. -/
def w7 (on : WaitOn) : WaitPoint := { wp := 7, on := on }

theorem over_w7 (t : Tile) (h : goes t = true) (on : WaitOn) :
    (bundleWaits at5 [w7 on]).all ((withLine t).waitOver 5) = (withLine t).waitMet (w7 on) := by
  have e : bundleWaits at5 [w7 on] = [w7 on] := rfl
  simp [e, Tile.waitOver, Tile.holdOf, running_free t h]

theorem reaches (t : Tile) (h : goes t = true) (slot : Byte) (on : WaitOn) (m : (withLine t).waitMet (w7 on) = true) :
    IssuesOn (running t) at5 slot [w7 on] :=
  ⟨running_may t h, rfl, rfl, by
    rw [if_neg (by simp [running_outside t h])]
    exact ⟨running_holds t, (over_w7 t h on).trans m⟩⟩

theorem waits (t : Tile) (h : goes t = true) (on : WaitOn) (m : (withLine t).waitMet (w7 on) = false) :
    Waits (running t) at5 [w7 on] :=
  ⟨running_may t h, rfl, rfl, running_outside t h, running_holds t, (over_w7 t h on).trans m⟩

/-! ### Witnesses: the queue, sessions and rings -/

theorem witness_StepRunsTheFrontCommand :
    ({ up with pending := [.faultStop, .hangReport] }).pending = .faultStop :: [.hangReport] := rfl

theorem witness_EmptyQueueIsOneCycle :
    up.pending = [] ∧ up.clocksRun = false ∧ clocked.pending = [] ∧ clocked.clocksRun = true ∧ clocked.runActive = false ∧
    clocked.tick.arrayMeetsRoutine clocked.runCycle.toNat = false := by decide +kernel

/-- An owner session on MCTP. -/
def upM : State := { booted with host := { HostState.reset with mctp := some ses } }

/-- The header of its next command. -/
def hdS : Hdr := { hd with path := .mctp }

theorem admitsM (op : BitVec 16) : Admitted upM hdS op := by
  refine ⟨rfl, by decide, ses, rfl, rfl, rfl, rfl, ?_, ?_, Or.inl rfl⟩
  · show opcodeInVersion op 2 = true
    simp [opcodeInVersion]
  · intro h; cases h

theorem admitsFree (op : BitVec 16) (h : freeOpcode op = true) : AdmittedFree booted hdM op := by
  refine ⟨rfl, by decide, rfl, Or.inr rfl, rfl, h, ?_, ?_⟩
  · show opcodeInVersion op 2 = true
    simp [opcodeInVersion]
  · intro h; cases h

theorem witness_ChecksAndReplies :
    (up.fwRuns = true ∧ up.mctpBusy hd = false ∧ up.session .pcie = some ses ∧ hd.seq = ses.nextSeq ∧
      ({ hd with major := 1 } : Hdr).major.toNat ≠ ses.version.toNat / 256) ∧
    (({ hd with seq := 7 } : Hdr).seq ≠ ses.nextSeq ∧ hd.major.toNat = ses.version.toNat / 256) ∧
    (booted.fwRuns = true ∧ booted.mctpBusy hdM = false ∧ booted.session .mctp = none ∧ hdM.major = 2 ∧
      ¬ ((0x0301 : BitVec 16) = 0x0001 ∨ (0x0301 : BitVec 16) = 0x0004 ∨ (0x0301 : BitVec 16) = 0x0005 ∨
        (0x0301 : BitVec 16) = 0x0601)) ∧
    (hd.noReply = false ∧ up.sessionAlive hd = true ∧ hd.path = .pcie ∧ upM.sessionAlive hdS = true ∧ hdS.path = .mctp) ∧
    (({ hd with noReply := true } : Hdr).noReply = true ∧ booted.sessionAlive hd = false) := by decide

/-- A SESSION_OPEN of kind owner. -/
def opens : OpenBody := { versionMin := 0x0100, versionMax := 0x0201, kind := 1, eventVector := 15, coalesce := 1000, hostTag := 9 }

theorem witness_SessionRowsComplete :
    Admitted up hd 0x0003 ∧ Admitted up hd 0x0004 ∧ AdmittedFree booted hdM 0x0004 ∧ Admitted up hd 0x0002 ∧
    AdmittedFree booted hdM 0x0001 ∧ AdmittedFree booted hdM 0x0005 ∧ Admitted upM hdS 0x0005 ∧
    (opens.kind = 1 ∧ opens.eventVector.toNat ≤ 15 ∧ opens.coalesce.toNat ≤ 1000 ∧ hdM.path = .mctp ∧
      booted.session (otherPath hdM.path) = none ∧ chooseVersion opens.versionMin opens.versionMax = some 0x0201) :=
  ⟨admits _ (by decide) _, admits _ (by decide) _, admitsFree _ (by decide), admits _ (by decide) _, admitsFree _ (by decide),
    admitsFree _ (by decide), admitsM _, by decide⟩

/-- A reply that waits. -/
def rep : Reply :=
  { path := .pcie, opcode := 0x8003, seq := 1, final := true, unsolicited := false, vector := 2, jobId := 0, status := 0,
    version := 0x0201, body := [] }

/-- A NOP over MCTP. -/
def nopM : Bytes := packetBytesOf hdS 0x0003 []

/-- The module after a host write of a NOP into its inbox. -/
def upIn : State :=
  { up with host := { up.host with inbox := writeBytes [] 0 (packetBytesOf hd 0x0003 []), covered := placesOf 0 64 } }

/-- The same with one bit of its RING_INDEX turned over, which its CRC does not cover as it is. -/
def upBad : State :=
  { up with host := { up.host with inbox := writeBytes [] 0 ((packetBytesOf hd 0x0003 []).set 16 1), covered := placesOf 0 64 } }

theorem witness_RingsAndCommits :
    (({ up with host := { up.host with waiting := [rep] } }).host.waiting = [rep] ∧ up.fwRuns = true ∧
      up.host.outLive.sum + packetSlots rep.body.length ≤ 256) ∧
    ((3 : Fin 16) ∈ ({ Vectors.reset with inInterval := [3] }).inInterval ∧ (3 : Fin 16) ∉ Vectors.reset.heldBack) ∧
    (State.reset.power.inReset = false ∧ 8 < 0x40000 ∧ State.reset.fwRuns = false) ∧
    (upM.fwRuns = true ∧ (readPacket .mctp (zeros 64)).trailer = (readPacket .mctp (zeros 64)).hdr.seq ∧
      (readPacket .mctp (zeros 64)).crcGood = false ∧
      (readPacket .mctp (nopM.set 4 2)).trailer ≠ (readPacket .mctp (nopM.set 4 2)).hdr.seq ∧
      decodeBody hdS 0x0003 [] none { withinLimits := true, store := [] } = .command (.nop hdS)) ∧
    readPacket .mctp nopM = { hdr := hdS, opcode := 0x0003, body := [], trailer := hdS.seq, crcGood := true } ∧
    Admitted upM hdS 0x0003 ∧
    readPacket .pcie upIn.host.expected = { hdr := hd, opcode := 0x0003, body := [], trailer := hd.seq, crcGood := true } ∧
    (placesOf 0 64).contains upIn.host.trailerPlace = true ∧ Admitted upIn hd 0x0003 ∧
    (readPacket .pcie upBad.host.expected).crcGood = false ∧
    (readPacket .pcie upBad.host.expected).trailer = (readPacket .pcie upBad.host.expected).hdr.seq ∧
    upBad.host.advance.commits upBad.host.advance.covered = false ∧
    upIn.host.advance.commits upIn.host.advance.covered = false :=
  ⟨by decide, by decide, by decide, by decide +kernel, by decide +kernel, admitsM _, by decide +kernel, by decide +kernel,
    admits _ (by decide) _, by decide +kernel, by decide +kernel, by decide +kernel, by decide +kernel⟩

/-! ### Witnesses: images, memory and runs -/

/-- The body of an image of one tile with one section. -/
def imBody : ImageBody :=
  { verifierAccepts := true, imports := [], codeLines := 1, regions := [], holdKiB := 128, sems := [], signallers := [],
    pInit := [], masks := [], groups := [], channels := [], combs := [], barriers := [], watches := [], contexts := [],
    sections := [{ isCode := true, size := 16, data := [1, 2], mode := 0, classW := false, reg := none }],
    contractions := [], programs := [], plans := [], parcelSize := 1, parcels := 1, contributions := 1, gradFormat := 1, stateGrain := 0, inputs := [] }

/-- The bytes of a container up to IMAGE_DIGEST, for LT-B0 and one tile. -/
def imFront : Bytes :=
  leBytes 4 0x4D495943 ++ leBytes 2 3 ++ leBytes 2 0 ++ leBytes 4 0x200 ++ leBytes 2 0x0300 ++ leBytes 2 1 ++ leBytes 2 1 ++
  leBytes 1 0 ++ leBytes 1 9 ++ zeros 4 ++ zeros 8 ++ zeros 16 ++ zeros 16 ++ digestBytes (sha512 ltFormB0) ++ zeros 64

/-- A container of which the header is all. -/
def imHead : Bytes := imFront ++ digestBytes (sha512 imFront) ++ zeros 256

/-- The module with that container at HBM address 0x1000. -/
def upIm : State := { up with mem := { MemState.reset with hbm := writeBytes [] 0x1000 imHead } }

/-- LOAD_IMAGE's body for it. -/
def loads : LoadBody := { handle := 15, imageAddr := 0x1000, placeBase := 0x2000, placeLimit := 0x3000 }

/-- VERIFY_IMAGE's body for it. -/
def verifies : LoadBody := { loads with placeBase := 0, placeLimit := 0 }

def upLd : State := (upIm.admitted hd).reply hd 0x0101 stAccepted false []
def upVf : State := (upIm.admitted hd).reply hd 0x0102 stAccepted false []

theorem upIm_checked :
    upLd.loadChecks 15 0x1000 0 (some imBody) = .checked 0x00B0 [0] imBody ∧
    upVf.loadChecks 15 0x1000 0 (some imBody) = .checked 0x00B0 [0] imBody := by decide +kernel

/-- The image that it becomes. -/
def im : Image :=
  { jobId := 0, ltId := 0x00B0, flags := 0, eciVersion := 0x0300, tiles := [0], imageDigest := sha512 imFront,
    eciDigest := 0, signerKey := 0, signatureVerified := false, head := imHead, placeBase := 0x2000,
    sectionBases := [0x2000], body := imBody }

/-- The module with the image in handle 3, its clocks running. -/
def upRun : State := { clocked with host := { clocked.host with images := [(3, im)] }, clock := { clocked.clock with datumReq := false } }

/-- The module with the unsigned container under signing enforcement. -/
def upEnf : State := { upIm with sec := { upIm.sec with enforce := true } }

/-- A watch, of which no target holds 33. -/
def wat40 : WatchDecl := { logical := 0, handle := 0, target := 40 }

theorem witness_ImagesLoad :
    Admitted up hd 0x0104 ∧ (Admitted upRun hd 0x0103 ∧ upRun.runActive = false ∧
      mfind upRun.host.images (3 : Byte).toNat = some im) ∧
    (Admitted upIm hd 0x0102 ∧ verifies.handle.toNat ≤ 15 ∧ verifies.placeBase = 0 ∧ verifies.placeLimit = 0 ∧
      upVf = (upIm.admitted hd).reply hd 0x0102 stAccepted false []) ∧
    (Admitted upIm hd 0x0101 ∧ loads.handle.toNat ≤ 15 ∧ upIm.runActive = false ∧
      upLd.placeSections loads.placeLimit.toNat loads.placeBase.toNat imBody.sections = some [0x2000] ∧
      upLd.step8 (headerOf (upLd.readHbm loads.imageAddr.toNat 512)) imBody [0] = true ∧
      (imBody.sections.zip [0x2000]).all (fun e => upLd.stacksFit e.1 e.2) = true) ∧
    headerForm (headerOf (up.readHbm 0 512)) 0 = false ∧
    upVf.loadChecks 15 0x1000 0 none = .failed 7 stRejected ∧
    (upLd.step8 (headerOf (upLd.readHbm loads.imageAddr.toNat 512)) { imBody with watches := List.replicate 33 wat40 } [0] = false ∧
      upLd.loadChecks 15 0x1000 0 (some { imBody with watches := List.replicate 33 wat40 }) =
        .checked 0x00B0 [0] { imBody with watches := List.replicate 33 wat40 }) ∧
    (let h := headerOf (upEnf.readHbm 0x1000 512);
      headerForm h 0x1000 = true ∧ upEnf.sec.enforce = true ∧
        upEnf.sec.admits h.flags h.signerKey h.signature ((upEnf.readHbm 0x1000 512).take 0x120) = false) :=
  ⟨admits _ (by decide) _, ⟨admits _ (by decide) _, by decide +kernel, rfl⟩,
    ⟨admits _ (by decide +kernel) _, by decide, rfl, rfl, rfl⟩,
    ⟨admits _ (by decide +kernel) _, by decide, by decide +kernel, by decide +kernel, by decide +kernel, by decide +kernel⟩,
    by decide +kernel, by decide +kernel, by decide +kernel, by decide +kernel, rfl, by decide +kernel⟩

/-- A transfer from host to HBM, and one back. -/
def dmaIn : DmaBody :=
  { channel := 15, dir := 0, options := 0, hostAddr := 0x40, hbmAddr := 0x80, length := 64, needBy := 0 }
def dmaOut : DmaBody := { dmaIn with channel := 0, dir := 1 }

/-- The module with both running. -/
def upDma : State := { up with host := { up.host with dmaRunning := [(0, { hdr := hd, body := dmaOut }), (15, { hdr := hd, body := dmaIn })] } }

theorem cfgs (k : Nat) (_ : k < 32) : memWf (up.block (blkHmc k)).cfg = true := by
  revert k
  decide +kernel

theorem witness_MemoryCommandsComplete :
    (Admitted up hd 0x0201 ∧ dmaIn.channel.toNat ≤ 15 ∧ dmaIn.dir.toNat ≤ 1 ∧ dmaFits dmaIn = true ∧
      mfind up.host.dmaRunning dmaIn.channel.toNat = none) ∧
    (mfind upDma.host.dmaRunning 15 = some { hdr := hd, body := dmaIn } ∧ dmaIn.dir = 0 ∧ upDma.waitsZero 0x80 64 = false ∧
      upDma.netAhead (dmaDeadline dmaIn) 0x80 64 = false) ∧
    (mfind upDma.host.dmaRunning 0 = some { hdr := hd, body := dmaOut } ∧ dmaOut.dir = 1 ∧
      dmaOut.options.getLsbD 1 = false ∧ upDma.poisonAt 0x80 64 = none ∧ upDma.netAhead (dmaDeadline dmaOut) 0x80 64 = false) ∧
    (Admitted upDma hd 0x0202 ∧ mrising upDma.host.dmaRunning = true) ∧
    (Admitted up hd 0x0203 ∧ (15 : Byte).toNat ≤ 15 ∧ mfind up.host.dmaRunning (15 : Byte).toNat = none) ∧
    (Admitted up hd 0x0204 ∧ (0x26FC0000000 : DWord).toNat % 2 ^ 30 = 0 ∧ (0x26FC0000000 : DWord).toNat + 2 ^ 36 ≤ hbmSize) ∧
    (2 ^ 36 - 1 + 1 ≤ 2 ^ 36 ∧ up.waitsZero (up.host.apertureBase + (2 ^ 36 - 1)) 1 = false ∧
      up.netAhead none (up.host.apertureBase + (2 ^ 36 - 1)) 1 = false ∧
      up.poisonAt (up.host.apertureBase + (2 ^ 36 - 1)) 1 = none) ∧
    (Admitted up hd 0x0205 ∧ (∀ b ∈ [((2 : Byte), (1 : Byte))], b.1.toNat ≤ 2 ∧ b.2.toNat ≤ 1) ∧
      (79 : Byte).toNat + (1 : Byte).toNat ≤ 80 ∧ up.runActive = false ∧ mwf 0 up.mem.bands = true ∧
      (∀ k, k < 32 → memWf (up.block (blkHmc k)).cfg = true) ∧
      mget 0 up.mem.bands 79 ≠ BitVec.ofNat 3 (2 + 4 * 1)) :=
  ⟨⟨admits _ (by decide +kernel) _, by decide +kernel, by decide +kernel, by decide +kernel, rfl⟩, by decide +kernel, by decide +kernel,
    ⟨admits _ (by decide +kernel) _, by decide +kernel⟩, ⟨admits _ (by decide +kernel) _, by decide +kernel, rfl⟩,
    ⟨admits _ (by decide +kernel) _, by decide +kernel, by decide +kernel⟩, by decide +kernel,
    ⟨admits _ (by decide +kernel) _, by simp, by decide +kernel, by decide +kernel, rfl, cfgs, by decide +kernel⟩⟩

/-- RUN of the image in handle 3. -/
def runs : RunBody := { flags := 0x0030, hangExp := 12, jobTag := 1023, jobSeed := 0, firstStep := 0, stepLimit := 1 }

/-- A step's entry of the record. -/
def aStep : StepEntry :=
  { step := 0, memberEpoch := 0, stallCc := 0, saturated := 0, digestPresent := false, solveFlag := false, sliceDigest := 0,
    stepDigest := 0 }

/-- A fault's record. -/
def aFault : FaultRec :=
  { tile := 0, code := 1, slot := 0, more := false, inRoutine := false, bundle := 0, runCycle := 0, meridian := 0,
    offending := 0, detail := 0 }

/-- A tile at rest. -/
def wt0 : Tile := { Tile.reset with computePhase := true }

/-- A run that has reached its step limit, with a fault recorded. -/
def runFull : State :=
  { up with run := { RunRec.reset with
      state := .running, stepLimit := 1, steps := [aStep],
      faults := [aFault] } }

theorem witness_RunCommandsComplete :
    (Admitted upRun hd 0x0301 ∧ ([] : List PatchEntry).length ≤ 252 ∧ upRun.runBusy = false ∧ upRun.mgp.calValid = true ∧
      mfind upRun.host.images (runs.flags.toNat / 16 % 16) = some im ∧ (upRun.admitted hd).runDenied hd runs im [] = false ∧
      (im.flags.getLsbD 1 = true → runs.flags.getLsbD 0 = true)) ∧
    Admitted up hd 0x0302 ∧
    (Admitted (running { Tile.reset with halted := true }) hd 0x0303 ∧ (1 : Word) ≠ 0 ∧ (1048576 : Word).toNat ≤ 1048576 ∧
      (∀ t ∈ maskTiles 1, ((running { Tile.reset with halted := true }).tile t).halted = true)) ∧
    ((running { Tile.reset with stepping := some 0 }).tile 0).stepping = some 0 ∧
    (Admitted up hd 0x0304 ∧ (30 : Byte).toNat ≤ 30 ∧ (1 : Byte).toNat ≤ 1 ∧ (64 : Byte).toNat ≤ 64 ∧ up.runActive = false) ∧
    Admitted up hd 0x0305 ∧
    (runFull.runActive = true ∧ runFull.run.stepLimit ≠ 0 ∧ runFull.run.stepLimit.toNat ≤ runFull.run.steps.length ∧
      runFull.run.faults ≠ []) ∧
    ((running wt0).run.state = .running ∧ ∀ k ∈ (running wt0).imageTiles,
      ((running wt0).tile k).blocked = [] ∧ ((running wt0).tile k).faulted = false) :=
  ⟨⟨admits _ (by decide +kernel) _, by decide, by decide +kernel, by decide +kernel, by decide +kernel, by decide +kernel,
      by decide +kernel⟩, admits _ (by decide +kernel) _,
    ⟨admits _ (by decide +kernel) _, by decide +kernel, by decide +kernel, by decide +kernel⟩, by decide +kernel,
    ⟨admits _ (by decide +kernel) _, by decide +kernel⟩, admits _ (by decide +kernel) _, by decide +kernel, by decide +kernel⟩

theorem witness_RunStartsTilesAsTable06_3 : im.tiles.Nodup ∧ 0 < im.tiles.length := by decide +kernel

theorem witness_ModuleIdIsSetOnce :
    Admitted up hd 0x0401 ∧ up.domain.moduleId = none ∧ (0xFFFFF : Word).toNat ≤ 0xFFFFF ∧
    Admitted { up with domain := { up.domain with moduleId := some 5 } } hd 0x0401 :=
  ⟨admits _ (by decide +kernel) _, rfl, by decide +kernel, admits _ (by decide +kernel) _⟩

/-- A planned change to epoch 4. -/
def chg : Change := { membership := { epoch := 4, shape := [], members := [0] }, epochs := [], tE := 9, forced := false, transferred := false }
/-- The module with that change announced and the witness's host path on. -/
def upChg : State := { up with domain := { up.domain with change := some chg, witnessHost := true } }

theorem witness_PairAndDomainRowsComplete :
    (Admitted up hd 0x0402 ∧ (3 : Byte).toNat ≤ 3 ∧ up.runActive = false) ∧
    (Admitted up hd 0x0403 ∧ modeOf 1 = some .mirror ∧ modeOf 3 = some .solo ∧ up.pair.role ≠ .fenced) ∧
    (Admitted upChg hd 0x0405 ∧ upChg.domain.change = some chg ∧ chg.membership.epoch = 4) ∧
    (Admitted upChg hd 0x0406 ∧ upChg.domain.witnessHost = true) ∧
    (Admitted up hd 0x0407 ∧ (portOf 0x0F).isSome = true ∧ portOf 0x11 = some 17) ∧ Admitted up hd 0x0408 ∧ Admitted up hd 0x0409 :=
  ⟨⟨admits _ (by decide +kernel) _, by decide +kernel⟩, ⟨admits _ (by decide +kernel) _, by decide +kernel⟩, ⟨admits _ (by decide +kernel) _, by decide +kernel⟩,
    ⟨admits _ (by decide +kernel) _, by decide +kernel⟩, ⟨admits _ (by decide +kernel) _, by decide +kernel⟩, admits _ (by decide +kernel) _, admits _ (by decide +kernel) _⟩

/-- A membership table of module 6 alone with pair epoch 7. -/
def table1 : Bytes := leBytes 4 1 ++ leBytes 1 0 ++ zeros 11 ++ leBytes 4 6 ++ leBytes 4 7

/-- Module 6 with that table at HBM address 0. -/
def upTab : State := { up with domain := { up.domain with moduleId := some 6 }, mem := { MemState.reset with hbm := writeBytes [] 0 table1 } }

def t1 : MemberTable := { shape := [], members := [6], epochs := [(3, 7)] }

/-- The same module in a run whose plan has step 5 as its lowest open step. -/
def upTabRun : State := { upTab with run := { RunRec.reset with state := .running, firstStep := 5 } }

def ann (t : Word) : AnnounceBody := { memberEpoch := 2, tE := t, tableAddr := 0 }

theorem witness_AnnouncementsHold :
    (Admitted upTab hd 0x0404 ∧ upTab.runActive = false ∧ upTab.memberTable 0 = some t1 ∧
      t1.members.contains upTab.moduleIdNat = true) ∧
    (Admitted upTabRun hd 0x0404 ∧ upTabRun.memberTable 0 = some t1 ∧ upTabRun.outside t1 = false ∧
      upTabRun.runActive = true ∧
      upTabRun.currentStep.toNat + (upTabRun.jobOf upTabRun.run.jobId).lead ≤ (ann 9).tE.toNat ∧
      (ann 8).tE.toNat < upTabRun.currentStep.toNat + (upTabRun.jobOf upTabRun.run.jobId).lead) ∧
    (upTabRun.stateLost t1 = false ∧ upTabRun.hasPlan = false) :=
  ⟨⟨admits _ (by decide +kernel) _, by decide +kernel, by decide +kernel, by decide +kernel⟩,
    ⟨admits _ (by decide +kernel) _, by decide +kernel, by decide +kernel, by decide +kernel, by decide +kernel, by decide +kernel⟩,
    by decide +kernel⟩

def keyed (ks : List (Nat × Key)) (e : Bool) : State := { up with sec := { up.sec with keys := ks, enforce := e } }

theorem witness_NonVolatileWritesComplete :
    (Admitted up hd 0x0504 ∧ 8 ≤ (8 : Byte).toNat ∧ (12 : Byte).toNat ≤ 12 ∧ (7200 : Word).toNat ≤ 7200) ∧
    Admitted up hd 0x0502 ∧
    (Admitted up hd 0x0501 ∧ (31 : Word).toNat ≤ 31 ∧ up.runActive = false ∧ up.power.computeDies = true ∧
      up.power.hbmRails = true ∧ up.power.supply = .normal ∧ up.mgp.restoring = false) ∧
    (Admitted up hd 0x0503 ∧ (zeros 4032).length ≤ 4032 ∧ (BitVec.ofNat 32 calTotal).toNat = calTotal) ∧
    (Admitted up hd 0x0601 ∧ AdmittedFree booted hdM 0x0601) ∧
    (Admitted up hd 0x0602 ∧ (7 : Byte).toNat ≤ 7 ∧ mfind up.sec.keys 7 = none ∧ (∀ e ∈ up.sec.keys, e.2 ≠ (5 : Key))) ∧
    (Admitted (keyed [(0, 3), (7, 5)] true) hd 0x0603 ∧ mfind (keyed [(0, 3), (7, 5)] true).sec.keys 7 = some 5 ∧
      1 < (keyed [(0, 3), (7, 5)] true).sec.keys.length) ∧
    Admitted up hd 0x0604 ∧ (Admitted up hd 0x0605 ∧ 0x3FFFFF0 + 16 ≤ 0x4000000 ∧ up.activating = false) ∧
    (Admitted runFull hd 0x0602 ∧ runFull.runActive = true) ∧
    ((keyed [(7, 5)] true).sec.enforce = true ∧ (keyed [(7, 5)] true).sec.keys.length ≤ 1 ∧ up.sec.keys = []) :=
  ⟨⟨admits _ (by decide +kernel) _, by decide +kernel⟩, admits _ (by decide +kernel) _, ⟨admits _ (by decide +kernel) _, by decide +kernel⟩,
    ⟨admits _ (by decide +kernel) _, by decide +kernel, by decide +kernel⟩, ⟨admits _ (by decide +kernel) _, admitsFree _ (by decide +kernel)⟩,
    ⟨admits _ (by decide +kernel) _, by decide +kernel⟩, ⟨admits _ (by decide +kernel) _, by decide +kernel⟩, admits _ (by decide +kernel) _,
    ⟨admits _ (by decide +kernel) _, by decide +kernel⟩, ⟨admits _ (by decide +kernel) _, by decide +kernel⟩, by decide +kernel⟩

/-! ### Witnesses: debug, telemetry and BAR0 -/

/-- A halted tile 0 in a running image of one barrier, watch and receive endpoint, each at its highest number. -/
def dbgTile : Tile :=
  { Tile.reset with halted := true, watches := [(31, { WatchEntry.reset with declared := true })],
                    recvs := [(63, { RecvEp.reset with declared := true })] }

def bar15 : BarrierDecl := { id := 15, scope := .cluster, participants := [0], isStepBarrier := false }

def upDbg : State :=
  { running dbgTile with host := { up.host with images := [(0, { im with body := { imBody with barriers := [bar15] } })] } }

theorem witness_HaltAndReadComplete :
    Admitted up hd 0x0701 ∧ Admitted up hd 0x0702 ∧ (0 ∈ maskTiles 1 ∧ up.enabled 0 = true) ∧
    (Admitted up hd 0x0703 ∧ up.tileNamed 127 = true ∧ (63 : BitVec 16).toNat ≤ objectBound .semaphore ∧
      (31 : BitVec 16).toNat ≤ objectBound .watch ∧ (15 : BitVec 16).toNat ≤ objectBound .barrier) ∧
    (Admitted upDbg hd 0x0705 ∧ upDbg.tileNamed 0 = true ∧ (upDbg.tile 0).halted = true ∧
      ((upDbg.tile 0).regs.setBytes 4 63).isSome = true) :=
  ⟨admits _ (by decide +kernel) _, admits _ (by decide +kernel) _, by decide +kernel,
    ⟨admits _ (by decide +kernel) _, by decide +kernel⟩, ⟨admits _ (by decide +kernel) _, by decide +kernel⟩⟩

theorem witness_DebugWritesComplete :
    Admitted upDbg hd 0x0704 ∧ upDbg.tileNamed 0 = true ∧
    ((63 : BitVec 16).toNat ≤ 63 ∧ (65535 : Word).toNat ≤ 65535 ∧ 65535 < (65536 : Word).toNat) ∧
    (upDbg.barrierDecl (barrierId 15) = some bar15 ∧ 1 ≤ (0xFFFF : Word).toNat % 65536 ∧ (0xFFFF : Word).toNat < 2 ^ 20 ∧
      upDbg.holdsLevel bar15 0 = true ∧ upDbg.holdsLevel bar15 (scopeLevel bar15.scope) = true) ∧
    ((upDbg.tile 0).watch 31).declared = true ∧ ((upDbg.tile 0).recv 63).declared = true :=
  ⟨admits _ (by decide +kernel) _, by decide +kernel⟩

/-- The module with a job 0 of one record. -/
def upRec : State := { up with host := { up.host with jobs := [(0, { (up.jobOf 0) with records := [[7]] })] } }

theorem witness_TelemetryReadsComplete :
    (Admitted up hd 0x0801 ∧ (up.telemetry 1).isSome = true ∧ (up.telemetry 6).isSome = true) ∧
    (Admitted upRec hd 0x0802 ∧ (upRec.jobOf hd.jobId).record 0 = some [7] ∧ (upRec.jobOf hd.jobId).record 1 = some [7]) ∧
    (Admitted up hd 0x0803 ∧ (5 : DWord) ≤ 5) ∧ Admitted up hd 0x0804 ∧ Admitted up hd 0x0805 ∧ Admitted up hd 0x0806 ∧
    (Admitted up hd 0x0807 ∧ up.tileNamed 127 = true ∧ (127 : BitVec 16) ≠ 0xFFFF) ∧ Admitted up hd 0x0808 :=
  ⟨⟨admits _ (by decide +kernel) _, by decide +kernel⟩, ⟨admits _ (by decide +kernel) _, by decide +kernel⟩,
    ⟨admits _ (by decide +kernel) _, by decide⟩, admits _ (by decide +kernel) _, admits _ (by decide +kernel) _,
    admits _ (by decide +kernel) _, ⟨admits _ (by decide +kernel) _, by decide +kernel⟩, admits _ (by decide +kernel) _⟩

/-- A host write of 4 bytes, and one with a byte enable missing. -/
def wr (a : Nat) (v : DWord) : RegWrite := { addr := a, value := v, eight := false, byteEnable := 0x0F }
def wrPart : RegWrite := { wr 4 0 with byteEnable := 0x07 }

/-- TCB of tile 0 with a posted write to CTRL. -/
def upPost : State := { up with blocks := [(128, { Block.reset with posted := some (wr 0x1000004 3) })] }

theorem witness_RegisterWritesComplete :
    (blockAt 0x1000004 = some (128, 4) ∧ up.blockLive 128 = true ∧ up.power.inReset = false ∧ up.hostLock = false ∧
      blockPosted 128 = true ∧ (up.block 128).posted = none) ∧
    (blockAt 0x1000010 = some (128, 0x10) ∧ blockAt 0x1000008 = some (128, 8) ∧ isW1c 128 8 = true ∧
      blockAt 0x1010820 = some (129, 0x820) ∧ (∃ b off, blockAt 0x50800 = some (b, off) ∧ up.isLo b off = true) ∧
      (∃ b off, blockAt 0x50804 = some (b, off) ∧ up.isHi b off = true)) ∧
    ((wr 0x1000004 3).addr % 4 = 0 ∧ (wr 0x1000004 3).byteEnable.setWidth 4 = (0xF : BitVec 4) ∧
      (upPost.block 128).posted.isSome = true ∧ (upPost.block 128).posted = some (wr 0x1000004 3)) ∧
    (∃ v, up.breaksReserved 128 0x04 v = false) ∧ (∃ v, up.breaksReserved 128 0x08 v = false) ∧
    (runFull.runActive = true ∧ hasConfig 128 = true) ∧
    (configOffset 128 0x100 = true ∧ configOffset 128 0x104 = true ∧ (up.block 128).monArm = false ∧
      up.blockEn 128 = false ∧ up.breaksReserved 128 0x100 0x7F = false ∧
      ({ up with blocks := [(128, { Block.reset with en := true })] }).blockEn 128 = true) :=
  ⟨by decide +kernel, ⟨by decide, by decide, by decide, by decide, ⟨5, 0x800, by decide, by decide +kernel⟩,
    ⟨5, 0x804, by decide, by decide +kernel⟩⟩, by decide +kernel,
    ⟨up.reservedRead 128 4, by
      simp only [State.breaksReserved, bne_eq_false_iff_eq]
      exact BitVec.eq_of_toNat_eq (by simp [State.reservedRead])⟩,
    ⟨up.reservedRead 128 8, by
      simp only [State.breaksReserved, bne_eq_false_iff_eq]
      exact BitVec.eq_of_toNat_eq (by simp [State.reservedRead])⟩,
    by decide +kernel, by decide +kernel⟩

/-- MGP with CTRL's MON_ARM set and its monument as its CRC, and one that differs. -/
def armed (c m : Word) : State := { up with blocks := [(2, { Block.reset with monArm := true, crc := c, monument := m, drifted := true })] }

theorem witness_OtherRegisterRowsComplete :
    (blockAt 0x20004 = some (2, 4) ∧ up.power.inReset = false ∧ up.hostLock = false ∧ up.runActive = false) ∧
    (blockAt 0x10 = some (0, 0x10) ∧ blockAt 0x8 = some (0, 8)) ∧
    ((wr 4 0).addr = 4 ∧ (wr 4 0).eight = false ∧ blockAt 4 = some (0, 4)) ∧
    (({ up with hostLock := true }).hostLock = true ∧ blockAt 0x20004 = some (2, 4)) ∧
    (wrPart.byteEnable.setWidth 4 ≠ (0xF : BitVec 4) ∧ wrPart.addr % 4 = 0) ∧
    (∃ v, blockAt 0x50800 = some (5, 0x800) ∧ up.blockLive 5 = true ∧ up.splitValue 5 0x800 = some v ∧
      blockAt (0x50800 + 4) = some (5, 0x800 + 4)) ∧
    (up.block 5).monArm = false ∧
    (((armed 1 1).block 2).monArm = true ∧ ((armed 1 1).block 2).crc = ((armed 1 1).block 2).monument) ∧
    (((armed 1 2).block 2).crc ≠ ((armed 1 2).block 2).monument ∧ ((armed 1 2).block 2).drifted = true) :=
  ⟨by decide +kernel, by decide, by decide, by decide, by decide, ⟨up.clock.meridian, by decide +kernel⟩, by decide +kernel,
    by decide +kernel, by decide +kernel⟩

/-! ### Witnesses: the compute slots -/

/-- A tile in a compute phase with one writable region of 2 MiB. -/
def wt : Tile :=
  { Tile.reset with computePhase := true, regions := [(63, { base := 0, length := 0x200000, classW := true, writable := true })] }

/-- The tile in which the operation of a slot of bundle 5 acts. -/
def bt (t : Tile) (slot : Byte) : Tile := (withLine t).begunAt (running t) at5 slot

def md : ModeArg := { mode := .diagonal, inFmt := .bf16, wFmt := .bf16, accum := .tree 16, scaleA := 0, scaleW := 31 }
def ld : LoadArg := { addr := .imm 0x1FFF00, stride := .imm 0, scaleAddr := .imm 0, k := .imm 1, diagonal := true, region := 63 }
def fd : FeedArg := { src := .rows (.imm 0) (.imm 1024) 63, m := .imm 2, base := .imm 4095, chunk := .imm 0, overwrite := true, pass := 0 }
def fin : FinishArg := { base := .imm 0, rows := .imm 1, n := .imm 16 }
def dr : DrainArg := { base := .imm 0, rows := .imm 1, fmt := .fp32, dest := .scratch (.imm 0x1FFC00) 63 }

/-- An operation of an array engine that has just started. -/
def arun (op : ArrayOp) : ArrayRun :=
  { bundle := 5, seq := 0, op := op, due := 0, row := 0, read := 0, readDue := 0, reads := [], entry := [], got := [],
    hold := 0, out := [], g := 0 }

/-- An engine of the array with these operations. -/
def eng (running : Option ArrayRun) (pending : Option (Nat × Word × ArrayOp)) : EngineState :=
  { running := running, pending := pending, block := none }

def wk : Walk :=
  { addr := .imm 0, n := 65535, h := 65535, w := 1, c := 128, kh := 16, kw := 1, strideV := 8, strideH := 1, dilV := 8,
    dilH := 1, padTop := 15, padLeft := 0, oh := 65535, ow := 1, region := 63 }

/-- A tile whose feeder runs and has a second feed pending. -/
def busyT : Tile :=
  { wt with array := { ArrayState.reset with
      feeder := eng (some (arun (.feed (.endpoint 0) 2 0 0 true 0))) (some (4, 3, .feed (.endpoint 0) 2 0 0 true 0)), issued := 5 } }

theorem witness_ArrayOperationsIssue :
    (Issues (running wt) at5 slotMatrix ∧ modeWf md = true ∧ drainFmt dr.fmt = true ∧
      (∀ k, (((bt wt slotMatrix).startAll 0).array.engine k).pending = none) ∧
      feedWf (withLine wt).array.nextFmt { fd with src := .walk wk } = true ∧
      feedWf (withLine wt).array.nextFmt { fd with src := .endpoint 63 } = true ∧ feedWf (withLine wt).array.nextFmt fd = true) ∧
    (Issues (running busyT) at5 slotMatrix ∧ (((bt busyT slotMatrix).startAll 0).array.engine .feeder).pending.isSome = true) :=
  ⟨⟨issues _ (by decide) _, by decide +kernel, by decide +kernel, by intro k; cases k <;> decide +kernel, by decide +kernel,
    by decide +kernel, by decide +kernel⟩, issues _ (by decide) _, by decide +kernel⟩

theorem witness_ArrayRowsMove :
    (let a : ArrayState := { ArrayState.reset with accum := .flat };
     a.mode ≠ .extended ∧ a.accum = .flat ∧ a.accLate = [] ∧ a.isOpen = false ∧ 255 < 256) ∧
    (let a : ArrayState := { ArrayState.reset with loader := eng (some (arun (.load 0 512 0 2 false 63))) none };
     a.loader.running = some (arun (.load 0 512 0 2 false 63)) ∧ 1 ≠ (arun (.load 0 512 0 2 false 63)).row) ∧
    (let op : ArrayOp := .drain 2047 1 .fp32 (.scratch 0x1FFC00 63)
     let a : ArrayState := { ArrayState.reset with drainEngine := eng (some (arun op)) none }
     let x := (running { wt with array := a }).tile 0
     x.array.drainEngine.running = some (arun op) ∧ (arun op).row < 1 ∧ (arun op).due < 2 * (0 + 1) ∧ x.array.isOpen = false ∧
      drainFmt .fp32 = true) ∧
    (let a : ArrayState := { ArrayState.reset with mode := .extended };
     a.mode = .extended ∧ a.accLate = [] ∧ a.isOpen = false ∧ 35 < 36) ∧
    (let a : ArrayState := { ArrayState.reset with mode := .diagonal, validRows := 256, inFmt := .bf16, wFmt := .bf16 }
     a.mode = .diagonal ∧ 255 < a.validRows ∧ fmtIsMx a.inFmt = false ∧ fmtIsMx a.wFmt = false ∧ a.inFmt ≠ .fp4 ∧
      a.wFmt ≠ .fp4) ∧
    (0 < 1 ∧ ArrayState.reset.validRows ≤ 0 + 0) := by decide +kernel

/-- A tile whose pending finish may start, and one in a freeze cc. -/
def pendT : Tile :=
  { wt with array := { ArrayState.reset with accumStage := eng none (some (0, 4, .finish 0 1 1)), issued := 1 } }
def frozenT : Tile := { wt with freezeNow := .due }

theorem witness_ArrayOperationsStart :
    ((running pendT).computes 0 = true ∧
      (((running pendT).tile 0).array.engine .accum).pending = some (0, 4, .finish 0 1 1) ∧
      ((running pendT).tile 0).array.mayStart .accum 0 = true) ∧
    ((running frozenT).runActive = true ∧ ((running frozenT).tile 0).logical.isSome = true ∧
      ((running frozenT).tile 0).freezeNow = .due) ∧
    (((running frozenT).tile 0).freezeNow ≠ .none ∧ ((running frozenT).tile 0).fillRuns = []) := by decide +kernel

/-- A pass that copies one vector of the scratchpad into V63. -/
def st0 : StreamArg := { base := .imm 0, fmt := .fp32, dims := [], broadcast := false, isUnsigned := false, scale := .none, region := 63 }
def ps : Pass :=
  { n := .imm 1, tail := none, a := .stream st0, b := none, c := none, stages := [],
    results := [{ src := .a, dest := .vrange 63, mask := none, nonSaturating := false }] }
def psLong : Pass := { ps with n := .imm 2 }
def psBad : Pass := { ps with results := [{ src := .out 8, dest := .vrange 0, mask := none, nonSaturating := false }] }

/-- A pass of bundle 5 that has just come to the vector engine. -/
def vrun (p : Pass) : VecRun :=
  { bundle := 5, op := .pass p Regs.zero, red := none, serial := 0, vec := 0, cyc := 0, seen := [], part := [], segs := 0, msgs := [] }
/-- A tile whose vector engine has these. -/
def vecT (running pending : Option VecRun) : Tile :=
  { wt with vector := { VectorState.reset with running := running, pending := pending } }
def vold : VecRun := { vrun ps with bundle := 4 }

theorem witness_VectorPassesComplete :
    (Issues (running wt) at5 slotVector ∧ passShape ps = true ∧ passShape psLong = true ∧ passShape psBad = true ∧
      (passNames ps && redFits (bt wt slotVector).vector.waitingRed 5 ps) = true ∧
      (passNames psBad && redFits (bt wt slotVector).vector.waitingRed 5 psBad) = false ∧
      passRange ps ((bt wt slotVector).samp.srcN ps.n) = true ∧ passRange psLong ((bt wt slotVector).samp.srcN psLong.n) = false ∧
      (((begun (running wt) at5 slotVector).startVec 0).tile 0).vector.pending = none) ∧
    (Issues (running (vecT (some vold) (some vold))) at5 slotVector ∧
      (((begun (running (vecT (some vold) (some vold))) at5 slotVector).startVec 0).tile 0).vector.pending.isSome = true) ∧
    (let s := running (vecT none (some vold))
     s.computes 0 = true ∧ (s.tile 0).vector.running = none ∧ (s.tile 0).vector.pending = some vold ∧
      vold.op = .pass ps Regs.zero) ∧
    ps.check = none ∧
    (0 < 4 ∧ (List.replicate 256 7).length = 256 ∧ (4 * 255, leBytes 4 7) ∈ resultRuns 0 4 (1 <<< 255) (List.replicate 256 7)) ∧
    (0 ≤ 0 ∧ 256 ≤ 256) :=
  ⟨⟨issues _ (by decide) _, by decide +kernel⟩, ⟨issues _ (by decide) _, by decide +kernel⟩, by decide +kernel, by decide,
    by decide +kernel, by decide⟩

/-- A reduction of the pass's stream a into G31, and one of a position that gives no output. -/
def rd : Reduction := { tap := .a, op := .max, isInt := true, group := 3, segment := .imm 1, mean := none, mask := none, dest := .g 31 }
def rdBad : Reduction := { rd with tap := .out 8 }
/-- A result of bundle 5 that is readable from a cc on. -/
def late1 (ready order : Nat) (e : LateEff) : Late :=
  { ready := ready, order := order, slot := slotReduction, bundle := 5, eff := e, uses := [], isOpen := false }
/-- A tile whose reduction unit holds a result of the next cc and one of the cc after. -/
def dueT : Tile :=
  { wt with vector := { VectorState.reset with redDue := [late1 1 1 (.scalar (.g 31) 9), late1 2 1 (.scalar (.g 30) 9)] } }

/-- A tile with a combining endpoint of one slot and 1,024 elements, with one message for it. -/
def msg1 : Msg := { origin := .tile 1 0, slot := 0, data := leBytes 4 7, used := 0, accepted := false, sentBy := (0, 0), cycle := 0 }
def combT : Tile :=
  { wt with recvs := [(63, { RecvEp.reset with
      declared := true, kind := .combining, msgSize := 64, slots := 1, elems := 1024, msgs := [msg1] })] }
def cb : CombineArg := { ep := 63, slot := .imm 0, k := 64, final := none }

theorem witness_ReductionsAndCombines :
    (Issues (running wt) at5 slotReduction ∧ redShape rd = true ∧ redShape rdBad = true ∧
      passOf 5 (bt wt slotReduction).vector.pending = none ∧ passOf 5 (bt wt slotReduction).vector.running = none) ∧
    (Issues (running (vecT none (some (vrun ps)))) at5 slotReduction ∧
      (bt (vecT none (some (vrun ps))) slotReduction).vector.pending = some (vrun ps) ∧
      passOf 5 (some (vrun ps)) = some ps ∧ redNames rd ps = true ∧ redNames rdBad ps = false) ∧
    (Issues (running (vecT (some (vrun ps)) none)) at5 slotReduction ∧
      passOf 5 (bt (vecT (some (vrun ps)) none) slotReduction).vector.pending = none ∧
      (bt (vecT (some (vrun ps)) none) slotReduction).vector.running = some (vrun ps)) ∧
    (running dueT).computes 0 = true ∧
    (Issues (running combT) at5 slotVector ∧ combineShape cb = true ∧ combineRange (bt combT slotVector) cb = true ∧
      (((begun (running combT) at5 slotVector).startVec 0).tile 0).vector.pending = none ∧ cb.final = none) :=
  ⟨⟨issues _ (by decide) _, by decide +kernel⟩, ⟨issues _ (by decide) _, by decide +kernel⟩,
    ⟨issues _ (by decide) _, by decide +kernel⟩, by decide +kernel, issues _ (by decide) _, by decide +kernel⟩

theorem witness_ExactSums :
    (RecvEp.reset.op ≠ .addFp32 ∧ List.Perm (α := Nat → Word) [fun _ => 1, fun _ => 2] [fun _ => 2, fun _ => 1]) ∧
    (let x : RedVal := { bits := -(2 ^ 31), index := 0, flags := 0, live := true };
     -(2 ^ 31) ≤ x.bits.toInt ∧ x.bits.toInt < 2 ^ 31 ∧ x.flags = 0 ∧ x.live = true) ∧
    (let x : RedVal := { bits := 2 ^ 63 - 1, index := 0, flags := 0, live := true };
     let y : RedVal := { bits := 1, index := 0, flags := 0, live := true };
     ¬ (-(2 ^ 63) ≤ x.bits.toInt + y.bits.toInt ∧ x.bits.toInt + y.bits.toInt < 2 ^ 63)) :=
  ⟨⟨by decide, List.Perm.swap _ _ _⟩, by decide, by decide⟩

/-- A tile with these results on their way. -/
def lateT (ls : List Late) : Tile := { wt with late := ls }

theorem witness_ResultsBecomeReadable :
    (let l := late1 2 1 (.scalar (.g 31) 9)
     ((running (lateT [l])).tile 0).late = [l] ∧ l.isOpen = false ∧ l.order < 3 ∧ 0 + 1 < l.ready ∧ l.ready ≤ 1 + 1) ∧
    (let l := late1 1 2 (.scratch [(scratchBytes - 8, zeros 8)])
     ((running (lateT [l])).tile 0).late = [l] ∧ l.ready ≤ 0 + 1 ∧ l.eff = .scratch [(scratchBytes - 8, zeros 8)] ∧
      scratchBytes - 8 + (zeros 8).length ≤ scratchBytes) ∧
    (let x := late1 1 2 (.scalar (.g 31) 9); let y := late1 0 0 (.scalar (.g 31) 8)
     ((running (lateT [x, y])).tile 0).late = [x, y] ∧ x.isOpen = false ∧ y.isOpen = false ∧ x.ready ≤ 0 + 1 ∧ y.ready ≤ 0 + 1 ∧
      x.order = 2 ∧ y.order = 0 ∧ x.eff = .scalar (.g 31) 9 ∧ y.eff = .scalar (.g 31) 8) := by decide +kernel

theorem witness_ScalarOperationsComplete :
    Issues (running wt) at5 slotScalar ∧ 64 ≤ (64 : DWord).toNat ∧ (63 : DWord).toNat < 64 := ⟨issues _ (by decide) _, by decide⟩

/-- A G register with an address. -/
def addrT (a : DWord) : Tile := { wt with regs := Regs.zero.setG 7 a }

theorem witness_ScalarMemoryComplete :
    (Issues (running (addrT 0x1FFFF8)) at5 slotScalar ∧
      ((bt (addrT 0x1FFFF8) slotScalar).samp.scalar (.g 7)).toNat % 8 = 0) ∧
    (Issues (running (addrT 0x1FFFC0)) at5 slotScalar ∧ (56 : PReg).val % 8 = 0 ∧
      ((bt (addrT 0x1FFFC0) slotScalar).samp.scalar (.g 7)).toNat % 64 = 0) ∧
    (Issues (running (addrT 9)) at5 slotScalar ∧ ((bt (addrT 9) slotScalar).samp.scalar (.g 7)).toNat % 8 ≠ 0) :=
  ⟨⟨issues _ (by decide) _, by decide +kernel⟩, ⟨issues _ (by decide) _, by decide +kernel⟩,
    issues _ (by decide) _, by decide +kernel⟩

def frame (last index count : Word) : LoopFrame := { first := 1, last := last, count := count, index := index }
/-- A tile that has issued bundle 5 in this cc, inside loops. -/
def inLoops (fs : List LoopFrame) : Tile := { wt with cur := some 5, issuedAt := some 0, loops := fs }
/-- A tile that comes to bundle 5 inside loops. -/
def toLoops (fs : List LoopFrame) : Tile := { wt with loops := fs }

theorem witness_LoopsComplete :
    (Issues (running wt) at5 slotScalar ∧ at5.bundle < (6 : Word) ∧ (bt wt slotScalar).loops.length < 4 ∧
      (bt wt slotScalar).samp.getL 0 = 0 ∧ (bt { wt with regs := Regs.zero.setL 3 2 } slotScalar).samp.getL 3 ≠ 0) ∧
    (Issues (running (toLoops (List.replicate 4 (frame 9 0 2)))) at5 slotScalar ∧
      4 ≤ (bt (toLoops (List.replicate 4 (frame 9 0 2))) slotScalar).loops.length) ∧
    (let s := running (inLoops [frame 5 1 2, frame 5 0 2])
     s.run.state = .running ∧ (s.tile 0).cur = some (frame 5 1 2).last ∧ (s.tile 0).loops = [frame 5 1 2, frame 5 0 2] ∧
      (s.tile 0).issuedAt = some s.runCycle ∧ (s.tile 0).resolved = false) ∧
    ((frame 7 0 2).last ≠ 5 ∧ (frame 5 0 2).index + 1 < (frame 5 0 2).count ∧ ¬ (frame 5 1 2).index + 1 < (frame 5 1 2).count) :=
  ⟨⟨issues _ (by decide) _, by decide +kernel⟩, ⟨issues _ (by decide) _, by decide +kernel⟩, by decide +kernel, by decide⟩

/-- ACT_TANH (Table 06.6). -/
def tanhOf (s : State) : Routine := (s.routineOf 0x0203).getD { id := 0, name := "", engines := 0, loops := 0, params := [], cycles := "", accesses := [] }
/-- Parameters of a call of ACT_TANH. -/
def tanhT (n : DWord) : Tile := { wt with regs := ((Regs.zero.setG 20 n).setG 21 0).setG 22 0x10000 }
/-- A tile inside ACT_TANH whose cc have passed, and one held at a missing line. -/
def tanhRun : RoutineRun := { id := 0x0203, params := [1], call := 0, cycles := 0 }
def inTanh : Tile := { wt with routine := some tanhRun }

theorem witness_RoutinesAndMissesComplete :
    (let t := tanhT 256; let x := bt t slotScalar
     Issues (running t) at5 slotScalar ∧ (running t).routineOf 0x0203 = some (tanhOf (running t)) ∧
      x.slotsIn.any (fun k => decide (k.toNat ≤ 2)) = false ∧ x.loops.length ≤ 2 ∧
      routineEnginesBusy x (tanhOf (running t)) = false ∧ routineInRange (tanhOf (running t)) (routineParams x.samp) = true) ∧
    (let t := { tanhT 256 with loops := List.replicate 3 (frame 9 0 2) }
     Issues (running t) at5 slotScalar ∧ 2 < (bt t slotScalar).loops.length) ∧
    (let t := { tanhT 256 with vector := (vecT (some vold) none).vector }
     Issues (running t) at5 slotScalar ∧ routineEnginesBusy (bt t slotScalar) (tanhOf (running t)) = true) ∧
    (let t := tanhT 0xFFFFFFFFFFFFFFFF
     Issues (running t) at5 slotScalar ∧ routineInRange (tanhOf (running t)) (routineParams (bt t slotScalar).samp) = false) ∧
    (((running inTanh).tile 0).routine = some tanhRun ∧ (running inTanh).runActive = true ∧
      tanhRun.call + tanhRun.cycles ≤ (running inTanh).runCycle.toNat) ∧
    ((running { wt with istoreHeld := some 2047 }).tile 0).istoreHeld = some 2047 :=
  ⟨⟨issues _ (by decide) _, rfl, by decide +kernel⟩, ⟨issues _ (by decide) _, by decide +kernel⟩,
    ⟨issues _ (by decide) _, by decide +kernel⟩, ⟨issues _ (by decide) _, by decide +kernel⟩, by decide +kernel,
    by decide⟩

/-- Tile 0 in the run, at bundle 5 with nothing in its instruction store. -/
def noLine : State :=
  { up with tiles := [(0, { wt with logical := some 0, nextBundle := 5 })], run := { RunRec.reset with state := .running } }

theorem witness_NothingIssuesWhereTheTileMayNot :
    mayIssue noLine at5 = true ∧ inBundle noLine at5 = false ∧ storeHolds (noLine.tile 0) 5 = false ∧ mayIssue up at5 = false ∧
    (let s := running { wt with faulted := true }; inBundle s at5 = false ∧ (s.tile 0).faulted = true) ∧
    (let s := running frozenT; inBundle s at5 = false ∧ (s.tile 0).freezeNow ≠ .none) ∧
    (let s := running inTanh; inBundle s at5 = false ∧ (s.tile 0).routine ≠ none) ∧
    (let s := running { wt with issuedAt := some 0 }; inBundle s at5 = false ∧ (s.tile 0).issuedAt = some s.runCycle) ∧
    (inBundle (running wt) { at5 with bundle := 6 } = false ∧ ((running wt).tile 0).nextBundle ≠ 6) ∧
    ({ noLine with fuses := { noLine.fuses with enabled := 2 } }).enabled 0 = false ∧
    noLine.run.relaxed = false ∧ ({ noLine with run := { noLine.run with relaxed := true } }).run.relaxed = true := by
  refine ⟨by decide +kernel, by decide +kernel, ?_, by decide +kernel, by decide +kernel, by decide +kernel, by decide +kernel,
    by decide +kernel, by decide +kernel, by decide +kernel, rfl, rfl⟩
  rfl

/-! ### Witnesses: streams, channels and synchronisation -/

/-- The tile in a transfer phase. -/
def xt : Tile := { wt with computePhase := false }

/-- A descriptor of one segment from HBM to the ring. -/
def dsc : Descriptor :=
  { Descriptor.reset with elemCode := 2, counts := [512], strides := [4], ringSize := 2048, segSize := 2048, ringRegion := 63,
                          isSetup := true, doneSem := 62, readySem := 0x7F, persistent := true }

def dscT (d : Descriptor) : Tile := { xt with descs := [(31, d)], sems := [(63, 2)] }

def stp : SetupArg :=
  { dir := .imm 0, persistent := .imm 1, elem := .imm 2, hbmBase := .imm 0, counts := [.imm 511], strides := [.imm 4],
    ringBase := .imm 0, ringSize := .imm 2048, ringRegion := .imm 63, segSize := .imm 2048, remoteTile := .imm 0,
    remoteBase := .imm 0, needBy := .imm 0, needStep := .imm 0, doneSem := .imm 0x7F, readySem := .imm 0x7F }

theorem witness_DescriptorsAreSetUp :
    (let t := dscT dsc; let x := bt t slotStream; let c := x.desc 31
     Issues (running t) at5 slotStream ∧ (stp.counts.length ≤ 5 ∧ stp.strides.length ≤ 5) ∧ c.running = false ∧
      c.isSetup = true ∧ c.persistent = true ∧ x.faulted = false ∧
      descCode (begun (running t) at5 slotStream) x c c.hbmBase = none ∧ c.dir ≠ 2 ∧ x.samp.srcN (.imm 0) = c.hbmBase ∧
      c.turned (running t).runCycle.toNat = false) ∧
    (let t := dscT { dsc with running := true }; let x := bt t slotStream; let c := x.desc 31
     Issues (running t) at5 slotStream ∧ c.running = true ∧ c.isSetup = true ∧ c.persistent = true ∧ x.faulted = false ∧
      descCode (begun (running t) at5 slotStream) x c 0 = none ∧ c.turned (running t).runCycle.toNat = false) ∧
    (Issues (running xt) at5 slotStream ∧ ((bt xt slotStream).desc 31).isSetup = false ∧ (bt xt slotStream).faulted = false) :=
  ⟨⟨issues _ (by decide) _, by decide +kernel⟩, ⟨issues _ (by decide) _, by decide +kernel⟩, issues _ (by decide) _,
    by decide +kernel⟩

def fl : FillArg := { value := 0, addr := .imm 0x1FFFC0, length := .imm 64, region := 63, sem := 63 }
def cp : CopyArg := { source := .imm 0, target := .imm 64, length := .imm 64, sourceRegion := 63, targetRegion := 63, sem := 0 }
def wo : WindowArg := { base := .imm 0x1FFFC0, length := .imm 64, maskLo := .imm 1, maskHi := .imm 0 }
def pf : PrefetchArg := { line := .imm 0, count := .imm 64, needBy := .imm 0, sem := 63 }
def fr : FillRun := { addr := scratchBytes - 64, length := 64, source := none, value := 0, sem := 63, bundle := 1, ends := 0, done := false }
def openEp : SendEp := { SendEp.reset with declared := true, credit := 1, msgSize := 32, depth := 1, dest := .tile 1 7, destTile := 1, destEp := 7 }
def psd : PostSend := { desc := 31, segment := 0, ep := 63, payload := zeros 32, bundle := 1, ready := true, block := none }
def prf (lines : List Nat) : Prefetch := { lines := lines, sem := 63, bundle := 1, needBy := 0 }
/-- A tile with a fill in its last cc, a prefetch of these lines of which line 2047 has come, and a post-send that may go. -/
def workT (lines : List Nat) : Tile :=
  { xt with fillRuns := [fr], prefetches := [prf lines], codeIn := [(2047, 0)], sems := [(63, 65534)],
            sends := [(63, openEp)], postSends := [psd] }

theorem witness_StreamSlotCompletes :
    Issues (running xt) at5 slotStream ∧
    (let x := bt xt slotStream; let r := x.samp
     x.fillRuns = [] ∧ x.fillRange fl.region.val (r.srcN fl.addr) (r.srcN fl.length) true = true ∧ x.computePhase = false ∧
      x.fillRange cp.sourceRegion.val (r.srcN cp.source) (r.srcN cp.length) false = true ∧
      x.fillRange cp.targetRegion.val (r.srcN cp.target) (r.srcN cp.length) true = true ∧
      r.srcN cp.source + r.srcN cp.length ≤ r.srcN cp.target ∧ prefetchWf pf.count = true ∧ 1 ≤ r.srcN pf.count ∧
      r.srcN pf.count ≤ 64 ∧ x.windowOk (r.srcN wo.base) (r.srcN wo.length) = true ∧ (28 : GReg).val % 4 = 0) :=
  ⟨issues _ (by decide) _, by decide +kernel⟩

theorem witness_StreamWorkEnds :
    (let s := running (workT [2047]); let x := s.tile 0
     s.runActive = true ∧ x.fillRuns = [fr] ∧ fr.done = false ∧ fr.ends ≤ s.runCycle.toNat ∧ fr.source = none ∧
      fr.addr + fr.length ≤ scratchBytes ∧ fr.length % 8 = 0 ∧ (x.sem fr.sem.val).toNat < 65535 ∧
      firstKeyed (fun e : Nat × DWord => tileKey (some e.2) 0 32 0 (256 * e.1)) x.codeIn = some (0, 2047, 0) ∧
      x.prefetches = [prf [2047]] ∧ (prf [2047]).needBy = 0 ∧ (prf [2047]).lines.contains 2047 = true ∧
      (prf [2047]).lines.erase 2047 = [] ∧ x.postSends[x.postSends.findIdx x.postReady]? = some psd) ∧
    (prf [2047, 0]).lines.contains 2047 = true ∧ (prf [2047, 0]).lines.erase 2047 ≠ [] := by decide +kernel

def runD : Descriptor := { dsc with running := true, readySem := 63 }
def trf : Transfer :=
  { desc := 31, gen := 0, segment := 0, offset := 0, dir := 0, hbmAddr := 0, localAddr := 0x40, remoteTile := 0, len := 64,
    deadline := 0, bundle := 1, done := true, block := { cycle := 0, mt := 0, hung := false } }
def inb : Inbound := .read 255 0x40 (zeros 64) none
def rmt : Inbound := .remote 3 255 0x40 (zeros 64) none
def tagT : Tile :=
  { dscT { runD with readySem := 0x7F } with tags := [(255, trf)], inbound := [inb] }
def win : Window := { base := 0, length := 128, writers := 8, isOpen := true }
/-- Tile 0 with one remote write from tile 3 on its way, and a refusal on its way back. -/
def rmtS (t : Tile) : State := { running t with net := { NetState.reset with remotes := [(0, rmt)], refusals := [(0, 255, 1, 0x40)] } }

theorem witness_TransfersComplete :
    (let s := running (dscT runD); let x := s.tile 0
     s.runActive = true ∧ x.faulted = false ∧ (x.desc 31).running = true ∧ (x.desc 31).opens ≤ s.runCycle.toNat ∧
      (x.desc 31).needsReady = true ∧ x.sem (x.desc 31).readySem ≠ 0) ∧
    (let s := running tagT; let x := s.tile 0
     s.runActive = true ∧ x.logical.isSome = true ∧ x.faulted = false ∧ x.upsets = [] ∧ x.transferAt ≠ some s.runCycle.toNat ∧
      x.nextDesc s.runCycle.toNat = some (31, { runD with readySem := 0x7F }) ∧ x.freeTag = some 0 ∧ runD.dir = 0) ∧
    (let s := running (dscT { runD with readySem := 0x7F, dir := 1 })
     (s.tile 0).nextDesc s.runCycle.toNat = some (31, { runD with readySem := 0x7F, dir := 1 })) ∧
    (let s := running tagT
     mfind (s.tile 0).tags 255 = some trf ∧ trf.done = true ∧ (((s.tile 0).desc 31).complete trf).2.2 = 0) ∧
    (let s := running tagT
     s.nextInbound 0 = some (0, inb) ∧ (s.tile 0).holdArea = [] ∧ (s.tile 0).canLand s.runCycle.toNat inb.bytes = true) ∧
    (let s := running { tagT with computePhase := true }
     s.nextInbound 0 = some (0, inb) ∧ (s.tile 0).canLand s.runCycle.toNat inb.bytes = false) ∧
    (let s := running { tagT with holdArea := [inb] }
     s.nextInbound 0 = some (0, inb) ∧ (s.tile 0).holdArea ≠ []) ∧
    (let s := running { xt with holdArea := [.read 255 (scratchBytes - 64) (zeros 64) none] }
     (s.tile 0).holdArea = [.read 255 (scratchBytes - 64) (zeros 64) none] ∧
      (s.tile 0).canLand s.runCycle.toNat (zeros 64).length = true ∧ scratchBytes - 64 + (zeros 64).length ≤ scratchBytes) ∧
    (let s := rmtS { xt with windowsBefore := [(15, win)] }
     s.net.remotes.find? (fun e => e.1 == 0 && (s.tile 0).takesRemote e.2) = some (0, rmt) ∧
      (s.tile 0).accepts 3 0x40 (zeros 64).length = true ∧ (s.tile 0).accepts 3 0x41 (zeros 64).length = false) ∧
    (let s := rmtS tagT
     s.runActive = true ∧ (s.tile 0).faulted = false ∧
      s.net.refusals.find? (fun e => e.1 == 0) = some (0, 255, 1, 0x40) ∧ mfind (s.tile 0).tags 255 = some trf) :=
  ⟨by decide +kernel, by decide +kernel, by decide +kernel, by decide +kernel, by decide +kernel, by decide +kernel,
    by decide +kernel, by decide +kernel, by decide +kernel, by decide +kernel⟩

/-- A tile whose counts for barrier 15 are these. -/
def barT (a r : Word) : Tile :=
  let t := { wt with barriers := [(15, { a := a, r := r })] }
  { t with atStart := t.view }

/-- A tile with send endpoint 63, and receive endpoint 63 with messages; what its waits find is as it was when the cc began. -/
def chT (e : SendEp) (r : RecvEp) : Tile :=
  let t := { wt with sends := [(63, e)], recvs := [(63, r)] }
  { t with atStart := t.view }
def rcv (ms : List Msg) : RecvEp := { RecvEp.reset with declared := true, msgSize := 32, msgs := ms }
def snd : SendArg := { ep := 63, status := some 31, slot := none, wp := 7 }

theorem witness_SendsAndClosedChannels :
    (let t := chT openEp (rcv []); let e := (bt t slotChannel).send 63
     IssuesOn (running t) at5 slotChannel [w7 (.credit 63)] ∧ e.declared = true ∧ e.closed = false ∧ e.dest = .tile 1 7 ∧
      (28 : GReg).val % 4 = 0 ∧ (60 : VReg).val + (3 : Fin 4).val + 1 ≤ 64 ∧ 64 < (61 : VReg).val + (3 : Fin 4).val + 1) ∧
    (let t := chT { openEp with closed := true } (rcv []); let e := (bt t slotChannel).send 63
     IssuesOn (running t) at5 slotChannel [w7 (.credit 63)] ∧ e.declared = true ∧ e.closed = true ∧ e.tolerant = false ∧
      (bt t slotChannel).faulted = false) ∧
    (let t := chT { openEp with closed := true, tolerant := true } (rcv []); let e := (bt t slotChannel).send 63
     IssuesOn (running t) at5 slotChannel [w7 (.credit 63)] ∧ e.declared = true ∧ e.closed = true ∧ e.tolerant = true) ∧
    (IssuesOn (running wt) at5 slotChannel [w7 (.credit 63)] ∧ ((bt wt slotChannel).send 63).declared = false) ∧
    w7 (.credit 63) = { wp := snd.wp, on := .credit snd.ep } :=
  ⟨⟨reaches _ (by decide) _ _ (by decide +kernel), by decide +kernel⟩, ⟨reaches _ (by decide) _ _ (by decide +kernel), by decide +kernel⟩,
    ⟨reaches _ (by decide) _ _ (by decide +kernel), by decide +kernel⟩, ⟨reaches _ (by decide) _ _ (by decide +kernel), by decide +kernel⟩,
    rfl⟩

def held (gated waking ready : Bool) : Blocked :=
  { wp := 7, cond := .sem 63 1, bundle := 5, since := 0, sinceMt := 0, gated := gated, waking := waking, ready := ready, hung := false }

theorem witness_WaitsHoldAndWake :
    Waits (running (chT { openEp with credit := 0 } (rcv []))) at5 [w7 (.credit 63)] ∧
    Waits (running (chT openEp (rcv []))) at5 [w7 (.message 63)] ∧
    Waits (running (chT openEp (rcv []))) at5 [w7 (.arrived 63 (.imm 0) 64)] ∧
    Waits (running wt) at5 [w7 (.sem 63 1)] ∧ Waits (running wt) at5 [w7 (.take 63 1)] ∧
    Waits (running wt) at5 [w7 (.watch 31)] ∧
    Waits (running (barT 1 0)) at5 [w7 (.barrier 15)] ∧
    ((held true false false).gated = true ∧ (held true false false).waking = false ∧ (held true true false).waking = true ∧
      (held false false true).gated = false) :=
  ⟨waits _ (by decide) _ (by decide +kernel), waits _ (by decide) _ (by decide +kernel), waits _ (by decide) _ (by decide +kernel),
    waits _ (by decide) _ (by decide +kernel), waits _ (by decide) _ (by decide +kernel), waits _ (by decide) _ (by decide +kernel),
    waits _ (by decide) _ (by decide +kernel), by decide⟩

theorem witness_ReceivesFillRegisters :
    (let t := chT openEp (rcv [msg1])
     IssuesOn (running t) at5 slotChannel [w7 (.message 63)] ∧ ((bt t slotChannel).recv 63).msgs = [msg1] ∧
      msg1.origin = .tile 1 0 ∧ (28 : GReg).val % 4 = 0 ∧ (60 : VReg).val + (3 : Fin 4).val + 1 ≤ 64) ∧
    IssuesOn (running (chT openEp (rcv [msg1]))) at5 slotChannel [w7 (.arrived 63 (.imm 0) 1)] ∧
    (recvV 60 4 (zeros 4096))[3]?.isSome = true :=
  ⟨⟨reaches _ (by decide) _ _ (by decide +kernel), by decide +kernel⟩, reaches _ (by decide) _ _ (by decide +kernel),
    by decide +kernel⟩

def note : Notice := { tile := 0, ep := 63, sentBy := (slotChannel, 5) }
/-- Everything on its way to endpoint 63 of tile 0. -/
def arrS (t : Tile) : State :=
  { running t with net := { NetState.reset with msgs := [{ dest := 0, ep := 63, msg := msg1 }], credits := [note], closings := [note],
                                                openings := [note], discards := [note] } }

theorem witness_EndpointsAndArrivals :
    (let t := chT openEp (rcv [msg1])
     Issues (running t) at5 slotChannel ∧ (((running t).tile 0).recv 63).declared = true ∧
      (((running t).tile 0).recv 63).closed = false) ∧
    (let t := chT openEp { rcv [] with closed := true }
     Issues (running t) at5 slotChannel ∧ (((running t).tile 0).recv 63).declared = true ∧
      (((running t).tile 0).recv 63).closed = true) ∧
    (let s := arrS (chT openEp (rcv [])); let x := s.tile 0
     s.nextMessage 0 63 = some (0, { dest := 0, ep := 63, msg := msg1 }) ∧
      (x.recv 63).kind ≠ .filtered ∧ (x.recv 63).closed = false ∧ (∀ y ∈ (x.recv 63).msgs, y.cycle < s.runCycle.toNat) ∧
      s.net.credits.any (Notice.isFor 0 63) = true ∧
      s.net.closings.any (Notice.isFor 0 63) = true ∧ s.net.openings.any (Notice.isFor 0 63) = true ∧
      s.net.discards.find? (Notice.isFor 0 63) = some note ∧ (x.send 63).tolerant = false ∧ s.runActive = true ∧
      x.faulted = false) ∧
    ((arrS (chT { openEp with tolerant := true } (rcv []))).tile 0 |>.send 63).tolerant = true ∧
    (((arrS (chT openEp { rcv [] with closed := true })).tile 0).recv 63).closed = true :=
  ⟨⟨issues _ (by decide) _, by decide +kernel⟩, ⟨issues _ (by decide) _, by decide +kernel⟩, by decide +kernel, by decide +kernel,
    by decide +kernel⟩

def semT (n : BitVec 16) : Tile :=
  let t := { wt with sems := [(63, n)], fillRuns := [fr] }
  { t with atStart := t.view }

theorem witness_SemaphoreOverflowAndTakes :
    (Issues (running (semT 65534)) at5 slotSync ∧ (1 : BitVec 16) ≠ 0 ∧
      (((running (semT 65534)).tile 0).sem 63).toNat + (1 : BitVec 16).toNat ≤ 65535 ∧
      65535 < (((running (semT 65534)).tile 0).sem 63).toNat + (2 : BitVec 16).toNat ∧
      ((running (semT 65534)).tile 0).faulted = false) ∧
    (let s := running (semT 65535)
     s.runActive = true ∧ (s.tile 0).faulted = false ∧ (s.tile 0).fillRuns = [fr] ∧ fr.done = false ∧
      fr.ends ≤ s.runCycle.toNat ∧ fr.source = none ∧ ((s.tile 0).sem fr.sem.val).toNat = 65535) ∧
    (IssuesOn (running (semT 2)) at5 slotSync [w7 (.take 63 2)] ∧ (2 : BitVec 16) ≤ ((running (semT 2)).tile 0).sem 63) ∧
    IssuesOn (running (semT 2)) at5 slotSync [w7 (.sem 63 2)] ∧
    ((running (semT 2)).tile 0).sem 63 < 3 ∧
    ((running (dscT { runD with readySem := 62 })).tile 0).sem
      (((running (dscT { runD with readySem := 62 })).tile 0).desc 31).readySem = 0 :=
  ⟨⟨issues _ (by decide) _, by decide +kernel⟩, by decide +kernel, ⟨reaches _ (by decide) _ _ (by decide +kernel), by decide +kernel⟩,
    reaches _ (by decide) _ _ (by decide +kernel), by decide +kernel, by decide +kernel⟩

/-- The run of an image with barrier 15. -/
def barS (t : Tile) : State :=
  { running t with host := { up.host with images := [(0, { im with body := { imBody with barriers := [bar15] } })] } }

theorem witness_BarrierArrivesAndWaits :
    (Issues (running (barT 0 0xFFFFFFFF)) at5 slotSync ∧
      (((running (barT 0 0xFFFFFFFF)).tile 0).barrier 15).a - (((running (barT 0 0xFFFFFFFF)).tile 0).barrier 15).r ≠ 2) ∧
    IssuesOn (running (barT 4 4)) at5 slotSync [w7 (.barrier 15)] ∧
    (Issues (barS (barT 1 0xFFFFFFFF)) at5 slotSync ∧
      (((barS (barT 1 0xFFFFFFFF)).tile 0).barrier 15).a - (((barS (barT 1 0xFFFFFFFF)).tile 0).barrier 15).r = 2 ∧
      (barS (barT 1 0xFFFFFFFF)).barrierDecl 15 = some bar15 ∧ ((barS (barT 1 0xFFFFFFFF)).tile 0).faulted = false) :=
  ⟨⟨issues _ (by decide) _, by decide +kernel⟩, reaches _ (by decide) _ _ (by decide +kernel),
    issues (barT 1 0xFFFFFFFF) (by decide) _, by decide +kernel⟩

def wat : WatchEntry := { WatchEntry.reset with declared := true, lastGen := 15, fired := true }
def watT : Tile :=
  let t := { wt with watches := [(31, wat)] }
  { t with atStart := t.view }
def watS : State :=
  { running watT with net := { NetState.reset with watchRegs := [(0, 31, 63, 1, 15)], watchFires := [(0, 31, 15)] } }

theorem witness_WatchesComplete :
    (Issues (running watT) at5 slotSync ∧ (1 : BitVec 16) ≠ 0) ∧
    watS.net.watchRegs.find? (fun e => e.1 == 0 && e.2.1 == 31) = some (0, 31, 63, 1, 15) ∧
    (watS.net.watchFires.find? (fun e => e.1 == 0 && e.2.1 == 31) = some (0, 31, 15) ∧
      (15 : BitVec 4) = ((watS.tile 0).watch 31).lastGen ∧ (14 : BitVec 4) ≠ ((watS.tile 0).watch 31).lastGen) ∧
    (let w : WatchEntry := { WatchEntry.reset with armed := true, value := 1, generation := 15 }
     let t := { wt with watches := [(31, w)], sems := [(0, 1)] }
     (running t).runActive = true ∧ (0, (running t).tile 0) ∈ (running t).tiles ∧ (31, w) ∈ ((running t).tile 0).watches ∧ w.armed = true ∧
       w.value ≤ ((running t).tile w.target).sem w.sem.val) ∧
    (∀ e ∈ ((running wt).tile 0).watches, e.2.armed = true →
      ((running wt).tile e.2.target).sem e.2.sem.val < e.2.value) ∧
    IssuesOn (running watT) at5 slotSync [w7 (.watch 31)] :=
  ⟨⟨issues _ (by decide) _, by decide⟩, by decide +kernel, by decide +kernel,
    ⟨by decide, List.mem_singleton.mpr rfl, by decide +kernel, rfl, by decide +kernel⟩, by decide +kernel,
    reaches _ (by decide) _ _ (by decide +kernel)⟩

def barDie : BarrierDecl := { id := 15, scope := .die, participants := [0], isStepBarrier := false }
def bmsg : BarrierMsg := { barrier := 15, level := .cluster, unit := 0, round := 1 }
def cntS : State :=
  { running wt with host := { up.host with images := [(0, { im with body := { imBody with barriers := [barDie] } })] },
                    net := { NetState.reset with barrierUp := [bmsg], barrierDown := [bmsg],
                                                 counters := [(15, { expected := 2, bank0 := 0, bank1 := 1, round := 1 })] } }

theorem witness_BarrierCountersComplete :
    cntS.barrierDecl 15 = some barDie ∧ barDie.id = 15 ∧
    cntS.net.barrierUp.find? (fun q => q.barrier == 15) = some bmsg ∧ bmsg.level = .cluster ∧ barDie.scope ≠ .cluster ∧
    (cntS.counter 0 0 15).expected ≤ (cntS.counter 0 0 15).bank1 + 1 ∧
    (cntS.counter 0 0 15).bank0 + 1 < (cntS.counter 0 0 15).expected ∧
    cntS.net.barrierDown.find? (fun q => q.barrier == 15) = some bmsg ∧ (cntS.participants barDie).Nodup := by decide +kernel

/-! ### Witnesses: hangs, memory and update engines -/

/-- A tile held since time 0, in a run whose hang limit has passed; with one HANG already counted. -/
def hungS (n : Nat) : State :=
  { running { wt with blocked := [held false false false] } with
    run := { RunRec.reset with state := .running, hangs := n, hangAt := 0 }, clock := { clocked.clock with meridian := 0x10000000 } }

theorem witness_HangsAndFaultsComplete :
    (let s := hungS 0
     ∃ b, (s.tile 0).blockedUnit (.waitPoint 7) = some b ∧ s.runActive = true ∧ (s.tile 0).faulted = false ∧
      b.time.hung = false ∧ b.time.mt.toNat + s.run.hangLimit.toNat ≤ s.clock.meridian.toNat) ∧
    ((hungS 1).run.hangs ≠ 0 ∧ (hungS 1).run.hangReported = false ∧
      (hungS 1).run.hangAt.toNat + 400000 ≤ (hungS 1).clock.meridian.toNat) ∧
    (clocked.clocksRun = true ∧ clocked.clock.rootLocked = true) ∧
    ({ clocked with clock := { clocked.clock with copies := [(7, 3)] } }).clock.copies.find?
      (fun e => e.2 != clocked.clock.meridian) = some (7, 3) ∧
    (∀ e ∈ clocked.clock.copies, e.2 = clocked.clock.meridian) := by
  refine ⟨⟨((hungS 0).tile 0).blockedUnit (.waitPoint 7) |>.get (by decide +kernel), ?_⟩, by decide +kernel, by decide,
    by decide +kernel, by intro e h; cases h⟩
  decide +kernel

/-- A write and a read of stack 0. -/
def rqW : HbmReq := { who := .dma 0, isWrite := true, addr := 0, len := 1, data := [7], deadline := none, remote := none, poison := none }
def rqR : HbmReq := { who := .tile 0 255, isWrite := false, addr := 0, len := 64, data := [], deadline := none, remote := none, poison := none }
def netS (r : HbmReq) (x : Stack) : State :=
  { running tagT with mem := { MemState.reset with net := [r], stackMap := [(0, x)] } }

/-- A plan of one entry of one line of gates at stack address 0. -/
def pent : PlanEntry :=
  { group := 0, program := 0, mirrored := false, preconditioned := false, s1 := false, copy := .none, elemFirst := 0,
    elemCount := 16, gradBase := 0, gate := 0, bucketElems := 1024, markFirst := 0, copyBase := 0, scalarLines := 0,
    scalarBase := 0, needOffset := 0xFFFFFFFF, slots := [] }
def plan0 : UpdatePlan := { markLines := 1, markBase := 0x100000, gateBase := 0, firstStep := 0, entries := [pent] }
/-- The same plan with its bands stack-local. -/
def gateS : State :=
  { netS rqR { Stack.reset with plan := some plan0 } with mem :=
      { MemState.reset with net := [rqR], stackMap := [(0, { Stack.reset with plan := some plan0 })], bands := [(0, 2)] } }

theorem witness_MemoryTrafficCompletes :
    (memWf up.mem.hbm = true ∧ ∀ k, (up.stack k).plan = none) ∧
    (let s := netS rqW .reset
     s.firstNet (s.mayEnter 0) = some (0, rqW) ∧ rqW.isWrite = true ∧ (s.stack 0).hasRoom rqW = true) ∧
    (let s := netS rqR .reset
     s.firstNet (s.mayEnter 0) = some (0, rqR) ∧ rqR.isWrite = false ∧ s.isGateRead rqR = false ∧
      (s.stack 0).hasRoom rqR = true) ∧
    ({ Stack.reset with intake := List.replicate 4096 rqR } : Stack).hasRoom rqR = false ∧
    (let s := netS rqW { Stack.reset with intake := [rqR] }
     s.firstRead (s.stack 0).intake = some (0, rqR) ∧ rqR.poison = none ∧ rqR.who = .tile 0 255 ∧ rqR.remote = none ∧
      rqR.who ≠ .aperture) ∧
    (gateS.firstNet (gateS.mayEnter 0) = some (0, rqR) ∧ gateS.isGateRead rqR = true ∧ (gateS.stack 0).hasRoom rqR = true ∧
      (gateS.stack 0).plan = some plan0 ∧ (gateS.stack 0).heldGates = [] ∧ gateS.poisonAt rqR.addr rqR.len = none ∧
      gateLines plan0 (gateS.stackAddr rqR.addr) rqR.len = [0] ∧ gateLineOf plan0 0 = some (0, 0)) :=
  ⟨⟨by decide, fun k => by
      show (mget Stack.reset up.mem.stackMap k).plan = none
      rfl⟩, by decide +kernel, by decide +kernel, by decide +kernel, by decide +kernel, by decide +kernel⟩

theorem witness_StackUpkeepCompletes :
    (let s := { up with clock := { up.clock with meridianRuns := true, meridian := 4000000 } }
     let x := s.stack 0; let y := x.turnWindow 0 s.clock.meridian.toNat; let j := mget 0 y.refreshIndex 31
     s.clock.meridianRuns = true ∧ j < 327680 ∧
      (if y.fastRefresh then 4 * j + 31 % 4 else 9 * j + 31 % 9) * 4 ≤ (windowAt y.fastRefresh 0 s.clock.meridian.toNat).2 ∧
      mget 0 x.tracking 31 < s.clock.meridian.toNat / 400000 + 1) ∧
    State.reset.clock.meridianRuns = false ∧
    ((up.stack 0).scrubAddr + 64 < 80 * 2 ^ 30 ∧
      80 * 2 ^ 30 ≤ ({ Stack.reset with scrubAddr := 80 * 2 ^ 30 - 64 } : Stack).scrubAddr + 64) := by decide +kernel

/-- Stack 0 with the plan at step 3, its mark line 3 in memory, and one mark waiting. -/
def markS (v : DWord) (run : Bool) : State :=
  { running wt with mem := { MemState.reset with hbm := [(0x400000, 3)], stackMap := [(0, { Stack.reset with
      plan := some plan0, entries := [(0, { running := run, t := 3, completed := some 2, deadline := none })],
      marks := [{ line := 0, value := v, before := 2, deadline := none }], fingerprints := [[1]] })] } }
def plan2 : UpdatePlan := { plan0 with markLines := 2, entries := [{ pent with elemCount := 2000 }] }
def markS2 : State :=
  { running wt with mem := { MemState.reset with stackMap := [(0, { Stack.reset with
      plan := some plan2, entries := [(0, { running := false, t := 3, completed := some 2, deadline := none })],
      marks := [{ line := 0, value := 3, before := 2, deadline := none }] })] } }
/-- The entry of the plan has completed the run's step 0. -/
def doneS : State :=
  { running wt with mem := { MemState.reset with stackMap := [(0, { Stack.reset with
      plan := some plan0, entries := [(0, { running := false, t := 1, completed := some 0, deadline := none })] })] } }

theorem witness_UpdateEnginesComplete :
    (let s := markS 3 false
     (s.stack 0).marks = [{ line := 0, value := 3, before := 2, deadline := none }] ∧ (s.stack 0).plan = some plan0 ∧ s.markWaits 3 = false ∧ s.runActive = true ∧
      markEntry plan0 0 = some (0, pent) ∧ ((s.stack 0).entry plan0 0).t = 3 ∧ ((s.stack 0).entry plan0 0).running = false ∧
      s.allMarked 0 plan0 pent 3 [] = true) ∧
    ((2 : DWord).toNat < ((markS 2 false).stack 0 |>.entry plan0 0).t ∧ ((markS 3 true).stack 0 |>.entry plan0 0).running = true ∧
      ((markS 4 false).stack 0 |>.entry plan0 0).t < (4 : DWord).toNat) ∧
    (markEntry plan2 0 = some (0, { pent with elemCount := 2000 }) ∧ (markS2.stack 0).plan = some plan2 ∧
      markS2.allMarked 0 plan2 { pent with elemCount := 2000 } 3 [] = false) ∧
    (plan0.entries[0]? = some pent ∧ ((markS 3 true).stack 0 |>.entry plan0 0).running = true ∧
      (markS 3 true).passPoison 0 pent 3 = none ∧ ((markS 3 true).stack 0).heldGates = [] ∧
      ((markS 3 true).stack 0).fingerprints = [[1]]) ∧
    (doneS.runActive = true ∧ doneS.hasPlan = true ∧ doneS.stepDone doneS.currentStep.toNat = true ∧
      doneS.recordsPending doneS.currentStep.toNat = false ∧ mfind doneS.pair.ownDigests doneS.currentStep.toNat = none ∧
      (doneS.isRecordModule doneS.currentStep.toNat = true → (doneS.stepDigest doneS.currentStep.toNat).isSome = true) ∧ doneS.pair.mode = .solo) := by
  refine ⟨by decide +kernel, by decide +kernel, by decide +kernel, by decide +kernel, by decide +kernel⟩

/-! ### Witnesses: links, chain traffic and the pair -/

/-- Port 0 up on eight lanes in version 2, in module 6 of the domain, with these packets unacknowledged. -/
def upPort : Port := { Port.reset with state := .eightLanes, version := 2, partner := some { kind := .cy2, versions := 6, moduleId := 7 } }
def pk (t : BitVec 4) (data : Bytes) : Packet :=
  { ptype := t, version := 2, cls := 1, dstModule := 6, srcModule := 7, dstEp := 0x1F80, srcEp := 0, jobId := 64, slot := 0, hops := 7, entered := 0,
    pairEpoch := 7, memberEpoch := 2, lseq := 0xFFFF, cseq := 0, contrib := 0, payload := data }
/-- Module 6 in a membership with its pair, with port 0 as given. -/
def memS (x : Port) : State :=
  { running (chT openEp (rcv [])) with
    domain := { DomainState.reset with moduleId := some 6, ports := [(0, x)], epochs := [(3, 7)],
                                       membership := some { epoch := 2, shape := [2], members := [6, 7] } } }
def unack (n : Nat) : Port := { upPort with unacked := [(pk 1 (zeros 64), n)] }
def raw : RawPacket := { data := (pk 1 (zeros 64)).bytes, fecOk := true }
def raw9 : RawPacket := { data := ({ pk 9 (zeros 64) with cls := 0 }).bytes, fecOk := true }
def rawOld : RawPacket := { data := ({ pk 1 (zeros 64) with pairEpoch := 6 }).bytes, fecOk := true }
def rawFar : RawPacket := { data := ({ pk 1 (zeros 64) with srcModule := 8 }).bytes, fecOk := true }
def rawHops : RawPacket := { data := ({ pk 1 (zeros 64) with hops := 8 }).bytes, fecOk := true }
def rxS : State := memS { upPort with rxSeq := 0xFFFF }

theorem witness_LinksComplete :
    ((up.port 19).up = false ∧ (up.port 19).mayUse .eight = true ∧ up.power.portDies = true ∧ up.power.inReset = false) ∧
    (upPort.up = true ∧ (unack 16).unacked ≠ [] ∧ (∃ e ∈ (unack 16).unacked, 16 ≤ e.2) ∧ (∀ e ∈ (unack 15).unacked, e.2 < 16)) ∧
    ((unack 1).acked 0xFFFF = 0 ∧ (unack 1).unacked.findIdx (fun e => e.1.lseq == 0xFFFF) < (unack 1).unacked.length) ∧
    (upPort.failed ||| failedHalves .bothHalves = 3 ∧ upPort.failed ||| failedHalves .lowHalf ≠ 3 ∧
      upPort.failed ||| failedHalves .lowHalf = 1) ∧
    (({ upPort with state := .down } : Port).state = .down ∧ upPort.partner.isSome = true ∧ upPort.failed = 0) ∧
    ((rxS.port 0).up = true ∧ packetGood raw.data = true ∧ (packetOf raw.data).lseq = (rxS.port 0).rxSeq ∧
      rxS.typeOk 0 (packetOf raw.data) = true ∧ rxS.domain.change = none ∧
      (packetOf raw.data).ptype ≠ 8 ∧ (packetOf raw.data).ptype ≠ 9 ∧
      rxS.epochEntry ((packetOf raw.data).srcModule.toNat / 2) = some 7 ∧ (7 : Word) ≤ (packetOf raw.data).pairEpoch ∧
      (packetOf raw.data).memberEpoch = rxS.memberEpoch) ∧
    (packetGood raw9.data = true ∧ rxS.typeOk 0 (packetOf raw9.data) = true ∧ (packetOf raw9.data).ptype = 9) ∧
    (packetGood rawOld.data = true ∧ (packetOf rawOld.data).pairEpoch < 7 ∧ packetGood rawFar.data = true ∧
      rxS.epochEntry ((packetOf rawFar.data).srcModule.toNat / 2) = none ∧ packetGood rawHops.data = true ∧
      rxS.typeOk 0 (packetOf rawHops.data) = false) ∧
    ((packetOf raw.data).lseq ≠ (memS upPort |>.port 0).rxSeq ∧ packetGood (zeros 64) = false ∧ (rxS.port 0).nakFor = none ∧
      ({ upPort with nakFor := some 0xFFFF } : Port).nakFor ≠ none) :=
  ⟨by decide +kernel, ⟨by decide, by simp [unack], ⟨_, by simp [unack]; rfl, by decide⟩, by simp [unack]⟩, by decide +kernel,
    by decide, by decide, by decide +kernel, by decide +kernel, by decide +kernel, by decide +kernel⟩

/-- Module 6 in a run of job tag 1 with one accepted packet on port p. -/
def accS (p : Nat) (k : Packet) (e : SendEp) (r : RecvEp) : State :=
  { running (chT e r) with
    run := { RunRec.reset with state := .running, jobId := 0 }
    host := { up.host with jobs := [(0, { up.jobOf 0 with tag := 1 })] }
    domain := { (memS upPort).domain with ports := [(p, { upPort with accepted := [k] })] } }
/-- Does port p of a state hold an accepted packet of a type? -/
def takes (s : State) (p t : Nat) : Bool := (s.takePacket p t).isSome

theorem witness_ChainTrafficCompletes :
    (let s := accS 0 (pk 1 (zeros 64)) openEp (rcv [])
     takes s 0 1 = true ∧ s.dataGoes 0 (pk 1 (zeros 64)) = true ∧ s.runActive = true ∧ s.runJob.map (·.tag.toNat) = some ((64 : BitVec 16).toNat / 64) ∧
      (64 : BitVec 16).toNat / 64 ≠ 0 ∧ s.pair.role ≠ .fenced ∧
      (let r := (s.tile (fieldTile 0x1F80).val).recv (fieldEp 0x1F80).val
       r.declared = true ∧ r.closed = false ∧ r.kind ≠ .filtered ∧ (0 : BitVec 16) = mget 0 r.cseq (chanKey (pk 1 [])))) ∧
    (let a := accS 0 (pk 1 (zeros 64)) openEp (rcv [])
     let x : Port := { upPort with accepted := [pk 1 (zeros 64)] }
     let s := { a with domain := { a.domain with ports := [(0, x), (1, x)] } }
     takes s 1 1 = true ∧ s.dataGoes 1 (pk 1 (zeros 64)) = false) ∧
    (let s := accS 0 (pk 1 (zeros 64)) openEp { rcv [] with closed := true }
     ((s.tile (fieldTile 0x1F80).val).recv (fieldEp 0x1F80).val).closed = true) ∧
    (let s := accS 0 (pk 1 (zeros 64)) openEp .reset
     ((s.tile (fieldTile 0x1F80).val).recv (fieldEp 0x1F80).val).declared = false) ∧
    (takes (accS 0 (pk 2 (leBytes 4 (8191 + 8192 * 3))) openEp .reset) 0 2 = true ∧
      takes (accS 0 (pk 3 []) openEp .reset) 0 3 = true ∧ takes (accS 0 (pk 4 []) openEp .reset) 0 4 = true ∧
      takes (accS 0 (pk 5 []) openEp .reset) 0 5 = true ∧ takes (accS 0 (pk 6 (zeros 16)) openEp .reset) 0 6 = true ∧
      takes (accS 19 (pk 7 (leBytes 2 15 ++ zeros 14)) openEp .reset) 19 7 = true ∧ fieldAt (leBytes 2 15 ++ zeros 14) 0 2 < 16 ∧
      openEp.tolerant = false ∧ ({ openEp with tolerant := true } : SendEp).tolerant = true) := by
  refine ⟨by decide +kernel, by decide +kernel, by decide +kernel, by decide +kernel, by decide +kernel⟩

/-- A SYNC reply with its three stamps to exchange 0. -/
def syncK (t1 t2 t3 : DWord) : Packet := pk 8 (syncPayload 0 [t1, t2, t3])

theorem witness_SynchronisationCompletes :
    (({ memS upPort with domain := { (memS upPort).domain with moduleId := some 7 } }).domain.moduleId.isSome = true ∧
      syncParent ({ memS upPort with domain := { (memS upPort).domain with moduleId := some 7 } }).ownRank ≠ none ∧
      syncParent (memS upPort).ownRank = none) ∧
    (takes (accS 0 (pk 8 (syncPayload 0 [5])) openEp .reset) 0 8 = true ∧ fieldAt (syncPayload 0 [5]) 4 4 = 1) ∧
    (let s := accS 0 (syncK 1000 2000 3000) openEp .reset
     let k := syncK 1000 2000 3000
     takes s 0 8 = true ∧ fieldAt k.payload 4 4 ≠ 1 ∧ BitVec.ofNat 32 (fieldAt k.payload 0 4) = s.domain.exchangeNo ∧
      BitVec.ofNat 32 (fieldAt (syncPayload 1 [1, 2, 3]) 0 4) ≠ s.domain.exchangeNo) ∧
    (takes (accS 0 (pk 9 []) openEp .reset) 0 9 = true ∧ (4 : BitVec 19).toNat ≠ (memS upPort).moduleIdNat / 2 ∧
      ({ memS upPort with domain := { (memS upPort).domain with epochs := [(3, 7), (4, 1)] } }).epochEntry 4 = some 1 ∧
      (memS upPort).domain.witnessChain = false) := by
  refine ⟨by decide +kernel, by decide +kernel, by decide +kernel, by decide +kernel⟩

/-- A heartbeat of the twin as holder at the module's epoch. -/
def hb (e : Nat) : Packet := { pk 10 ([1, 1] ++ zeros 2 ++ leBytes 4 0 ++ leBytes 4 e ++ leBytes 4 7 ++ leBytes 8 1000 ++ leBytes 4 0 ++ leBytes 4 0) with version := 1 }
def pairS (r : Role) (k : Packet) : State :=
  { accS 19 k openEp .reset with pair := { PairState.reset with mode := .mirror, role := r, epoch := 7, asked := [(2, 5, 0)],
                                                                nextEpoch := some (8, 100) } }
/-- The identity as a key, and as a signature of everything (R = the identity, S = 0). -/
def lr (h : Word) (e : Word) (res : Byte) : LeaseReplyMsg :=
  { pairId := 3, holder := h, epoch := e, result := res, notBefore := 0, nonce := 5, signature := 1 }
def leaseS (r : Role) : State := { pairS r (hb 7) with domain := { (pairS r (hb 7)).domain with witnessKey := 1 } }

theorem witness_PairRowsComplete :
    ((pairS .holder (hb 7)).domain.moduleId.isSome = true ∧ (pairS .holder (hb 7)).upTie = [19]) ∧
    (let s := pairS .suspended (hb 7); let h := heartbeatOf (hb 7).payload
     takes s 19 10 = true ∧ h.pairEpoch = s.pair.epoch ∧ s.pair.role = .suspended ∧ s.pair.mode ≠ .solo ∧ h.holder.toNat = s.twinId ∧
      s.clock.meridian < h.leaseEnd ∧ s.pair.epoch < (heartbeatOf (hb 8).payload).pairEpoch ∧ s.pair.twinLost = false) ∧
    (let s := { pairS .holder (hb 7) with clock := { clocked.clock with meridian := 120000000 } }
     s.pair.twinLost = false ∧ s.pair.lastHbAt.toNat + 120000000 ≤ s.clock.meridian.toNat) ∧
    ((pairS .holder (hb 7)).pair.mode ≠ .solo ∧ (pairS .holder (hb 7)).pair.role = .holder ∧ up.pair.mode = .solo) ∧
    (let s := leaseS .holder
     s.pair.asked.find? (fun a => a.2.1 == (lr 6 7 0).nonce) = some (2, 5, 0) ∧
      (lr 6 7 0).pairId.toNat = s.moduleIdNat / 2 ∧ ed25519Verify s.domain.witnessKey (leaseSigned (lr 6 7 0)) (lr 6 7 0).signature = true ∧
      (lr 6 7 0).holder.toNat = s.moduleIdNat ∧ (lr 6 7 0).epoch = s.pair.epoch ∧ s.clock.meridian < 0 + 800000000 ∧
      s.pair.epoch < (lr 6 8 2).epoch ∧ (lr 6 8 2).result ≠ 0 ∧
      ed25519Verify s.domain.witnessKey (leaseSigned (lr 6 8 2)) (lr 6 8 2).signature = true) ∧
    ((pairS .holder (hb 7)).pair.leaseEnd ≤ (pairS .holder (hb 7)).clock.meridian ∧
      (pairS .secondary (hb 7)).pair.authorityEnd ≤ (pairS .secondary (hb 7)).clock.meridian) ∧
    ((pairS .holder (hb 7)).pair.nextEpoch = some (8, 100) ∧ (pairS .holder (hb 7)).clock.meridian < 100 ∧ (0 : DWord) ≤ 0) := by
  refine ⟨by decide +kernel, by decide +kernel, by decide +kernel, by decide +kernel, by decide +kernel, by decide +kernel,
    by decide +kernel⟩

/-- A closure digest of step 4, KIND 1. -/
def clo : Packet := { pk 11 (leBytes 4 4 ++ [1] ++ zeros 3 ++ zeros 64) with version := 1 }
def cloS (own : SMap Digest) : State :=
  { accS 16 clo openEp .reset with pair := { PairState.reset with mode := .mirror, ownDigests := own } }
def chgS (c : Change) (ids : List Nat) : State :=
  { memS upPort with domain := { (memS upPort).domain with change := some c, membership := some { epoch := 2, shape := [2], members := ids } }
                     run := { RunRec.reset with state := .running, steps := [{ aStep with step := 8, digestPresent := true, stepDigest := 5 }] } }

theorem witness_ClosureAndTransferComplete :
    (takes (cloS []) 16 11 = true ∧ BitVec.ofNat 8 (fieldAt clo.payload 4 1) ≠ (3 : Byte) ∧
      mfind (cloS []).pair.ownDigests (fieldAt clo.payload 0 4) = none) ∧
    (mfind (cloS [(4, 0)]).pair.ownDigests (fieldAt clo.payload 0 4) = some (BitVec.ofNat 512 (beNat (slice clo.payload 8 64))) ∧
      (cloS [(4, 0)]).run.withheld = none ∧ (cloS [(4, 0)]).pair.closedStep = 0xFFFFFFFF) ∧
    (mfind (cloS [(4, 9)]).pair.ownDigests 4 = some 9 ∧ (9 : Digest) ≠ BitVec.ofNat 512 (beNat (slice clo.payload 8 64)) ∧
      (cloS [(4, 9)]).runActive = true ∧ ((cloS [(4, 9)]).runJob.map (·.closureContinue)).getD false = false) ∧
    (let s := chgS chg [6, 7]
     s.domain.change = some chg ∧ chg.transferred = false ∧ 0 < chg.tE.toNat ∧ s.hasPlan = false ∧ s.isRecordModule (chg.tE.toNat - 1) = true ∧
      s.recordedDigest (chg.tE.toNat - 1) = some 5) ∧
    (let s := chgS chg [4, 6]
     s.isRecordModule (chg.tE.toNat - 1) = false ∧ chg.membership.members.headD s.moduleIdNat ≠ s.moduleIdNat ∧
      ([((0 : StackNo), plan0)].map (·.1)).Nodup) ∧ up.domain.change = none := by
  refine ⟨by decide +kernel, by decide +kernel, by decide +kernel, by decide +kernel, by decide +kernel, rfl⟩

/-! ### Witnesses: clocks, policies, resets and all commands -/

/-- A running module with one token for region 9. -/
def tokS (period : Nat) : State :=
  { clocked with clock := { clocked.clock with tokens := [(9, period, 4)], datumReq := true, quietWindows := 999, meridian := 7 } }

theorem witness_TimingRowsComplete :
    (clocked.clocksRun = true ∧ stretchOf clocked.clock.criticalCode ([(5 : Fin 64)].foldl (fun m c => min m c.val) 63) = 0 ∧
      stretchOf clocked.clock.criticalCode ([(4 : Fin 64)].foldl (fun m c => min m c.val) 63) = 1 ∧
      stretchOf clocked.clock.criticalCode ([(0 : Fin 64)].foldl (fun m c => min m c.val) 63) = 4) ∧
    ((9, 0, 4) ∈ (tokS 0).clock.tokens ∧ (0 + 16 - ((tokS 0).region 9).count.toNat % 16) % 16 = 0 ∧
      (7 + 16 - ((tokS 7).region 9).count.toNat % 16) % 16 = 7 ∧ 7 < (8 + 16 - ((tokS 8).region 9).count.toNat % 16) % 16) ∧
    (8 ≤ (8 : Fin 16).val ∧ (12 : Fin 16).val ≤ 12 ∧ clocked.highestCount + 64 ≤ (64 : DWord).toNat) ∧
    (({ clocked with clock := { clocked.clock with nextBase := some (9, 0) } }).clock.nextBase = some (9, 0) ∧
      (0 : DWord) ≤ (clocked.region 0).count) ∧
    (up.power.inReset = false ∧ up.power.ref100 = true ∧ up.clock.rootLocked = false ∧ up.clock.needsMrst = false) ∧
    ((tokS 0).clock.datumReq = true ∧ (tokS 0).runActive = false ∧ (tokS 0).clock.meridianFresh = true) ∧
    (let r : MarginReading := { codes := List.replicate 34 20, stretched := List.replicate 10 0 }
     clocked.sec.booted = true ∧ (∀ d, d < 9 → railShort r d = false) ∧ (∀ c ∈ r.codes.take 32, 20 ≤ c.val) ∧
      (∀ n ∈ r.stretched, n = 0) ∧ 999 ≤ (tokS 0).clock.quietWindows ∧ (tokS 0).clock.base ≤ (tokS 0).clock.target) ∧
    (let r : MarginReading := { codes := List.replicate 34 7, stretched := List.replicate 10 0 }
     railShort r 8 = true) := by
  refine ⟨by decide +kernel, by decide +kernel, by decide +kernel, by decide +kernel, by decide +kernel, by decide +kernel,
    ⟨by decide +kernel, by decide +kernel, by decide +kernel, by decide +kernel, by decide +kernel, by decide +kernel⟩,
    by decide +kernel⟩

def hot (t m : Int) : ThermalReading := { tileMax := t, stackMax := m, coolantIn := 0, coolantOut := 0 }
def volts (v : Nat) (above : Bool) : SupplyReading := { millivolt := v, above100ms := above }
def entry (sev : Fin 4) : LogEntry :=
  { meridian := 0, seq := 0, code := 0x0101, cls := 0, severity := sev, deferred := false, source := 0, jobId := 0, step := 0, payload := [] }
def offS : State := { clocked with mgp := { up.mgp with thermalOff := true }, power := { up.power with computeDies := false, hbmRails := false } }
def lowS (n : Nat) (x : SupplyState) : State := { clocked with power := { up.power with low485 := n, low460 := n, supply := x } }
def logS : State := { clocked with mgp := { up.mgp with logRing := [entry 3], flashBusy := true } }

theorem witness_PoliciesComplete :
    (clocked.fwUp = true ∧ clocked.mgp.thermalOff = false ∧ 1680 ≤ (hot 1680 0).tileMax ∧ 1520 ≤ (hot 0 1520).stackMax) ∧
    ((hot 1679 1519).tileMax < 1680 ∧ (hot 1679 1519).stackMax < 1520 ∧ 1520 ≤ (hot 1520 0).tileMax ∧ 1440 ≤ (hot 0 1440).stackMax ∧
      clocked.clock.nextBase = none ∧ clocked.clock.base < 12) ∧
    (({ clocked with mgp := { up.mgp with throttling := true } }).mgp.throttling = true ∧ (hot 1439 1359).tileMax < 1440 ∧
      (hot 1439 1359).stackMax < 1360) ∧
    (offS.fwUp = true ∧ offS.mgp.thermalOff = true ∧ (hot 1359 1279).tileMax < 1360 ∧ (hot 1359 1279).stackMax < 1280 ∧
      offS.power.supply ≠ .halting ∧ offS.power.computeDies = false) ∧
    (clocked.power.inputLimit < 7201 ∧ 6839 * 100 < clocked.power.inputLimit * 95) ∧
    (clocked.power.inReset = false ∧ clocked.sec.booted = true ∧ (volts 45999 false).millivolt < 46000 ∧
      (lowS 2 .normal).power.low460 = 2 ∧ (lowS 2 .normal).power.low485 = 2 ∧ 46000 ≤ (volts 48499 false).millivolt ∧
      (volts 48499 false).millivolt < 48500 ∧ (lowS 2 .normal).power.supply = .normal) ∧
    (49500 < (volts 49501 true).millivolt ∧ (lowS 0 .deferring).power.supply = .deferring ∧ up.mgp.flashBusy = false) ∧
    (logS.fwUp = true ∧ logS.power.supply = .normal ∧ logS.mgp.restoring = false ∧ logS.commitDue = true ∧
      logS.mgp.committed.length + logS.mgp.logRing.length ≤ logS.mgp.logRoom) ∧
    (logS.mgp.flashBusy = true ∧ logS.power.inReset = false ∧
      ({ logS with mgp := { logS.mgp with restoring := true } }).mgp.restoring = true) := by decide +kernel

/-- A firmware image of one byte whose root key and signature are the identity, with these ROLLBACK and ACTIVATION. -/
def fwFront (rb : Nat) : Bytes :=
  leBytes 4 0x57465943 ++ leBytes 2 1 ++ leBytes 2 rb ++ zeros 4 ++ leBytes 4 0x200 ++ leBytes 8 1 ++ zeros 40 ++ leBytes 32 1 ++ zeros 32
def fwBytes (rb act : Nat) : Bytes :=
  let d := digestBytes (sha512 (fwFront rb ++ [0]))
  fwFront rb ++ d ++ leBytes 64 1 ++ leBytes 4 act ++ zeros 252 ++ [0]
def fwImg (rb act : Nat) : FwImage := { data := writeBytes [] 0 (fwBytes rb act) }
/-- A module made with that root key. -/
def made (a b : FwImage) : State :=
  { State.reset with sec := { SecState.reset with rootKeyHash := sha512 (leBytes 32 1), imageA := a, imageB := b } }
/-- The same module with the firmware of image A of ROLLBACK 64 running for 600 s. -/
def aged : State :=
  { made (fwImg 64 1) (fwImg 0 0) with
    sec := { (made (fwImg 64 1) (fwImg 0 0)).sec with booted := true }, clock := { ClockState.reset with meridian := 240000000000 } }

theorem fwImg_rollback : (made (fwImg 65 3) (fwImg 0 2)).sec.imageValid (fwImg 65 3) = false := by decide +kernel
theorem fwImg_other : (made (fwImg 64 1) (fwImg 0 2)).sec.imageValid (fwImg 0 2) = true := by decide +kernel

theorem witness_ResetsAndBootComplete :
    up.power.keepAlive = true ∧
    (let s := { up with power := { up.power with inReset := true, portDies := true, computeDies := false } }
     s.power.inReset = true ∧ s.power.railsUp = false ∧ s.power.portDies = true) ∧
    (let s := { up with power := { up.power with inReset := true } }
     s.power.inReset = true ∧ s.power.railsUp = true) ∧
    (let s := made (fwImg 64 1) (fwImg 0 2)
     s.power.inReset = false ∧ s.sec.booted = false ∧ s.sec.recovery = false ∧ s.sec.lifecycle = 0b0011 ∧
      s.sec.imageA.activation < s.sec.imageB.activation) ∧
    ((made { data := [] } { data := [] }).sec.imageValid { data := [] } = false) ∧
    (aged.fwUp = true ∧ aged.sec.fwFault = false ∧ aged.sec.bootedAt.toNat + 240000000000 ≤ aged.clock.meridian.toNat ∧
      aged.sec.rollback < aged.sec.ownRollback ∧ aged.mgp.burnWaits = false ∧ aged.power.supply = .normal ∧
      aged.mgp.restoring = false) := by
  refine ⟨rfl, by decide, by decide, by decide +kernel, by decide +kernel, by decide +kernel⟩

/-- FW_ACTIVATE's premise in `NonVolatileWritesComplete`: a session on a module whose other image is valid. -/
theorem witness_NonVolatileWritesComplete_fwActivate :
    let s := { up with sec := { up.sec with rootKeyHash := sha512 (leBytes 32 1), imageB := fwImg 64 0 } }
    Admitted s hd 0x0606 ∧ s.sec.other = fwImg 64 0 ∧ s.sec.imageValid s.sec.other = true :=
  ⟨admits _ (by decide) _, by decide +kernel, by decide +kernel⟩

/-- A RUN with its longest patch list. -/
def fullRun : Instr := .run hd runs (List.replicate 252 { value := 0, reg := 0, select := 0, target := 0 })

theorem witness_PacketsSpellTheirCommands :
    wellFormed fullRun = true ∧ (∃ bs, encodeBody fullRun = some (hd, 0x0301, bs) ∧ bs.length = 4056) :=
  ⟨by decide +kernel, _, rfl, by decide +kernel⟩

theorem witness_PacketCommandsNeverStop : encodeBody fullRun ≠ none := by
  intro h
  cases h

theorem witness_FixedStateIsKept : step up = .next up.tick := rfl

theorem witness_StepsKeepTheStores : State.reset.storesWf ∧ step State.reset = .next State.reset.tick := by
  refine ⟨⟨rfl, ?_⟩, rfl⟩
  intro e h
  cases h

theorem witness_EventsEnterTheLog : (zeros 100).length ≤ 100 ∧ up.mgp.logRing.length < 4096 := by decide +kernel

/-! ### Ill-formed commands: one for each check of `wellFormed` -/

theorem ill_packets :
    wellFormed (.memoryLayout hd 0 2 [(0, 0)]) = false ∧
    wellFormed (.run hd runs (List.replicate 253 { value := 0, reg := 0, select := 0, target := 0 })) = false ∧
    wellFormed (.calImport hd 0 0 (zeros 4033)) = false ∧ wellFormed (.fwWrite hd 0 (zeros 4049)) = false ∧
    wellFormed (.spdm hd (.other 0x84)) = false := by decide +kernel

theorem ill_engines :
    wellFormed (.setMode at5 { md with inFmt := .int8 }) = false ∧
    wellFormed (.drain at5 { dr with fmt := .int8 }) = false ∧
    wellFormed (.vectorPass at5 { ps with results := List.replicate 3 { src := .a, dest := .g 0, mask := none, nonSaturating := false } }) = false ∧
    wellFormed (.reduction at5 { rd with mean := some 0 }) = false ∧
    wellFormed (.combine at5 { cb with k := 65 }) = false ∧ wellFormed (.combine at5 { cb with k := 0 }) = false ∧
    wellFormed (.pBlockLoad at5 4 (.g 0) 0) = false ∧ wellFormed (.loopStart at5 0 5) = false ∧
    wellFormed (.setup at5 0 { stp with counts := List.replicate 6 (.imm 0) }) = false ∧
    wellFormed (.setup at5 0 { stp with strides := List.replicate 6 (.imm 0) }) = false := by decide +kernel

theorem ill_channels :
    wellFormed (.sendG at5 snd 2) = false ∧ wellFormed (.sendG at5 { snd with wp := 1023 } 4) = false ∧
    wellFormed (.sendV at5 { snd with wp := 1023 } 0 0) = false ∧ wellFormed (.recvG at5 0 2 0) = false ∧
    wellFormed (.recvG at5 0 0 1023) = false ∧ wellFormed (.recvV at5 0 0 0 1023) = false ∧
    wellFormed (.recvDrop at5 0 1023) = false ∧ wellFormed (.postSend at5 0 (.imm 0) 0 2) = false ∧
    wellFormed (.waitArrived at5 0 (.imm 0) 65 0) = false ∧ wellFormed (.waitArrived at5 0 (.imm 0) 1 1023) = false ∧
    wellFormed (.signal at5 0 0) = false ∧ wellFormed (.wait at5 0 0 false 1023) = false ∧
    wellFormed (.watchReg at5 0 0 0) = false ∧ wellFormed (.watchWait at5 0 1023) = false ∧
    wellFormed (.bwait at5 0 1023) = false := by decide +kernel

theorem ill_events :
    wellFormed (.inboxCommit 0x40000 [] none) = false ∧ wellFormed (.mctpMessage (zeros 65) none) = false ∧
    wellFormed (.registerWrite (wr 0x4000000 0)) = false ∧ wellFormed (.ctrlEnWrite 2 true) = false ∧
    wellFormed (.ctrlMonArmWrite 2 true) = false ∧ wellFormed (.monumentWrite 0x4000000 0) = false ∧
    wellFormed (.splitLoRead false 2) = false ∧ wellFormed (.splitLoWrite 2 0) = false ∧ wellFormed (.splitHiWrite 2 0) = false ∧
    wellFormed (.w1cWrite 2 0) = false ∧ wellFormed (.postedWriteApplied 2) = false ∧ wellFormed (.cfgCrcRecompute 2 []) = false ∧
    wellFormed (.marginPolicy { codes := [], stretched := List.replicate 10 0 }) = false ∧
    wellFormed (.marginPolicy { codes := List.replicate 34 0, stretched := [] }) = false := by decide +kernel

/-! ### Packets written out byte by byte -/

/-- The RUN of Table 15.17; its CRC-32C was worked out by hand from R513. -/
def runPacket : Bytes :=
    [0x02, 0x01, 0x01, 0x03, 0x06, 0x00, 0x00, 0x00, 0x28, 0x00, 0x00, 0x00, 0x31, 0x00, 0x00, 0x00,
     0x07, 0x00, 0x00, 0x00, 0x00, 0x00, 0x00, 0x00, 0x41, 0x2C, 0x00, 0x00, 0x00, 0x00, 0x00, 0x00,
     0x00, 0x00, 0x01, 0x00, 0x31, 0x00, 0x00, 0x00, 0x31, 0x7A, 0x00, 0x00, 0x00, 0x00, 0x00, 0x00,
     0x7E, 0x05, 0x00, 0x00, 0x00, 0x00, 0x00, 0x00, 0x00, 0x00, 0x00, 0x00, 0x28, 0x00, 0x00, 0x00,
     0x09] ++
    zeros 55 ++
    [0x06, 0x00, 0x00, 0x00, 0x06, 0xE1, 0xB3, 0x0B]

set_option maxRecDepth 20000 in
theorem test_run_packet :
    (match decode .pcie runPacket none { withinLimits := true, store := [] } with
     | some (.run h b es) => decide (h = { hd with seq := 6, jobId := 0x31, ringIndex := 7, session := 0x2C41 }) &&
         decide (b = { flags := 0, hangExp := 0, jobTag := 0x31, jobSeed := 0x7A31, firstStep := 1406, stepLimit := 0 }) &&
         decide (es = [{ value := 0x002800000000, reg := 9, select := 0, target := 0 }])
     | _ => false) = true := by decide +kernel

/-- SET_MODULE_ID of 0x53 (Tables 15.5 and 15.14). -/
def setIdPacket : Bytes :=
    [0x02, 0x01, 0x01, 0x04, 0x01, 0x00, 0x00, 0x00, 0x04] ++
    zeros 15 ++
    [0x01, 0x00, 0x00, 0x00, 0x00, 0x00, 0x00, 0x00, 0x53] ++
    zeros 23 ++
    [0x01, 0x00, 0x00, 0x00, 0x33, 0xC8, 0x1F, 0xCA]

theorem test_setModuleId_packet :
    decode .pcie setIdPacket none { withinLimits := true, store := [] } = some (.setModuleId hd 0x53) := by decide +kernel

/-- One bit of a packet changed: its CRC no longer agrees. -/
theorem test_packet_crc : (readPacket .pcie (setIdPacket.set 32 0x52)).crcGood = false := by decide +kernel

/-- A longest RUN in slots 254, 255, 0 and 1: its trailer lies at BAR2 0x07F8 (the example of section 15). -/
theorem test_run_trailer_place :
    let h := { up.host with inSlot := 254, inbox := ringWrite [] (254 * 1024) (headerBytes hd 0x0301 4056) }
    h.trailerPlace = 0x7F8 := by decide +kernel

/-! ### Worked examples of the spec -/

/-- The example of section 09: address 0x0123_4567_9A40 in die-local mode. -/
theorem test_hbm_address :
    up.stackOf 0x012345679A40 = 13 ∧ up.stackAddr 0x012345679A40 = 0x91159EA40 ∧ coreDie 0x91159EA40 = 13 ∧
    up.hbmAddr 13 0x91159EA40 = 0x012345679A40 := by decide +kernel

/-- Table 03.5: the G16 leaves of three elements. -/
theorem test_g16_leaves :
    g16Leaf (f32Scale (0x45AA64C0 : Word) (-22)).1 (-22) 32767 0x6A3C0F12 = (5453, false) ∧
    g16Leaf (f32Scale (0xC4966800 : Word) (-22)).1 (-22) 32767 0xD1E04C77 = (-1204, false) ∧
    (g16Leaf (f32Scale (0x47202800 : Word) (-22)).1 (-22) 32767 0).1 = 32767 ∧
    (g16Leaf (f32Scale (0x47202800 : Word) (-22)).1 (-22) 32767 0).2 = true := by decide +kernel

/-- R5 and R11's example in section 00: tile 77 lies on die 4, in cluster 3 of it. -/
theorem test_tile_77 : dieOf 77 = 4 ∧ clusterOf 77 = 4 * 4 + 3 := by decide +kernel

/-- The example of section 16: where tile 77's registers lie. -/
theorem test_tile_77_blocks :
    blockAt 0x2340000 = some (128 + 77 * 4, 0) ∧ blockAt 0x2343FF8 = some (128 + 77 * 4, 0x3FF8) ∧
    blockAt 0x2360820 = some (128 + 77 * 4 + 2, 0x820) ∧ up.hostRead 0x2340000 = 0x00014D02 := by decide +kernel

/-- R572: HANG_REPORT is 0x0202 and SUPPLY_LOW is 0x0A01. -/
theorem test_event_codes : eventCode evHangReport = 0x0202 ∧ eventCode evSupplyLow = 0x0A01 := by decide

/-- The example of section 11: in the pod of modules 0x40 to 0x7F, module 0x53 has rank 19; its level-1 aggregator is rank
16, whose parent is rank 0. -/
theorem test_sync_tree :
    rankIn ((List.range 64).map (0x40 + ·)) 0x53 = 19 ∧ syncParent 19 = some 16 ∧ syncParent 16 = some 0 ∧ syncParent 0 = none := by
  decide +kernel

/-- The canonical check value of CRC-32C over the digits 1 to 9, and SHA-512 of the empty string (R583). -/
theorem test_check_values :
    crc32c [0x31, 0x32, 0x33, 0x34, 0x35, 0x36, 0x37, 0x38, 0x39] = 0xE3069283 ∧ (sha512 []).toNat / 2 ^ 480 = 0xCF83E135 := by
  decide +kernel

/-! ### Single steps -/

/-- A NOP waits in the queue's front: the step answers it and keeps the rest. -/
theorem test_nop_step :
    (match step { up with pending := [.nop hd, .faultStop] } with
     | .next t => decide (t.pending = [.faultStop]) && decide (t.host.waiting.length = 1) &&
         decide (t.host.pcie = some { ses with nextSeq := 2 })
     | _ => false) = true := by decide +kernel

/-- SIGNAL above 65,535 faults the tile and ends with code 5 in the run's records (R296). -/
theorem test_signal_overflow :
    (match opSignal at5 63 2 (running (semT 65534)) with
     | .next t => (t.tile 0).faulted && decide ((t.run.faults.map (·.code)) = [5])
     | _ => false) = true := by
  have h := issues (semT 65534) (by decide) slotSync
  unfold opSignal issue
  rw [show ((2 : BitVec 16) != 0) = true from rfl, issueOn_issues h]
  decide +kernel

/-- An aligned store of a G register: its low byte lies at the low address. -/
theorem test_store_bytes :
    readBytes (writeBytes [] 8 (leBytes 8 0x1122334455667788)) 8 3 = [0x88, 0x77, 0x66] := by decide +kernel

/-- Reset meets the invariant of the byte stores. -/
theorem reset_storesWf : State.reset.storesWf := by
  refine ⟨rfl, ?_⟩
  intro e h
  cases h

end Sys2Proof.Tests
end

section
/-! PROOFS. Barriers of a tile: ARRIVE and BWAIT (R302, R304). -/

namespace Sys2Proof.Machine

/-! ### The barrier counts of a tile -/

@[simp] theorem Tile.setBarrier_barrier_same (t : Tile) (b : Nat) (x : BarrierCounts) :
    (t.setBarrier b x).barrier b = x := by
  simp [Tile.setBarrier, Tile.barrier]

theorem Tile.setBarrier_barrier_other (t : Tile) (b n : Nat) (x : BarrierCounts) (h : n ≠ b) :
    (t.setBarrier b x).barrier n = t.barrier n := by
  simp [Tile.setBarrier, Tile.barrier, mget_mset_other _ _ b n x h]

@[simp] theorem Tile.setBarrier_regs (t : Tile) (b : Nat) (x : BarrierCounts) : (t.setBarrier b x).regs = t.regs := rfl
@[simp] theorem Tile.setBarrier_faulted (t : Tile) (b : Nat) (x : BarrierCounts) :
    (t.setBarrier b x).faulted = t.faulted := rfl

/-- A barrier wait is satisfied when every round that the tile has arrived at was released, as the cc began (R206, R302). -/
theorem Tile.waitMet_barrier_iff (t : Tile) (wp : Fin 1024) (b : Fin 16) :
    t.waitMet { wp := wp, on := .barrier b } = true ↔ (t.started.barrier b.val).r = (t.started.barrier b.val).a := by
  simp [Tile.waitMet, waitCond, condHolds, takeHolds]

/-! ### What the issue of a bundle leaves unchanged -/

@[simp] theorem Tile.begunAt_barrier (t : Tile) (s : State) (i : Iss) (slot : Byte) (n : Nat) :
    (t.begunAt s i slot).barrier n = t.barrier n := by
  unfold Tile.begunAt; split <;> rfl

@[simp] theorem Tile.begunAt_regs (t : Tile) (s : State) (i : Iss) (slot : Byte) :
    (t.begunAt s i slot).regs = t.regs := by
  unfold Tile.begunAt; split <;> rfl

@[simp] theorem Tile.begunAt_faulted (t : Tile) (s : State) (i : Iss) (slot : Byte) :
    (t.begunAt s i slot).faulted = t.faulted := by
  unfold Tile.begunAt; split <;> rfl

theorem begun_tile_other (s : State) (i : Iss) (slot : Byte) (j : Nat) (h : j ≠ i.tile.val) :
    (begun s i slot).tile j = s.tile j :=
  State.modTile_other s i.tile.val j _ h

@[simp] theorem begun_run (s : State) (i : Iss) (slot : Byte) : (begun s i slot).run = s.run := rfl
@[simp] theorem begun_net (s : State) (i : Iss) (slot : Byte) : (begun s i slot).net = s.net := rfl
@[simp] theorem begun_runActive (s : State) (i : Iss) (slot : Byte) : (begun s i slot).runActive = s.runActive := rfl
@[simp] theorem begun_barrierDecl (s : State) (i : Iss) (slot : Byte) (b : Fin 16) :
    (begun s i slot).barrierDecl b = s.barrierDecl b := rfl

/-- A bundle issues only in a run. -/
theorem IssuesOn.runActive {s : State} {i : Iss} {slot : Byte} {own : List WaitPoint} (h : IssuesOn s i slot own) :
    s.runActive = true := by
  obtain ⟨hmay, -⟩ := h
  simp only [mayIssue, Bool.and_eq_true] at hmay
  obtain ⟨⟨⟨hrun, -⟩, -⟩, -⟩ := hmay
  simp [State.runActive, hrun]

/-! ### Contract faults -/

@[simp] theorem State.contractFault_net (s : State) (t : Nat) (code : BitVec 16) (slot : Byte) (bundle : Word)
    (offending detail : DWord) : (s.contractFault t code slot bundle offending detail).net = s.net := by
  unfold State.contractFault State.raiseContract
  split
  · split <;> rfl
  · rfl

/-- The first contract fault of a tile in a run stops the tile and adds one record, which carries what was raised (R236). -/
theorem State.contractFault_records (s : State) (t : Nat) (code : BitVec 16) (slot : Byte) (bundle : Word)
    (offending detail : DWord) (hrun : s.runActive = true) (hclear : (s.tile t).faulted = false) :
    ((s.contractFault t code slot bundle offending detail).tile t).faulted = true ∧
    ∃ f, (s.contractFault t code slot bundle offending detail).run.faults = s.run.faults ++ [f] ∧
      f.code = code ∧ f.offending = offending ∧ f.detail = detail := by
  simp only [State.contractFault, State.raiseContract, hrun, hclear, if_true, Bool.false_eq_true, if_false]
  refine ⟨?_, _, rfl, rfl, rfl, rfl⟩
  change ((s.modTile t (fun x => { x with faulted := true })).tile t).faulted = true
  simp

/-! ### ARRIVE and BWAIT -/

/-- OFFENDING of BARRIER_OVERRUN: the barrier in bits [3:0], the scope level in [6:4] (R304). -/
def overrunPlace (b : Fin 16) (scope : BarrierScope) : DWord := BitVec.ofNat 64 (b.val + 16 * scopeLevel scope)

theorem scopeLevel_le (scope : BarrierScope) : scopeLevel scope ≤ 4 := by cases scope <;> decide

theorem overrunPlace_toNat (b : Fin 16) (scope : BarrierScope) :
    (overrunPlace b scope).toNat = b.val + 16 * scopeLevel scope := by
  have hlevel := scopeLevel_le scope
  simp only [overrunPlace, BitVec.toNat_ofNat]
  omega

theorem overrunPlace_barrier (b : Fin 16) (scope : BarrierScope) : (overrunPlace b scope).toNat % 16 = b.val := by
  rw [overrunPlace_toNat]; omega

theorem overrunPlace_level (b : Fin 16) (scope : BarrierScope) :
    (overrunPlace b scope).toNat / 16 = scopeLevel scope := by
  rw [overrunPlace_toNat]; omega

/-- A tile arrives at a round of a barrier that it may open: a rises by 1, and the arrival is on its way to the cluster counter. -/
def State.arrivalSent (s : State) (k : TileNo) (b : Fin 16) : State :=
  let c := (s.tile k.val).barrier b.val
  let s1 := s.setTile k.val ((s.tile k.val).setBarrier b.val { c with a := c.a + 1 })
  { s1 with net := { s1.net with barrierUp := s1.net.barrierUp ++
      [{ barrier := b, level := .cluster, unit := clusterOf k.val, round := c.a }] } }

/-- A tile's third arrival at a barrier of a scope: BARRIER_OVERRUN, and a is left undefined (R236). -/
def State.arrivalOverrun (s : State) (i : Iss) (b : Fin 16) (scope : BarrierScope) : State :=
  let c := (s.tile i.tile.val).barrier b.val
  ((s.contractFault i.tile.val cfBarrierOverrun slotSync i.bundle (overrunPlace b scope) (c.a.setWidth 64)).modTile
    i.tile.val (fun x => x.setBarrier b.val { c with a := Config.freeWord s.freeCtr })).drawn 1

@[simp] theorem State.arrivalSent_tile (s : State) (k : TileNo) (b : Fin 16) :
    (s.arrivalSent k b).tile k.val = (s.tile k.val).setBarrier b.val
      { (s.tile k.val).barrier b.val with a := ((s.tile k.val).barrier b.val).a + 1 } :=
  State.setTile_same s k.val _

theorem State.arrivalSent_tile_other (s : State) (k : TileNo) (b : Fin 16) (j : Nat) (h : j ≠ k.val) :
    (s.arrivalSent k b).tile j = s.tile j :=
  State.setTile_other s k.val j _ h

@[simp] theorem State.arrivalSent_run (s : State) (k : TileNo) (b : Fin 16) : (s.arrivalSent k b).run = s.run := rfl

@[simp] theorem State.arrivalSent_barrierUp (s : State) (k : TileNo) (b : Fin 16) :
    (s.arrivalSent k b).net.barrierUp = s.net.barrierUp ++
      [{ barrier := b, level := .cluster, unit := clusterOf k.val, round := ((s.tile k.val).barrier b.val).a }] := rfl

/-- An overrun sends no arrival (R236, log 58). -/
@[simp] theorem State.arrivalOverrun_net (s : State) (i : Iss) (b : Fin 16) (scope : BarrierScope) :
    (s.arrivalOverrun i b scope).net = s.net := by
  simp [State.arrivalOverrun]

/-- Where ARRIVE issues, the codes find no error. -/
theorem exec_arrive_of_issues {s : State} {i : Iss} {b : Fin 16} (h : Issues s i slotSync) :
    exec (.arrive i b) s = opArrive i b s := by
  obtain ⟨-, hecc, -⟩ := h
  exact eccGuard_none i (opArrive i b) s hecc

/-- ARRIVE with at most one round open sends the arrival (R302). -/
theorem exec_arrive_of_not_two_open {s : State} {i : Iss} {b : Fin 16} (h : Issues s i slotSync)
    (hopen : ((s.tile i.tile.val).barrier b.val).a - ((s.tile i.tile.val).barrier b.val).r ≠ 2) :
    exec (.arrive i b) s = .next ((begun s i slotSync).arrivalSent i.tile b) := by
  rw [exec_arrive_of_issues h, opArrive, issue, issueOn_issues h]
  simp only [begun_tile, Tile.begunAt_barrier, if_neg hopen, State.arrivalSent]

/-- ARRIVE with two rounds open is an overrun (R304). -/
theorem exec_arrive_of_two_open {s : State} {i : Iss} {b : Fin 16} {d : BarrierDecl} (h : Issues s i slotSync)
    (hopen : ((s.tile i.tile.val).barrier b.val).a - ((s.tile i.tile.val).barrier b.val).r = 2)
    (hd : s.barrierDecl b = some d) :
    exec (.arrive i b) s = .next ((begun s i slotSync).arrivalOverrun i b d.scope) := by
  rw [exec_arrive_of_issues h, opArrive, issue, issueOn_issues h]
  simp only [begun_tile, Tile.begunAt_barrier, if_pos hopen, begun_barrierDecl, hd, Option.map_some, Option.getD_some,
    State.arrivalOverrun, overrunPlace]

/-- BWAIT only issues. -/
theorem exec_bwait_of_issues {s : State} {i : Iss} {b : Fin 16} {wp : Fin 1024}
    (h : IssuesOn s i slotSync [{ wp := wp, on := .barrier b }]) :
    exec (.bwait i b wp) s = .next (begun s i slotSync) :=
  guard_issues h _

/-- The overrun's record, on a tile that has not faulted. -/
theorem State.arrivalOverrun_records (s : State) (i : Iss) (b : Fin 16) (scope : BarrierScope)
    (hrun : s.runActive = true) (hclear : (s.tile i.tile.val).faulted = false) :
    ((s.arrivalOverrun i b scope).tile i.tile.val).faulted = true ∧
    ∃ f, (s.arrivalOverrun i b scope).run.faults = s.run.faults ++ [f] ∧ f.code = cfBarrierOverrun ∧
      f.offending = overrunPlace b scope ∧ f.detail = ((s.tile i.tile.val).barrier b.val).a.setWidth 64 := by
  obtain ⟨hfaulted, hrecord⟩ := s.contractFault_records i.tile.val cfBarrierOverrun slotSync i.bundle
    (overrunPlace b scope) (((s.tile i.tile.val).barrier b.val).a.setWidth 64) hrun hclear
  exact ⟨by simpa [State.arrivalOverrun] using hfaulted, hrecord⟩

/-- Settles O41: an ARRIVE acts on the state in which its bundle has issued, where the tile's counts, its registers and the run
are as before; it sends its arrival unless two rounds are open, and else raises the fault. -/
theorem barrierArrivesAndWaits : Obligations.BarrierArrivesAndWaits := by
  unfold Obligations.BarrierArrivesAndWaits
  intro s i b
  refine ⟨fun h hopen => ?sends, fun _ h => exec_bwait_of_issues h, fun wp => Tile.waitMet_barrier_iff _ wp b,
    fun d h hopen hd hclear => ?overruns⟩
  case sends =>
    refine ⟨_, exec_arrive_of_not_two_open h hopen, ?_, ?_, fun n hn => ?_, ?_, fun j hj => ?_, ?_⟩
    · simp
    · simp
    · simp [Tile.setBarrier_barrier_other _ _ n _ hn]
    · simp
    · rw [State.arrivalSent_tile_other _ _ _ j hj, begun_tile_other s i _ j hj]
    · simp
  case overruns =>
    obtain ⟨hfaulted, f, hfaults, hcode, hoffending, hdetail⟩ :=
      (begun s i slotSync).arrivalOverrun_records i b d.scope h.runActive (by simpa using hclear)
    refine ⟨_, f, exec_arrive_of_two_open h hopen hd, hfaulted, hfaults, hcode, ?_, ?_, ?_, by simp⟩
    · simpa using hdetail
    · rw [hoffending, overrunPlace_barrier]
    · rw [hoffending, overrunPlace_level]
      rfl

end Sys2Proof.Machine
end

section
/-! PROOFS. SET_MODULE_ID: the module's ID, the tie ports that settle under it and the reply (R14, R452, R533). -/

namespace Sys2Proof.Machine

/-! ### What admission, the replies, the event log and the ports leave unchanged -/

/-- The module ID, the tiles, the memory, the run and the pair state of `t` are those of `s`; the ports, the event log, the
sessions and the replies are free. -/
structure State.SameWork (s t : State) : Prop where
  moduleId : t.domain.moduleId = s.domain.moduleId
  tiles : t.tiles = s.tiles
  mem : t.mem = s.mem
  run : t.run = s.run
  pair : t.pair = s.pair

theorem State.SameWork.refl (s : State) : s.SameWork s := ⟨rfl, rfl, rfl, rfl, rfl⟩

theorem State.SameWork.trans {s t u : State} (h : s.SameWork t) (g : t.SameWork u) : s.SameWork u :=
  ⟨g.moduleId.trans h.moduleId, g.tiles.trans h.tiles, g.mem.trans h.mem, g.run.trans h.run, g.pair.trans h.pair⟩

/-- A change of the host interface alone keeps the work. -/
theorem State.sameWork_host (s : State) (x : HostState) : s.SameWork { s with host := x } := ⟨rfl, rfl, rfl, rfl, rfl⟩

theorem State.modPort_sameWork (s : State) (p : Nat) (f : Port → Port) : s.SameWork (s.modPort p f) :=
  ⟨rfl, rfl, rfl, rfl, rfl⟩

theorem State.event_sameWork (s : State) (e : Event) (source : BitVec 16) (payload : Bytes) :
    s.SameWork (s.event e source payload) :=
  ⟨rfl, rfl, rfl, rfl, rfl⟩

theorem State.setSession_sameWork (s : State) (p : Path) (x : Option Session) : s.SameWork (s.setSession p x) := by
  cases p <;> exact s.sameWork_host _

theorem State.countMctp_sameWork (s : State) (h : Hdr) : s.SameWork (s.countMctp h) := by
  unfold State.countMctp
  split
  · exact s.sameWork_host _
  · exact .refl s

/-- Admission consumes the SEQ, counts the command and takes its RING_INDEX (R520, R540); the work is as before. -/
theorem State.admitted_sameWork (s : State) (h : Hdr) : s.SameWork (s.admitted h) := by
  unfold State.admitted
  split
  case h_1 => exact s.countMctp_sameWork h
  case h_2 q hq =>
    have hcount := (s.setSession_sameWork h.path (some { q with nextSeq := q.nextSeq + 1 })).trans
      (State.countMctp_sameWork _ h)
    split
    · exact hcount.trans (State.sameWork_host _ _)
    · exact hcount

theorem State.postReply_sameWork (s : State) (r : Reply) : s.SameWork (s.postReply r) := by
  unfold State.postReply
  split <;> exact s.sameWork_host _

/-- A reply, where one is sent (R521, R525), goes to the host interface. -/
theorem State.reply_sameWork (s : State) (h : Hdr) (opcode status : BitVec 16) (final : Bool) (body : Bytes) :
    s.SameWork (s.reply h opcode status final body) := by
  unfold State.reply State.answer
  split
  · split
    · exact .refl s
    · exact s.postReply_sameWork _
  · exact .refl s

/-- A port that settles changes its own record and may raise one event (R390, R452). -/
theorem State.settlePort_sameWork (s : State) (p : Nat) : s.SameWork (s.settlePort p) := by
  have hport (f : Port → Port) (e : Event) (source : BitVec 16) (payload : Bytes) :
      s.SameWork ((s.modPort p f).event e source payload) :=
    (s.modPort_sameWork p f).trans (State.event_sameWork _ e source payload)
  unfold State.settlePort
  split
  case h_1 => exact .refl s
  case h_2 c hc =>
    dsimp only
    split
    case isTrue hchain =>
      split
      · exact s.modPort_sameWork p _
      · exact hport _ _ _ _
    case isFalse htie =>
      split
      · exact hport _ _ _ _
      · exact s.modPort_sameWork p _

theorem State.settlePorts_sameWork (ports : List Nat) (s : State) :
    s.SameWork (ports.foldl (fun s p => s.settlePort (16 + p)) s) := by
  induction ports generalizing s with
  | nil => exact .refl s
  | cons p ports ih => exact (s.settlePort_sameWork (16 + p)).trans (ih _)

/-! ### SET_MODULE_ID -/

/-- The module takes an ID, under which its four tie ports settle again (R14, R452). -/
def State.takeModuleId (s : State) (m : BitVec 20) : State :=
  (List.range 4).foldl (fun s p => s.settlePort (16 + p)) { s with domain := { s.domain with moduleId := some m } }

theorem State.takeModuleId_sameWork (s : State) (m : BitVec 20) :
    State.SameWork { s with domain := { s.domain with moduleId := some m } } (s.takeModuleId m) :=
  State.settlePorts_sameWork _ _

/-- An admitted SET_MODULE_ID of 20 bits on a module without an ID (R11, R14). -/
theorem exec_setModuleId_of_unassigned {s : State} {h : Hdr} {id : Word} (ha : Admitted s h 0x0401)
    (hnone : s.domain.moduleId = none) (hid : id.toNat ≤ 0xFFFFF) :
    exec (.setModuleId h id) s = .next (((s.admitted h).takeModuleId (id.setWidth 20)).ok h 0x0401 []) := by
  have hnone' : (s.admitted h).domain.moduleId = none := (s.admitted_sameWork h).moduleId.trans hnone
  change execSetModuleId h id s = _
  rw [execSetModuleId, admit_admitted ha]
  simp only [hnone', if_neg (Nat.not_lt.mpr hid), State.takeModuleId]

/-- An admitted SET_MODULE_ID on a module that holds an ID changes nothing but the reply: OK to the same ID, DENIED to any
other (R533). -/
theorem exec_setModuleId_of_assigned {s : State} {h : Hdr} {id : Word} {m : BitVec 20} (ha : Admitted s h 0x0401)
    (hsome : s.domain.moduleId = some m) :
    exec (.setModuleId h id) s = .next
      (if m.toNat = id.toNat then (s.admitted h).ok h 0x0401 []
       else (s.admitted h).fail h 0x0401 stDenied 0 0 id.toNat) := by
  have hsome' : (s.admitted h).domain.moduleId = some m := (s.admitted_sameWork h).moduleId.trans hsome
  change execSetModuleId h id s = _
  rw [execSetModuleId, admit_admitted ha]
  simp only [hsome']
  split <;> rfl

/-- Settles O11: an admitted command acts on a state with the same ID and the same work; there an unassigned module takes the
ID, which the settling of its tie ports and the reply keep, and an assigned one only replies. -/
theorem moduleIdIsSetOnce : Obligations.ModuleIdIsSetOnce := by
  unfold Obligations.ModuleIdIsSetOnce
  refine ⟨fun s h id ha hnone hid => ?unassigned, fun s h id m ha hsome => exec_setModuleId_of_assigned ha hsome⟩
  case unassigned =>
    have hadmit := s.admitted_sameWork h
    have htake := ((s.admitted h).takeModuleId_sameWork (id.setWidth 20)).trans
      (State.reply_sameWork _ h 0x0401 stOk true [])
    exact ⟨_, exec_setModuleId_of_unassigned ha hnone hid, htake.moduleId, htake.tiles.trans hadmit.tiles,
      htake.mem.trans hadmit.mem, htake.run.trans hadmit.run, htake.pair.trans hadmit.pair⟩

end Sys2Proof.Machine
end

section
/-! PROOFS. What every operation of the model keeps: the state that manufacture fixed, the queue, ROLLBACK and the byte stores'
canonical form. -/

namespace Sys2Proof.Machine

set_option Elab.async false

theorem mem_of_mfind {α : Type} (m : SMap α) (k : Nat) (v : α) (h : mfind m k = some v) : (k, v) ∈ m := by
  induction m with
  | nil => cases h
  | cons e r ih =>
    obtain ⟨a, w⟩ := e
    by_cases ha : a = k
    · simp only [mfind, ha, if_true, Option.some.injEq] at h
      simp [ha, h]
    · simp only [mfind, ha, if_false] at h
      exact List.mem_cons_of_mem _ (ih h)

/-- `t` keeps of `s` what no step changes (R5, R584, R590): what manufacture fixed, the queue, the ROLLBACK fuses but for an
advance, and the canonical form of the byte stores. -/
structure Kept (s t : State) : Prop where
  fixed : t.fixed = s.fixed
  pending : t.pending = s.pending
  rollback : s.sec.rollback ≤ t.sec.rollback
  stores : s.storesWf → t.storesWf

/-- An outcome that goes on keeps them; a stop keeps nothing. -/
inductive Keeps (s : State) : Res → Prop where
  | next {t : State} (h : Kept s t) : Keeps s (.next t)
  | fault (r : Fault) : Keeps s (.fault r)
  | refused (r : Refusal) : Keeps s (.refused r)

/-- An outcome that goes on, and keeps them. -/
inductive Goes (s : State) : Res → Prop where
  | next {t : State} (h : Kept s t) : Goes s (.next t)

theorem Goes.keeps {s : State} {r : Res} (h : Goes s r) : Keeps s r := by
  cases h with
  | next h => exact .next h

theorem Goes.runs {s : State} {r : Res} (h : Goes s r) : ∃ t, r = .next t := by
  cases h with
  | next h => exact ⟨_, rfl⟩

theorem Keeps.of_next {s t : State} (h : Keeps s (.next t)) : Kept s t := by
  cases h with
  | next h => exact h

namespace Kept

variable {s0 s : State}

theorem refl (s : State) : Kept s s := ⟨rfl, rfl, le_rfl, id⟩

theorem trans {s t u : State} (h : Kept s t) (g : Kept t u) : Kept s u :=
  ⟨g.fixed.trans h.fixed, g.pending.trans h.pending, h.rollback.trans g.rollback, fun w => g.stores (h.stores w)⟩

/-! ### Updates of the parts -/

/-- Everything but the tiles, HBM, the fuses, the security block, the routines and the queue may change freely. -/
theorem free (h : Kept s0 s) {mem : MemState} (hmem : mem.hbm = s.mem.hbm) (net : NetState) (domain : DomainState)
    (pair : PairState) (clock : ClockState) (host : HostState) (run : RunRec) (blocks : SMap Block) (hostLock : Bool)
    (hostWign : Word) (mgp : MgpState) (power : PowerState) (freeCtr : Nat) :
    Kept s0 { fuses := s.fuses, tiles := s.tiles, net, mem, domain, pair, clock, host, run, blocks, hostLock, hostWign, mgp,
              sec := s.sec, power, routines := s.routines, freeCtr, pending := s.pending } :=
  h.trans ⟨rfl, rfl, le_rfl, fun w => ⟨by simpa [hmem] using w.1, w.2⟩⟩

/-- The security block may change but for what manufacture fixed and ROLLBACK. -/
theorem sec (h : Kept s0 s) {x : SecState}
    (hfixed : (x.rootKeyHash, x.uds, x.dikSeed, x.lifecycle, x.bootRomDigest) =
      (s.sec.rootKeyHash, s.sec.uds, s.sec.dikSeed, s.sec.lifecycle, s.sec.bootRomDigest))
    (hback : s.sec.rollback ≤ x.rollback) (net : NetState) (domain : DomainState) (pair : PairState) (clock : ClockState)
    (host : HostState) (run : RunRec) (blocks : SMap Block) (hostLock : Bool) (hostWign : Word) (mgp : MgpState)
    (power : PowerState) (freeCtr : Nat) :
    Kept s0 { fuses := s.fuses, tiles := s.tiles, net, mem := s.mem, domain, pair, clock, host, run, blocks, hostLock,
              hostWign, mgp, sec := x, power, routines := s.routines, freeCtr, pending := s.pending } := by
  simp only [Prod.mk.injEq] at hfixed
  obtain ⟨hroot, huds, hdik, hlife, hrom⟩ := hfixed
  exact h.trans ⟨by simp [State.fixed, hroot, huds, hdik, hlife, hrom], rfl, hback, id⟩

/-- A memory of canonical form may replace HBM. -/
theorem hbm (h : Kept s0 s) {mem : MemState} (hmem : s0.storesWf → memWf mem.hbm = true) :
    Kept s0 { s with mem := mem } :=
  ⟨h.fixed, h.pending, h.rollback, fun w => ⟨hmem w, (h.stores w).2⟩⟩

/-- The scratchpad of every tile is in canonical form. -/
theorem tile_wf (h : Kept s0 s) (w : s0.storesWf) (k : Nat) : memWf (s.tile k).scratch = true := by
  have htiles := (h.stores w).2
  unfold State.tile mget
  cases hk : mfind s.tiles k with
  | none => rfl
  | some x => exact htiles (k, x) (mem_of_mfind _ _ _ hk)

theorem hbm_wf (h : Kept s0 s) (w : s0.storesWf) : memWf s.mem.hbm = true := (h.stores w).1

/-- A tile whose scratchpad is in canonical form may be put. -/
theorem setTile (h : Kept s0 s) (k : Nat) {x : Tile} (hx : s0.storesWf → memWf x.scratch = true) :
    Kept s0 (s.setTile k x) :=
  ⟨h.fixed, h.pending, h.rollback, fun w => ⟨(h.stores w).1, fun e he => by
    rcases mem_mset _ _ _ _ he with rfl | he
    · exact hx w
    · exact (h.stores w).2 e he⟩⟩

theorem modTile (h : Kept s0 s) (k : Nat) {f : Tile → Tile}
    (hf : ∀ x : Tile, memWf x.scratch = true → memWf (f x).scratch = true) : Kept s0 (s.modTile k f) :=
  h.setTile k (fun w => hf _ (h.tile_wf w k))

theorem mapTiles (h : Kept s0 s) {f : Tile → Tile}
    (hf : ∀ x : Tile, memWf x.scratch = true → memWf (f x).scratch = true) : Kept s0 (s.mapTiles f) :=
  ⟨h.fixed, h.pending, h.rollback, fun w => ⟨(h.stores w).1, fun e he => by
    obtain ⟨y, hy, rfl⟩ := List.mem_map.mp he
    exact hf _ ((h.stores w).2 y hy)⟩⟩

theorem setStack (h : Kept s0 s) (k : Nat) (x : Stack) : Kept s0 (s.setStack k x) := h.trans ⟨rfl, rfl, le_rfl, id⟩
theorem modStack (h : Kept s0 s) (k : Nat) (f : Stack → Stack) : Kept s0 (s.modStack k f) := h.setStack k _
theorem setPort (h : Kept s0 s) (p : Nat) (x : Port) : Kept s0 (s.setPort p x) := h.trans ⟨rfl, rfl, le_rfl, id⟩
theorem modPort (h : Kept s0 s) (p : Nat) (f : Port → Port) : Kept s0 (s.modPort p f) := h.setPort p _
theorem modRegion (h : Kept s0 s) (r : Nat) (f : RegionState → RegionState) : Kept s0 (s.modRegion r f) :=
  h.trans ⟨rfl, rfl, le_rfl, id⟩
theorem modBlock (h : Kept s0 s) (b : Nat) (f : Block → Block) : Kept s0 (s.modBlock b f) := h.trans ⟨rfl, rfl, le_rfl, id⟩
theorem drawn (h : Kept s0 s) (n : Nat) : Kept s0 (s.drawn n) := h.trans ⟨rfl, rfl, le_rfl, id⟩

theorem setHbm (h : Kept s0 s) {m : Memory} (hm : s0.storesWf → memWf m = true) : Kept s0 (s.setHbm m) :=
  h.hbm hm

theorem writeHbm (h : Kept s0 s) (a : Nat) (bs : Bytes) : Kept s0 (s.writeHbm a bs) :=
  h.setHbm (fun w => memWf_writeBytes _ _ _ (h.hbm_wf w))

/-- Folds of operations that keep. -/
theorem foldl {α : Type} {f : State → α → State} (hf : ∀ {s : State} (x : α), Kept s0 s → Kept s0 (f s x)) (l : List α)
    (h : Kept s0 s) : Kept s0 (l.foldl f s) := by
  induction l generalizing s with
  | nil => exact h
  | cons x l ih => exact ih (hf x h)

end Kept

/-- Folds of operations that leave the scratchpad alone. -/
theorem Tile.foldl_scratch {α : Type} {f : Tile → α → Tile} (hf : ∀ (t : Tile) (x : α), (f t x).scratch = t.scratch)
    (l : List α) (t : Tile) : (l.foldl f t).scratch = t.scratch := by
  induction l generalizing t with
  | nil => rfl
  | cons x l ih => exact (ih (f t x)).trans (hf t x)

end Sys2Proof.Machine
end

section
/-! PROOFS. What the shared operations, and the issue of a bundle keep. -/

namespace Sys2Proof.Machine

set_option Elab.async false

/-! ### Ops -/

theorem Tile.modRegs_scratch (t : Tile) (f : Regs → Regs) :
    (Tile.modRegs t f).scratch = t.scratch := by
  unfold Tile.modRegs
  rfl

theorem Kept.logCode {s0 s : State} (hk : Kept s0 s) (code : BitVec 16) (cls : Nat) (severity : Fin 4) (source : BitVec
    16) (payload : Bytes) :
    Kept s0 (State.logCode s code cls severity source payload) := by
  unfold State.logCode
  grind only [← Kept.free, ← Kept.foldl]

theorem Kept.event {s0 s : State} (hk : Kept s0 s) (e : Event) (source : BitVec 16) (payload : Bytes) :
    Kept s0 (State.event s e source payload) := by
  unfold State.event
  grind only [← Kept.logCode]

theorem Kept.raiseContract {s0 s : State} (hk : Kept s0 s) (t : Nat) (code : BitVec 16) (slot : Byte) (more : Bool)
    (bundle : Word) (offending detail : DWord) :
    Kept s0 (State.raiseContract s t code slot more bundle offending detail) := by
  unfold State.raiseContract
  grind only [← Kept.modTile, ← Kept.free, Kept.tile_wf]

theorem Kept.contractFault {s0 s : State} (hk : Kept s0 s) (t : Nat) (code : BitVec 16) (slot : Byte) (bundle : Word)
    (offending detail : DWord) :
    Kept s0 (State.contractFault s t code slot bundle offending detail) := by
  unfold State.contractFault
  grind only [← Kept.raiseContract]

theorem Kept.missLine {s0 s : State} (hk : Kept s0 s) (i : Iss) :
    Kept s0 (missLine s i) := by
  unfold Machine.missLine
  grind only [← Kept.contractFault, ← Kept.modTile, ← Kept.free]

theorem Tile.turn_scratch (t : Tile) (now : Nat) :
    (Tile.turn t now).scratch = t.scratch := by
  unfold Tile.turn
  grind only

theorem Tile.begin_scratch (t : Tile) (now : DWord) (b : Word) :
    (Tile.begin t now b).scratch = t.scratch := by
  unfold Tile.begin
  rfl

theorem Tile.addLate_scratch (t : Tile) (l : Late) :
    (Tile.addLate t l).scratch = t.scratch := by
  unfold Tile.addLate
  rfl

theorem Kept.setSession {s0 s : State} (hk : Kept s0 s) (p : Path) (x : Option Session) :
    Kept s0 (State.setSession s p x) := by
  unfold State.setSession
  grind only [← Kept.free]

theorem Kept.postReply {s0 s : State} (hk : Kept s0 s) (r : Reply) :
    Kept s0 (State.postReply s r) := by
  unfold State.postReply
  grind only [← Kept.free]

theorem Kept.answer {s0 s : State} (hk : Kept s0 s) (h : Hdr) (opcode status : BitVec 16) (final : Bool) (body : Bytes) :
    Kept s0 (State.answer s h opcode status final body) := by
  unfold State.answer
  grind only [← Kept.postReply]

theorem Kept.reply {s0 s : State} (hk : Kept s0 s) (h : Hdr) (opcode status : BitVec 16) (final : Bool) (body : Bytes) :
    Kept s0 (State.reply s h opcode status final body) := by
  unfold State.reply
  grind only [← Kept.answer]

theorem Kept.ok {s0 s : State} (hk : Kept s0 s) (h : Hdr) (opcode : BitVec 16) (body : Bytes) :
    Kept s0 (State.ok s h opcode body) := by
  unfold State.ok
  grind only [← Kept.reply]

theorem Kept.fail {s0 s : State} (hk : Kept s0 s) (h : Hdr) (opcode status : BitVec 16) (field reason value : Nat) :
    Kept s0 (State.fail s h opcode status field reason value) := by
  unfold State.fail
  grind only [← Kept.reply]

theorem Kept.failPlain {s0 s : State} (hk : Kept s0 s) (h : Hdr) (opcode status : BitVec 16) :
    Kept s0 (State.failPlain s h opcode status) := by
  unfold State.failPlain
  grind only [← Kept.fail]

/-! ### PortOps -/

theorem Kept.assignParcels {s0 s : State} (hk : Kept s0 s) :
    Kept s0 (State.assignParcels s) := by
  unfold State.assignParcels
  grind only [← Kept.free]

theorem Kept.pumpPort {s0 s : State} (hk : Kept s0 s) (p : Nat) :
    Kept s0 (State.pumpPort s p) := by
  unfold State.pumpPort
  grind only [← Kept.modPort]

theorem Kept.sendOn {s0 s : State} (hk : Kept s0 s) (p : Fin 20) (k : Packet) :
    Kept s0 (State.sendOn s p k) := by
  unfold State.sendOn
  grind only [← Kept.modPort, ← Kept.pumpPort, ← Kept.free]

theorem Kept.sendMgmt {s0 s : State} (hk : Kept s0 s) (dst : Nat) (m : MgmtMsg) :
    Kept s0 (State.sendMgmt s dst m) := by
  unfold State.sendMgmt
  grind only [← Kept.sendOn]

theorem Kept.sendTileTable {s0 s : State} (hk : Kept s0 s) :
    Kept s0 (State.sendTileTable s) := by
  unfold State.sendTileTable
  grind only [← Kept.sendMgmt, ← Kept.foldl]

theorem Kept.flushCredits {s0 s : State} (hk : Kept s0 s) (p : PortNo) (m : BitVec 20) :
    Kept s0 (State.flushCredits s p m) := by
  unfold State.flushCredits
  grind only [← Kept.modPort, ← Kept.sendOn]

theorem Kept.pendCredit {s0 s : State} (hk : Kept s0 s) (p : PortNo) (m : BitVec 20) (t : TileNo) (ep : Fin 64) :
    Kept s0 (State.pendCredit s p m t ep) := by
  unfold State.pendCredit
  grind only [← Kept.flushCredits, ← Kept.modPort]

theorem Kept.sendReverse {s0 s : State} (hk : Kept s0 s) (p : PortNo) (ptype : Nat) (m : BitVec 20) (t : TileNo) (ep :
    Fin 64) (here hereEp : Nat) (payload : Bytes) :
    Kept s0 (State.sendReverse s p ptype m t ep here hereEp payload) := by
  unfold State.sendReverse
  grind only [← Kept.sendOn]

/-! ### ChanOps -/

theorem Tile.setSend_scratch (t : Tile) (e : Nat) (x : SendEp) :
    (Tile.setSend t e x).scratch = t.scratch := by
  unfold Tile.setSend
  rfl

theorem Tile.setRecv_scratch (t : Tile) (e : Nat) (x : RecvEp) :
    (Tile.setRecv t e x).scratch = t.scratch := by
  unfold Tile.setRecv
  rfl

theorem Tile.setSem_scratch (t : Tile) (k : Nat) (v : BitVec 16) :
    (Tile.setSem t k v).scratch = t.scratch := by
  unfold Tile.setSem
  rfl

theorem Tile.setBarrier_scratch (t : Tile) (b : Nat) (x : BarrierCounts) :
    (Tile.setBarrier t b x).scratch = t.scratch := by
  unfold Tile.setBarrier
  rfl

theorem Tile.setWatch_scratch (t : Tile) (h : Nat) (x : WatchEntry) :
    (Tile.setWatch t h x).scratch = t.scratch := by
  unfold Tile.setWatch
  rfl

theorem Kept.judgeWatches {s0 s : State} (hk : Kept s0 s) : Kept s0 s.judgeWatches :=
  Kept.free (s := s.mapTiles (fun x => { x with watches := x.watches.map (fun w =>
    (w.1, if s.watchHits w.2 then { w.2 with armed := false } else w.2)) })) (hk.mapTiles (fun _ hx => hx)) rfl ..

theorem Kept.semAdd {s0 s : State} (hk : Kept s0 s) (t k n : Nat) (slot : Byte) (bundle : Word) :
    Kept s0 (State.semAdd s t k n slot bundle) := by
  unfold State.semAdd
  grind only [← Kept.contractFault, ← Kept.drawn, ← Kept.modTile, = Tile.setSem_scratch, Kept.tile_wf]

theorem Kept.creditBack {s0 s : State} (hk : Kept s0 s) (m : MsgOrigin) :
    Kept s0 (State.creditBack s m) := by
  unfold State.creditBack
  grind only [← Kept.pendCredit, ← Kept.free, Kept.tile_wf]

theorem Kept.closeTo {s0 s : State} (hk : Kept s0 s) (t : TileNo) (e : Nat) (o : MsgOrigin) :
    Kept s0 (State.closeTo s t e o) := by
  unfold State.closeTo
  grind only [← Kept.sendReverse, ← Kept.free, Kept.tile_wf]

theorem Kept.openTo {s0 s : State} (hk : Kept s0 s) (t : TileNo) (e : Nat) (o : MsgOrigin) :
    Kept s0 (State.openTo s t e o) := by
  unfold State.openTo
  grind only [← Kept.sendReverse, ← Kept.free, Kept.tile_wf]

theorem Kept.reportDiscard {s0 s : State} (hk : Kept s0 s) (m : Msg) :
    Kept s0 (State.reportDiscard s m) := by
  unfold State.reportDiscard
  grind only [← Kept.free, Kept.tile_wf]

theorem Kept.judgeOne {s0 s : State} (hk : Kept s0 s) (t : TileNo) (e : Nat) (m : Msg) :
    Kept s0 (s.judgeOne t e m).1 := by
  unfold State.judgeOne
  grind only [← Kept.modTile, ← Kept.creditBack, ← Kept.event, = Tile.setRecv_scratch]

theorem Kept.deliver {s0 s : State} (hk : Kept s0 s) (t : TileNo) (e : Nat) (m : Msg) :
    Kept s0 (s.deliver t e m) := by
  have hjudged := hk.judgeOne t e m
  unfold State.deliver
  generalize s.judgeOne t e m = p at *
  obtain ⟨s', _ | m'⟩ := p <;> grind only [← Kept.modTile, = Tile.setRecv_scratch]

theorem Kept.rejudge {s0 s : State} (hk : Kept s0 s) (t : TileNo) (e slot : Nat) (l : List Msg) :
    Kept s0 (s.rejudge t e slot l) := by
  induction l generalizing s with
  | nil => exact hk
  | cons m l ih =>
    have hjudged := hk.judgeOne t e m
    unfold State.rejudge
    generalize s.judgeOne t e m = p at *
    obtain ⟨s', _ | m'⟩ := p <;> grind only [← Kept.modTile, = Tile.setRecv_scratch]

theorem Kept.rejudgeSlot {s0 s : State} (hk : Kept s0 s) (t : TileNo) (e slot : Nat) :
    Kept s0 (State.rejudgeSlot s t e slot) := by
  unfold State.rejudgeSlot
  grind only [← Kept.modTile, ← Kept.rejudge, = Tile.setRecv_scratch, Kept.tile_wf]

theorem Kept.arrive {s0 s : State} (hk : Kept s0 s) (t : TileNo) (e : Nat) (m : Msg) :
    Kept s0 (State.arrive s t e m) := by
  unfold State.arrive
  grind only [← Kept.deliver, ← Kept.modTile, ← Kept.reportDiscard, = Tile.setRecv_scratch, Kept.tile_wf]

theorem Kept.reportAll {s0 s : State} (hk : Kept s0 s) (l : List Msg) :
    Kept s0 (State.reportAll s l) := by
  induction l generalizing s with
  | nil => exact hk
  | cons x l ih =>
    unfold State.reportAll
    grind only [← Kept.reportDiscard]

theorem Kept.closeAll {s0 s : State} (hk : Kept s0 s) (t : TileNo) (e : Nat) (l : List MsgOrigin) :
    Kept s0 (State.closeAll s t e l) := by
  induction l generalizing s with
  | nil => exact hk
  | cons x l ih =>
    unfold State.closeAll
    grind only [← Kept.closeTo]

theorem Kept.openAll {s0 s : State} (hk : Kept s0 s) (t : TileNo) (e : Nat) (l : List MsgOrigin) :
    Kept s0 (State.openAll s t e l) := by
  induction l generalizing s with
  | nil => exact hk
  | cons x l ih =>
    unfold State.openAll
    grind only [← Kept.openTo]

theorem Kept.resetRecv {s0 s : State} (hk : Kept s0 s) (t : TileNo) (e : Nat) :
    Kept s0 (State.resetRecv s t e) := by
  unfold State.resetRecv
  grind only [← Kept.closeAll, ← Kept.reportAll, ← Kept.setTile, = Tile.setRecv_scratch, Kept.tile_wf]

theorem Kept.openRecv {s0 s : State} (hk : Kept s0 s) (t : TileNo) (e : Nat) :
    Kept s0 (State.openRecv s t e) := by
  unfold State.openRecv
  grind only [← Kept.openAll, ← Kept.setTile, = Tile.setRecv_scratch, Kept.tile_wf]

theorem Kept.closedFault {s0 s : State} (hk : Kept s0 s) (t : TileNo) (e : Nat) (slot : Byte) (bundle : Word) :
    Kept s0 (State.closedFault s t e slot bundle) := by
  unfold State.closedFault
  grind only [← Kept.contractFault, Kept.tile_wf]

theorem Kept.noteContrib {s0 s : State} (hk : Kept s0 s) (context : Option (Fin 64)) (slot : Option DWord) (data : Bytes)
    :
    Kept s0 (State.noteContrib s context slot data) := by
  unfold State.noteContrib
  grind only [← Kept.free]

theorem Kept.noteTally {s0 s : State} (hk : Kept s0 s) (step context position : Nat) (flags : Bytes) :
    Kept s0 (State.noteTally s step context position flags) := by
  unfold State.noteTally
  grind only [← Kept.free]

theorem Kept.noteGather {s0 s : State} (hk : Kept s0 s) (context : Nat) (c : DWord) (data : Bytes) :
    Kept s0 (State.noteGather s context c data) := by
  unfold State.noteGather
  grind only [← Kept.noteTally]

theorem Kept.sendData {s0 s : State} (hk : Kept s0 s) (t : TileNo) (e : Fin 64) (slot : Option DWord) (data : Bytes)
    (slotNo : Byte) (bundle : Word) : Kept s0 (s.sendData t e slot data slotNo bundle).1 := by
  unfold State.sendData
  grind only [← Kept.closedFault, ← Kept.setTile, ← Kept.modTile, ← Kept.free, ← Kept.noteContrib, ← Kept.noteGather,
    ← Kept.sendOn, = Tile.setSend_scratch, Kept.tile_wf]

/-! ### Operands -/

theorem Tile.memWf_writeScratch (t : Tile) (a : Nat) (bs : Bytes) (h : memWf t.scratch = true) :
    memWf (t.writeScratch a bs).scratch = true :=
  memWf_writeBytes _ _ _ h

theorem Kept.raiseAccess {s0 s : State} (hk : Kept s0 s) (t : Nat) (f : AccessFault) :
    Kept s0 (State.raiseAccess s t f) := by
  unfold State.raiseAccess
  grind only [← Kept.raiseContract]

/-! ### Flags -/

theorem Tile.raise_scratch (t : Tile) (f : FpFlags) :
    (Tile.raise t f).scratch = t.scratch := by
  unfold Tile.raise
  rfl

/-! ### Check -/

theorem Kept.checkShot {s0 s : State} (hk : Kept s0 s) (t : Nat) (r : Regs) (c : CheckShot) :
    Kept s0 (State.checkShot s t r c) := by
  unfold State.checkShot
  grind only [← Kept.drawn, ← Kept.event, ← Kept.setTile, Kept.tile_wf]

theorem Kept.flushChecks {s0 s : State} (hk : Kept s0 s) (l : List Nat) :
    Kept s0 (State.flushChecks s l) := by
  induction l generalizing s with
  | nil => exact hk
  | cons x l ih =>
    unfold State.flushChecks
    grind only [← Kept.event, ← Kept.modTile]

/-! ### Issue -/

theorem Kept.holdAt {s0 s : State} (hk : Kept s0 s) (i : Iss) (ws : List WaitPoint) :
    Kept s0 (State.holdAt s i ws) := by
  unfold State.holdAt
  grind only [← Kept.modTile]

theorem Tile.takeSlot_scratch (t : Tile) (slot : Byte) :
    (Tile.takeSlot t slot).scratch = t.scratch := by
  unfold Tile.takeSlot
  rfl

theorem Keeps.issueOn {s0 s : State} (hk : Kept s0 s) (i : Iss) (slot : Byte) (own : List WaitPoint) (wf : Bool) (f :
    State → Res) (hf : ∀ x0, Kept s0 x0 → Keeps s0 (f x0)) :
    Keeps s0 (issueOn i slot own wf s f) := by
  unfold Machine.issueOn
  grind only [← Kept.holdAt, ← Kept.modTile, = Tile.begin_scratch, = Tile.takeSlot_scratch, ← Kept.missLine, ←
      Keeps.next, ← Keeps.fault, Kept.tile_wf]

theorem Keeps.issue {s0 s : State} (hk : Kept s0 s) (i : Iss) (slot : Byte) (wf : Bool) (f : State → Res) (hf : ∀ x0,
    Kept s0 x0 → Keeps s0 (f x0)) :
    Keeps s0 (issue i slot wf s f) := by
  unfold Machine.issue
  grind only [← Keeps.issueOn, ← Keeps.next]

theorem Keeps.issueWait {s0 s : State} (hk : Kept s0 s) (i : Iss) (slot : Byte) (wf : Bool) (wp : Fin 1024) (on : WaitOn)
    (f : State → Res) (hf : ∀ x0, Kept s0 x0 → Keeps s0 (f x0)) :
    Keeps s0 (issueWait i slot wf wp on s f) := by
  unfold Machine.issueWait
  grind only [← Keeps.issueOn, ← Keeps.next]

end Sys2Proof.Machine
end

section
/-! PROOFS. What the scalar slot, the matrix array and the vector engine keep. -/

namespace Sys2Proof.Machine

set_option Elab.async false

/-! ### Scalar -/

theorem Tile.scalarLate_scratch (t : Tile) (now latency : Nat) (b : Word) (e : LateEff) :
    (Tile.scalarLate t now latency b e).scratch = t.scratch := by
  unfold Tile.scalarLate
  grind only [= Tile.addLate_scratch]

theorem Tile.scalarNow_scratch (t : Tile) (now : Nat) (b : Word) (e : LateEff) :
    (Tile.scalarNow t now b e).scratch = t.scratch := by
  unfold Tile.scalarNow
  grind only [= Tile.modRegs_scratch, = Tile.scalarLate_scratch]

theorem Keeps.opScalarOp {s0 s : State} (hk : Kept s0 s) (i : Iss) (op : ScalarOp) :
    Keeps s0 (opScalarOp i op s) := by
  unfold Machine.opScalarOp
  grind only [← Kept.modTile, = Tile.scalarNow_scratch, ← Keeps.issue, ← Keeps.next]

theorem Keeps.opScalarMultiply {s0 s : State} (hk : Kept s0 s) (i : Iss) (d : ScalarDst) (a b : ScalarSrc) :
    Keeps s0 (opScalarMultiply i d a b s) := by
  unfold Machine.opScalarMultiply
  grind only [← Kept.modTile, = Tile.scalarLate_scratch, ← Keeps.issue, ← Keeps.next]

theorem Keeps.opReadLoopIndex {s0 s : State} (hk : Kept s0 s) (i : Iss) (d : ScalarDst) (level : Fin 4) :
    Keeps s0 (opReadLoopIndex i d level s) := by
  unfold Machine.opReadLoopIndex
  grind only [← Kept.modTile, = Tile.scalarNow_scratch, ← Keeps.issue, ← Keeps.next]

theorem Tile.addUse_scratch (t : Tile) (u : RangeUse) :
    (Tile.addUse t u).scratch = t.scratch := by
  unfold Tile.addUse
  rfl

theorem Keeps.opScalarLoad {s0 s : State} (hk : Kept s0 s) (i : Iss) (d : ScalarDst) (addr : ScalarSrc) (region : Fin 64)
    :
    Keeps s0 (opScalarLoad i d addr region s) := by
  unfold Machine.opScalarLoad
  grind only [← Kept.drawn, ← Kept.setTile, = Tile.addUse_scratch, = Tile.scalarLate_scratch, ← Keeps.issue, ←
      Keeps.next, Kept.tile_wf]

theorem Keeps.opScalarStore {s0 s : State} (hk : Kept s0 s) (i : Iss) (a : ScalarSrc) (addr : ScalarSrc) (region : Fin
    64) :
    Keeps s0 (opScalarStore i a addr region s) := by
  unfold Machine.opScalarStore
  grind only [← Kept.drawn, ← Kept.setTile, = Tile.addUse_scratch, = Tile.scalarLate_scratch, ← Keeps.issue, ←
      Keeps.next, Kept.tile_wf]

theorem Keeps.opPBlockLoad {s0 s : State} (hk : Kept s0 s) (i : Iss) (first : PReg) (addr : ScalarSrc) (region : Fin 64) :
    Keeps s0 (opPBlockLoad i first addr region s) := by
  unfold Machine.opPBlockLoad
  grind only [← Kept.drawn, ← Kept.setTile, = Tile.addUse_scratch, = Tile.scalarLate_scratch, ← Keeps.issue, ←
      Keeps.next, Kept.tile_wf]

theorem Keeps.opLaneInsertExtract {s0 s : State} (hk : Kept s0 s) (i : Iss) (op : LaneOp) :
    Keeps s0 (opLaneInsertExtract i op s) := by
  unfold Machine.opLaneInsertExtract
  grind only [← Kept.modTile, = Tile.scalarLate_scratch, ← Keeps.issue, ← Keeps.next]

theorem Tile.resolve_scratch (t : Tile) (b : Word) :
    (Tile.resolve t b).scratch = t.scratch := by
  unfold Tile.resolve
  rfl

theorem Keeps.opLoopStart {s0 s : State} (hk : Kept s0 s) (i : Iss) (l : LReg) (last : Word) :
    Keeps s0 (opLoopStart i l last s) := by
  unfold Machine.opLoopStart
  grind only [← Kept.setTile, = Tile.resolve_scratch, ← Keeps.issue, ← Keeps.next, ← Keeps.fault, Kept.tile_wf]

theorem Tile.endBundle_scratch (t : Tile) (now : DWord) :
    (Tile.endBundle t now).scratch = t.scratch := by
  unfold Tile.endBundle
  grind only [= Tile.resolve_scratch]

theorem Goes.execLoopBodyEnd {s0 s : State} (hk : Kept s0 s) (tile : TileNo) :
    Goes s0 (execLoopBodyEnd tile s) := by
  unfold Machine.execLoopBodyEnd
  grind only [← Kept.setTile, = Tile.endBundle_scratch, ← Goes.next, Kept.tile_wf]

theorem Keeps.opRoutineCall {s0 s : State} (hk : Kept s0 s) (i : Iss) (id : BitVec 16) :
    Keeps s0 (opRoutineCall i id s) := by
  unfold Machine.opRoutineCall
  grind only [← Kept.setTile, ← Keeps.issue, ← Keeps.next, ← Keeps.fault, Kept.tile_wf]

theorem Kept.routineReturn {s0 s : State} (hk : Kept s0 s) (tile : Nat) :
    Kept s0 (State.routineReturn s tile) := by
  unfold State.routineReturn
  grind only [← Kept.setTile, = Tile.addLate_scratch, Kept.tile_wf]

theorem Goes.execRoutineReturn {s0 s : State} (hk : Kept s0 s) (tile : TileNo) :
    Goes s0 (execRoutineReturn tile s) := by
  unfold Machine.execRoutineReturn
  grind only [← Kept.routineReturn, ← Goes.next]

theorem Goes.execIstoreMissFill {s0 s : State} (hk : Kept s0 s) (tile : TileNo) (line : Nat) :
    Goes s0 (execIstoreMissFill tile line s) := by
  unfold Machine.execIstoreMissFill
  grind only [← Kept.setTile, ← Goes.next, Kept.tile_wf]

/-! ### Matrix -/

theorem Tile.startPending_scratch (t : Tile) (now : DWord) (k : ArrayEngine) :
    (Tile.startPending t now k).scratch = t.scratch := by
  unfold Tile.startPending
  grind only

theorem Tile.startAll_scratch (t : Tile) (now : DWord) : (t.startAll now).scratch = t.scratch :=
  Tile.foldl_scratch (fun t k => t.startPending_scratch now k) _ t

theorem Tile.readRows_scratch (t : Tile) (now : Nat) (k : ArrayEngine) :
    (Tile.readRows t now k).scratch = t.scratch := by
  unfold Tile.readRows
  grind only

theorem Kept.creditAll {s0 s : State} (hk : Kept s0 s) (l : List MsgOrigin) :
    Kept s0 (State.creditAll s l) := by
  induction l generalizing s with
  | nil => exact hk
  | cons x l ih =>
    unfold State.creditAll
    grind only [← Kept.creditBack]

theorem Kept.feedChannel {s0 s : State} (hk : Kept s0 s) (t : TileNo) (now fuel : Nat) :
    Kept s0 (State.feedChannel t now fuel s) := by
  induction fuel generalizing s with
  | zero => exact hk
  | succ fuel ih =>
    unfold State.feedChannel
    grind only [← Kept.setTile, ← Kept.creditAll, = Tile.setRecv_scratch, Kept.tile_wf]

theorem Kept.drainChannel {s0 s : State} (hk : Kept s0 s) (t : TileNo) (r : ArrayRun) (rows : Nat) (f : Fmt) (ep : Fin
    64) (codes : List Nat) :
    Kept s0 (State.drainChannel s t r rows f ep codes) := by
  unfold State.drainChannel
  grind only [← Kept.sendData, ← Kept.setTile, ← Kept.free, Kept.tile_wf]

theorem Kept.drainCycle {s0 s : State} (hk : Kept s0 s) (t : TileNo) (now : Nat) :
    Kept s0 (State.drainCycle s t now) := by
  unfold State.drainCycle
  grind only [← Kept.drainChannel, ← Kept.setTile, = Tile.addLate_scratch, ← Kept.free, Kept.tile_wf]

theorem Kept.cycleArray {s0 s : State} (hk : Kept s0 s) (t : TileNo) : Kept s0 (s.cycleArray t) := by
  unfold State.cycleArray
  refine Kept.modTile (Kept.drainCycle (Kept.feedChannel (Kept.modTile (Kept.modTile (hk.modTile _ ?starts) _ ?reads) _
    ?moves) ..) ..) _ ?ends
  case starts => intro x hx; rwa [Tile.startAll_scratch]
  case reads => intro x hx; rwa [Tile.readRows_scratch, Tile.readRows_scratch]
  case moves => exact fun _ hx => hx
  case ends => exact fun _ hx => hx

theorem Tile.shift_scratch (t : Tile) :
    (Tile.shift t).scratch = t.scratch := by
  unfold Tile.shift
  rfl

theorem Tile.countFreeze_scratch (t : Tile) :
    (Tile.countFreeze t).scratch = t.scratch := by
  unfold Tile.countFreeze
  grind only

theorem Goes.execArrayFreeze {s0 s : State} (hk : Kept s0 s) (tile : TileNo) :
    Goes s0 (execArrayFreeze tile s) := by
  unfold Machine.execArrayFreeze
  grind only [← Kept.modTile, = Tile.countFreeze_scratch, ← Goes.next, Kept.tile_wf]

theorem Keeps.arrayIssue {s0 s : State} (hk : Kept s0 s) (i : Iss) (op : ArrayOp) :
    Keeps s0 (arrayIssue i op s) := by
  unfold Machine.arrayIssue
  grind only [← Kept.setTile, = Tile.startAll_scratch, ← Keeps.next, ← Keeps.fault, ← Kept.free, Kept.tile_wf]

theorem Keeps.opSetMode {s0 s : State} (hk : Kept s0 s) (i : Iss) (m : ModeArg) :
    Keeps s0 (opSetMode i m s) := by
  unfold Machine.opSetMode
  grind only [← Keeps.arrayIssue, ← Keeps.issue, ← Keeps.next]

theorem Keeps.opLoadWeights {s0 s : State} (hk : Kept s0 s) (i : Iss) (l : LoadArg) :
    Keeps s0 (opLoadWeights i l s) := by
  unfold Machine.opLoadWeights
  grind only [← Keeps.arrayIssue, ← Keeps.issue, ← Keeps.next, Kept.tile_wf]

theorem Keeps.opFeed {s0 s : State} (hk : Kept s0 s) (i : Iss) (a : FeedArg) :
    Keeps s0 (opFeed i a s) := by
  unfold Machine.opFeed
  grind only [← Keeps.arrayIssue, ← Keeps.issue, ← Keeps.next, Kept.tile_wf]

theorem Keeps.opFinishTree {s0 s : State} (hk : Kept s0 s) (i : Iss) (a : FinishArg) :
    Keeps s0 (opFinishTree i a s) := by
  unfold Machine.opFinishTree
  grind only [← Keeps.arrayIssue, ← Keeps.issue, ← Keeps.next, Kept.tile_wf]

theorem Keeps.opDrain {s0 s : State} (hk : Kept s0 s) (i : Iss) (a : DrainArg) :
    Keeps s0 (opDrain i a s) := by
  unfold Machine.opDrain
  grind only [← Keeps.arrayIssue, ← Keeps.issue, ← Keeps.next, Kept.tile_wf]

theorem Goes.execPendingArrayOpStart {s0 s : State} (hk : Kept s0 s) (tile : TileNo) (k : ArrayEngine) :
    Goes s0 (execPendingArrayOpStart tile k s) := by
  unfold Machine.execPendingArrayOpStart
  grind only [← Kept.modTile, = Tile.startPending_scratch, ← Goes.next]

/-! ### Vector -/

theorem Kept.noteOwnFlags {s0 s : State} (hk : Kept s0 s) (r : RecvEp) (slot : Nat) :
    Kept s0 (State.noteOwnFlags s r slot) := by
  unfold State.noteOwnFlags
  grind only [← Kept.noteTally]

theorem Kept.endSlot {s0 s : State} (hk : Kept s0 s) (t : TileNo) (ep : Fin 64) (slot : Nat) :
    Kept s0 (State.endSlot s t ep slot) := by
  unfold State.endSlot
  grind only [← Kept.modTile, ← Kept.noteOwnFlags, ← Kept.rejudgeSlot, = Tile.setRecv_scratch, ← Kept.free, Kept.tile_wf]

theorem Kept.combineCycle {s0 s : State} (hk : Kept s0 s) (t : TileNo) (v : VecRun) (c : CombineArg) (regs : Regs) :
    Kept s0 (State.combineCycle s t v c regs) := by
  unfold State.combineCycle
  grind only [← Kept.creditBack, ← Kept.setTile, = Tile.raise_scratch, = Tile.setRecv_scratch, ← Kept.free, Kept.tile_wf]

theorem Tile.vectorDone_scratch (t : Tile) (s : State) (v : VecRun) (p : Pass) (regs : Regs) (now : Nat) :
    (Tile.vectorDone t s v p regs now).scratch = t.scratch := by
  unfold Tile.vectorDone
  grind only [= Tile.raise_scratch]

theorem Tile.passCycle_scratch (t : Tile) (s : State) (v : VecRun) (p : Pass) (regs : Regs) (now : Nat) :
    (Tile.passCycle t s v p regs now).scratch = t.scratch := by
  unfold Tile.passCycle
  grind only [= Tile.vectorDone_scratch]

theorem Kept.startVec {s0 s : State} (hk : Kept s0 s) (t : TileNo) :
    Kept s0 (State.startVec s t) := by
  unfold State.startVec
  grind only [← Kept.setTile, ← Kept.free, Kept.tile_wf]

theorem Kept.cycleVector {a s0 : State} (hk : Kept a s0) (t : TileNo) :
    Kept a (State.cycleVector s0 t) := by
  unfold State.cycleVector
  grind only [← Kept.combineCycle, ← Kept.setTile, ← Kept.startVec, = Tile.passCycle_scratch, Kept.tile_wf]

theorem Tile.redResults_scratch (t : Tile) (now : Nat) :
    (Tile.redResults t now).scratch = t.scratch := by
  unfold Tile.redResults
  rfl

theorem Keeps.vecIssue {a s0 : State} (hk : Kept a s0) (i : Iss) (op : VecOp) :
    Keeps a (vecIssue i op s0) := by
  unfold Machine.vecIssue
  grind only [← Kept.setTile, ← Kept.startVec, ← Keeps.next, ← Keeps.fault, Kept.tile_wf]

theorem Keeps.opVectorPass {s0 s : State} (hk : Kept s0 s) (i : Iss) (p : Pass) :
    Keeps s0 (opVectorPass i p s) := by
  unfold Machine.opVectorPass
  grind only [← Keeps.issue, ← Keeps.vecIssue, ← Keeps.next, ← Keeps.fault, Kept.tile_wf]

theorem Keeps.opCombine {s0 s : State} (hk : Kept s0 s) (i : Iss) (c : CombineArg) :
    Keeps s0 (opCombine i c s) := by
  unfold Machine.opCombine
  grind only [← Keeps.issue, ← Keeps.vecIssue, ← Keeps.next, ← Keeps.fault, Kept.tile_wf]

theorem Goes.execPendingPassStart {s0 s : State} (hk : Kept s0 s) (tile : TileNo) :
    Goes s0 (execPendingPassStart tile s) := by
  unfold Machine.execPendingPassStart
  grind only [← Kept.startVec, ← Goes.next]

theorem Keeps.opReduction {s0 s : State} (hk : Kept s0 s) (i : Iss) (r : Reduction) :
    Keeps s0 (opReduction i r s) := by
  unfold Machine.opReduction
  grind only [← Kept.setTile, ← Keeps.issue, ← Keeps.next, ← Keeps.fault, Kept.tile_wf]

theorem Goes.execReductionSegmentResult {s0 s : State} (hk : Kept s0 s) (tile : TileNo) :
    Goes s0 (execReductionSegmentResult tile s) := by
  unfold Machine.execReductionSegmentResult
  grind only [← Kept.modTile, = Tile.redResults_scratch, ← Goes.next]

end Sys2Proof.Machine
end

section
/-! PROOFS. What the stream engine, channels, barriers, watches and hangs keep. -/

namespace Sys2Proof.Machine

set_option Elab.async false

/-! ### Stream -/

theorem Tile.setDesc_scratch (t : Tile) (d : Nat) (x : Descriptor) :
    (Tile.setDesc t d x).scratch = t.scratch := by
  unfold Tile.setDesc
  rfl

theorem Kept.streamFault {s0 s : State} (hk : Kept s0 s) (i : Iss) (offending code : Nat) :
    Kept s0 (State.streamFault s i offending code) := by
  unfold State.streamFault
  grind only [← Kept.contractFault]

theorem Kept.descFault {s0 s : State} (hk : Kept s0 s) (i : Iss) (d : Fin 32) (code : Nat) :
    Kept s0 (State.descFault s i d code) := by
  unfold State.descFault
  grind only [← Kept.drawn, ← Kept.modTile, ← Kept.streamFault, = Tile.setDesc_scratch]

theorem Keeps.opSetup {s0 s : State} (hk : Kept s0 s) (i : Iss) (d : Fin 32) (a : SetupArg) :
    Keeps s0 (opSetup i d a s) := by
  unfold Machine.opSetup
  grind only [← Kept.descFault, ← Kept.setTile, = Tile.setDesc_scratch, ← Keeps.issue, ← Keeps.next, Kept.tile_wf]

theorem Keeps.opStart {s0 s : State} (hk : Kept s0 s) (i : Iss) (d : Fin 32) :
    Keeps s0 (opStart i d s) := by
  unfold Machine.opStart
  grind only [← Kept.descFault, ← Kept.setTile, = Tile.setDesc_scratch, ← Keeps.issue, ← Keeps.next, ← Kept.free,
      Kept.tile_wf]

theorem Keeps.opRearm {s0 s : State} (hk : Kept s0 s) (i : Iss) (d : Fin 32) (base : Src) (last : Bool) :
    Keeps s0 (opRearm i d base last s) := by
  unfold Machine.opRearm
  grind only [← Kept.descFault, ← Kept.setTile, = Tile.setDesc_scratch, ← Keeps.issue, ← Keeps.next, ← Kept.free,
      Kept.tile_wf]

theorem Keeps.opPhase {s0 s : State} (hk : Kept s0 s) (i : Iss) (compute : Bool) :
    Keeps s0 (opPhase i compute s) := by
  unfold Machine.opPhase
  grind only [← Kept.drawn, ← Kept.modTile, ← Kept.streamFault, ← Keeps.issue, ← Keeps.next, Kept.tile_wf]

theorem Kept.freeScratch {s0 s : State} (hk : Kept s0 s) (t a n : Nat) :
    Kept s0 (State.freeScratch s t a n) := by
  unfold State.freeScratch
  grind only [← Kept.drawn, ← Kept.modTile, ← Tile.memWf_writeScratch]

theorem Keeps.opFill {s0 s : State} (hk : Kept s0 s) (i : Iss) (a : FillArg) :
    Keeps s0 (opFill i a s) := by
  unfold Machine.opFill
  grind only [← Kept.freeScratch, ← Kept.setTile, ← Kept.streamFault, ← Keeps.issue, ← Keeps.next, Kept.tile_wf]

theorem Keeps.opCopy {s0 s : State} (hk : Kept s0 s) (i : Iss) (a : CopyArg) :
    Keeps s0 (opCopy i a s) := by
  unfold Machine.opCopy
  grind only [← Kept.freeScratch, ← Kept.setTile, ← Kept.streamFault, ← Keeps.issue, ← Keeps.next, Kept.tile_wf]

theorem Kept.endFill {s0 s : State} (hk : Kept s0 s) (t : Nat) (f : FillRun) :
    Kept s0 (State.endFill s t f) := by
  unfold State.endFill
  grind only [← Kept.modTile, ← Kept.semAdd, ← Tile.memWf_writeScratch]

theorem Kept.fillEnds {s0 s : State} (hk : Kept s0 s) (t : Nat) :
    Kept s0 (State.fillEnds s t) := by
  unfold State.fillEnds
  grind only [← Kept.endFill, ← Kept.setTile, Kept.tile_wf]

theorem Kept.allFillsEnd {s0 s : State} (hk : Kept s0 s) (t : Nat) :
    Kept s0 (State.allFillsEnd s t) := by
  unfold State.allFillsEnd
  grind only [← Kept.fillEnds, ← Kept.foldl, Kept.tile_wf]

theorem Goes.opFillCopyDone {s0 s : State} (hk : Kept s0 s) (tile : TileNo) :
    Goes s0 (opFillCopyDone tile s) := by
  unfold Machine.opFillCopyDone
  grind only [← Kept.fillEnds, ← Goes.next]

theorem Keeps.opCodePrefetch {s0 s : State} (hk : Kept s0 s) (i : Iss) (a : PrefetchArg) :
    Keeps s0 (opCodePrefetch i a s) := by
  unfold Machine.opCodePrefetch
  grind only [← Kept.drawn, ← Kept.setTile, ← Keeps.issue, ← Keeps.next, ← Kept.free, Kept.tile_wf]

theorem Kept.prefetched {s0 s : State} (hk : Kept s0 s) (tile line : Nat) (needBy : DWord) :
    Kept s0 (State.prefetched s tile line needBy) := by
  unfold State.prefetched
  grind only [← Kept.semAdd, ← Kept.setTile, Kept.tile_wf]

theorem Goes.execPrefetchLineArrival {s0 s : State} (hk : Kept s0 s) (tile : TileNo) :
    Goes s0 (execPrefetchLineArrival tile s) := by
  unfold Machine.execPrefetchLineArrival
  grind only [← Kept.prefetched, ← Kept.setTile, ← Goes.next, Kept.tile_wf]

theorem Keeps.opWindowOpen {s0 s : State} (hk : Kept s0 s) (i : Iss) (w : Fin 16) (a : WindowArg) :
    Keeps s0 (opWindowOpen i w a s) := by
  unfold Machine.opWindowOpen
  grind only [← Kept.drawn, ← Kept.modTile, ← Kept.setTile, ← Kept.streamFault, ← Keeps.issue, ← Keeps.next, Kept.tile_wf]

theorem Keeps.opWindowClose {s0 s : State} (hk : Kept s0 s) (i : Iss) (w : Fin 16) :
    Keeps s0 (opWindowClose i w s) := by
  unfold Machine.opWindowClose
  grind only [← Kept.setTile, ← Keeps.issue, ← Keeps.next, Kept.tile_wf]

theorem Goes.execWindowViolation {s0 s : State} (hk : Kept s0 s) (writer : TileNo) :
    Goes s0 (execWindowViolation writer s) := by
  unfold Machine.execWindowViolation
  grind only [← Kept.contractFault, ← Goes.next, ← Kept.free, Kept.tile_wf]

theorem Kept.sendTransfer {s0 s : State} (hk : Kept s0 s) (tile : TileNo) (tag : Fin 256) (d : Descriptor) (tr :
    Transfer) :
    Kept s0 (State.sendTransfer s tile tag d tr) := by
  unfold State.sendTransfer
  grind only [← Kept.free, Kept.tile_wf]

theorem Goes.opTransferIssue {s0 s : State} (hk : Kept s0 s) (tile : TileNo) :
    Goes s0 (opTransferIssue tile s) := by
  unfold Machine.opTransferIssue
  grind only [← Kept.modTile, ← Kept.sendTransfer, = Tile.setDesc_scratch, ← Goes.next, ← Kept.free]

theorem Goes.execReadyTake {s0 s : State} (hk : Kept s0 s) (tile : TileNo) (k : Fin 32) :
    Goes s0 (execReadyTake tile k s) := by
  unfold Machine.execReadyTake
  grind only [← Kept.setTile, = Tile.setDesc_scratch, = Tile.setSem_scratch, ← Goes.next, Kept.tile_wf]

theorem Goes.execTransferComplete {s0 s : State} (hk : Kept s0 s) (tile : TileNo) (tag : Fin 256) :
    Goes s0 (execTransferComplete tile tag s) := by
  unfold Machine.execTransferComplete
  grind only [← Kept.semAdd, ← Kept.setTile, = Tile.setDesc_scratch, ← Goes.next, ← Kept.free, Kept.tile_wf]

theorem Tile.markDone_scratch (t : Tile) (tag : Fin 256) :
    (Tile.markDone t tag).scratch = t.scratch := by
  unfold Tile.markDone
  grind only

theorem Kept.landInbound {s0 s : State} (hk : Kept s0 s) (t : TileNo) (x : Inbound) :
    Kept s0 (State.landInbound s t x) := by
  unfold State.landInbound
  grind only [← Kept.modTile, = Tile.markDone_scratch, ← Tile.memWf_writeScratch, ← Kept.free]

theorem Goes.execInboundDataArrival {s0 s : State} (hk : Kept s0 s) (tile : TileNo) :
    Goes s0 (execInboundDataArrival tile s) := by
  unfold Machine.execInboundDataArrival
  grind only [← Kept.landInbound, ← Kept.setTile, ← Goes.next, Kept.tile_wf]

theorem Goes.execHoldAreaWrite {s0 s : State} (hk : Kept s0 s) (tile : TileNo) :
    Goes s0 (execHoldAreaWrite tile s) := by
  unfold Machine.execHoldAreaWrite
  grind only [← Kept.landInbound, ← Kept.setTile, ← Goes.next, Kept.tile_wf]

theorem Goes.execRemoteWriteJudged {s0 s : State} (hk : Kept s0 s) (tile : TileNo) :
    Goes s0 (execRemoteWriteJudged tile s) := by
  unfold Machine.execRemoteWriteJudged
  grind only [← Kept.modTile, ← Goes.next, ← Kept.free, Kept.tile_wf]

theorem Keeps.opPostSend {s0 s : State} (hk : Kept s0 s) (i : Iss) (d : Fin 32) (segment : Src) (ep : Fin 64) (g : GReg) :
    Keeps s0 (opPostSend i d segment ep g s) := by
  unfold Machine.opPostSend
  grind only [← Kept.setTile, ← Keeps.issue, ← Keeps.next, Kept.tile_wf]

theorem Goes.execPostSendDispatch {s0 s : State} (hk : Kept s0 s) (tile : TileNo) :
    Goes s0 (execPostSendDispatch tile s) := by
  unfold Machine.execPostSendDispatch
  grind only [← Kept.sendData, ← Kept.setTile, ← Goes.next, Kept.tile_wf]

/-! ### Channel -/

theorem Tile.channelLate_scratch (t : Tile) (now latency : Nat) (b : Word) (e : LateEff) :
    (Tile.channelLate t now latency b e).scratch = t.scratch := by
  unfold Tile.channelLate
  grind only [= Tile.addLate_scratch]

theorem Tile.sendStatus_scratch (t : Tile) (now : Nat) (b : Word) (status : Option GReg) (closed : Bool) :
    (Tile.sendStatus t now b status closed).scratch = t.scratch := by
  unfold Tile.sendStatus
  grind only [= Tile.channelLate_scratch]

theorem Goes.sendIssue {s0 s : State} (hk : Kept s0 s) (i : Iss) (a : SendArg) (data : Bytes) :
    Goes s0 (sendIssue i a data s) := by
  unfold Machine.sendIssue
  grind only [← Kept.modTile, ← Kept.sendData, = Tile.sendStatus_scratch, ← Goes.next, Kept.tile_wf]

theorem Keeps.opSendG {s0 s : State} (hk : Kept s0 s) (i : Iss) (a : SendArg) (g : GReg) :
    Keeps s0 (opSendG i a g s) := by
  unfold Machine.opSendG
  grind only [← Keeps.issueWait, ← Goes.sendIssue, ← Goes.keeps, ← Keeps.next, Kept.tile_wf]

theorem Keeps.opSendV {s0 s : State} (hk : Kept s0 s) (i : Iss) (a : SendArg) (v : VReg) (count : Fin 4) :
    Keeps s0 (opSendV i a v count s) := by
  unfold Machine.opSendV
  grind only [← Keeps.issueWait, ← Goes.sendIssue, ← Goes.keeps, ← Keeps.next, ← Keeps.fault, Kept.tile_wf]

theorem Goes.recvIssue {s0 s : State} (hk : Kept s0 s) (i : Iss) (ep : Fin 64) (f : Bytes → List LateEff) :
    Goes s0 (recvIssue i ep s f) := by
  unfold Machine.recvIssue
  grind only [← Kept.creditBack, ← Kept.setTile, = Tile.channelLate_scratch, = Tile.setRecv_scratch, ← Goes.next, =
      Tile.foldl_scratch, Kept.tile_wf]

theorem Keeps.opRecvG {s0 s : State} (hk : Kept s0 s) (i : Iss) (ep : Fin 64) (g : GReg) (wp : Fin 1024) :
    Keeps s0 (opRecvG i ep g wp s) := by
  unfold Machine.opRecvG
  grind only [← Keeps.issueWait, ← Goes.recvIssue, ← Goes.keeps, ← Keeps.next]

theorem Keeps.opRecvV {s0 s : State} (hk : Kept s0 s) (i : Iss) (ep : Fin 64) (v : VReg) (count : Fin 4) (wp : Fin 1024) :
    Keeps s0 (opRecvV i ep v count wp s) := by
  unfold Machine.opRecvV
  grind only [← Keeps.issueWait, ← Goes.recvIssue, ← Goes.keeps, ← Keeps.next, ← Keeps.fault]

theorem Keeps.opRecvDrop {s0 s : State} (hk : Kept s0 s) (i : Iss) (ep : Fin 64) (wp : Fin 1024) :
    Keeps s0 (opRecvDrop i ep wp s) := by
  unfold Machine.opRecvDrop
  grind only [← Keeps.issueWait, ← Goes.recvIssue, ← Goes.keeps, ← Keeps.next]

theorem Keeps.opWaitArrived {s0 s : State} (hk : Kept s0 s) (i : Iss) (ep : Fin 64) (slot : Src) (k : Nat) (wp : Fin
    1024) :
    Keeps s0 (opWaitArrived i ep slot k wp s) := by
  unfold Machine.opWaitArrived
  grind only [← Keeps.issueWait, ← Keeps.next]

theorem Keeps.opEpReset {s0 s : State} (hk : Kept s0 s) (i : Iss) (ep : Fin 64) :
    Keeps s0 (opEpReset i ep s) := by
  unfold Machine.opEpReset
  grind only [← Kept.resetRecv, ← Keeps.issue, ← Keeps.next, Kept.tile_wf]

theorem Keeps.opEpOpen {s0 s : State} (hk : Kept s0 s) (i : Iss) (ep : Fin 64) :
    Keeps s0 (opEpOpen i ep s) := by
  unfold Machine.opEpOpen
  grind only [← Kept.openRecv, ← Keeps.issue, ← Keeps.next, Kept.tile_wf]

theorem Goes.execMessageArrival {s0 s : State} (hk : Kept s0 s) (tile : TileNo) (ep : Fin 64) :
    Goes s0 (execMessageArrival tile ep s) := by
  unfold Machine.execMessageArrival
  grind only [← Kept.arrive, ← Goes.next, ← Kept.free]

theorem Goes.execCreditArrival {s0 s : State} (hk : Kept s0 s) (tile : TileNo) (ep : Fin 64) :
    Goes s0 (execCreditArrival tile ep s) := by
  unfold Machine.execCreditArrival
  grind only [← Kept.modTile, = Tile.setSend_scratch, ← Goes.next, ← Kept.free]

theorem Goes.execClosingNoticeArrival {s0 s : State} (hk : Kept s0 s) (tile : TileNo) (ep : Fin 64) :
    Goes s0 (execClosingNoticeArrival tile ep s) := by
  unfold Machine.execClosingNoticeArrival
  grind only [← Kept.modTile, = Tile.setSend_scratch, ← Goes.next, ← Kept.free]

theorem Goes.execOpeningNoticeArrival {s0 s : State} (hk : Kept s0 s) (tile : TileNo) (ep : Fin 64) :
    Goes s0 (execOpeningNoticeArrival tile ep s) := by
  unfold Machine.execOpeningNoticeArrival
  grind only [← Kept.modTile, = Tile.setSend_scratch, ← Goes.next, ← Kept.free]

theorem Goes.execDiscardReportArrival {s0 s : State} (hk : Kept s0 s) (tile : TileNo) (ep : Fin 64) :
    Goes s0 (execDiscardReportArrival tile ep s) := by
  unfold Machine.execDiscardReportArrival
  grind only [← Kept.closedFault, ← Goes.next, ← Kept.free, Kept.tile_wf]

/-! ### Barrier -/

theorem Kept.setCounter {s0 s : State} (hk : Kept s0 s) (level unit b : Nat) (c : BarrierCounter) :
    Kept s0 (State.setCounter s level unit b c) := by
  unfold State.setCounter
  grind only [← Kept.free]

theorem Kept.adoptMembership {s0 s : State} (hk : Kept s0 s) (m : Membership) (epochs : List (Nat × Word)) :
    Kept s0 (State.adoptMembership s m epochs) := by
  unfold State.adoptMembership
  grind only [← Kept.free, ← Kept.foldl]

theorem Kept.bindTile {s0 s : State} (hk : Kept s0 s) (t : Nat) :
    Kept s0 (State.bindTile s t) := by
  unfold State.bindTile
  grind only [← Kept.modTile]

theorem Kept.bindAll {s0 s : State} (hk : Kept s0 s) (l : List Nat) :
    Kept s0 (State.bindAll s l) := by
  induction l generalizing s with
  | nil => exact hk
  | cons x l ih =>
    unfold State.bindAll
    grind only [← Kept.bindTile]

theorem Kept.resetLost {s0 s : State} (hk : Kept s0 s) (l : List (Nat × Nat)) :
    Kept s0 (State.resetLost s l) := by
  induction l generalizing s with
  | nil => exact hk
  | cons x l ih =>
    unfold State.resetLost
    grind only [← Kept.resetRecv]

theorem Kept.soloAfter {s0 s : State} (hk : Kept s0 s) (c : Change) :
    Kept s0 (State.soloAfter s c) := by
  unfold State.soloAfter
  grind only [← Kept.free]

theorem Kept.applyChange {s0 s : State} (hk : Kept s0 s) (c : Change) : Kept s0 (s.applyChange c) := by
  unfold State.applyChange
  exact ((((((Kept.soloAfter (hk.free rfl ..) c).adoptMembership ..).assignParcels).bindAll _).resetLost
      _).sendTileTable).event ..

theorem Kept.sendRelease {s0 s : State} (hk : Kept s0 s) (b : Fin 16) (round : Word) :
    Kept s0 (State.sendRelease s b round) := by
  unfold State.sendRelease
  grind only [← Kept.free]

theorem Kept.moduleRelease {s0 s : State} (hk : Kept s0 s) (b : Fin 16) (round : Word) :
    Kept s0 (State.moduleRelease s b round) := by
  unfold State.moduleRelease
  grind only [← Kept.applyChange, ← Kept.sendRelease]

theorem Kept.sendBarrier {s0 s : State} (hk : Kept s0 s) (ptype dst : Nat) (b : Fin 16) (round : Word) (level count :
    Nat) :
    Kept s0 (State.sendBarrier s ptype dst b round level count) := by
  unfold State.sendBarrier
  grind only [← Kept.sendOn]

theorem Kept.releaseChildren {s0 s : State} (hk : Kept s0 s) (b : Fin 16) (round : Word) (level : Nat) (members : List
    Nat) (own : Nat) (l : List Nat) :
    Kept s0 (State.releaseChildren s b round level members own l) := by
  induction l generalizing s with
  | nil => exact hk
  | cons x l ih =>
    unfold State.releaseChildren
    grind only [← Kept.sendBarrier]

theorem Kept.releaseDown {s0 s : State} (hk : Kept s0 s) (b : Fin 16) (round : Word) (level : Nat) :
    Kept s0 (State.releaseDown b round level s) := by
  induction level generalizing s with
  | zero => exact hk.moduleRelease b round
  | succ level ih => exact ih (hk.releaseChildren ..)

theorem Kept.releaseTop {s0 s : State} (hk : Kept s0 s) (b : Fin 16) (round : Word) (level : Nat) :
    Kept s0 (State.releaseTop s b round level) := by
  unfold State.releaseTop
  grind only [← Kept.releaseDown, ← Kept.free]

theorem Kept.countAt {s0 s : State} (hk : Kept s0 s) (b : Fin 16) (round : Word) (fuel level n : Nat) :
    Kept s0 (State.countAt b round fuel level n s) := by
  induction fuel generalizing s level n with
  | zero => exact hk
  | succ fuel ih =>
    unfold State.countAt
    grind only [← Kept.free, ← Kept.releaseTop, ← Kept.sendBarrier]

theorem Kept.domainArrive {s0 s : State} (hk : Kept s0 s) (b : Fin 16) (round : Word) :
    Kept s0 (State.domainArrive s b round) := by
  unfold State.domainArrive
  grind only [← Kept.countAt, ← Kept.releaseTop, ← Kept.sendBarrier]

theorem Kept.sendTieBarrier {s0 s : State} (hk : Kept s0 s) (ptype : Nat) (b : Fin 16) (round : Word) (count : Nat) :
    Kept s0 (State.sendTieBarrier s ptype b round count) := by
  unfold State.sendTieBarrier
  grind only [← Kept.sendOn]

theorem Kept.pairCount {s0 s : State} (hk : Kept s0 s) (b : Fin 16) (round : Word) (n : Nat) :
    Kept s0 (State.pairCount s b round n) := by
  unfold State.pairCount
  grind only [← Kept.moduleRelease, ← Kept.sendTieBarrier, ← Kept.free]

theorem Kept.pairArrive {s0 s : State} (hk : Kept s0 s) (b : Fin 16) (round : Word) :
    Kept s0 (State.pairArrive s b round) := by
  unfold State.pairArrive
  grind only [← Kept.pairCount, ← Kept.sendTieBarrier]

theorem Kept.moduleComplete {s0 s : State} (hk : Kept s0 s) (d : BarrierDecl) (round : Word) :
    Kept s0 (State.moduleComplete s d round) := by
  unfold State.moduleComplete
  grind only [← Kept.domainArrive, ← Kept.pairArrive, ← Kept.sendRelease, ← Kept.free]

theorem Kept.counterArrive {s0 s : State} (hk : Kept s0 s) (d : BarrierDecl) (level : BarrierScope) (unit bank n : Nat)
    (round : Word) :
    Kept s0 (State.counterArrive s d level unit bank n round) := by
  unfold State.counterArrive
  grind only [← Kept.moduleComplete, ← Kept.setCounter, ← Kept.free]

theorem Kept.releaseTiles {s0 s : State} (hk : Kept s0 s) (b : Nat) (l : List Nat) : Kept s0 (s.releaseTiles b l) := by
  induction l generalizing s with
  | nil => exact hk
  | cons t l ih => exact ih (hk.modTile t (fun _ hx => hx))

/-! ### Sync -/

theorem Keeps.opSignal {s0 s : State} (hk : Kept s0 s) (i : Iss) (k : Fin 64) (n : BitVec 16) :
    Keeps s0 (opSignal i k n s) := by
  unfold Machine.opSignal
  grind only [← Kept.semAdd, ← Keeps.issue, ← Keeps.next]

theorem Keeps.opWait {s0 s : State} (hk : Kept s0 s) (i : Iss) (k : Fin 64) (v : BitVec 16) (take : Bool) (wp : Fin 1024)
    :
    Keeps s0 (opWait i k v take wp s) := by
  unfold Machine.opWait
  grind only [← Kept.modTile, = Tile.setSem_scratch, ← Keeps.issueWait, ← Keeps.next, Kept.tile_wf]

theorem Keeps.opWatchReg {s0 s : State} (hk : Kept s0 s) (i : Iss) (h : Fin 32) (k : Fin 64) (v : BitVec 16) :
    Keeps s0 (opWatchReg i h k v s) := by
  unfold Machine.opWatchReg
  grind only [← Kept.setTile, = Tile.setWatch_scratch, ← Keeps.issue, ← Keeps.next, ← Kept.free, Kept.tile_wf]

theorem Goes.execWatchRegArrival {s0 s : State} (hk : Kept s0 s) (waiter : TileNo) (h : Fin 32) :
    Goes s0 (execWatchRegArrival waiter h s) := by
  unfold Machine.execWatchRegArrival
  grind only [← Kept.modTile, = Tile.setWatch_scratch, ← Goes.next, ← Kept.free]

theorem Goes.execWatchFiredArrival {s0 s : State} (hk : Kept s0 s) (waiter : TileNo) (h : Fin 32) :
    Goes s0 (execWatchFiredArrival waiter h s) := by
  unfold Machine.execWatchFiredArrival
  grind only [← Kept.modTile, = Tile.setWatch_scratch, ← Goes.next, ← Kept.free]

theorem Keeps.opWatchWait {s0 s : State} (hk : Kept s0 s) (i : Iss) (h : Fin 32) (wp : Fin 1024) :
    Keeps s0 (opWatchWait i h wp s) := by
  unfold Machine.opWatchWait
  grind only [← Kept.modTile, = Tile.setWatch_scratch, ← Keeps.issueWait, ← Keeps.next]

theorem Keeps.opArrive {s0 s : State} (hk : Kept s0 s) (i : Iss) (b : Fin 16) :
    Keeps s0 (opArrive i b s) := by
  unfold Machine.opArrive
  grind only [← Kept.contractFault, ← Kept.drawn, ← Kept.modTile, ← Kept.setTile, = Tile.setBarrier_scratch, ←
      Keeps.issue, ← Keeps.next, ← Kept.free, Kept.tile_wf]

theorem Keeps.opBwait {s0 s : State} (hk : Kept s0 s) (i : Iss) (b : Fin 16) (wp : Fin 1024) :
    Keeps s0 (opBwait i b wp s) := by
  unfold Machine.opBwait
  grind only [← Keeps.issueWait, ← Keeps.next]

theorem Goes.execBarrierCounterArrival {s0 s : State} (hk : Kept s0 s) (b : Fin 16) :
    Goes s0 (execBarrierCounterArrival b s) := by
  unfold Machine.execBarrierCounterArrival
  grind only [← Kept.counterArrive, ← Goes.next, ← Kept.free]

theorem Goes.execBarrierReleaseArrival {s0 s : State} (hk : Kept s0 s) (b : Fin 16) :
    Goes s0 (execBarrierReleaseArrival b s) := by
  unfold Machine.execBarrierReleaseArrival
  grind only [← Kept.releaseTiles, ← Goes.next, ← Kept.free]

/-! ### Hang -/

theorem Tile.markHung_scratch (t : Tile) (u : HangUnit) : (t.markHung u).scratch = t.scratch := by
  unfold Tile.markHung
  grind only [= Tile.setDesc_scratch]

theorem Goes.execHang {s0 s : State} (hk : Kept s0 s) (tile : TileNo) (u : HangUnit) :
    Goes s0 (execHang tile u s) := by
  unfold Machine.execHang
  grind only [← Kept.event, ← Kept.modTile, = Tile.markHung_scratch, ← Goes.next, ← Kept.free, Kept.tile_wf]

theorem Goes.execHangReport {s0 s : State} (hk : Kept s0 s) :
    Goes s0 (execHangReport s) := by
  unfold Machine.execHangReport
  grind only [← Kept.event, ← Goes.next, ← Kept.free]

end Sys2Proof.Machine
end

section
/-! PROOFS. What the update engines, the end of a step and of a run, and the memory stacks keep. -/

namespace Sys2Proof.Machine

set_option Elab.async false

/-! ### UpeOps -/

theorem Kept.writeStack {s0 s : State} (hk : Kept s0 s) (k sa : Nat) (bs : Bytes) : Kept s0 (s.writeStack k sa bs) := by
  induction bs generalizing s sa with
  | nil => exact hk
  | cons b bs ih => exact ih (hk.setHbm (fun w => mwf_mput 0 _ _ _ (hk.hbm_wf w))) _

theorem Kept.writeStackRuns {s0 s : State} (hk : Kept s0 s) (k : Nat) (l : List (Nat × Bytes)) :
    Kept s0 (State.writeStackRuns s k l) := by
  induction l generalizing s with
  | nil => exact hk
  | cons x l ih =>
    unfold State.writeStackRuns
    grind only [← Kept.writeStack]

theorem Kept.refreshBlock {s0 s : State} (hk : Kept s0 s) (k : Nat) (x inv : PlanSlot) (r : Refresh) (b : Nat) :
    Kept s0 (s.refreshBlock k x inv r b).1 := by
  unfold State.refreshBlock
  grind only [← Kept.writeStack]

theorem Kept.refreshBlocks {s0 s : State} (hk : Kept s0 s) (k : Nat) (x inv : PlanSlot) (r : Refresh) (n : Nat) :
    Kept s0 (s.refreshBlocks k x inv r n).1 := by
  induction n with
  | zero => exact hk
  | succ n ih => exact ih.refreshBlock k x inv r n

theorem Kept.entryRefresh {s0 s : State} (hk : Kept s0 s) (k : Nat) (e : PlanEntry) (p : UpdateProgram) (t : Nat) :
    Kept s0 (State.entryRefresh s k e p t) := by
  unfold State.entryRefresh
  grind only [← Kept.modStack, ← Kept.refreshBlocks]

theorem Kept.passBody {s0 s : State} (hk : Kept s0 s) (k : Nat) (e : PlanEntry) (t : Nat) :
    Kept s0 (State.passBody s k e t) := by
  unfold State.passBody
  grind only [← Kept.entryRefresh, ← Kept.modStack, ← Kept.writeStackRuns]

theorem Kept.completePass {s0 s : State} (hk : Kept s0 s) (k i : Nat) :
    Kept s0 (State.completePass s k i) := by
  unfold State.completePass
  grind only [← Kept.modStack, ← Kept.passBody]

theorem Kept.completeEntries {s0 s : State} (hk : Kept s0 s) (k : Nat) (l : List Nat) :
    Kept s0 (State.completeEntries s k l) := by
  induction l generalizing s with
  | nil => exact hk
  | cons x l ih =>
    unfold State.completeEntries
    grind only [← Kept.completePass]

theorem Kept.completeAll {s0 s : State} (hk : Kept s0 s) (l : List Nat) :
    Kept s0 (State.completeAll s l) := by
  induction l generalizing s with
  | nil => exact hk
  | cons x l ih =>
    unfold State.completeAll
    grind only [← Kept.completeEntries]

theorem Kept.abandonPass {s0 s : State} (hk : Kept s0 s) (k i : Nat) :
    Kept s0 (State.abandonPass s k i) := by
  unfold State.abandonPass
  grind only [← Kept.drawn, ← Kept.modStack, ← Kept.writeStack, ← Kept.free, ← Kept.foldl]

theorem Kept.abandonEntries {s0 s : State} (hk : Kept s0 s) (k : Nat) (l : List Nat) :
    Kept s0 (State.abandonEntries s k l) := by
  induction l generalizing s with
  | nil => exact hk
  | cons x l ih =>
    unfold State.abandonEntries
    grind only [← Kept.abandonPass]

theorem Kept.abandonAll {s0 s : State} (hk : Kept s0 s) (l : List Nat) :
    Kept s0 (State.abandonAll s l) := by
  induction l generalizing s with
  | nil => exact hk
  | cons x l ih =>
    unfold State.abandonAll
    grind only [← Kept.abandonEntries]

/-! ### RegMap -/

theorem Kept.applyCfg {s0 s : State} (hk : Kept s0 s) (b : Nat) :
    Kept s0 (State.applyCfg s b) := by
  unfold State.applyCfg
  grind only [← Kept.modTile, ← Kept.free, ← Kept.foldl]

theorem Kept.fwCfg {s0 s : State} (hk : Kept s0 s) (b off : Nat) (bs : Bytes) :
    Kept s0 (State.fwCfg s b off bs) := by
  unfold State.fwCfg
  grind only [← Kept.applyCfg, ← Kept.modBlock]

theorem Kept.fwBands {s0 s : State} (hk : Kept s0 s) (first : Nat) (bs : Bytes) :
    Kept s0 (State.fwBands s first bs) := by
  unfold State.fwBands
  grind only [← Kept.fwCfg, ← Kept.foldl]

theorem Kept.setRunEn {s0 s : State} (hk : Kept s0 s) (en : Bool) :
    Kept s0 (State.setRunEn s en) := by
  unfold State.setRunEn
  grind only [← Kept.modBlock, ← Kept.foldl]

/-! ### StepEnd -/

theorem Kept.addStep {s0 s : State} (hk : Kept s0 s) (t : Nat) :
    Kept s0 (State.addStep s t) := by
  unfold State.addStep
  grind only [← Kept.flushChecks, ← Kept.free]

theorem Kept.flushRecords {s0 s : State} (hk : Kept s0 s) (l : List Nat) :
    Kept s0 (State.flushRecords s l) := by
  induction l generalizing s with
  | nil => exact hk
  | cons x l ih =>
    unfold State.flushRecords
    grind only [← Kept.modStack, ← Kept.free]

theorem Kept.sendRecords {s0 s : State} (hk : Kept s0 s) (t : Nat) :
    Kept s0 (State.sendRecords s t) := by
  unfold State.sendRecords
  grind only [← Kept.sendOn, ← Kept.foldl]

theorem Kept.releaseWithheld {s0 s : State} (hk : Kept s0 s) :
    Kept s0 (State.releaseWithheld s) := by
  unfold State.releaseWithheld
  grind only [← Kept.domainArrive, ← Kept.free]

theorem Kept.closePassed {s0 s : State} (hk : Kept s0 s) (t : Nat) :
    Kept s0 (State.closePassed s t) := by
  unfold State.closePassed
  grind only [← Kept.releaseWithheld, ← Kept.free]

theorem Kept.skipClosure {s0 s : State} (hk : Kept s0 s) (t : Nat) :
    Kept s0 (State.skipClosure s t) := by
  unfold State.skipClosure
  grind only [← Kept.releaseWithheld, ← Kept.free]

theorem Kept.skipClosures {s0 s : State} (hk : Kept s0 s) :
    Kept s0 (State.skipClosures s) := by
  unfold State.skipClosures
  grind only [← Kept.releaseWithheld, ← Kept.skipClosure, ← Kept.foldl]

theorem Kept.closureDiffers {s0 s : State} (hk : Kept s0 s) (t : Nat) (own twin : Digest) :
    Kept s0 (State.closureDiffers s t own twin) := by
  unfold State.closureDiffers
  grind only [← Kept.event, ← Kept.sendRecords, ← Kept.free]

theorem Kept.takeClosure {s0 s s1 : State} {t : Nat} {a b : Digest} (hk : Kept s0 s)
    (h : s.takeClosure t = some (a, b, s1)) : Kept s0 s1 := by
  unfold State.takeClosure at h
  split at h
  · obtain ⟨rfl, rfl, rfl⟩ := h
    exact hk.free rfl ..
  · cases h

theorem Kept.sendFingerprints {s0 s : State} (hk : Kept s0 s) (t : Nat) :
    Kept s0 (State.sendFingerprints s t) := by
  unfold State.sendFingerprints
  grind only [← Kept.sendMgmt, ← Kept.foldl]

theorem Kept.sendClosure {s0 s : State} (hk : Kept s0 s) (t : Nat) :
    Kept s0 (State.sendClosure s t) := by
  unfold State.sendClosure
  grind only [← Kept.sendOn, ← Kept.skipClosure, ← Kept.free]

theorem Kept.reportStep {s0 s : State} (hk : Kept s0 s) (t : Nat) :
    Kept s0 (State.reportStep s t) := by
  unfold State.reportStep
  grind only [← Kept.sendClosure, ← Kept.sendFingerprints]

theorem Kept.settleClosure {s0 s : State} (hk : Kept s0 s) (t : Nat) : Kept s0 (s.settleClosure t) := by
  unfold State.settleClosure
  split
  case h_1 a b s1 htake =>
    have hk1 := hk.takeClosure htake
    split
    · exact hk1.closePassed t
    · exact hk1.closureDiffers t a b
  case h_2 => exact hk

theorem Kept.addSteps {s0 s : State} (hk : Kept s0 s) (n : Nat) : Kept s0 (s.addSteps n) := by
  induction n generalizing s with
  | zero => exact hk
  | succ n ih =>
    unfold State.addSteps
    grind only [← Kept.addStep, ← Kept.reportStep, ← Kept.settleClosure]

/-! ### RunEnd -/

theorem Kept.postRunEnd {s0 s : State} (hk : Kept s0 s) (h : Hdr) (c : EndCause) (body : Bytes) :
    Kept s0 (State.postRunEnd s h c body) := by
  unfold State.postRunEnd
  grind only [← Kept.reply, ← Kept.free]

theorem Kept.resetEndpoints {s0 s : State} (hk : Kept s0 s) (l : List (Nat × Nat)) :
    Kept s0 (State.resetEndpoints s l) := by
  induction l generalizing s with
  | nil => exact hk
  | cons x l ih =>
    unfold State.resetEndpoints
    grind only [← Kept.resetRecv]

theorem Kept.keepRecord {s0 s : State} (hk : Kept s0 s) (record : Bytes) :
    Kept s0 (State.keepRecord s record) := by
  unfold State.keepRecord
  grind only [← Kept.free]

theorem Kept.settleEngines {s0 s : State} (hk : Kept s0 s) (c : EndCause) :
    Kept s0 (State.settleEngines s c) := by
  unfold State.settleEngines
  grind only [← Kept.abandonAll, ← Kept.completeAll]

theorem Kept.logFaults {s0 s : State} (hk : Kept s0 s) (l : List FaultRec) :
    Kept s0 (State.logFaults s l) := by
  induction l generalizing s with
  | nil => exact hk
  | cons x l ih =>
    unfold State.logFaults
    grind only [← Kept.logCode]

theorem Kept.endRun {s0 s : State} (hk : Kept s0 s) (c : EndCause) : Kept s0 (s.endRun c) := by
  unfold State.endRun
  split
  case isTrue =>
    extract_lets s1 s2 s2' record body s3 s4 s4'
    have hs2 : Kept s0 s2' := (((hk.logFaults _).settleEngines c).flushRecords _).addSteps _
    have hs3 : Kept s0 s3 := ((hs2.keepRecord record).resetEndpoints _).setRunEn false
    have hs4 : Kept s0 s4 := by
      unfold s4
      split
      · exact hs3.postRunEnd ..
      · exact hs3
    exact Kept.free (hs4.flushChecks _) rfl ..
  case isFalse => exact hk

theorem Kept.raiseHw {s0 s : State} (hk : Kept s0 s) (code source : BitVec 16) (offending detail : DWord)
    (payload : Bytes) : Kept s0 (s.raiseHw code source offending detail payload) := by
  unfold State.raiseHw
  extract_lets f s1 run s2 clock sec s3
  have hs1 : Kept s0 s1 := hk.logCode ..
  have hs2 : Kept s0 s2 := by
    unfold s2
    split
    · exact hs1.free rfl ..
    · exact hs1
  have hs3 : Kept s0 s3 := hs2.sec (by rfl) (by exact le_rfl) ..
  exact hs3.endRun .fault

theorem Goes.execFaultStop {s0 s : State} (hk : Kept s0 s) :
    Goes s0 (execFaultStop s) := by
  unfold Machine.execFaultStop
  grind only [← Kept.endRun, ← Goes.next]

theorem Goes.execRunEnd {s0 s : State} (hk : Kept s0 s) (c : EndCause) :
    Goes s0 (execRunEnd c s) := by
  unfold Machine.execRunEnd
  grind only [← Kept.endRun, ← Goes.next, Kept.tile_wf]

/-! ### Hbm -/

theorem Kept.putPiece {s0 s : State} (hk : Kept s0 s) (a : Nat) (bs : Bytes) (deadline : Option DWord) :
    Kept s0 (State.putPiece s a bs deadline) := by
  unfold State.putPiece
  grind only [← Kept.modStack, ← Kept.writeHbm]

theorem Kept.putPieces {s0 s : State} (hk : Kept s0 s) (deadline : Option DWord) (fuel a : Nat) (bs : Bytes) :
    Kept s0 (s.putPieces deadline fuel a bs) := by
  induction fuel generalizing s a bs with
  | zero => exact hk
  | succ fuel ih =>
    unfold State.putPieces
    split
    · exact hk
    · exact ih (hk.putPiece ..) _ _

theorem Kept.clearPoison {s0 s : State} (hk : Kept s0 s) (a n : Nat) (l : List Nat) :
    Kept s0 (State.clearPoison s a n l) := by
  induction l generalizing s with
  | nil => exact hk
  | cons x l ih =>
    unfold State.clearPoison
    grind only [← Kept.modStack]

theorem Kept.hbmPut {s0 s : State} (hk : Kept s0 s) (a : Nat) (bs : Bytes) (deadline : Option DWord) :
    Kept s0 (State.hbmPut s a bs deadline) := by
  unfold State.hbmPut
  grind only [← Kept.clearPoison, ← Kept.putPieces]

theorem Kept.raiseHbm {s0 s : State} (hk : Kept s0 s) (k cw : Nat) :
    Kept s0 (State.raiseHbm s k cw) := by
  unfold State.raiseHbm
  grind only [← Kept.raiseHw]

theorem Kept.corrected {s0 s : State} (hk : Kept s0 s) (k sa named : Nat) :
    Kept s0 (State.corrected s k sa named) := by
  unfold State.corrected
  grind only [← Kept.event, ← Kept.modStack, ← Kept.raiseHbm]

theorem Kept.captureLines {s0 s : State} (hk : Kept s0 s) (k : Nat) (plan : UpdatePlan) (l : List Nat) (got : SMap DWord)
    :
    Kept s0 (s.captureLines k plan l got).1 := by
  induction l generalizing s got with
  | nil => exact hk
  | cons x l ih =>
    unfold State.captureLines
    split
    · split
      · refine ih ?_ _
        split
        · exact hk.modStack ..
        · exact hk
      · exact ih hk _
    · exact ih hk _

theorem Kept.completeLoad {s0 s : State} (hk : Kept s0 s) (data : Option Bytes) :
    Kept s0 (State.completeLoad s data) := by
  unfold State.completeLoad
  grind only [← Kept.free]

theorem Kept.poisonLoad {s0 s : State} (hk : Kept s0 s) (k cw : Nat) :
    Kept s0 (State.poisonLoad s k cw) := by
  unfold State.poisonLoad
  grind only [← Kept.completeLoad, ← Kept.event]

theorem Kept.returnData {s0 s : State} (hk : Kept s0 s) (r : HbmReq) (data : Bytes) : Kept s0 (s.returnData r data) := by
  have htile (t : TileNo) (f : Tile → Tile) (hf : ∀ x, (f x).scratch = x.scratch) : Kept s0 (s.modTile t.val f) :=
    hk.modTile _ (fun x hx => by rwa [hf x])
  obtain ⟨who, w, a, n, d, deadline, remote, p⟩ := r
  cases who with
  | tile t tag =>
    cases remote with
    | none => simp only [State.returnData]; exact htile t _ (fun _ => rfl)
    | some r => exact hk.free rfl ..
  | code t line => simp only [State.returnData]; exact htile t _ (fun _ => rfl)
  | dma c => exact hk
  | aperture => exact hk.completeLoad _
  | update => exact hk

theorem Kept.judgeHeld {s0 s : State} (hk : Kept s0 s) (k : Nat) (plan : UpdatePlan) (l : List GateRead) :
    Kept s0 (s.judgeHeld k plan l) := by
  induction l generalizing s with
  | nil => exact hk
  | cons g l ih =>
    have hgot := hk.captureLines k plan (gateLines plan (s.stackAddr g.req.addr) g.req.len) g.got
    unfold State.judgeHeld
    refine ih ?_
    split
    · split
      · exact hgot.raiseHbm ..
      · exact hgot.returnData ..
    · exact hgot.modStack ..

theorem Kept.judgeGates {s0 s : State} (hk : Kept s0 s) (k : Nat) :
    Kept s0 (State.judgeGates s k) := by
  unfold State.judgeGates
  grind only [← Kept.judgeHeld, ← Kept.modStack]

theorem Kept.ackWrite {s0 s : State} (hk : Kept s0 s) (r : HbmReq) :
    Kept s0 (State.ackWrite s r) := by
  unfold State.ackWrite
  grind only [← Kept.modTile, = Tile.markDone_scratch, Kept.tile_wf]

theorem Kept.dropNet {s0 s : State} (hk : Kept s0 s) (i : Nat) :
    Kept s0 (State.dropNet s i) := by
  unfold State.dropNet
  grind only [← Kept.free]

theorem Kept.intake {s0 s : State} (hk : Kept s0 s) (k i : Nat) (r : HbmReq) :
    Kept s0 (State.intake s k i r) := by
  unfold State.intake
  grind only [← Kept.ackWrite, ← Kept.dropNet, ← Kept.hbmPut, ← Kept.judgeGates, ← Kept.modStack]

theorem Goes.execHbmRequestIntake {s0 s : State} (hk : Kept s0 s) (stack : StackNo) :
    Goes s0 (execHbmRequestIntake stack s) := by
  unfold Machine.execHbmRequestIntake
  grind only [← Kept.intake, ← Goes.next]

theorem Goes.execHbmReadReturn {s0 s : State} (hk : Kept s0 s) (stack : StackNo) (e : HbmError) :
    Goes s0 (execHbmReadReturn stack e s) := by
  unfold Machine.execHbmReadReturn
  split
  case h_1 => exact .next hk
  case h_2 i r _ =>
    extract_lets s1 sa
    have hs1 : Kept s0 s1 := hk.modStack ..
    split
    · split
      · exact .next (hs1.poisonLoad ..)
      · exact .next (hs1.raiseHbm ..)
    · split
      · exact .next (hs1.returnData ..)
      · exact .next ((hs1.returnData ..).corrected ..)
      · dsimp only
        split
        · exact .next ((hs1.modStack ..).poisonLoad ..)
        · exact .next ((hs1.modStack ..).raiseHbm ..)

theorem Goes.execRefresh {s0 s : State} (hk : Kept s0 s) (stack : StackNo) (c : Fin 32) :
    Goes s0 (execRefresh stack c s) := by
  unfold Machine.execRefresh
  extract_lets m x j elapsed
  split
  · exact .next (hk.modStack ..)
  · split
    · exact .next (hk.setStack ..)
    · exact .next hk

theorem Goes.execPhyTracking {s0 s : State} (hk : Kept s0 s) (stack : StackNo) (c : Fin 32) :
    Goes s0 (execPhyTracking stack c s) := by
  unfold Machine.execPhyTracking
  grind only [← Kept.setStack, ← Goes.next]

theorem Kept.listPoison {s0 s : State} (hk : Kept s0 s) (k cw : Nat) :
    Kept s0 (State.listPoison s k cw) := by
  unfold State.listPoison
  grind only [← Kept.event, ← Kept.modStack]

theorem Goes.execPatrolScrub {s0 s : State} (hk : Kept s0 s) (stack : StackNo) (e : HbmError) :
    Goes s0 (execPatrolScrub stack e s) := by
  unfold Machine.execPatrolScrub
  grind only [← Kept.corrected, ← Kept.listPoison, ← Kept.modStack, ← Goes.next]

theorem Goes.execStackStatusRead {s0 s : State} (hk : Kept s0 s) (stack : StackNo) (temp : Int) :
    Goes s0 (execStackStatusRead stack temp s) := by
  unfold Machine.execStackStatusRead
  grind only [← Kept.modStack, ← Goes.next]

theorem Goes.execGatedRead {s0 s : State} (hk : Kept s0 s) (stack : StackNo) :
    Goes s0 (execGatedRead stack s) := by
  unfold Machine.execGatedRead
  grind only [← Kept.intake, ← Kept.judgeGates, ← Goes.next]

theorem Kept.actMark {s0 s : State} (hk : Kept s0 s) (k : Nat) (plan : UpdatePlan) (m : Mark) (later : List Mark) :
    Kept s0 (State.actMark s k plan m later) := by
  unfold State.actMark
  grind only [← Kept.modStack, ← Kept.raiseHw, ← Kept.free]

theorem Goes.execMarkWrite {s0 s : State} (hk : Kept s0 s) (stack : StackNo) :
    Goes s0 (execMarkWrite stack s) := by
  unfold Machine.execMarkWrite
  grind only [← Kept.actMark, ← Kept.modStack, ← Goes.next]

theorem Goes.execUpdatePassComplete {s0 s : State} (hk : Kept s0 s) (stack : StackNo) (i : Nat) :
    Goes s0 (execUpdatePassComplete stack i s) := by
  unfold Machine.execUpdatePassComplete
  grind only [← Kept.completePass, ← Kept.judgeGates, ← Kept.raiseHbm, ← Goes.next]

theorem Goes.execFingerprintRecord {s0 s : State} (hk : Kept s0 s) (stack : StackNo) :
    Goes s0 (execFingerprintRecord stack s) := by
  unfold Machine.execFingerprintRecord
  grind only [← Kept.modStack, ← Goes.next, ← Kept.free]

theorem Goes.execScheduleFlitError {s0 s : State} (hk : Kept s0 s) (link : LinkDir) :
    Goes s0 (execScheduleFlitError link s) := by
  unfold Machine.execScheduleFlitError
  grind only [← Kept.raiseHw, ← Goes.next]

theorem Goes.execD2dMemoryRetry {s0 s : State} (hk : Kept s0 s) (link : LinkDir) :
    Goes s0 (execD2dMemoryRetry link s) := by
  unfold Machine.execD2dMemoryRetry
  grind only [← Goes.next, ← Kept.free]

end Sys2Proof.Machine
end

section
/-! PROOFS. What ports, the pair and the clocks keep. -/

namespace Sys2Proof.Machine

set_option Elab.async false

/-! ### Ports -/

theorem Kept.settlePort {s0 s : State} (hk : Kept s0 s) (p : Nat) :
    Kept s0 (State.settlePort s p) := by
  unfold State.settlePort
  grind only [← Kept.event, ← Kept.modPort]

theorem Goes.execLinkBringup {s0 s : State} (hk : Kept s0 s) (port : PortNo) (m : LaneMode) (c : Capability) :
    Goes s0 (execLinkBringup port m c s) := by
  unfold Machine.execLinkBringup
  grind only [← Kept.pumpPort, ← Kept.setPort, ← Kept.settlePort, ← Goes.next, ← Kept.free]

theorem Kept.portDown {s0 s : State} (hk : Kept s0 s) (p : Nat) :
    Kept s0 (State.portDown s p) := by
  unfold State.portDown
  grind only [← Kept.event, ← Kept.modPort, ← Kept.skipClosures]

theorem Goes.execLinkDown {s0 s : State} (hk : Kept s0 s) (port : PortNo) (f : LaneFailure) :
    Goes s0 (execLinkDown port f s) := by
  unfold Machine.execLinkDown
  grind only [← Kept.event, ← Kept.fail, ← Kept.portDown, ← Kept.pumpPort, ← Kept.setPort, ← Goes.next]

theorem Goes.execLinkRetrainTimer {s0 s : State} (hk : Kept s0 s) (port : PortNo) (ok : Option LaneMode) :
    Goes s0 (execLinkRetrainTimer port ok s) := by
  unfold Machine.execLinkRetrainTimer
  grind only [← Kept.ok, ← Kept.pumpPort, ← Kept.setPort, ← Kept.settlePort, ← Goes.next]

theorem Kept.resendFrom {s0 s : State} (hk : Kept s0 s) (p i : Nat) :
    Kept s0 (State.resendFrom s p i) := by
  unfold State.resendFrom
  grind only [← Kept.portDown, ← Kept.setPort]

theorem Goes.execControlFlit {s0 s : State} (hk : Kept s0 s) (port : PortNo) (f : ControlFlit) :
    Goes s0 (execControlFlit port f s) := by
  unfold Machine.execControlFlit
  grind only [← Kept.pumpPort, ← Kept.resendFrom, ← Kept.setPort, ← Goes.next]

theorem Goes.execRetryTimeout {s0 s : State} (hk : Kept s0 s) (port : PortNo) :
    Goes s0 (execRetryTimeout port s) := by
  unfold Machine.execRetryTimeout
  grind only [← Kept.resendFrom, ← Goes.next]

theorem Kept.discardType {s0 s : State} (hk : Kept s0 s) (p : Nat) :
    Kept s0 (State.discardType s p) := by
  unfold State.discardType
  grind only [← Kept.modPort]

theorem Kept.discardEpoch {s0 s : State} (hk : Kept s0 s) (p : Nat) :
    Kept s0 (State.discardEpoch s p) := by
  unfold State.discardEpoch
  grind only [← Kept.modPort]

theorem Kept.discardCseq {s0 s : State} (hk : Kept s0 s) (p : Nat) :
    Kept s0 (State.discardCseq s p) := by
  unfold State.discardCseq
  grind only [← Kept.modPort]

theorem Kept.discardJob {s0 s : State} (hk : Kept s0 s) (p : Nat) :
    Kept s0 (State.discardJob s p) := by
  unfold State.discardJob
  grind only [← Kept.modPort]

theorem Kept.acceptPacket {s0 s : State} (hk : Kept s0 s) (p : Nat) (k : Packet) :
    Kept s0 (State.acceptPacket s p k) := by
  unfold State.acceptPacket
  grind only [← Kept.modPort]

theorem Kept.raiseEpoch {s0 s : State} (hk : Kept s0 s) (pair : Nat) (e : Word) :
    Kept s0 (State.raiseEpoch s pair e) := by
  unfold State.raiseEpoch
  grind only [← Kept.free]

theorem Kept.judgeEpoch {s0 s : State} (hk : Kept s0 s) (p : Nat) (k : Packet) :
    Kept s0 (State.judgeEpoch s p k) := by
  unfold State.judgeEpoch
  grind only [← Kept.acceptPacket, ← Kept.discardEpoch, ← Kept.raiseEpoch]

theorem Kept.judgePacket {s0 s : State} (hk : Kept s0 s) (p : Nat) (k : Packet) :
    Kept s0 (State.judgePacket s p k) := by
  unfold State.judgePacket
  grind only [← Kept.acceptPacket, ← Kept.discardType, ← Kept.judgeEpoch]

theorem Goes.execChainPacketReceive {s0 s : State} (hk : Kept s0 s) (port : PortNo) (r : RawPacket) :
    Goes s0 (execChainPacketReceive port r s) := by
  unfold Machine.execChainPacketReceive
  grind only [← Kept.judgePacket, ← Kept.setPort, ← Goes.next]

theorem Kept.takePacket {s0 s s1 : State} {p ptype : Nat} {k : Packet} (hk : Kept s0 s)
    (h : s.takePacket p ptype = some (k, s1)) : Kept s0 s1 := by
  simp only [State.takePacket] at h
  split at h
  · obtain ⟨rfl, rfl⟩ := h
    exact hk.modPort ..
  · cases h

theorem Kept.rejectData {s0 s : State} (hk : Kept s0 s) (p : PortNo) (k : Packet) :
    Kept s0 (State.rejectData s p k) := by
  unfold State.rejectData
  grind only [← Kept.sendReverse]

theorem Kept.takeData {s0 s : State} (hk : Kept s0 s) (port : PortNo) (k : Packet) :
    Kept s0 (State.takeData s port k) := by
  unfold State.takeData
  grind only [← Kept.deliver, ← Kept.modTile, ← Kept.noteGather, = Tile.setRecv_scratch, Kept.tile_wf]

theorem Goes.execData {s0 s : State} (hk : Kept s0 s) (port : PortNo) :
    Goes s0 (execData port s) := by
  unfold Machine.execData
  grind only [← Kept.discardCseq, ← Kept.discardJob, ← Kept.modTile, ← Kept.rejectData, ← Kept.takeData, →
      Kept.takePacket, = Tile.setRecv_scratch, ← Goes.next, Kept.tile_wf]

theorem Kept.returnCredits {s0 s : State} (hk : Kept s0 s) (l : List Nat) :
    Kept s0 (State.returnCredits s l) := by
  induction l generalizing s with
  | nil => exact hk
  | cons x l ih =>
    unfold State.returnCredits
    grind only [← Kept.modTile, = Tile.setSend_scratch]

theorem Goes.execCredit {s0 s : State} (hk : Kept s0 s) (port : PortNo) :
    Goes s0 (execCredit port s) := by
  unfold Machine.execCredit
  grind only [← Kept.returnCredits, → Kept.takePacket, ← Goes.next]

theorem Goes.execClose {s0 s : State} (hk : Kept s0 s) (port : PortNo) :
    Goes s0 (execClose port s) := by
  unfold Machine.execClose
  grind only [← Kept.modTile, → Kept.takePacket, = Tile.setSend_scratch, ← Goes.next]

theorem Goes.execOpenNotice {s0 s : State} (hk : Kept s0 s) (port : PortNo) :
    Goes s0 (execOpenNotice port s) := by
  unfold Machine.execOpenNotice
  grind only [← Kept.modTile, → Kept.takePacket, = Tile.setSend_scratch, ← Goes.next]

theorem Goes.execNoEndpoint {s0 s : State} (hk : Kept s0 s) (port : PortNo) :
    Goes s0 (execNoEndpoint port s) := by
  unfold Machine.execNoEndpoint
  grind only [← Kept.closedFault, ← Kept.modTile, → Kept.takePacket, = Tile.setSend_scratch, ← Goes.next, Kept.tile_wf]

theorem Goes.execBarrierArrive {s0 s : State} (hk : Kept s0 s) (port : PortNo) :
    Goes s0 (execBarrierArrive port s) := by
  unfold Machine.execBarrierArrive
  grind only [← Kept.countAt, ← Kept.pairCount, → Kept.takePacket, ← Goes.next]

theorem Goes.execBarrierRelease {s0 s : State} (hk : Kept s0 s) (port : PortNo) :
    Goes s0 (execBarrierRelease port s) := by
  unfold Machine.execBarrierRelease
  grind only [← Kept.moduleRelease, ← Kept.releaseDown, → Kept.takePacket, ← Goes.next]

theorem Goes.execCreditFlush {s0 s : State} (hk : Kept s0 s) (port : PortNo) :
    Goes s0 (execCreditFlush port s) := by
  unfold Machine.execCreditFlush
  grind only [← Kept.flushCredits, ← Goes.next, ← Kept.foldl]

theorem Goes.execSyncExchangeTimer {s0 s : State} (hk : Kept s0 s) :
    Goes s0 (execSyncExchangeTimer s) := by
  unfold Machine.execSyncExchangeTimer
  grind only [← Kept.sendOn, ← Goes.next, ← Kept.free]

theorem Kept.correctMeridian {s0 s : State} (hk : Kept s0 s) (off : Int) :
    Kept s0 (State.correctMeridian s off) := by
  unfold State.correctMeridian
  grind only [← Kept.free]

theorem Kept.watchLock {s0 s : State} (hk : Kept s0 s) (off : Int) :
    Kept s0 (State.watchLock s off) := by
  unfold State.watchLock
  grind only [← Kept.event, ← Kept.free]

theorem Goes.execSync {s0 s : State} (hk : Kept s0 s) (port : PortNo) (ingress : DWord) :
    Goes s0 (execSync port ingress s) := by
  unfold Machine.execSync
  grind only [← Kept.correctMeridian, ← Kept.sendOn, → Kept.takePacket, ← Kept.watchLock, ← Goes.next, ← Kept.free]

/-! ### Pair -/

theorem Kept.postOwner {s0 s : State} (hk : Kept s0 s) (opcode : BitVec 16) (body : Bytes) :
    Kept s0 (State.postOwner s opcode body) := by
  unfold State.postOwner
  grind only [← Kept.free]

theorem Kept.askWitness {s0 s : State} (hk : Kept s0 s) (kind : Byte) :
    Kept s0 (State.askWitness s kind) := by
  unfold State.askWitness
  grind only [← Kept.drawn, ← Kept.postOwner, ← Kept.sendMgmt, ← Kept.free]

theorem Kept.keepEgress {s0 s : State} (hk : Kept s0 s) (p : Packet → Bool) :
    Kept s0 (State.keepEgress s p) := by
  unfold State.keepEgress
  grind only [← Kept.free]

theorem Kept.suspend {s0 s : State} (hk : Kept s0 s) :
    Kept s0 (State.suspend s) := by
  unfold State.suspend
  grind only [← Kept.keepEgress, ← Kept.free]

theorem Kept.sendHeld {s0 s : State} (hk : Kept s0 s) (l : List (PortNo × Packet)) :
    Kept s0 (State.sendHeld s l) := by
  induction l generalizing s with
  | nil => exact hk
  | cons x l ih =>
    unfold State.sendHeld
    grind only [← Kept.sendOn]

theorem Kept.resumeAs {s0 s : State} (hk : Kept s0 s) (r : Role) :
    Kept s0 (State.resumeAs s r) := by
  unfold State.resumeAs
  grind only [← Kept.sendHeld, ← Kept.free]

theorem Kept.learnEpoch {s0 s : State} (hk : Kept s0 s) (e : Word) :
    Kept s0 (State.learnEpoch s e) := by
  unfold State.learnEpoch
  grind only [← Kept.keepEgress, ← Kept.raiseHw, ← Kept.free]

theorem Kept.epochNotices {s0 s : State} (hk : Kept s0 s) :
    Kept s0 (State.epochNotices s) := by
  unfold State.epochNotices
  grind only [← Kept.sendMgmt, ← Kept.foldl]

theorem Kept.adoptEpoch {s0 s : State} (hk : Kept s0 s) (e : Word) :
    Kept s0 (State.adoptEpoch s e) := by
  unfold State.adoptEpoch
  grind only [← Kept.epochNotices, ← Kept.raiseEpoch, ← Kept.free]

theorem Goes.execEpochSwitch {s0 s : State} (hk : Kept s0 s) :
    Goes s0 (execEpochSwitch s) := by
  unfold Machine.execEpochSwitch
  grind only [← Kept.adoptEpoch, ← Goes.next]

theorem Kept.granted {s0 s : State} (hk : Kept s0 s) (kind : Byte) (sent : DWord) (r : LeaseReplyMsg) :
    Kept s0 (s.granted kind sent r) := by
  unfold State.granted
  extract_lets fin pair s1 pair' s2
  have hs1 : Kept s0 s1 := hk.free rfl ..
  have hs2 : Kept s0 s2 := (hs1.adoptEpoch _).resumeAs _
  split
  · exact hk
  · split
    · exact hs1.resumeAs _
    · split
      · exact hs1.free rfl ..
      · split
        · exact hs2.event ..
        · exact hs2

theorem Kept.takeLeaseReply {s0 s : State} (hk : Kept s0 s) (r : LeaseReplyMsg) :
    Kept s0 (State.takeLeaseReply s r) := by
  unfold State.takeLeaseReply
  grind only [← Kept.granted, ← Kept.learnEpoch, ← Kept.free]

theorem Goes.execLeaseReply {s0 s : State} (hk : Kept s0 s) (r : LeaseReplyMsg) :
    Goes s0 (execLeaseReply r s) := by
  unfold Machine.execLeaseReply
  grind only [← Kept.takeLeaseReply, ← Goes.next]

theorem Goes.execLeaseRenewTimer {s0 s : State} (hk : Kept s0 s) :
    Goes s0 (execLeaseRenewTimer s) := by
  unfold Machine.execLeaseRenewTimer
  grind only [← Kept.askWitness, ← Goes.next]

theorem Goes.execLeaseTermEnd {s0 s : State} (hk : Kept s0 s) :
    Goes s0 (execLeaseTermEnd s) := by
  unfold Machine.execLeaseTermEnd
  grind only [← Kept.suspend, ← Goes.next]

theorem Goes.execHeartbeatTimer {s0 s : State} (hk : Kept s0 s) :
    Goes s0 (execHeartbeatTimer s) := by
  unfold Machine.execHeartbeatTimer
  grind only [← Kept.sendOn, ← Goes.next, ← Kept.free, ← Kept.foldl]

theorem Kept.compareModes {s0 s : State} (hk : Kept s0 s) (h : HeartbeatMsg) :
    Kept s0 (State.compareModes s h) := by
  unfold State.compareModes
  grind only [← Kept.event, ← Kept.free]

theorem Goes.execHeartbeat {s0 s : State} (hk : Kept s0 s) (port : PortNo) : Goes s0 (execHeartbeat port s) := by
  unfold Machine.execHeartbeat
  split
  case h_1 => exact .next hk
  case h_2 k s1 htake =>
    extract_lets h s2 pair s3
    have hs3 : Kept s0 s3 := Kept.compareModes (Kept.free ((hk.takePacket htake).modPort ..) rfl ..) h
    split
    · exact .next (hs3.learnEpoch _)
    · split
      · exact .next (Kept.resumeAs (hs3.free rfl ..) _)
      · exact .next hs3

theorem Goes.execTwinLost {s0 s : State} (hk : Kept s0 s) :
    Goes s0 (execTwinLost s) := by
  unfold Machine.execTwinLost
  grind only [← Kept.askWitness, ← Kept.event, ← Goes.next, ← Kept.free]

theorem Kept.closeFailed {s0 s : State} (hk : Kept s0 s) (t : Nat) (own twin : Digest) :
    Kept s0 (State.closeFailed s t own twin) := by
  unfold State.closeFailed
  grind only [← Kept.closureDiffers, ← Kept.raiseHw]

theorem Kept.compareClosure {s0 s : State} (hk : Kept s0 s) (t : Nat) :
    Kept s0 (State.compareClosure s t) := by
  unfold State.compareClosure
  grind only [← Kept.closeFailed, ← Kept.closePassed, → Kept.takeClosure]

theorem Kept.judgeRecords {s0 s : State} (hk : Kept s0 s) (t : Nat) (twin : List Bytes) :
    Kept s0 (State.judgeRecords s t twin) := by
  unfold State.judgeRecords
  grind only [← Kept.event, ← Kept.free]

theorem Goes.execClosure {s0 s : State} (hk : Kept s0 s) (port : PortNo) :
    Goes s0 (execClosure port s) := by
  unfold Machine.execClosure
  grind only [← Kept.compareClosure, ← Kept.judgeRecords, → Kept.takePacket, ← Goes.next, ← Kept.free]

theorem Goes.execStepDigestFormed {s0 s : State} (hk : Kept s0 s) (step : Word) :
    Goes s0 (execStepDigestFormed step s) := by
  unfold Machine.execStepDigestFormed
  grind only [← Kept.addStep, ← Kept.compareClosure, ← Kept.reportStep, ← Goes.next]

theorem Kept.tryHeldRelease {s0 s : State} (hk : Kept s0 s) :
    Kept s0 (State.tryHeldRelease s) := by
  unfold State.tryHeldRelease
  grind only [← Kept.releaseDown, ← Kept.free]

theorem Kept.noteReport {s0 s : State} (hk : Kept s0 s) (rank : Nat) :
    Kept s0 (State.noteReport s rank) := by
  unfold State.noteReport
  grind only [← Kept.tryHeldRelease, ← Kept.free]

theorem Kept.addForeign {s0 s : State} (hk : Kept s0 s) (m : Nat) (step : Word) (recs : List Bytes) :
    Kept s0 (State.addForeign s m step recs) := by
  unfold State.addForeign
  grind only [← Kept.free]

theorem Kept.noticeEpoch {s0 s : State} (hk : Kept s0 s) (pair : Nat) (e : Word) :
    Kept s0 (State.noticeEpoch s pair e) := by
  unfold State.noticeEpoch
  grind only [← Kept.learnEpoch, ← Kept.raiseEpoch]

theorem Goes.execMgmt {s0 s : State} (hk : Kept s0 s) (port : PortNo) (m : MgmtMsg) :
    Goes s0 (execMgmt port m s) := by
  unfold Machine.execMgmt
  grind only [← Kept.addForeign, ← Kept.bindAll, ← Kept.noteReport, ← Kept.noticeEpoch, ← Kept.postOwner, ←
      Kept.takeLeaseReply, → Kept.takePacket, ← Goes.next, ← Kept.free]

theorem Kept.replacePlan {s0 s : State} (hk : Kept s0 s) (k : Nat) (plan : UpdatePlan) :
    Kept s0 (State.replacePlan s k plan) := by
  unfold State.replacePlan
  grind only [← Kept.modStack]

theorem Kept.keepPlans {s0 s : State} (hk : Kept s0 s) (plans : List (StackNo × UpdatePlan)) :
    Kept s0 (State.keepPlans s plans) := by
  unfold State.keepPlans
  grind only [← Kept.free, ← Kept.foldl]

theorem Kept.sendMoved {s0 s : State} (hk : Kept s0 s) (dst : Nat) (m : MovedState) :
    Kept s0 (State.sendMoved s dst m) := by
  unfold State.sendMoved
  grind only [← Kept.sendOn, ← Kept.free]

theorem Kept.moveEntry {s0 s : State} (hk : Kept s0 s) (c : Change) (k : Nat) (e : PlanEntry) :
    Kept s0 (State.moveEntry s c k e) := by
  unfold State.moveEntry
  grind only [← Kept.sendMoved, ← Kept.foldl]

theorem Kept.moveState {s0 s : State} (hk : Kept s0 s) (c : Change) :
    Kept s0 (State.moveState s c) := by
  unfold State.moveState
  grind only [← Kept.moveEntry, ← Kept.foldl]

theorem Kept.reportTransfer {s0 s : State} (hk : Kept s0 s) (c : Change) :
    Kept s0 (State.reportTransfer s c) := by
  unfold State.reportTransfer
  grind only [← Kept.noteReport, ← Kept.sendMgmt]

theorem Goes.execStateTransfer {s0 s : State} (hk : Kept s0 s) (plans : List (StackNo × UpdatePlan))
    (moved : List (StackNo × Nat × Bytes)) (digest : Digest) : Goes s0 (execStateTransfer plans moved digest s) := by
  unfold Machine.execStateTransfer
  split
  · exact .next hk
  case h_2 c _ =>
    split
    · extract_lets s1 s2 domain s3 bad
      have hs1 : Kept s0 s1 := Kept.foldl (fun x h => h.writeStack ..) moved (hk.moveState c)
      have hs2 : Kept s0 s2 := (Kept.foldl (fun x h => h.replacePlan ..) plans hs1).keepPlans plans
      have hs3 : Kept s0 s3 := hs2.free rfl ..
      split
      · exact .next (hs3.raiseHw ..)
      · exact .next (hs3.reportTransfer c)
    · exact .next hk

/-! ### Clocks -/

theorem Goes.execStretchToken {s0 s : State} (hk : Kept s0 s) (region : Region) (period : Fin 16) (n : Fin 5) :
    Goes s0 (execStretchToken region period n s) := by
  unfold Machine.execStretchToken
  grind only [← Kept.modRegion, ← Goes.next, ← Kept.free]

theorem Goes.execReplicaMarginStretch {s0 s : State} (hk : Kept s0 s) (region : Region) (codes : List (Fin 64)) :
    Goes s0 (execReplicaMarginStretch region codes s) := by
  unfold Machine.execReplicaMarginStretch
  grind only [← Kept.modRegion, ← Goes.next, ← Kept.free, ← Kept.foldl]

theorem Kept.askBase {s0 s : State} (hk : Kept s0 s) (b : Nat) :
    Kept s0 (State.askBase s b) := by
  unfold State.askBase
  grind only [← Kept.free]

theorem Kept.raiseBase {s0 s : State} (hk : Kept s0 s) :
    Kept s0 (State.raiseBase s) := by
  unfold State.raiseBase
  grind only [← Kept.askBase]

theorem Kept.lowerBase {s0 s : State} (hk : Kept s0 s) :
    Kept s0 (State.lowerBase s) := by
  unfold State.lowerBase
  grind only [← Kept.askBase]

theorem Goes.execTargetToken {s0 s : State} (hk : Kept s0 s) (base : Fin 16) (first : DWord) :
    Goes s0 (execTargetToken base first s) := by
  unfold Machine.execTargetToken
  grind only [← Goes.next, ← Kept.free]

theorem Kept.turnBase {s0 s : State} (hk : Kept s0 s) :
    Kept s0 (State.turnBase s) := by
  unfold State.turnBase
  grind only [← Kept.free]

theorem Goes.execBaseChange {s0 s : State} (hk : Kept s0 s) :
    Goes s0 (execBaseChange s) := by
  unfold Machine.execBaseChange
  grind only [← Kept.turnBase, ← Goes.next]

theorem Kept.raiseRails {s0 s : State} (hk : Kept s0 s) (r : MarginReading) (l : List Nat) :
    Kept s0 (s.raiseRails r l).1 := by
  induction l generalizing s with
  | nil => exact hk
  | cons d l ih =>
    unfold State.raiseRails
    split
    · split
      · exact ih (hk.free rfl ..)
      · exact ih hk
    · exact ih hk

theorem Kept.lowerRails {s0 s : State} (hk : Kept s0 s) (l : List Nat) :
    Kept s0 (State.lowerRails s l) := by
  induction l generalizing s with
  | nil => exact hk
  | cons x l ih =>
    unfold State.lowerRails
    grind only [← Kept.free]

theorem Kept.marginRaise {s0 s : State} (hk : Kept s0 s) :
    Kept s0 (State.marginRaise s) := by
  unfold State.marginRaise
  grind only [← Kept.event, ← Kept.raiseBase, ← Kept.free]

theorem Goes.execMarginPolicy {s0 s : State} (hk : Kept s0 s) (r : MarginReading) : Goes s0 (execMarginPolicy r s) := by
  unfold Machine.execMarginPolicy
  split
  · exact .next hk
  · extract_lets quiet windows clock mgp s1
    have hraised : Kept s0 (s1.raiseRails r (List.range 9)).1 := Kept.raiseRails (hk.free rfl ..) ..
    generalize s1.raiseRails r (List.range 9) = p at hraised ⊢
    obtain ⟨s2, full⟩ := p
    grind only [← Goes.next, ← Kept.marginRaise, ← Kept.free, ← Kept.lowerBase, ← Kept.lowerRails]

theorem Goes.execCrossingSlip {s0 s : State} (hk : Kept s0 s) (link : LinkDir) :
    Goes s0 (execCrossingSlip link s) := by
  unfold Machine.execCrossingSlip
  grind only [← Kept.raiseHw, ← Goes.next]

theorem Goes.execRootLock {s0 s : State} (hk : Kept s0 s) :
    Goes s0 (execRootLock s) := by
  unfold Machine.execRootLock
  grind only [← Goes.next, ← Kept.free]

theorem Goes.execRootUnlock {s0 s : State} (hk : Kept s0 s) :
    Goes s0 (execRootUnlock s) := by
  unfold Machine.execRootUnlock
  grind only [← Kept.raiseHw, ← Goes.next, ← Kept.free]

theorem Goes.execDatumPulse {s0 s : State} (hk : Kept s0 s) :
    Goes s0 (execDatumPulse s) := by
  unfold Machine.execDatumPulse
  grind only [← Goes.next, ← Kept.free]

theorem Goes.execMeridianCompare {s0 s : State} (hk : Kept s0 s) :
    Goes s0 (execMeridianCompare s) := by
  unfold Machine.execMeridianCompare
  grind only [← Kept.raiseHw, ← Goes.next]

end Sys2Proof.Machine
end

section
/-! PROOFS. What the host commands of sessions, images, data, runs, the pair and non-volatile state keep. -/

namespace Sys2Proof.Machine

set_option Elab.async false

/-! ### Session -/

theorem Goes.execCoalescingIntervalExpiry {s0 s : State} (hk : Kept s0 s) (v : Fin 16) :
    Goes s0 (execCoalescingIntervalExpiry v s) := by
  unfold Machine.execCoalescingIntervalExpiry
  grind only [← Goes.next, ← Kept.free]

theorem Goes.execOutboxReplyWrite {s0 s : State} (hk : Kept s0 s) :
    Goes s0 (execOutboxReplyWrite s) := by
  unfold Machine.execOutboxReplyWrite
  grind only [← Goes.next, ← Kept.free]

theorem Goes.checkOpcode {s0 s : State} (hk : Kept s0 s) (h : Hdr) (op : BitVec 16) (known length owner : Bool) (major :
    Nat) (f : State → Res) (hf : ∀ x0, Kept s0 x0 → Goes s0 (f x0)) :
    Goes s0 (State.checkOpcode s h op known length owner major f) := by
  unfold State.checkOpcode
  grind only [← Kept.answer, ← Goes.next]

theorem Kept.countMctp {s0 s : State} (hk : Kept s0 s) (h : Hdr) :
    Kept s0 (State.countMctp s h) := by
  unfold State.countMctp
  grind only [← Kept.free]

theorem Goes.admitAs {s0 s : State} (hk : Kept s0 s) (h : Hdr) (op : BitVec 16) (known length : Bool) (f : State → Res)
    (hf : ∀ x0, Kept s0 x0 → Goes s0 (f x0)) :
    Goes s0 (State.admitAs s h op known length f) := by
  unfold State.admitAs
  grind only [← Kept.answer, ← Goes.checkOpcode, ← Kept.countMctp, ← Kept.setSession, ← Goes.next, ← Kept.free]

theorem Goes.accept {s0 s : State} (hk : Kept s0 s) (h : Hdr) (op : BitVec 16) (f : State → Res) (hf : ∀ x0, Kept s0 x0 →
    Goes s0 (f x0)) :
    Goes s0 (State.accept s h op f) := by
  unfold State.accept
  grind only [← Goes.admitAs, ← Goes.next]

theorem Kept.endSession {s0 s : State} (hk : Kept s0 s) (p : Path) :
    Kept s0 (State.endSession s p) := by
  unfold State.endSession
  grind only [← Kept.free]

theorem Kept.flushRunEnded {s0 s : State} (hk : Kept s0 s) :
    Kept s0 (State.flushRunEnded s) := by
  unfold State.flushRunEnded
  grind only [← Kept.free, ← Kept.foldl]

theorem Kept.openSession {s0 s : State} (hk : Kept s0 s) (h : Hdr) (op : BitVec 16) (b : OpenBody) (v : BitVec 16) :
    Kept s0 (State.openSession s h op b v) := by
  unfold State.openSession
  grind only [← Kept.answer, ← Kept.flushRunEnded, ← Kept.free]

theorem Goes.execSessionOpen {s0 s : State} (hk : Kept s0 s) (h : Hdr) (b : OpenBody) :
    Goes s0 (execSessionOpen h b s) := by
  unfold Machine.execSessionOpen
  grind only [← Goes.accept, ← Kept.fail, ← Kept.failPlain, ← Kept.openSession, ← Goes.next]

theorem Goes.execSessionClose {s0 s : State} (hk : Kept s0 s) (h : Hdr) :
    Goes s0 (execSessionClose h s) := by
  unfold Machine.execSessionClose
  grind only [← Goes.accept, ← Kept.endSession, ← Kept.postReply, ← Goes.next]

theorem Goes.execNop {s0 s : State} (hk : Kept s0 s) (h : Hdr) :
    Goes s0 (execNop h s) := by
  unfold Machine.execNop
  grind only [← Goes.accept, ← Kept.ok, ← Goes.next]

theorem Goes.execIdentify {s0 s : State} (hk : Kept s0 s) (h : Hdr) :
    Goes s0 (execIdentify h s) := by
  unfold Machine.execIdentify
  grind only [← Goes.accept, ← Kept.ok, ← Goes.next]

theorem Goes.execSessionTake {s0 s : State} (hk : Kept s0 s) (h : Hdr) (b : OpenBody) :
    Goes s0 (execSessionTake h b s) := by
  unfold Machine.execSessionTake
  refine Goes.accept hk _ _ _ (fun t ht => ?_)
  repeat' split
  all_goals grind only [← Kept.endRun, ← Kept.endSession, ← Kept.fail, ← Kept.failPlain, ← Kept.openSession, ← Goes.next]

/-! ### Image -/

theorem Kept.writeSections {s0 s : State} (hk : Kept s0 s) (l : List (SectionDecl × Nat)) :
    Kept s0 (State.writeSections s l) := by
  induction l generalizing s with
  | nil => exact hk
  | cons x l ih =>
    unfold State.writeSections
    grind only [← Kept.writeHbm]

theorem Kept.loadFailed {s0 s : State} (hk : Kept s0 s) (h : Hdr) (op : BitVec 16) (addr step : Nat) (status : BitVec 16)
    :
    Kept s0 (State.loadFailed s h op addr step status) := by
  unfold State.loadFailed
  grind only [← Kept.event, ← Kept.fail]

theorem Kept.installImage {s0 s : State} (hk : Kept s0 s) (h : Hdr) (x : LoadBody) (lt : BitVec 16) (tiles : List TileNo)
    (b : ImageBody) :
    Kept s0 (State.installImage s h x lt tiles b) := by
  unfold State.installImage
  grind only [← Kept.loadFailed, ← Kept.ok, ← Kept.writeSections, ← Kept.free]

theorem Goes.execLoadImage {s0 s : State} (hk : Kept s0 s) (h : Hdr) (x : LoadBody) (body : Option ImageBody) :
    Goes s0 (execLoadImage h x body s) := by
  unfold Machine.execLoadImage
  grind only [← Goes.accept, ← Kept.fail, ← Kept.failPlain, ← Kept.installImage, ← Kept.loadFailed, ← Kept.reply, ←
      Goes.next]

theorem Goes.execVerifyImage {s0 s : State} (hk : Kept s0 s) (h : Hdr) (x : LoadBody) (body : Option ImageBody) :
    Goes s0 (execVerifyImage h x body s) := by
  unfold Machine.execVerifyImage
  grind only [← Goes.accept, ← Kept.fail, ← Kept.loadFailed, ← Kept.ok, ← Kept.reply, ← Goes.next]

theorem Goes.execUnloadImage {s0 s : State} (hk : Kept s0 s) (h : Hdr) (handle : Byte) :
    Goes s0 (execUnloadImage h handle s) := by
  unfold Machine.execUnloadImage
  grind only [← Goes.accept, ← Kept.fail, ← Kept.failPlain, ← Kept.ok, ← Goes.next, ← Kept.free]

theorem Goes.execListImages {s0 s : State} (hk : Kept s0 s) (h : Hdr) :
    Goes s0 (execListImages h s) := by
  unfold Machine.execListImages
  grind only [← Goes.accept, ← Kept.ok, ← Goes.next]

/-! ### Data -/

theorem Goes.execDmaStart {s0 s : State} (hk : Kept s0 s) (h : Hdr) (b : DmaBody) :
    Goes s0 (execDmaStart h b s) := by
  unfold Machine.execDmaStart
  grind only [← Goes.accept, ← Kept.fail, ← Kept.failPlain, ← Kept.reply, ← Goes.next, ← Kept.free]

theorem Kept.endDma {s0 s : State} (hk : Kept s0 s) (c : Nat) :
    Kept s0 (State.endDma s c) := by
  unfold State.endDma
  grind only [← Kept.free]

theorem Kept.hostWrite {s0 s : State} (hk : Kept s0 s) (ws : List (DWord × Bytes)) :
    Kept s0 (State.hostWrite s ws) := by
  unfold State.hostWrite
  grind only [← Kept.free]

theorem Kept.dmaFault {s0 s : State} (hk : Kept s0 s) (d : Dma) (k cw : Nat) :
    Kept s0 (State.dmaFault s d k cw) := by
  unfold State.dmaFault
  grind only [← Kept.raiseHbm, ← Kept.reply]

theorem Goes.execDmaComplete {s0 s : State} (hk : Kept s0 s) (c : Fin 16) (hostData : Bytes) :
    Goes s0 (execDmaComplete c hostData s) := by
  unfold Machine.execDmaComplete
  grind only [← Kept.dmaFault, ← Kept.endDma, ← Kept.hbmPut, ← Kept.hostWrite, ← Kept.reply, ← Goes.next]

theorem Kept.stopDma {s0 s : State} (hk : Kept s0 s) (d : Dma) :
    Kept s0 (State.stopDma s d) := by
  unfold State.stopDma
  grind only [← Kept.drawn, ← Kept.hbmPut, ← Kept.hostWrite, ← Kept.reply]

theorem Kept.discardDmas {s0 s : State} (hk : Kept s0 s) (l : List Dma) :
    Kept s0 (State.discardDmas s l) := by
  induction l generalizing s with
  | nil => exact hk
  | cons x l ih =>
    unfold State.discardDmas
    grind only [← Kept.reply]

theorem Goes.execDmaAbort {s0 s : State} (hk : Kept s0 s) (h : Hdr) (channel : Byte) :
    Goes s0 (execDmaAbort h channel s) := by
  unfold Machine.execDmaAbort
  grind only [← Goes.accept, ← Kept.discardDmas, ← Kept.fail, ← Kept.ok, ← Kept.stopDma, ← Goes.next, ← Kept.free]

theorem Goes.execDmaStatus {s0 s : State} (hk : Kept s0 s) (h : Hdr) (channel : Byte) :
    Goes s0 (execDmaStatus h channel s) := by
  unfold Machine.execDmaStatus
  grind only [← Goes.accept, ← Kept.drawn, ← Kept.fail, ← Kept.ok, ← Goes.next]

theorem Goes.execApertureMove {s0 s : State} (hk : Kept s0 s) (h : Hdr) (base : DWord) :
    Goes s0 (execApertureMove h base s) := by
  unfold Machine.execApertureMove
  grind only [← Goes.accept, ← Kept.fail, ← Kept.ok, ← Goes.next, ← Kept.free]

theorem Kept.apertureLoad {s0 s : State} (hk : Kept s0 s) (a n : Nat) :
    Kept s0 (State.apertureLoad s a n) := by
  unfold State.apertureLoad
  grind only [← Kept.completeLoad, ← Kept.poisonLoad]

theorem Goes.execApertureAccess {s0 s : State} (hk : Kept s0 s) (op : ApertureOp) :
    Goes s0 (execApertureAccess op s) := by
  unfold Machine.execApertureAccess
  grind only [← Kept.apertureLoad, ← Kept.hbmPut, ← Goes.next, ← Kept.free]

theorem Kept.zeroBand {s0 s : State} (hk : Kept s0 s) (b : Nat) : Kept s0 (s.zeroBand b) :=
  hk.hbm (fun w => memWf_zeroRange _ _ _ (hk.hbm_wf w))

theorem Goes.execMemoryLayout {s0 s : State} (hk : Kept s0 s) (h : Hdr) (first count : Byte) (bands : List (Byte × Byte))
    :
    Goes s0 (execMemoryLayout h first count bands s) := by
  unfold Machine.execMemoryLayout
  grind only [← Goes.accept, ← Kept.fail, ← Kept.failPlain, ← Kept.fwBands, ← Kept.ok, ← Kept.zeroBand, ← Goes.next, ←
      Kept.foldl]

theorem Goes.execBandZeroingDone {s0 s : State} (hk : Kept s0 s) (band : Fin 80) :
    Goes s0 (execBandZeroingDone band s) := by
  unfold Machine.execBandZeroingDone
  grind only [← Goes.next, ← Kept.free]

/-! ### RunControl -/

theorem Kept.setJob {s0 s : State} (hk : Kept s0 s) (id : BitVec 16) (j : Job) :
    Kept s0 (State.setJob s id j) := by
  unfold State.setJob
  grind only [← Kept.free]

theorem Goes.execJobConfig {s0 s : State} (hk : Kept s0 s) (h : Hdr) (checkT closure lead : Byte) :
    Goes s0 (execJobConfig h checkT closure lead s) := by
  unfold Machine.execJobConfig
  grind only [← Goes.accept, ← Kept.fail, ← Kept.failPlain, ← Kept.ok, ← Kept.setJob, ← Goes.next, ← Kept.free]

theorem State.setupRecv_scratch (s : State) (im : Image) (l : Nat) (x : Tile) (c : ChanDecl) :
    (State.setupRecv s im l x c).scratch = x.scratch := by
  unfold State.setupRecv
  grind only [= Tile.setRecv_scratch]

theorem setupSend_scratch (im : Image) (l : Nat) (x : Tile) (c : ChanDecl) :
    (setupSend im l x c).scratch = x.scratch := by
  unfold setupSend
  grind only [= Tile.setSend_scratch]

theorem State.startTile_scratch (s : State) (im : Image) (first : Word) (ps : List PatchEntry) (l : Nat) :
    (s.startTile im first ps l).scratch = (s.tile (imageTile im l).val).scratch := by
  unfold State.startTile
  exact (Tile.foldl_scratch (fun x c => setupSend_scratch im l x c) _ _).trans
    (Tile.foldl_scratch (fun x c => State.setupRecv_scratch s im l x c) _ _)

theorem Kept.startTiles {s0 s : State} (hk : Kept s0 s) (im : Image) (first : Word) (ps : List PatchEntry) (l : List Nat)
    :
    Kept s0 (State.startTiles s im first ps l) := by
  induction l generalizing s with
  | nil => exact hk
  | cons x l ih =>
    unfold State.startTiles
    grind only [← Kept.setTile, = State.startTile_scratch, Kept.tile_wf]

theorem Kept.startEngines {s0 s : State} (hk : Kept s0 s) (im : Image) (first : Word) :
    Kept s0 (State.startEngines s im first) := by
  unfold State.startEngines
  grind only [← Kept.modStack, ← Kept.free, ← Kept.foldl]

theorem Kept.configTiles {s0 s : State} (hk : Kept s0 s) (im : Image) (l : List Nat) :
    Kept s0 (State.configTiles s im l) := by
  induction l generalizing s with
  | nil => exact hk
  | cons x l ih =>
    unfold State.configTiles
    grind only [← Kept.fwCfg]

theorem Kept.startRun {s0 s : State} (hk : Kept s0 s) (h : Hdr) (b : RunBody) (im : Image) (ps : List PatchEntry) :
    Kept s0 (s.startRun h b im ps) := by
  unfold State.startRun
  extract_lets s1 run0 run counters cleared net domain pair s2 s3
  have hs1 : Kept s0 s1 := (hk.configTiles im _).setJob ..
  have hs2 : Kept s0 s2 := Kept.free (hs1.mapTiles (by exact fun _ hx => hx)) rfl ..
  exact (((((hs2.startTiles im _ ps _).startEngines im _).assignParcels).bindAll _).setRunEn true).sendTileTable

theorem Goes.execRun {s0 s : State} (hk : Kept s0 s) (h : Hdr) (b : RunBody) (ps : List PatchEntry) :
    Goes s0 (execRun h b ps s) := by
  unfold Machine.execRun
  grind only [← Goes.accept, ← Kept.fail, ← Kept.failPlain, ← Kept.reply, ← Kept.startRun, ← Goes.next]

theorem Goes.execStop {s0 s : State} (hk : Kept s0 s) (h : Hdr) :
    Goes s0 (execStop h s) := by
  unfold Machine.execStop
  grind only [← Goes.accept, ← Kept.endRun, ← Kept.ok, ← Goes.next]

theorem Goes.execStep {s0 s : State} (hk : Kept s0 s) (h : Hdr) (mask : BitVec 128) (bundles : Word) :
    Goes s0 (execStep h mask bundles s) := by
  unfold Machine.execStep
  grind only [← Goes.accept, ← Kept.fail, ← Kept.failPlain, ← Kept.modTile, ← Kept.ok, ← Goes.next, ← Kept.foldl,
      Kept.tile_wf]

theorem Goes.execStepBundlesDone {s0 s : State} (hk : Kept s0 s) (tile : TileNo) :
    Goes s0 (execStepBundlesDone tile s) := by
  unfold Machine.execStepBundlesDone
  grind only [← Kept.modTile, ← Goes.next, Kept.tile_wf]

theorem Goes.execRunStatus {s0 s : State} (hk : Kept s0 s) (h : Hdr) :
    Goes s0 (execRunStatus h s) := by
  unfold Machine.execRunStatus
  grind only [← Goes.accept, ← Kept.ok, ← Goes.next]

/-! ### PairCmds -/

theorem Goes.execSetModuleId {s0 s : State} (hk : Kept s0 s) (h : Hdr) (id : Word) :
    Goes s0 (execSetModuleId h id s) := by
  unfold Machine.execSetModuleId
  grind only [← Goes.accept, ← Kept.fail, ← Kept.ok, ← Kept.settlePort, ← Goes.next, ← Kept.free, ← Kept.foldl]

theorem Goes.execSetDomain {s0 s : State} (hk : Kept s0 s) (h : Hdr) (b : DomainBody) :
    Goes s0 (execSetDomain h b s) := by
  unfold Machine.execSetDomain
  grind only [← Goes.accept, ← Kept.fail, ← Kept.failPlain, ← Kept.ok, ← Kept.pumpPort, ← Kept.settlePort, ← Goes.next, ←
      Kept.free, ← Kept.foldl]

theorem Goes.execSetPairMode {s0 s : State} (hk : Kept s0 s) (h : Hdr) (mode : Byte) :
    Goes s0 (execSetPairMode h mode s) := by
  unfold Machine.execSetPairMode
  grind only [← Goes.accept, ← Kept.fail, ← Kept.failPlain, ← Kept.ok, ← Goes.next, ← Kept.free]

theorem Kept.admitEpoch {s0 s : State} (hk : Kept s0 s) (t : MemberTable) :
    Kept s0 (State.admitEpoch s t) := by
  unfold State.admitEpoch
  grind only [← Kept.free]

theorem Goes.execAnnounceInitialMembership {s0 s : State} (hk : Kept s0 s) (h : Hdr) (b : AnnounceBody) :
    Goes s0 (execAnnounceInitialMembership h b s) := by
  unfold Machine.execAnnounceInitialMembership
  grind only [← Goes.accept, ← Kept.admitEpoch, ← Kept.adoptMembership, ← Kept.bindAll, ← Kept.fail, ← Kept.failPlain, ←
      Kept.ok, ← Goes.next]

theorem Kept.announceChange {s0 s : State} (hk : Kept s0 s) (b : AnnounceBody) (t : MemberTable) (forced : Bool) :
    Kept s0 (State.announceChange s b t forced) := by
  unfold State.announceChange
  grind only [← Kept.admitEpoch, ← Kept.free]

theorem Goes.execAnnouncePlannedChange {s0 s : State} (hk : Kept s0 s) (h : Hdr) (b : AnnounceBody) :
    Goes s0 (execAnnouncePlannedChange h b s) := by
  unfold Machine.execAnnouncePlannedChange
  grind only [← Goes.accept, ← Kept.announceChange, ← Kept.fail, ← Kept.ok, ← Goes.next]

theorem Goes.execAnnounceForcedChange {s0 s : State} (hk : Kept s0 s) (h : Hdr) (b : AnnounceBody) :
    Goes s0 (execAnnounceForcedChange h b s) := by
  unfold Machine.execAnnounceForcedChange
  grind only [← Goes.accept, ← Kept.announceChange, ← Kept.fail, ← Kept.failPlain, ← Kept.ok, ← Goes.next]

theorem Goes.execWithdrawChange {s0 s : State} (hk : Kept s0 s) (h : Hdr) (epoch : Word) :
    Goes s0 (execWithdrawChange h epoch s) := by
  unfold Machine.execWithdrawChange
  grind only [← Goes.accept, ← Kept.fail, ← Kept.ok, ← Goes.next, ← Kept.free]

theorem Goes.execLeaseDeliver {s0 s : State} (hk : Kept s0 s) (h : Hdr) (r : LeaseReplyMsg) :
    Goes s0 (execLeaseDeliver h r s) := by
  unfold Machine.execLeaseDeliver
  grind only [← Goes.accept, ← Kept.ok, ← Kept.takeLeaseReply, ← Goes.next]

theorem Goes.execPortReset {s0 s : State} (hk : Kept s0 s) (h : Hdr) (port : Byte) :
    Goes s0 (execPortReset h port s) := by
  unfold Machine.execPortReset
  grind only [← Goes.accept, ← Kept.fail, ← Kept.failPlain, ← Kept.modPort, ← Kept.ok, ← Goes.next]

theorem Goes.execQuarantineClear {s0 s : State} (hk : Kept s0 s) (h : Hdr) :
    Goes s0 (execQuarantineClear h s) := by
  unfold Machine.execQuarantineClear
  grind only [← Goes.accept, ← Kept.ok, ← Goes.next, ← Kept.free]

theorem Goes.execLinkStatus {s0 s : State} (hk : Kept s0 s) (h : Hdr) :
    Goes s0 (execLinkStatus h s) := by
  unfold Machine.execLinkStatus
  grind only [← Goes.accept, ← Kept.ok, ← Goes.next]

/-! ### Nv -/

theorem Kept.writeCal {s0 s : State} (hk : Kept s0 s) (m : Memory) (scopes : Word) :
    Kept s0 (State.writeCal s m scopes) := by
  unfold State.writeCal
  grind only [← Kept.event, ← Kept.free]

theorem Kept.setOther {s0 s : State} (hk : Kept s0 s) (x : FwImage) : Kept s0 { s with sec := s.sec.setOther x } := by
  unfold SecState.setOther
  split
  · exact hk.sec (by rfl) (by exact le_rfl) ..
  · exact hk.sec (by rfl) (by exact le_rfl) ..

theorem Kept.nvReply {s0 s : State} (hk : Kept s0 s) (h : Option Hdr) (w : NvWrite) (status : BitVec 16) (reason : Nat) :
    Kept s0 (State.nvReply s h w status reason) := by
  unfold State.nvReply
  grind only [← Kept.fail, ← Kept.ok]

theorem Kept.keyDo {s0 s : State} (hk : Kept s0 s) (w : NvWrite) : Kept s0 (s.keyDo w) := by
  unfold State.keyDo
  split
  · exact Kept.event (hk.sec (by rfl) (by exact le_rfl) ..) ..
  · exact Kept.event (hk.sec (by rfl) (by exact le_rfl) ..) ..
  · exact Kept.event (hk.sec (by rfl) (by exact le_rfl) ..) ..
  · exact hk

theorem Kept.keyRun {s0 s : State} (hk : Kept s0 s) (h : Option Hdr) (w : NvWrite) :
    Kept s0 (State.keyRun s h w) := by
  unfold State.keyRun
  grind only [← Kept.keyDo, ← Kept.nvReply]

theorem Kept.importDo {s0 s : State} (hk : Kept s0 s) (h : Option Hdr) (offset total : Nat) (chunk : Bytes) :
    Kept s0 (s.importDo h offset total chunk) := by
  unfold State.importDo
  extract_lets w mgp set buf store sig m
  have hset (b : Bytes) : Kept s0 (set b) := hk.free rfl ..
  split
  · exact hk.nvReply ..
  · split
    · exact (hset _).nvReply ..
    · split
      · exact (hset _).nvReply ..
      · split
        · exact ((hset _).writeCal ..).nvReply ..
        · exact (hset _).nvReply ..

theorem Kept.activateDo {s0 s : State} (hk : Kept s0 s) (h : Option Hdr) (digest : Digest) :
    Kept s0 (s.activateDo h digest) := by
  unfold State.activateDo
  grind only [← Kept.event, ← Kept.nvReply, ← Kept.setOther]

theorem Kept.nvDo {s0 s : State} (hk : Kept s0 s) (h : Option Hdr) (w : NvWrite) : Kept s0 (s.nvDo h w) := by
  cases w with
  | calSet m scopes => exact (hk.writeCal m scopes).nvReply ..
  | calChunk o t c => exact hk.importDo h o t c
  | enrol i k => exact hk.keyRun h _
  | revoke i => exact hk.keyRun h _
  | enforce on => exact hk.keyRun h _
  | fwChunk o d => exact (hk.setOther _).nvReply ..
  | fwActivate d => exact hk.activateDo h d
  | rollback n =>
    simp only [State.nvDo]
    split
    case isTrue hn => exact Kept.event (hk.sec (by rfl) (by exact hn.le) ..) ..
    case isFalse => exact hk

theorem Kept.nvDrain {s0 s : State} (hk : Kept s0 s) (l : List (Option Hdr × NvWrite)) :
    Kept s0 (State.nvDrain s l) := by
  induction l generalizing s with
  | nil => exact hk
  | cons x l ih =>
    unfold State.nvDrain
    grind only [← Kept.nvDo]

theorem Kept.nvQueue {s0 s : State} (hk : Kept s0 s) (h : Option Hdr) (w : NvWrite) :
    Kept s0 (State.nvQueue s h w) := by
  unfold State.nvQueue
  grind only [← Kept.free]

theorem Kept.nvGo {s0 s : State} (hk : Kept s0 s) (h : Option Hdr) (w : NvWrite) :
    Kept s0 (State.nvGo s h w) := by
  unfold State.nvGo
  grind only [← Kept.nvDo, ← Kept.nvQueue]

theorem Kept.nvStart {s0 s : State} (hk : Kept s0 s) (h : Hdr) (w : NvWrite) (accept : Bool) :
    Kept s0 (State.nvStart s h w accept) := by
  unfold State.nvStart
  grind only [← Goes.accept, ← Kept.failPlain, ← Kept.nvGo, ← Kept.nvQueue, ← Kept.reply]

theorem Kept.trainStacks {s0 s : State} (hk : Kept s0 s) : Kept s0 s.trainStacks :=
  Kept.setHbm (Kept.foldl (fun k h => h.modStack k _) _ hk) (fun _ => rfl)

theorem Kept.measured {s0 s : State} (hk : Kept s0 s) (scopes : Word) :
    Kept s0 (State.measured s scopes) := by
  unfold State.measured
  grind only [← Kept.trainStacks, ← Kept.free]

theorem Goes.execCalibrate {s0 s : State} (hk : Kept s0 s) (h : Hdr) (scopes : Word) (r : CalResult) :
    Goes s0 (execCalibrate h scopes r s) := by
  unfold Machine.execCalibrate
  grind only [← Goes.accept, ← Kept.fail, ← Kept.failPlain, ← Kept.measured, ← Kept.nvGo, ← Kept.nvQueue, ← Kept.reply, ←
      Goes.next]

theorem Goes.execCalExport {s0 s : State} (hk : Kept s0 s) (h : Hdr) (offset : Word) :
    Goes s0 (execCalExport h offset s) := by
  unfold Machine.execCalExport
  grind only [← Goes.accept, ← Kept.ok, ← Goes.next]

theorem Goes.execCalImport {s0 s : State} (hk : Kept s0 s) (h : Hdr) (offset total : Word) (chunk : Bytes) :
    Goes s0 (execCalImport h offset total chunk s) := by
  unfold Machine.execCalImport
  grind only [← Goes.admitAs, ← Kept.nvStart, ← Goes.next]

theorem Goes.execPowerPolicy {s0 s : State} (hk : Kept s0 s) (h : Hdr) (target cap : Byte) (limit : Word) :
    Goes s0 (execPowerPolicy h target cap limit s) := by
  unfold Machine.execPowerPolicy
  grind only [← Goes.accept, ← Kept.fail, ← Kept.ok, ← Goes.next, ← Kept.free]

theorem Goes.keyCommand {s0 s : State} (hk : Kept s0 s) (h : Hdr) (w : NvWrite) :
    Goes s0 (State.keyCommand s h w) := by
  unfold State.keyCommand
  grind only [← Kept.failPlain, ← Kept.nvStart, ← Goes.next]

theorem Goes.execEnrolBuildKey {s0 s : State} (hk : Kept s0 s) (h : Hdr) (index : Byte) (key : Key) :
    Goes s0 (execEnrolBuildKey h index key s) := by
  unfold Machine.execEnrolBuildKey
  grind only [← Goes.accept, ← Kept.fail, ← Goes.keyCommand, ← Goes.next]

theorem Goes.execRevokeBuildKey {s0 s : State} (hk : Kept s0 s) (h : Hdr) (index : Byte) :
    Goes s0 (execRevokeBuildKey h index s) := by
  unfold Machine.execRevokeBuildKey
  grind only [← Goes.accept, ← Kept.fail, ← Goes.keyCommand, ← Goes.next]

theorem Goes.execSigningEnforce {s0 s : State} (hk : Kept s0 s) (h : Hdr) (on : Byte) :
    Goes s0 (execSigningEnforce h on s) := by
  unfold Machine.execSigningEnforce
  grind only [← Goes.accept, ← Kept.fail, ← Goes.keyCommand, ← Goes.next]

theorem Goes.execFwWrite {s0 s : State} (hk : Kept s0 s) (h : Hdr) (offset : Word) (chunk : Bytes) :
    Goes s0 (execFwWrite h offset chunk s) := by
  unfold Machine.execFwWrite
  grind only [← Goes.admitAs, ← Kept.fail, ← Kept.failPlain, ← Kept.nvStart, ← Goes.next]

theorem Goes.execFwActivate {s0 s : State} (hk : Kept s0 s) (h : Hdr) (digest : Digest) :
    Goes s0 (execFwActivate h digest s) := by
  unfold Machine.execFwActivate
  grind only [← Goes.accept, ← Kept.nvStart, ← Goes.next]

/-! ### Spdm -/

theorem Goes.execSpdm {s0 s : State} (hk : Kept s0 s) (h : Hdr) (r : SpdmRequest) :
    Goes s0 (execSpdm h r s) := by
  unfold Machine.execSpdm
  grind only [← Goes.accept, ← Kept.ok, ← Goes.next]

end Sys2Proof.Machine
end

section
/-! PROOFS. What debug, telemetry, registers, firmware policies, resets and packets keep. -/

namespace Sys2Proof.Machine

set_option Elab.async false

/-! ### Debug -/

theorem Kept.setHalted {s0 s : State} (hk : Kept s0 s) (t : Nat) (on : Bool) :
    Kept s0 (State.setHalted s t on) := by
  unfold State.setHalted
  grind only [← Kept.modTile]

theorem Goes.execHaltTiles {s0 s : State} (hk : Kept s0 s) (h : Hdr) (mask : BitVec 128) :
    Goes s0 (execHaltTiles h mask s) := by
  unfold Machine.execHaltTiles
  grind only [← Goes.accept, ← Kept.ok, ← Kept.setHalted, ← Goes.next, ← Kept.foldl]

theorem Goes.execResumeTiles {s0 s : State} (hk : Kept s0 s) (h : Hdr) (mask : BitVec 128) :
    Goes s0 (execResumeTiles h mask s) := by
  unfold Machine.execResumeTiles
  grind only [← Goes.accept, ← Kept.ok, ← Kept.setHalted, ← Goes.next, ← Kept.foldl]

theorem Goes.execReadSync {s0 s : State} (hk : Kept s0 s) (h : Hdr) (object : SyncObject) (tile number : BitVec 16) :
    Goes s0 (execReadSync h object tile number s) := by
  unfold Machine.execReadSync
  grind only [← Goes.accept, ← Kept.fail, ← Kept.ok, ← Goes.next]

theorem Kept.debugLog {s0 s : State} (hk : Kept s0 s) (object : SyncObject) (t n old new : Nat) :
    Kept s0 (State.debugLog s object t n old new) := by
  unfold State.debugLog
  grind only [← Kept.event]

theorem Goes.syncWrite {s0 s : State} (hk : Kept s0 s) (h : Hdr) (object : SyncObject) (tile number : BitVec 16)
    (value : Word) (fits : Bool) (f : Nat → State × Nat × Nat) (hf : ∀ t, Kept s0 (f t).1) :
    Goes s0 (s.syncWrite h object tile number value fits f) := by
  unfold State.syncWrite
  repeat' split
  · exact .next (hk.fail ..)
  · exact .next (hk.fail ..)
  · exact .next (hk.fail ..)
  · exact .next (((hf _).debugLog ..).ok ..)

theorem Goes.syncHalt {s0 s : State} (hk : Kept s0 s) (h : Hdr) (tile : BitVec 16) (value : Word) (on : Bool) :
    Goes s0 (State.syncHalt s h tile value on) := by
  unfold State.syncHalt
  grind only [← Kept.setHalted, ← Goes.syncWrite, ← Goes.next, Kept.tile_wf]

theorem Goes.execSyncHaltTile {s0 s : State} (hk : Kept s0 s) (h : Hdr) (tile : BitVec 16) (value : Word) :
    Goes s0 (execSyncHaltTile h tile value s) := by
  unfold Machine.execSyncHaltTile
  grind only [← Goes.accept, ← Goes.syncHalt, ← Goes.next]

theorem Goes.execSyncResumeTile {s0 s : State} (hk : Kept s0 s) (h : Hdr) (tile : BitVec 16) (value : Word) :
    Goes s0 (execSyncResumeTile h tile value s) := by
  unfold Machine.execSyncResumeTile
  grind only [← Goes.accept, ← Goes.syncHalt, ← Goes.next]

theorem Goes.execSyncSetCount {s0 s : State} (hk : Kept s0 s) (h : Hdr) (tile number : BitVec 16) (value : Word) :
    Goes s0 (execSyncSetCount h tile number value s) := by
  unfold Machine.execSyncSetCount
  grind only [← Goes.accept, ← Kept.modTile, ← Goes.syncWrite, = Tile.setSem_scratch, ← Goes.next, Kept.tile_wf]

theorem Kept.addArrivals {s0 s : State} (hk : Kept s0 s) (d : BarrierDecl) (level t bank n : Nat) :
    Kept s0 (State.addArrivals s d level t bank n) := by
  unfold State.addArrivals
  grind only [← Kept.countAt, ← Kept.counterArrive, ← Kept.pairCount, ← Kept.releaseTop, Kept.tile_wf]

theorem Goes.execSyncAddArrivals {s0 s : State} (hk : Kept s0 s) (h : Hdr) (tile number : BitVec 16) (value : Word) :
    Goes s0 (execSyncAddArrivals h tile number value s) := by
  unfold Machine.execSyncAddArrivals
  grind only [← Goes.accept, ← Kept.addArrivals, ← Goes.syncWrite, ← Goes.next]

theorem Kept.releaseRound {s0 s : State} (hk : Kept s0 s) (d : BarrierDecl) (t : Nat) :
    Kept s0 (State.releaseRound s d t) := by
  unfold State.releaseRound
  grind only [← Kept.countAt, ← Kept.pairCount, ← Kept.releaseTop, ← Kept.sendRelease, ← Kept.setCounter, Kept.tile_wf]

theorem Goes.execSyncReleaseRound {s0 s : State} (hk : Kept s0 s) (h : Hdr) (tile number : BitVec 16) (value : Word) :
    Goes s0 (execSyncReleaseRound h tile number value s) := by
  unfold Machine.execSyncReleaseRound
  grind only [← Goes.accept, ← Kept.releaseRound, ← Goes.syncWrite, ← Goes.next, Kept.tile_wf]

theorem Goes.execSyncFireWatch {s0 s : State} (hk : Kept s0 s) (h : Hdr) (tile number : BitVec 16) (value : Word) :
    Goes s0 (execSyncFireWatch h tile number value s) := by
  unfold Machine.execSyncFireWatch
  grind only [← Goes.accept, ← Kept.modTile, ← Goes.syncWrite, = Tile.setWatch_scratch, ← Goes.next, ← Kept.free,
      Kept.tile_wf]

theorem Goes.execSyncDisarmWatch {s0 s : State} (hk : Kept s0 s) (h : Hdr) (tile number : BitVec 16) (value : Word) :
    Goes s0 (execSyncDisarmWatch h tile number value s) := by
  unfold Machine.execSyncDisarmWatch
  grind only [← Goes.accept, ← Kept.modTile, ← Goes.syncWrite, = Tile.setWatch_scratch, ← Goes.next, Kept.tile_wf]

theorem Goes.execSyncResetEndpoint {s0 s : State} (hk : Kept s0 s) (h : Hdr) (tile number : BitVec 16) (value : Word) :
    Goes s0 (execSyncResetEndpoint h tile number value s) := by
  unfold Machine.execSyncResetEndpoint
  grind only [← Goes.accept, ← Kept.resetRecv, ← Goes.syncWrite, ← Goes.next, Kept.tile_wf]

theorem Goes.execReadTileState {s0 s : State} (hk : Kept s0 s) (h : Hdr) (tile : BitVec 16) (set index : Byte) :
    Goes s0 (execReadTileState h tile set index s) := by
  unfold Machine.execReadTileState
  grind only [← Goes.accept, ← Kept.fail, ← Kept.failPlain, ← Kept.ok, ← Goes.next, Kept.tile_wf]

/-! ### Telemetry -/

theorem Goes.execReadTelemetry {s0 s : State} (hk : Kept s0 s) (h : Hdr) (block : BitVec 16) (offset : Word) :
    Goes s0 (execReadTelemetry h block offset s) := by
  unfold Machine.execReadTelemetry
  grind only [← Goes.accept, ← Kept.fail, ← Kept.ok, ← Goes.next]

theorem Goes.execReadRecord {s0 s : State} (hk : Kept s0 s) (h : Hdr) (runIndex offset : Word) :
    Goes s0 (execReadRecord h runIndex offset s) := by
  unfold Machine.execReadRecord
  grind only [← Goes.accept, ← Kept.fail, ← Kept.ok, ← Goes.next]

theorem Goes.execReadEventLog {s0 s : State} (hk : Kept s0 s) (h : Hdr) (start finish : DWord) (offset : Word) :
    Goes s0 (execReadEventLog h start finish offset s) := by
  unfold Machine.execReadEventLog
  grind only [← Goes.accept, ← Kept.fail, ← Kept.ok, ← Goes.next]

theorem Goes.execReadFaults {s0 s : State} (hk : Kept s0 s) (h : Hdr) (offset : Word) :
    Goes s0 (execReadFaults h offset s) := by
  unfold Machine.execReadFaults
  grind only [← Goes.accept, ← Kept.ok, ← Goes.next]

theorem Goes.execReadRoutines {s0 s : State} (hk : Kept s0 s) (h : Hdr) (offset : Word) :
    Goes s0 (execReadRoutines h offset s) := by
  unfold Machine.execReadRoutines
  grind only [← Goes.accept, ← Kept.ok, ← Goes.next]

theorem Goes.execReadCheckHist {s0 s : State} (hk : Kept s0 s) (h : Hdr) (tile : BitVec 16) :
    Goes s0 (execReadCheckHist h tile s) := by
  unfold Machine.execReadCheckHist
  grind only [← Goes.accept, ← Kept.fail, ← Kept.ok, ← Goes.next, Kept.tile_wf]

theorem Goes.execReadFlags {s0 s : State} (hk : Kept s0 s) (h : Hdr) (tile : BitVec 16) :
    Goes s0 (execReadFlags h tile s) := by
  unfold Machine.execReadFlags
  grind only [← Goes.accept, ← Kept.fail, ← Kept.ok, ← Goes.next, ← Kept.foldl, Kept.tile_wf]

theorem Goes.execSubscribe {s0 s : State} (hk : Kept s0 s) (h : Hdr) (mask : DWord) :
    Goes s0 (execSubscribe h mask s) := by
  unfold Machine.execSubscribe
  grind only [← Goes.accept, ← Kept.ok, ← Kept.setSession, ← Goes.next]

/-! ### RegRead -/

theorem Goes.execSplitLoRead {s0 s : State} (hk : Kept s0 s) (byFirmware : Bool) (addr : Nat) :
    Goes s0 (execSplitLoRead byFirmware addr s) := by
  unfold Machine.execSplitLoRead
  grind only [← Kept.modBlock, ← Goes.next]

/-! ### RegWrite -/

theorem Kept.restoreCfg {s0 s : State} (hk : Kept s0 s) (b : Nat) :
    Kept s0 (State.restoreCfg s b) := by
  unfold State.restoreCfg
  grind only [← Kept.applyCfg, ← Kept.modBlock]

theorem Kept.driftPolicy {s0 s : State} (hk : Kept s0 s) (b : Nat) :
    Kept s0 (State.driftPolicy s b) := by
  unfold State.driftPolicy
  grind only [← Kept.logCode, ← Kept.modBlock, ← Kept.raiseHw, ← Kept.restoreCfg]

theorem Kept.compareCrc {s0 s : State} (hk : Kept s0 s) (b : Nat) :
    Kept s0 (State.compareCrc s b) := by
  unfold State.compareCrc
  grind only [← Kept.driftPolicy, ← Kept.event, ← Kept.modBlock]

theorem Goes.execCfgCrcRecompute {s0 s : State} (hk : Kept s0 s) (addr : Nat) (upset : List (Nat × Byte)) :
    Goes s0 (execCfgCrcRecompute addr upset s) := by
  unfold Machine.execCfgCrcRecompute
  grind only [← Kept.applyCfg, ← Kept.compareCrc, ← Kept.modBlock, ← Goes.next, ← Kept.foldl]

theorem Kept.writeCtrl {s0 s : State} (hk : Kept s0 s) (b : Nat) (v : Word) :
    Kept s0 (State.writeCtrl s b v) := by
  unfold State.writeCtrl
  grind only [← Kept.modBlock]

theorem Kept.writeConfig {s0 s : State} (hk : Kept s0 s) (b off : Nat) (v : Word) :
    Kept s0 (State.writeConfig s b off v) := by
  unfold State.writeConfig
  grind only [← Kept.applyCfg, ← Kept.compareCrc, ← Kept.modBlock]

theorem Tile.clearOverrun_scratch (t : Tile) (v : Word) :
    (Tile.clearOverrun t v).scratch = t.scratch := by
  unfold Tile.clearOverrun
  grind only

theorem Kept.writeState {s0 s : State} (hk : Kept s0 s) (b off : Nat) (v : Word) :
    Kept s0 (State.writeState s b off v) := by
  unfold State.writeState
  grind only [← Kept.modStack, ← Kept.modTile, = Tile.clearOverrun_scratch, ← Kept.free]

theorem Kept.writeSplit {s0 s : State} (hk : Kept s0 s) (b off : Nat) (v : Word) :
    Kept s0 (State.writeSplit s b off v) := by
  unfold State.writeSplit
  grind only [← Kept.modBlock]

theorem Keeps.applyReg {s0 s : State} (hk : Kept s0 s) (b off : Nat) (v : Word) :
    Keeps s0 (State.applyReg s b off v) := by
  unfold State.applyReg
  grind only [← Kept.compareCrc, ← Kept.modBlock, ← Kept.writeConfig, ← Kept.writeCtrl, ← Kept.writeSplit, ←
      Kept.writeState, ← Keeps.next, ← Keeps.fault]

theorem Kept.countIgnored {s0 s : State} (hk : Kept s0 s) :
    Kept s0 (State.countIgnored s) := by
  unfold State.countIgnored
  grind only [← Kept.free]

theorem Keeps.hostStore {s0 s : State} (hk : Kept s0 s) (a : Nat) (v : Word) :
    Keeps s0 (State.hostStore s a v) := by
  unfold State.hostStore
  grind only [← Keeps.applyReg, ← Kept.countIgnored, ← Kept.modBlock, ← Keeps.next]

theorem Keeps.storeLane {s0 s : State} (hk : Kept s0 s) (a : Nat) (v : Word) (be : BitVec 4) :
    Keeps s0 (State.storeLane s a v be) := by
  unfold State.storeLane
  grind only [← Kept.countIgnored, ← Keeps.hostStore, ← Keeps.next]

theorem Keeps.execRegisterWrite {s0 s : State} (hk : Kept s0 s) (w : RegWrite) : Keeps s0 (execRegisterWrite w s) := by
  unfold Machine.execRegisterWrite
  split
  · exact .next hk
  · split
    · split
      · have hlow := Keeps.storeLane hk w.addr (half w.value false) (w.byteEnable.setWidth 4)
        revert hlow
        cases s.storeLane w.addr (half w.value false) (w.byteEnable.setWidth 4) with
        | next s1 => exact fun hlow => Keeps.storeLane hlow.of_next ..
        | fault r => exact fun _ => .fault r
        | refused r => exact fun _ => .refused r
      · exact .next hk.countIgnored
    · split
      · exact Keeps.hostStore hk ..
      · exact .next hk.countIgnored

theorem Keeps.execCtrlEnWrite {s0 s : State} (hk : Kept s0 s) (addr : Nat) (en : Bool) :
    Keeps s0 (execCtrlEnWrite addr en s) := by
  unfold Machine.execCtrlEnWrite
  grind only [← Keeps.hostStore, ← Keeps.next]

theorem Keeps.execCtrlMonArmWrite {s0 s : State} (hk : Kept s0 s) (addr : Nat) (arm : Bool) :
    Keeps s0 (execCtrlMonArmWrite addr arm s) := by
  unfold Machine.execCtrlMonArmWrite
  grind only [← Keeps.hostStore, ← Keeps.next]

theorem Keeps.execMonumentWrite {s0 s : State} (hk : Kept s0 s) (addr : Nat) (value : Word) :
    Keeps s0 (execMonumentWrite addr value s) := by
  unfold Machine.execMonumentWrite
  grind only [← Keeps.hostStore, ← Keeps.next]

theorem Keeps.execW1cWrite {s0 s : State} (hk : Kept s0 s) (addr : Nat) (value : Word) :
    Keeps s0 (execW1cWrite addr value s) := by
  unfold Machine.execW1cWrite
  grind only [← Keeps.hostStore, ← Keeps.next]

theorem Keeps.execSplitLoWrite {s0 s : State} (hk : Kept s0 s) (addr : Nat) (value : Word) :
    Keeps s0 (execSplitLoWrite addr value s) := by
  unfold Machine.execSplitLoWrite
  grind only [← Keeps.hostStore, ← Keeps.next]

theorem Keeps.execSplitHiWrite {s0 s : State} (hk : Kept s0 s) (addr : Nat) (value : Word) :
    Keeps s0 (execSplitHiWrite addr value s) := by
  unfold Machine.execSplitHiWrite
  grind only [← Keeps.hostStore, ← Keeps.next]

theorem Keeps.execPostedWriteApplied {s0 s : State} (hk : Kept s0 s) (addr : Nat) :
    Keeps s0 (execPostedWriteApplied addr s) := by
  unfold Machine.execPostedWriteApplied
  grind only [← Keeps.applyReg, ← Kept.modBlock, ← Keeps.next]

/-! ### Power -/

theorem Tile.memWf_off (x : Tile) : memWf x.off.scratch = true := rfl

theorem Kept.railsOff {s0 s : State} (hk : Kept s0 s) : Kept s0 s.railsOff := by
  unfold State.railsOff
  extract_lets s1
  have hs1 : Kept s0 s1 := hk.mapTiles (fun x _ => x.memWf_off)
  exact ⟨hs1.fixed, hs1.pending, hs1.rollback, fun w => ⟨rfl, (hs1.stores w).2⟩⟩

theorem Kept.railsOn {s0 s : State} (hk : Kept s0 s) :
    Kept s0 (State.railsOn s) := by
  unfold State.railsOn
  grind only [← Kept.trainStacks, ← Kept.free]

theorem Kept.stopRun {s0 s : State} (hk : Kept s0 s) (code : BitVec 16) (detail : Nat) :
    Kept s0 (State.stopRun s code detail) := by
  unfold State.stopRun
  grind only [← Kept.raiseHw]

theorem Kept.throttle {s0 s : State} (hk : Kept s0 s) (r : ThermalReading) :
    Kept s0 (State.throttle s r) := by
  unfold State.throttle
  grind only [← Kept.event, ← Kept.raiseBase, ← Kept.free]

theorem Kept.release {s0 s : State} (hk : Kept s0 s) (r : ThermalReading) :
    Kept s0 (State.release s r) := by
  unfold State.release
  grind only [← Kept.event, ← Kept.lowerBase, ← Kept.free]

theorem Kept.overheat {s0 s : State} (hk : Kept s0 s) (r : ThermalReading) :
    Kept s0 (State.overheat s r) := by
  unfold State.overheat
  grind only [← Kept.railsOff, ← Kept.stopRun, ← Kept.free]

theorem Goes.execThermalPolicy {s0 s : State} (hk : Kept s0 s) (r : ThermalReading) :
    Goes s0 (execThermalPolicy r s) := by
  unfold Machine.execThermalPolicy
  grind only [← Kept.overheat, ← Kept.railsOn, ← Kept.release, ← Kept.throttle, ← Goes.next, ← Kept.free]

theorem Goes.execInputPowerWindow {s0 s : State} (hk : Kept s0 s) (watts : Nat) :
    Goes s0 (execInputPowerWindow watts s) := by
  unfold Machine.execInputPowerWindow
  grind only [← Kept.event, ← Kept.lowerBase, ← Kept.raiseBase, ← Goes.next, ← Kept.free]

theorem Kept.commitLog {s0 s : State} (hk : Kept s0 s) (deferred : Bool) :
    Kept s0 (State.commitLog s deferred) := by
  unfold State.commitLog
  grind only [← Kept.free]

theorem Goes.execLogCommit {s0 s : State} (hk : Kept s0 s) (ok : Bool) :
    Goes s0 (execLogCommit ok s) := by
  unfold Machine.execLogCommit
  grind only [← Kept.commitLog, ← Kept.event, ← Kept.ok, ← Goes.next, ← Kept.free]

theorem Kept.restoreSupply {s0 s : State} (hk : Kept s0 s) :
    Kept s0 (State.restoreSupply s) := by
  unfold State.restoreSupply
  grind only [← Kept.commitLog, ← Kept.event, ← Kept.nvDrain, ← Kept.free]

theorem Kept.sag {s0 s : State} (hk : Kept s0 s) (halt : Bool) :
    Kept s0 (State.sag s halt) := by
  unfold State.sag
  grind only [← Kept.event, ← Kept.railsOff, ← Kept.stopRun, ← Kept.free]

theorem Kept.recover {s0 s : State} (hk : Kept s0 s) :
    Kept s0 (State.recover s) := by
  unfold State.recover
  grind only [← Kept.railsOn, ← Kept.restoreSupply, ← Kept.free]

theorem Goes.execSupplySample {s0 s : State} (hk : Kept s0 s) (r : SupplyReading) :
    Goes s0 (execSupplySample r s) := by
  unfold Machine.execSupplySample
  grind only [← Kept.recover, ← Kept.sag, ← Goes.next, ← Kept.free]

theorem Goes.execFlashOperationDone {s0 s : State} (hk : Kept s0 s) (_op : FlashOp) :
    Goes s0 (execFlashOperationDone _op s) := by
  unfold Machine.execFlashOperationDone
  grind only [← Kept.restoreSupply, ← Goes.next, ← Kept.free]

/-! ### Reset -/

theorem Kept.internalReset {s0 s : State} (hk : Kept s0 s) : Kept s0 s.internalReset :=
  hk.trans ⟨rfl, rfl, le_rfl, fun _ => ⟨rfl, fun _ he => nomatch he⟩⟩

theorem Goes.execMrst {s0 s : State} (hk : Kept s0 s) : Goes s0 (execMrst s) :=
  .next (hk.internalReset.free rfl ..)

theorem Goes.execPowerFailReset {s0 s : State} (hk : Kept s0 s) : Goes s0 (execPowerFailReset s) := by
  unfold Machine.execPowerFailReset
  split
  · exact .next (hk.internalReset.free rfl ..)
  · exact .next hk

theorem Goes.execInputLoss {s0 s : State} (hk : Kept s0 s) : Goes s0 (execInputLoss s) :=
  .next (hk.internalReset.free rfl ..)

theorem Goes.execPowerUp {s0 s : State} (hk : Kept s0 s) :
    Goes s0 (execPowerUp s) := by
  unfold Machine.execPowerUp
  grind only [← Goes.next, ← Kept.free]

theorem Goes.execResetRelease {s0 s : State} (hk : Kept s0 s) :
    Goes s0 (execResetRelease s) := by
  unfold Machine.execResetRelease
  grind only [← Goes.next, ← Kept.free]

theorem Kept.pcieReset {s0 s : State} (hk : Kept s0 s) :
    Kept s0 (State.pcieReset s) := by
  unfold State.pcieReset
  grind only [← Kept.endSession, ← Kept.free]

theorem Goes.execPerst {s0 s : State} (hk : Kept s0 s) :
    Goes s0 (execPerst s) := by
  unfold Machine.execPerst
  grind only [← Kept.pcieReset, ← Goes.next, ← Kept.free]

theorem Goes.execFlr {s0 s : State} (hk : Kept s0 s) :
    Goes s0 (execFlr s) := by
  unfold Machine.execFlr
  grind only [← Kept.pcieReset, ← Goes.next]

theorem Goes.execI3cLoss {s0 s : State} (hk : Kept s0 s) :
    Goes s0 (execI3cLoss s) := by
  unfold Machine.execI3cLoss
  grind only [← Kept.endSession, ← Goes.next]

theorem Goes.execPcieLinkTraining {s0 s : State} (hk : Kept s0 s) (rate width : Nat) :
    Goes s0 (execPcieLinkTraining rate width s) := by
  unfold Machine.execPcieLinkTraining
  grind only [← Kept.event, ← Goes.next, ← Kept.free]

theorem Kept.checkCal {s0 s : State} (hk : Kept s0 s) : Kept s0 s.checkCal := by
  unfold State.checkCal
  extract_lets staged store valid mgp s1
  have hs1 : Kept s0 s1 := hk.free rfl ..
  split
  · exact hs1.free rfl ..
  · exact hs1.free rfl ..

theorem Kept.reportPowerFail {s0 s : State} (hk : Kept s0 s) :
    Kept s0 (State.reportPowerFail s) := by
  unfold State.reportPowerFail
  grind only [← Kept.event, ← Kept.free]

theorem Kept.loadLibrary {s0 s : State} (hk : Kept s0 s) : Kept s0 s.loadLibrary := by
  refine hk.trans ⟨?_, rfl, le_rfl, id⟩
  simp [State.fixed, State.loadLibrary, List.filter_append]

theorem Goes.execBoot {s0 s : State} (hk : Kept s0 s) : Goes s0 (execBoot s) := by
  unfold Machine.execBoot
  split
  · split
    case h_1 isB second _ =>
      extract_lets s1 s2 s3
      have hs1 : Kept s0 s1 := Kept.loadLibrary (hk.sec (by rfl) (by exact le_rfl) ..)
      have hs2 : Kept s0 s2 := by
        unfold s2
        split
        · exact hs1.event ..
        · exact hs1
      have hs3 : Kept s0 s3 := hs2.checkCal.reportPowerFail.trainStacks
      exact .next (hs3.free rfl ..)
    case h_2 => exact .next (hk.sec (by rfl) (by exact le_rfl) ..)
  · exact .next hk

theorem Goes.execRollbackAdvance {s0 s : State} (hk : Kept s0 s) : Goes s0 (execRollbackAdvance s) := by
  unfold Machine.execRollbackAdvance
  extract_lets n
  split
  · split
    · exact .next (hk.nvDo ..)
    · exact .next (hk.nvQueue ..)
  · exact .next hk

/-! ### Inbox -/

theorem Goes.runCommand {s0 s : State} (hk : Kept s0 s) (i : Instr) :
    Goes s0 (State.runCommand i s) := by
  unfold State.runCommand
  grind only [← Goes.execAnnounceForcedChange, ← Goes.execAnnounceInitialMembership, ← Goes.execAnnouncePlannedChange, ←
      Goes.execApertureMove, ← Goes.execCalExport, ← Goes.execCalImport, ← Goes.execCalibrate, ← Goes.execDmaAbort, ←
      Goes.execDmaStart, ← Goes.execDmaStatus, ← Goes.execEnrolBuildKey, ← Goes.execFwActivate, ← Goes.execFwWrite, ←
      Goes.execHaltTiles, ← Goes.execIdentify, ← Goes.execJobConfig, ← Goes.execLeaseDeliver, ← Goes.execLinkStatus, ←
      Goes.execListImages, ← Goes.execLoadImage, ← Goes.execMemoryLayout, ← Goes.execNop, ← Goes.execPortReset, ←
      Goes.execPowerPolicy, ← Goes.execQuarantineClear, ← Goes.execReadCheckHist, ← Goes.execReadEventLog, ←
      Goes.execReadFaults, ← Goes.execReadFlags, ← Goes.execReadRecord, ← Goes.execReadRoutines, ← Goes.execReadSync, ←
      Goes.execReadTelemetry, ← Goes.execReadTileState, ← Goes.execResumeTiles, ← Goes.execRevokeBuildKey, ←
      Goes.execRun, ← Goes.execRunStatus, ← Goes.execSessionClose, ← Goes.execSessionOpen, ← Goes.execSessionTake, ←
      Goes.execSetDomain, ← Goes.execSetModuleId, ← Goes.execSetPairMode, ← Goes.execSigningEnforce, ← Goes.execSpdm, ←
      Goes.execStep, ← Goes.execStop, ← Goes.execSubscribe, ← Goes.execSyncAddArrivals, ← Goes.execSyncDisarmWatch, ←
      Goes.execSyncFireWatch, ← Goes.execSyncHaltTile, ← Goes.execSyncReleaseRound, ← Goes.execSyncResetEndpoint, ←
      Goes.execSyncResumeTile, ← Goes.execSyncSetCount, ← Goes.execUnloadImage, ← Goes.execVerifyImage, ←
      Goes.execWithdrawChange, ← Goes.next]

theorem Goes.takeBerno {s0 s : State} (hk : Kept s0 s) (x : Berno) (body : Option ImageBody) :
    Goes s0 (State.takeBerno x body s) := by
  unfold State.takeBerno
  split
  · exact .next hk
  · split
    · exact .next ((hk.countMctp _).answer ..)
    · dsimp only
      split
      · exact Goes.runCommand (hk.drawn 1) _
      · exact Goes.admitAs hk _ _ _ _ _ (fun _ ht => .next ht)
      · exact Goes.admitAs hk _ _ _ _ _ (fun _ ht => .next ht)
      · exact Goes.admitAs hk _ _ _ _ _ (fun _ ht => .next (ht.fail ..))

theorem Goes.watch {s0 s : State} (hk : Kept s0 s) (n : Nat) (covered : List Nat) (body : Option ImageBody) :
    Goes s0 (State.watch n covered body s) := by
  induction n generalizing s covered with
  | zero => exact .next hk
  | succ n ih =>
    unfold State.watch
    split
    · have htaken := Goes.takeBerno (s := { s with host := s.host.advance }) (hk.free rfl ..)
        (readPacket .pcie s.host.expected) body
      revert htaken
      cases State.takeBerno (readPacket .pcie s.host.expected) body { s with host := s.host.advance } with
      | next t =>
        intro htaken
        exact ih htaken.keeps.of_next _
      | fault r => intro htaken; cases htaken
      | refused r => intro htaken; cases htaken
    · exact .next hk

theorem Goes.execInboxCommit {s0 s : State} (hk : Kept s0 s) (offset : Nat) (data : Bytes) (body : Option ImageBody) :
    Goes s0 (execInboxCommit offset data body s) := by
  unfold Machine.execInboxCommit
  grind only [← Goes.watch, ← Goes.next, ← Kept.free]

theorem Goes.execMctpMessage {s0 s : State} (hk : Kept s0 s) (packet : Bytes) (body : Option ImageBody) :
    Goes s0 (execMctpMessage packet body s) := by
  unfold Machine.execMctpMessage
  grind only [← Goes.takeBerno, ← Goes.next]

end Sys2Proof.Machine
end

section
/-! PROOFS. What the compute cycle, every row and every step keep (O58, O59). -/

namespace Sys2Proof.Machine

set_option Elab.async false

/-! ### Slots -/

theorem Tile.countUpset_scratch (t : Tile) (line : Nat) :
    (Tile.countUpset t line).scratch = t.scratch := by
  unfold Tile.countUpset
  grind only

theorem Kept.raiseScratch {s0 s : State} (hk : Kept s0 s) (t line : Nat) :
    Kept s0 (State.raiseScratch s t line) := by
  unfold State.raiseScratch
  grind only [← Kept.raiseHw]

theorem Kept.meetUpsets {s0 s : State} (hk : Kept s0 s) (t : Nat) (lines : List Nat) :
    Kept s0 (State.meetUpsets s t lines) := by
  unfold State.meetUpsets
  grind only [← Kept.modTile, ← Kept.raiseScratch, = Tile.countUpset_scratch, = Tile.foldl_scratch, Kept.tile_wf]

theorem Kept.raiseIstore {s0 s : State} (hk : Kept s0 s) (t place : Nat) :
    Kept s0 (State.raiseIstore s t place) := by
  unfold State.raiseIstore
  grind only [← Kept.raiseHw]

theorem Keeps.eccGuard {s0 s : State} (hk : Kept s0 s) (i : Iss) (f : State → Res)
    (hf : ∀ s, Kept s0 s → Keeps s0 (f s)) : Keeps s0 (eccGuard i f s) := by
  unfold Machine.eccGuard
  dsimp only
  split
  · split
    · exact hf _ (hk.modTile _ (by exact fun _ hx => hx))
    · exact .next (hk.raiseIstore ..)
    · exact hf _ (hk.modTile _ (by exact fun _ hx => hx))
    · exact hf _ hk
  · exact hf _ hk

theorem Keeps.routineGuard {s0 s : State} (hk : Kept s0 s) (i : Iss) (id : BitVec 16) (f : State → Res)
    (hf : ∀ s, Kept s0 s → Keeps s0 (f s)) : Keeps s0 (routineGuard i id f s) := by
  unfold Machine.routineGuard
  dsimp only
  split
  · split
    · exact hf _ (hk.modTile _ (by exact fun _ hx => hx))
    · exact .next (hk.raiseIstore ..)
    · exact Keeps.eccGuard hk i f hf
  · exact hf _ hk

theorem Keeps.execSetMode {s0 s : State} (hk : Kept s0 s) (i : Iss) (a : ModeArg) :
    Keeps s0 (execSetMode i a s) :=
  Keeps.eccGuard hk i _ (fun _ h => Keeps.opSetMode h i a)

theorem Keeps.execLoadWeights {s0 s : State} (hk : Kept s0 s) (i : Iss) (a : LoadArg) :
    Keeps s0 (execLoadWeights i a s) :=
  Keeps.eccGuard hk i _ (fun _ h => Keeps.opLoadWeights h i a)

theorem Keeps.execFeed {s0 s : State} (hk : Kept s0 s) (i : Iss) (a : FeedArg) :
    Keeps s0 (execFeed i a s) :=
  Keeps.eccGuard hk i _ (fun _ h => Keeps.opFeed h i a)

theorem Keeps.execFinishTree {s0 s : State} (hk : Kept s0 s) (i : Iss) (a : FinishArg) :
    Keeps s0 (execFinishTree i a s) :=
  Keeps.eccGuard hk i _ (fun _ h => Keeps.opFinishTree h i a)

theorem Keeps.execDrain {s0 s : State} (hk : Kept s0 s) (i : Iss) (a : DrainArg) :
    Keeps s0 (execDrain i a s) :=
  Keeps.eccGuard hk i _ (fun _ h => Keeps.opDrain h i a)

theorem Keeps.execVectorPass {s0 s : State} (hk : Kept s0 s) (i : Iss) (p : Pass) :
    Keeps s0 (execVectorPass i p s) :=
  Keeps.eccGuard hk i _ (fun _ h => Keeps.opVectorPass h i p)

theorem Keeps.execReduction {s0 s : State} (hk : Kept s0 s) (i : Iss) (r : Reduction) :
    Keeps s0 (execReduction i r s) :=
  Keeps.eccGuard hk i _ (fun _ h => Keeps.opReduction h i r)

theorem Keeps.execCombine {s0 s : State} (hk : Kept s0 s) (i : Iss) (a : CombineArg) :
    Keeps s0 (execCombine i a s) :=
  Keeps.eccGuard hk i _ (fun _ h => Keeps.opCombine h i a)

theorem Keeps.execScalarOp {s0 s : State} (hk : Kept s0 s) (i : Iss) (op : ScalarOp) :
    Keeps s0 (execScalarOp i op s) :=
  Keeps.eccGuard hk i _ (fun _ h => Keeps.opScalarOp h i op)

theorem Keeps.execScalarMultiply {s0 s : State} (hk : Kept s0 s) (i : Iss) (d : ScalarDst) (a b : ScalarSrc) :
    Keeps s0 (execScalarMultiply i d a b s) :=
  Keeps.eccGuard hk i _ (fun _ h => Keeps.opScalarMultiply h i d a b)

theorem Keeps.execReadLoopIndex {s0 s : State} (hk : Kept s0 s) (i : Iss) (d : ScalarDst) (level : Fin 4) :
    Keeps s0 (execReadLoopIndex i d level s) :=
  Keeps.eccGuard hk i _ (fun _ h => Keeps.opReadLoopIndex h i d level)

theorem Keeps.execScalarLoad {s0 s : State} (hk : Kept s0 s) (i : Iss) (d : ScalarDst) (addr : ScalarSrc) (region : Fin
    64) :
    Keeps s0 (execScalarLoad i d addr region s) :=
  Keeps.eccGuard hk i _ (fun _ h => Keeps.opScalarLoad h i d addr region)

theorem Keeps.execScalarStore {s0 s : State} (hk : Kept s0 s) (i : Iss) (a : ScalarSrc) (addr : ScalarSrc) (region : Fin
    64) :
    Keeps s0 (execScalarStore i a addr region s) :=
  Keeps.eccGuard hk i _ (fun _ h => Keeps.opScalarStore h i a addr region)

theorem Keeps.execPBlockLoad {s0 s : State} (hk : Kept s0 s) (i : Iss) (first : PReg) (addr : ScalarSrc) (region : Fin
    64) :
    Keeps s0 (execPBlockLoad i first addr region s) :=
  Keeps.eccGuard hk i _ (fun _ h => Keeps.opPBlockLoad h i first addr region)

theorem Keeps.execLaneInsertExtract {s0 s : State} (hk : Kept s0 s) (i : Iss) (op : LaneOp) :
    Keeps s0 (execLaneInsertExtract i op s) :=
  Keeps.eccGuard hk i _ (fun _ h => Keeps.opLaneInsertExtract h i op)

theorem Keeps.execLoopStart {s0 s : State} (hk : Kept s0 s) (i : Iss) (l : LReg) (last : Word) :
    Keeps s0 (execLoopStart i l last s) :=
  Keeps.eccGuard hk i _ (fun _ h => Keeps.opLoopStart h i l last)

theorem Keeps.execRoutineCall {s0 s : State} (hk : Kept s0 s) (i : Iss) (id : BitVec 16) :
    Keeps s0 (execRoutineCall i id s) :=
  Keeps.routineGuard hk i id _ (fun _ h => Keeps.opRoutineCall h i id)

theorem Keeps.execSetup {s0 s : State} (hk : Kept s0 s) (i : Iss) (d : Fin 32) (a : SetupArg) :
    Keeps s0 (execSetup i d a s) :=
  Keeps.eccGuard hk i _ (fun _ h => Keeps.opSetup h i d a)

theorem Keeps.execStart {s0 s : State} (hk : Kept s0 s) (i : Iss) (d : Fin 32) :
    Keeps s0 (execStart i d s) :=
  Keeps.eccGuard hk i _ (fun _ h => Keeps.opStart h i d)

theorem Keeps.execRearm {s0 s : State} (hk : Kept s0 s) (i : Iss) (d : Fin 32) (base : Src) (last : Bool) :
    Keeps s0 (execRearm i d base last s) :=
  Keeps.eccGuard hk i _ (fun _ h => Keeps.opRearm h i d base last)

theorem Keeps.execPhase {s0 s : State} (hk : Kept s0 s) (i : Iss) (compute : Bool) :
    Keeps s0 (execPhase i compute s) :=
  Keeps.eccGuard hk i _ (fun _ h => Keeps.opPhase h i compute)

theorem Keeps.execFill {s0 s : State} (hk : Kept s0 s) (i : Iss) (a : FillArg) :
    Keeps s0 (execFill i a s) :=
  Keeps.eccGuard hk i _ (fun _ h => Keeps.opFill h i a)

theorem Keeps.execCopy {s0 s : State} (hk : Kept s0 s) (i : Iss) (a : CopyArg) :
    Keeps s0 (execCopy i a s) :=
  Keeps.eccGuard hk i _ (fun _ h => Keeps.opCopy h i a)

theorem Keeps.execCodePrefetch {s0 s : State} (hk : Kept s0 s) (i : Iss) (a : PrefetchArg) :
    Keeps s0 (execCodePrefetch i a s) :=
  Keeps.eccGuard hk i _ (fun _ h => Keeps.opCodePrefetch h i a)

theorem Keeps.execWindowOpen {s0 s : State} (hk : Kept s0 s) (i : Iss) (w : Fin 16) (a : WindowArg) :
    Keeps s0 (execWindowOpen i w a s) :=
  Keeps.eccGuard hk i _ (fun _ h => Keeps.opWindowOpen h i w a)

theorem Keeps.execWindowClose {s0 s : State} (hk : Kept s0 s) (i : Iss) (w : Fin 16) :
    Keeps s0 (execWindowClose i w s) :=
  Keeps.eccGuard hk i _ (fun _ h => Keeps.opWindowClose h i w)

theorem Keeps.execPostSend {s0 s : State} (hk : Kept s0 s) (i : Iss) (d : Fin 32) (segment : Src) (ep : Fin 64) (g :
    GReg) :
    Keeps s0 (execPostSend i d segment ep g s) :=
  Keeps.eccGuard hk i _ (fun _ h => Keeps.opPostSend h i d segment ep g)

theorem Keeps.execSendG {s0 s : State} (hk : Kept s0 s) (i : Iss) (a : SendArg) (g : GReg) :
    Keeps s0 (execSendG i a g s) :=
  Keeps.eccGuard hk i _ (fun _ h => Keeps.opSendG h i a g)

theorem Keeps.execSendV {s0 s : State} (hk : Kept s0 s) (i : Iss) (a : SendArg) (v : VReg) (count : Fin 4) :
    Keeps s0 (execSendV i a v count s) :=
  Keeps.eccGuard hk i _ (fun _ h => Keeps.opSendV h i a v count)

theorem Keeps.execRecvG {s0 s : State} (hk : Kept s0 s) (i : Iss) (ep : Fin 64) (g : GReg) (wp : Fin 1024) :
    Keeps s0 (execRecvG i ep g wp s) :=
  Keeps.eccGuard hk i _ (fun _ h => Keeps.opRecvG h i ep g wp)

theorem Keeps.execRecvV {s0 s : State} (hk : Kept s0 s) (i : Iss) (ep : Fin 64) (v : VReg) (count : Fin 4) (wp : Fin
    1024) :
    Keeps s0 (execRecvV i ep v count wp s) :=
  Keeps.eccGuard hk i _ (fun _ h => Keeps.opRecvV h i ep v count wp)

theorem Keeps.execRecvDrop {s0 s : State} (hk : Kept s0 s) (i : Iss) (ep : Fin 64) (wp : Fin 1024) :
    Keeps s0 (execRecvDrop i ep wp s) :=
  Keeps.eccGuard hk i _ (fun _ h => Keeps.opRecvDrop h i ep wp)

theorem Keeps.execWaitArrived {s0 s : State} (hk : Kept s0 s) (i : Iss) (ep : Fin 64) (slot : Src) (k : Nat) (wp : Fin
    1024) :
    Keeps s0 (execWaitArrived i ep slot k wp s) :=
  Keeps.eccGuard hk i _ (fun _ h => Keeps.opWaitArrived h i ep slot k wp)

theorem Keeps.execEpReset {s0 s : State} (hk : Kept s0 s) (i : Iss) (ep : Fin 64) :
    Keeps s0 (execEpReset i ep s) :=
  Keeps.eccGuard hk i _ (fun _ h => Keeps.opEpReset h i ep)

theorem Keeps.execEpOpen {s0 s : State} (hk : Kept s0 s) (i : Iss) (ep : Fin 64) :
    Keeps s0 (execEpOpen i ep s) :=
  Keeps.eccGuard hk i _ (fun _ h => Keeps.opEpOpen h i ep)

theorem Keeps.execSignal {s0 s : State} (hk : Kept s0 s) (i : Iss) (k : Fin 64) (n : BitVec 16) :
    Keeps s0 (execSignal i k n s) :=
  Keeps.eccGuard hk i _ (fun _ h => Keeps.opSignal h i k n)

theorem Keeps.execWait {s0 s : State} (hk : Kept s0 s) (i : Iss) (k : Fin 64) (v : BitVec 16) (take : Bool) (wp : Fin
    1024) :
    Keeps s0 (execWait i k v take wp s) :=
  Keeps.eccGuard hk i _ (fun _ h => Keeps.opWait h i k v take wp)

theorem Keeps.execWatchReg {s0 s : State} (hk : Kept s0 s) (i : Iss) (handle : Fin 32) (k : Fin 64) (v : BitVec 16) :
    Keeps s0 (execWatchReg i handle k v s) :=
  Keeps.eccGuard hk i _ (fun _ h => Keeps.opWatchReg h i handle k v)

theorem Keeps.execWatchWait {s0 s : State} (hk : Kept s0 s) (i : Iss) (handle : Fin 32) (wp : Fin 1024) :
    Keeps s0 (execWatchWait i handle wp s) :=
  Keeps.eccGuard hk i _ (fun _ h => Keeps.opWatchWait h i handle wp)

theorem Keeps.execArrive {s0 s : State} (hk : Kept s0 s) (i : Iss) (b : Fin 16) :
    Keeps s0 (execArrive i b s) :=
  Keeps.eccGuard hk i _ (fun _ h => Keeps.opArrive h i b)

theorem Keeps.execBwait {s0 s : State} (hk : Kept s0 s) (i : Iss) (b : Fin 16) (wp : Fin 1024) :
    Keeps s0 (execBwait i b wp s) :=
  Keeps.eccGuard hk i _ (fun _ h => Keeps.opBwait h i b wp)

theorem Goes.execFillCopyDone {s0 s : State} (hk : Kept s0 s) (tile : TileNo) :
    Goes s0 (execFillCopyDone tile s) := by
  unfold Machine.execFillCopyDone
  grind only [← Kept.meetUpsets, ← Goes.opFillCopyDone, ← Goes.next, Kept.tile_wf]

theorem Goes.execTransferIssue {s0 s : State} (hk : Kept s0 s) (tile : TileNo) :
    Goes s0 (execTransferIssue tile s) := by
  unfold Machine.execTransferIssue
  grind only [← Kept.meetUpsets, ← Goes.opTransferIssue, ← Goes.next]

/-! ### Cycle -/

theorem Tile.openSlot_scratch (t : Tile) (slot : Byte) (b : Word) :
    (Tile.openSlot t slot b).scratch = t.scratch := by
  unfold Tile.openSlot
  grind only

theorem Tile.openNamed_scratch (t : Tile) (f : AccessFault) :
    (Tile.openNamed t f).scratch = t.scratch := by
  unfold Tile.openNamed
  grind only [= Tile.openSlot_scratch]

theorem Kept.judge {s0 s : State} (hk : Kept s0 s) (t : Nat) (old new : List RangeUse) :
    Kept s0 (State.judge s t old new) := by
  unfold State.judge
  grind only [← Kept.modTile, ← Kept.raiseAccess, = Tile.openNamed_scratch, Kept.tile_wf]

/-- Runs of bytes keep a scratchpad's canonical form. -/
theorem Tile.memWf_writeRuns (runs : List (Nat × Bytes)) (t : Tile) (h : memWf t.scratch = true) :
    memWf (runs.foldl (fun x r => x.writeScratch r.1 r.2) t).scratch = true := by
  induction runs generalizing t with
  | nil => exact h
  | cons r runs ih => exact ih _ (t.memWf_writeScratch _ _ h)

theorem Kept.applyLate {s0 a : State} (hk : Kept a s0) (t : TileNo) (l : Late) : Kept a (s0.applyLate t l) := by
  unfold State.applyLate
  extract_lets e s
  have hs : Kept a s := by
    unfold s
    split
    · exact hk.drawn _
    · exact hk
  clear_value e s
  cases e with
  | scratch runs => exact hs.modTile _ (fun x hx => x.memWf_writeRuns _ hx)
  | bits b v m => exact hs.modTile _ (fun x hx => x.memWf_writeScratch _ _ hx)
  | slotEnd ep k => exact hs.endSlot ..
  | check c regs => exact hs.checkShot ..
  | slot | scalar | p | v | m => exact hs.modTile _ (by exact fun _ hx => hx)

theorem Kept.settleLates {s0 s : State} (hk : Kept s0 s) (t : TileNo) (now : Nat) :
    Kept s0 (State.settleLates s t now) := by
  unfold State.settleLates
  grind only [← Kept.applyLate, ← Kept.modTile, ← Kept.foldl, Kept.tile_wf]

theorem Tile.countCycle_scratch (t : Tile) (suspended : Bool) :
    (Tile.countCycle t suspended).scratch = t.scratch := by
  unfold Tile.countCycle
  grind only

theorem Tile.frozenCycle_scratch (t : Tile) :
    (Tile.frozenCycle t).scratch = t.scratch := by
  unfold Tile.frozenCycle
  grind only [= Tile.countFreeze_scratch, = Tile.shift_scratch]

theorem Kept.moveEngines {s0 s : State} (hk : Kept s0 s) (t : TileNo) :
    Kept s0 (State.moveEngines s t) := by
  unfold State.moveEngines
  grind only [← Kept.cycleArray, ← Kept.cycleVector, ← Kept.modTile, ← Kept.routineReturn, = Tile.endBundle_scratch, =
      Tile.redResults_scratch]

theorem Kept.openCycle {s0 s : State} (hk : Kept s0 s) (t : TileNo) : Kept s0 (s.openCycle t) := by
  unfold State.openCycle
  extract_lets now old faulted s1 new s2
  have hs1 : Kept s0 s1 := Kept.moveEngines (hk.modTile _ (by exact fun _ hx => hx)) t
  have hs2 : Kept s0 s2 := ((hs1.meetUpsets ..).judge ..).settleLates t now
  refine hs2.modTile _ (fun x hx => ?_)
  dsimp only
  split
  · exact hx
  · rwa [Tile.countCycle_scratch]

theorem Kept.endFills {s0 s : State} (hk : Kept s0 s) (t : TileNo) :
    Kept s0 (State.endFills s t) := by
  unfold State.endFills
  grind only [← Kept.allFillsEnd, ← Kept.meetUpsets, ← Kept.modTile, Kept.tile_wf]

theorem Kept.cycleTile {s0 s : State} (hk : Kept s0 s) (t : TileNo) : Kept s0 (s.cycleTile t) := by
  unfold State.cycleTile
  extract_lets x blocked s1 s2
  have hs1 : Kept s0 s1 := by
    unfold s1
    split
    · exact hk.openCycle t
    · exact hk.modTile _ (fun x hx => by rwa [Tile.frozenCycle_scratch])
  exact (hs1.endFills t).modTile _ (fun x hx => by rwa [Tile.turn_scratch])

theorem Tile.seeBlocks_scratch (t : Tile) (now mt : DWord) :
    (Tile.seeBlocks t now mt).scratch = t.scratch := by
  unfold Tile.seeBlocks
  rfl

theorem Tile.startCycle_scratch (t : Tile) (now mt : DWord) :
    (Tile.startCycle t now mt).scratch = t.scratch := by
  unfold Tile.startCycle
  grind only [= Tile.seeBlocks_scratch]

/-! ### Tick -/

theorem Kept.seeCrossings {s0 s : State} (hk : Kept s0 s) :
    Kept s0 (State.seeCrossings s) := by
  unfold State.seeCrossings
  grind only [← Kept.drawn, ← Kept.free, ← Kept.foldl]

theorem Kept.advanceRegions {s0 s : State} (hk : Kept s0 s) :
    Kept s0 (State.advanceRegions s) := by
  unfold State.advanceRegions
  grind only [← Kept.modRegion, ← Kept.foldl]

theorem Kept.moveClocks {a s0 : State} (hk : Kept a s0) :
    Kept a (State.moveClocks s0) := by
  unfold State.moveClocks
  grind only [← Kept.advanceRegions, ← Kept.seeCrossings, ← Kept.turnBase, ← Kept.free]

theorem Kept.endWatches {s0 s : State} (hk : Kept s0 s) :
    Kept s0 (State.endWatches s) := by
  unfold State.endWatches
  grind only [← Kept.judgeWatches]

theorem Kept.tick {s0 s : State} (hk : Kept s0 s) : Kept s0 s.tick := by
  unfold State.tick
  split
  · extract_lets s1
    have hs1 : Kept s0 s1 := (Kept.foldl (fun t h => h.cycleTile t) s.runTiles hk).endWatches.moveClocks
    exact Kept.foldl (fun t h => h.modTile _ (fun x hx => by rwa [Tile.startCycle_scratch])) s.runTiles hs1
  · exact hk

/-! ### Dispatch, Step -/

/-- Every row keeps them, where it goes on. -/
theorem Keeps.exec {s0 s : State} (hk : Kept s0 s) (i : Instr) : Keeps s0 (Machine.exec i s) := by
  cases i with
  | inboxCommit offset data body => exact (Goes.execInboxCommit hk offset data body).keeps
  | mctpMessage packet body => exact (Goes.execMctpMessage hk packet body).keeps
  | outboxReplyWrite => exact (Goes.execOutboxReplyWrite hk).keeps
  | coalescingIntervalExpiry vector => exact (Goes.execCoalescingIntervalExpiry hk vector).keeps
  | sessionOpen h b => exact (Goes.execSessionOpen hk h b).keeps
  | sessionClose h => exact (Goes.execSessionClose hk h).keeps
  | nop h => exact (Goes.execNop hk h).keeps
  | identify h => exact (Goes.execIdentify hk h).keeps
  | sessionTake h b => exact (Goes.execSessionTake hk h b).keeps
  | loadImage h b body => exact (Goes.execLoadImage hk h b body).keeps
  | verifyImage h b body => exact (Goes.execVerifyImage hk h b body).keeps
  | unloadImage h handle => exact (Goes.execUnloadImage hk h handle).keeps
  | listImages h => exact (Goes.execListImages hk h).keeps
  | dmaStart h b => exact (Goes.execDmaStart hk h b).keeps
  | dmaComplete channel hostData => exact (Goes.execDmaComplete hk channel hostData).keeps
  | dmaAbort h channel => exact (Goes.execDmaAbort hk h channel).keeps
  | dmaStatus h channel => exact (Goes.execDmaStatus hk h channel).keeps
  | apertureMove h base => exact (Goes.execApertureMove hk h base).keeps
  | apertureAccess op => exact (Goes.execApertureAccess hk op).keeps
  | memoryLayout h firstBand count bands => exact (Goes.execMemoryLayout hk h firstBand count bands).keeps
  | bandZeroingDone band => exact (Goes.execBandZeroingDone hk band).keeps
  | run h b patches => exact (Goes.execRun hk h b patches).keeps
  | stop h => exact (Goes.execStop hk h).keeps
  | step h mask bundles => exact (Goes.execStep hk h mask bundles).keeps
  | stepBundlesDone tile => exact (Goes.execStepBundlesDone hk tile).keeps
  | jobConfig h checkT closure lead => exact (Goes.execJobConfig hk h checkT closure lead).keeps
  | runStatus h => exact (Goes.execRunStatus hk h).keeps
  | runEnd cause => exact (Goes.execRunEnd hk cause).keeps
  | setModuleId h id => exact (Goes.execSetModuleId hk h id).keeps
  | setDomain h b => exact (Goes.execSetDomain hk h b).keeps
  | setPairMode h mode => exact (Goes.execSetPairMode hk h mode).keeps
  | announceInitialMembership h b => exact (Goes.execAnnounceInitialMembership hk h b).keeps
  | announcePlannedChange h b => exact (Goes.execAnnouncePlannedChange hk h b).keeps
  | announceForcedChange h b => exact (Goes.execAnnounceForcedChange hk h b).keeps
  | withdrawChange h memberEpoch => exact (Goes.execWithdrawChange hk h memberEpoch).keeps
  | leaseDeliver h r => exact (Goes.execLeaseDeliver hk h r).keeps
  | portReset h port => exact (Goes.execPortReset hk h port).keeps
  | quarantineClear h => exact (Goes.execQuarantineClear hk h).keeps
  | linkStatus h => exact (Goes.execLinkStatus hk h).keeps
  | calibrate h scope r => exact (Goes.execCalibrate hk h scope r).keeps
  | calExport h offset => exact (Goes.execCalExport hk h offset).keeps
  | calImport h offset total chunk => exact (Goes.execCalImport hk h offset total chunk).keeps
  | powerPolicy h targetB capB inputLimit => exact (Goes.execPowerPolicy hk h targetB capB inputLimit).keeps
  | spdm h r => exact (Goes.execSpdm hk h r).keeps
  | enrolBuildKey h index key => exact (Goes.execEnrolBuildKey hk h index key).keeps
  | revokeBuildKey h index => exact (Goes.execRevokeBuildKey hk h index).keeps
  | signingEnforce h on => exact (Goes.execSigningEnforce hk h on).keeps
  | fwWrite h offset chunk => exact (Goes.execFwWrite hk h offset chunk).keeps
  | fwActivate h digest => exact (Goes.execFwActivate hk h digest).keeps
  | haltTiles h mask => exact (Goes.execHaltTiles hk h mask).keeps
  | resumeTiles h mask => exact (Goes.execResumeTiles hk h mask).keeps
  | readSync h object tile number => exact (Goes.execReadSync hk h object tile number).keeps
  | syncHaltTile h tile value => exact (Goes.execSyncHaltTile hk h tile value).keeps
  | syncResumeTile h tile value => exact (Goes.execSyncResumeTile hk h tile value).keeps
  | syncSetCount h tile number value => exact (Goes.execSyncSetCount hk h tile number value).keeps
  | syncAddArrivals h tile number value => exact (Goes.execSyncAddArrivals hk h tile number value).keeps
  | syncReleaseRound h tile number value => exact (Goes.execSyncReleaseRound hk h tile number value).keeps
  | syncFireWatch h tile number value => exact (Goes.execSyncFireWatch hk h tile number value).keeps
  | syncDisarmWatch h tile number value => exact (Goes.execSyncDisarmWatch hk h tile number value).keeps
  | syncResetEndpoint h tile number value => exact (Goes.execSyncResetEndpoint hk h tile number value).keeps
  | readTileState h tile set index => exact (Goes.execReadTileState hk h tile set index).keeps
  | readTelemetry h block offset => exact (Goes.execReadTelemetry hk h block offset).keeps
  | readRecord h runIndex offset => exact (Goes.execReadRecord hk h runIndex offset).keeps
  | readEventLog h start finish offset => exact (Goes.execReadEventLog hk h start finish offset).keeps
  | readFaults h offset => exact (Goes.execReadFaults hk h offset).keeps
  | readRoutines h offset => exact (Goes.execReadRoutines hk h offset).keeps
  | readCheckHist h tile => exact (Goes.execReadCheckHist hk h tile).keeps
  | readFlags h tile => exact (Goes.execReadFlags hk h tile).keeps
  | subscribe h mask => exact (Goes.execSubscribe hk h mask).keeps
  | registerWrite w => exact Keeps.execRegisterWrite hk w
  | ctrlEnWrite addr en => exact Keeps.execCtrlEnWrite hk addr en
  | ctrlMonArmWrite addr arm => exact Keeps.execCtrlMonArmWrite hk addr arm
  | monumentWrite addr value => exact Keeps.execMonumentWrite hk addr value
  | splitLoRead byFirmware addr => exact (Goes.execSplitLoRead hk byFirmware addr).keeps
  | splitLoWrite addr value => exact Keeps.execSplitLoWrite hk addr value
  | splitHiWrite addr value => exact Keeps.execSplitHiWrite hk addr value
  | w1cWrite addr value => exact Keeps.execW1cWrite hk addr value
  | postedWriteApplied addr => exact Keeps.execPostedWriteApplied hk addr
  | cfgCrcRecompute addr upset => exact (Goes.execCfgCrcRecompute hk addr upset).keeps
  | setMode iss a => exact Keeps.execSetMode hk iss a
  | loadWeights iss a => exact Keeps.execLoadWeights hk iss a
  | feed iss a => exact Keeps.execFeed hk iss a
  | finishTree iss a => exact Keeps.execFinishTree hk iss a
  | drain iss a => exact Keeps.execDrain hk iss a
  | pendingArrayOpStart tile engine => exact (Goes.execPendingArrayOpStart hk tile engine).keeps
  | arrayFreeze tile => exact (Goes.execArrayFreeze hk tile).keeps
  | vectorPass iss p => exact Keeps.execVectorPass hk iss p
  | pendingPassStart tile => exact (Goes.execPendingPassStart hk tile).keeps
  | reduction iss r => exact Keeps.execReduction hk iss r
  | reductionSegmentResult tile => exact (Goes.execReductionSegmentResult hk tile).keeps
  | combine iss a => exact Keeps.execCombine hk iss a
  | faultStop => exact (Goes.execFaultStop hk).keeps
  | scalarOp iss op => exact Keeps.execScalarOp hk iss op
  | scalarMultiply iss d a b => exact Keeps.execScalarMultiply hk iss d a b
  | readLoopIndex iss d level => exact Keeps.execReadLoopIndex hk iss d level
  | scalarLoad iss d addr region => exact Keeps.execScalarLoad hk iss d addr region
  | scalarStore iss a addr region => exact Keeps.execScalarStore hk iss a addr region
  | pBlockLoad iss first addr region => exact Keeps.execPBlockLoad hk iss first addr region
  | laneInsertExtract iss op => exact Keeps.execLaneInsertExtract hk iss op
  | loopStart iss l last => exact Keeps.execLoopStart hk iss l last
  | loopBodyEnd tile => exact (Goes.execLoopBodyEnd hk tile).keeps
  | routineCall iss id => exact Keeps.execRoutineCall hk iss id
  | routineReturn tile => exact (Goes.execRoutineReturn hk tile).keeps
  | istoreMissFill tile line => exact (Goes.execIstoreMissFill hk tile line).keeps
  | setup iss d a => exact Keeps.execSetup hk iss d a
  | start iss d => exact Keeps.execStart hk iss d
  | rearm iss d base last => exact Keeps.execRearm hk iss d base last
  | phase iss compute => exact Keeps.execPhase hk iss compute
  | fill iss a => exact Keeps.execFill hk iss a
  | copy iss a => exact Keeps.execCopy hk iss a
  | fillCopyDone tile => exact (Goes.execFillCopyDone hk tile).keeps
  | codePrefetch iss a => exact Keeps.execCodePrefetch hk iss a
  | prefetchLineArrival tile => exact (Goes.execPrefetchLineArrival hk tile).keeps
  | windowOpen iss w a => exact Keeps.execWindowOpen hk iss w a
  | windowClose iss w => exact Keeps.execWindowClose hk iss w
  | postSend iss d segment ep g => exact Keeps.execPostSend hk iss d segment ep g
  | postSendDispatch tile => exact (Goes.execPostSendDispatch hk tile).keeps
  | readyTake tile d => exact (Goes.execReadyTake hk tile d).keeps
  | transferIssue tile => exact (Goes.execTransferIssue hk tile).keeps
  | transferComplete tile tag => exact (Goes.execTransferComplete hk tile tag).keeps
  | inboundDataArrival tile => exact (Goes.execInboundDataArrival hk tile).keeps
  | holdAreaWrite tile => exact (Goes.execHoldAreaWrite hk tile).keeps
  | remoteWriteJudged tile => exact (Goes.execRemoteWriteJudged hk tile).keeps
  | windowViolation writer => exact (Goes.execWindowViolation hk writer).keeps
  | sendG iss a g => exact Keeps.execSendG hk iss a g
  | sendV iss a v count => exact Keeps.execSendV hk iss a v count
  | recvG iss ep g wp => exact Keeps.execRecvG hk iss ep g wp
  | recvV iss ep v count wp => exact Keeps.execRecvV hk iss ep v count wp
  | recvDrop iss ep wp => exact Keeps.execRecvDrop hk iss ep wp
  | waitArrived iss ep slot k wp => exact Keeps.execWaitArrived hk iss ep slot k wp
  | epReset iss ep => exact Keeps.execEpReset hk iss ep
  | epOpen iss ep => exact Keeps.execEpOpen hk iss ep
  | messageArrival tile ep => exact (Goes.execMessageArrival hk tile ep).keeps
  | creditArrival tile ep => exact (Goes.execCreditArrival hk tile ep).keeps
  | closingNoticeArrival tile ep => exact (Goes.execClosingNoticeArrival hk tile ep).keeps
  | openingNoticeArrival tile ep => exact (Goes.execOpeningNoticeArrival hk tile ep).keeps
  | discardReportArrival tile ep => exact (Goes.execDiscardReportArrival hk tile ep).keeps
  | signal iss sem n => exact Keeps.execSignal hk iss sem n
  | wait iss sem v take wp => exact Keeps.execWait hk iss sem v take wp
  | watchReg iss handle sem v => exact Keeps.execWatchReg hk iss handle sem v
  | watchRegArrival waiter handle => exact (Goes.execWatchRegArrival hk waiter handle).keeps
  | watchFiredArrival waiter handle => exact (Goes.execWatchFiredArrival hk waiter handle).keeps
  | watchWait iss handle wp => exact Keeps.execWatchWait hk iss handle wp
  | arrive iss b => exact Keeps.execArrive hk iss b
  | bwait iss b wp => exact Keeps.execBwait hk iss b wp
  | barrierCounterArrival b => exact (Goes.execBarrierCounterArrival hk b).keeps
  | barrierReleaseArrival b => exact (Goes.execBarrierReleaseArrival hk b).keeps
  | hang tile u => exact (Goes.execHang hk tile u).keeps
  | hangReport => exact (Goes.execHangReport hk).keeps
  | scheduleFlitError link => exact (Goes.execScheduleFlitError hk link).keeps
  | d2dMemoryRetry link => exact (Goes.execD2dMemoryRetry hk link).keeps
  | hbmRequestIntake stack => exact (Goes.execHbmRequestIntake hk stack).keeps
  | hbmReadReturn stack err => exact (Goes.execHbmReadReturn hk stack err).keeps
  | refresh stack channel => exact (Goes.execRefresh hk stack channel).keeps
  | phyTracking stack channel => exact (Goes.execPhyTracking hk stack channel).keeps
  | patrolScrub stack err => exact (Goes.execPatrolScrub hk stack err).keeps
  | stackStatusRead stack temp => exact (Goes.execStackStatusRead hk stack temp).keeps
  | gatedRead stack => exact (Goes.execGatedRead hk stack).keeps
  | markWrite stack => exact (Goes.execMarkWrite hk stack).keeps
  | updatePassComplete stack entry => exact (Goes.execUpdatePassComplete hk stack entry).keeps
  | fingerprintRecord stack => exact (Goes.execFingerprintRecord hk stack).keeps
  | stepDigestFormed step => exact (Goes.execStepDigestFormed hk step).keeps
  | linkBringup port lanes cap => exact (Goes.execLinkBringup hk port lanes cap).keeps
  | controlFlit port f => exact (Goes.execControlFlit hk port f).keeps
  | retryTimeout port => exact (Goes.execRetryTimeout hk port).keeps
  | chainPacketReceive port p => exact (Goes.execChainPacketReceive hk port p).keeps
  | data port => exact (Goes.execData hk port).keeps
  | credit port => exact (Goes.execCredit hk port).keeps
  | close port => exact (Goes.execClose hk port).keeps
  | openNotice port => exact (Goes.execOpenNotice hk port).keeps
  | noEndpoint port => exact (Goes.execNoEndpoint hk port).keeps
  | barrierArrive port => exact (Goes.execBarrierArrive hk port).keeps
  | barrierRelease port => exact (Goes.execBarrierRelease hk port).keeps
  | sync port ingress => exact (Goes.execSync hk port ingress).keeps
  | mgmt port m => exact (Goes.execMgmt hk port m).keeps
  | syncExchangeTimer => exact (Goes.execSyncExchangeTimer hk).keeps
  | creditFlush port => exact (Goes.execCreditFlush hk port).keeps
  | linkDown port f => exact (Goes.execLinkDown hk port f).keeps
  | linkRetrainTimer port ok => exact (Goes.execLinkRetrainTimer hk port ok).keeps
  | heartbeatTimer => exact (Goes.execHeartbeatTimer hk).keeps
  | heartbeat port => exact (Goes.execHeartbeat hk port).keeps
  | twinLost => exact (Goes.execTwinLost hk).keeps
  | closure port => exact (Goes.execClosure hk port).keeps
  | leaseRenewTimer => exact (Goes.execLeaseRenewTimer hk).keeps
  | leaseReply r => exact (Goes.execLeaseReply hk r).keeps
  | leaseTermEnd => exact (Goes.execLeaseTermEnd hk).keeps
  | epochSwitch => exact (Goes.execEpochSwitch hk).keeps
  | stateTransfer plans moved digest => exact (Goes.execStateTransfer hk plans moved digest).keeps
  | stretchToken region period sem => exact (Goes.execStretchToken hk region period sem).keeps
  | targetToken base first => exact (Goes.execTargetToken hk base first).keeps
  | baseChange => exact (Goes.execBaseChange hk).keeps
  | crossingSlip link => exact (Goes.execCrossingSlip hk link).keeps
  | marginPolicy r => exact (Goes.execMarginPolicy hk r).keeps
  | rootLock => exact (Goes.execRootLock hk).keeps
  | rootUnlock => exact (Goes.execRootUnlock hk).keeps
  | datumPulse => exact (Goes.execDatumPulse hk).keeps
  | meridianCompare => exact (Goes.execMeridianCompare hk).keeps
  | thermalPolicy r => exact (Goes.execThermalPolicy hk r).keeps
  | inputPowerWindow watts => exact (Goes.execInputPowerWindow hk watts).keeps
  | logCommit ok => exact (Goes.execLogCommit hk ok).keeps
  | supplySample r => exact (Goes.execSupplySample hk r).keeps
  | flashOperationDone op => exact (Goes.execFlashOperationDone hk op).keeps
  | powerFailReset => exact (Goes.execPowerFailReset hk).keeps
  | inputLoss => exact (Goes.execInputLoss hk).keeps
  | powerUp => exact (Goes.execPowerUp hk).keeps
  | mrst => exact (Goes.execMrst hk).keeps
  | resetRelease => exact (Goes.execResetRelease hk).keeps
  | perst => exact (Goes.execPerst hk).keeps
  | flr => exact (Goes.execFlr hk).keeps
  | i3cLoss => exact (Goes.execI3cLoss hk).keeps
  | boot => exact (Goes.execBoot hk).keeps
  | rollbackAdvance => exact (Goes.execRollbackAdvance hk).keeps
  | replicaMarginStretch region codes => exact (Goes.execReplicaMarginStretch hk region codes).keeps
  | pcieLinkTraining rate width => exact (Goes.execPcieLinkTraining hk rate width).keeps

/-- What an outcome that goes on keeps. -/
theorem exec_kept {s t : State} {i : Instr} (h : exec i s = .next t) : Kept s t := by
  have hkeeps := Keeps.exec (Kept.refl s) i
  rw [h] at hkeeps
  exact hkeeps.of_next

/-- What a step keeps, on a queue that is empty and on one that is not. -/
theorem step_kept {s t : State} (h : step s = .next t) : Kept { s with pending := s.pending.tail } t := by
  unfold step at h
  split at h
  case h_1 hempty =>
    split at h
    · cases h
    · cases h
      have htail : s.pending.tail = s.pending := by rw [hempty, List.tail_nil]
      rw [htail]
      exact (Kept.refl s).tick
  case h_2 c rest hqueue =>
    simpa [hqueue] using exec_kept h

/-- Settles O58: a step keeps what `Kept` says, which an operation after another one keeps too; so it is shown of each
operation of the model, and of each row of the table through the operations that it is made of. -/
theorem fixedStateIsKept : Obligations.FixedStateIsKept := by
  unfold Obligations.FixedStateIsKept
  exact ⟨fun s t h => ⟨(step_kept h).fixed, (step_kept h).pending⟩, fun s t h => (step_kept h).rollback⟩

/-- Settles O59: the last field of `Kept`, which every store of the model keeps because `memWf_writeBytes` and its like
    do. -/
theorem stepsKeepTheStores : Obligations.StepsKeepTheStores := by
  unfold Obligations.StepsKeepTheStores
  exact fun s t hwf h => (step_kept h).stores hwf

end Sys2Proof.Machine
end

section
/-! PROOFS. What an operation may change of the module's state, part by part. -/

namespace Sys2Proof.Machine

set_option Elab.async false

/-- The parts of the module's state that an operation may change. -/
inductive Part where
  | fuses | tiles | net | hbm | stackMap | memNet | mem | ports | domain | held | pair | datum | clock | sessions | replies | jobs | host
  | faults | run | blocks | hostLock | hostWign | log | mgp | fwFault | sec | power | routines | freeCtr | pending
  deriving DecidableEq

/-- The memory without HBM, its stacks and its network. -/
def MemState.rest (x : MemState) : MemState := { x with hbm := [], stackMap := [], net := [] }
/-- The domain without its ports. -/
def DomainState.rest (x : DomainState) : DomainState := { x with ports := [] }
/-- The pair without its held packets. -/
def PairState.rest (x : PairState) : PairState := { x with heldPackets := [] }
/-- The clocks without the request for a datum pulse. -/
def ClockState.rest (x : ClockState) : ClockState := { x with datumReq := false }
/-- The sessions of the host interface. -/
def HostState.sessions (x : HostState) : Option Session × Option Session × Word := (x.pcie, x.mctp, x.nextSession)
/-- The replies and notices of the host interface. -/
def HostState.replies (x : HostState) : List Reply × List Reply × Word × Nat :=
  (x.waiting, x.mctpSent, x.unsolicitedDropped, x.mctpOutstanding)
/-- The jobs of the host interface, and the ends of runs that wait for an owner. -/
def HostState.jobPart (x : HostState) : SMap Job × List Reply := (x.jobs, x.runEnded)
/-- The host interface without its sessions, replies and jobs. -/
def HostState.rest (x : HostState) : HostState :=
  { x with pcie := none, mctp := none, nextSession := 0, waiting := [], mctpSent := [], unsolicitedDropped := 0,
           mctpOutstanding := 0, jobs := [], runEnded := [] }
/-- The run without its fault records. -/
def RunRec.rest (x : RunRec) : RunRec := { x with faults := [] }
/-- The management processor without the ring of the event log. -/
def MgpState.rest (x : MgpState) : MgpState :=
  { x with logRing := [], logSeq := 0, overflowEpisode := false, overflowCount := 0 }
/-- The ring of the event log. -/
def MgpState.ring (x : MgpState) : List LogEntry × Word × Bool × Word := (x.logRing, x.logSeq, x.overflowEpisode, x.overflowCount)
/-- The security block without the mark of a fault of firmware's own. -/
def SecState.rest (x : SecState) : SecState := { x with fwFault := false }

/-- A part of two states is the same. -/
def Part.same (s t : State) : Part → Prop
  | fuses => t.fuses = s.fuses
  | tiles => t.tiles = s.tiles
  | net => t.net = s.net
  | hbm => t.mem.hbm = s.mem.hbm
  | stackMap => t.mem.stackMap = s.mem.stackMap
  | memNet => t.mem.net = s.mem.net
  | mem => t.mem.rest = s.mem.rest
  | ports => t.domain.ports = s.domain.ports
  | domain => t.domain.rest = s.domain.rest
  | held => t.pair.heldPackets = s.pair.heldPackets
  | pair => t.pair.rest = s.pair.rest
  | datum => t.clock.datumReq = s.clock.datumReq
  | clock => t.clock.rest = s.clock.rest
  | sessions => t.host.sessions = s.host.sessions
  | replies => t.host.replies = s.host.replies
  | jobs => t.host.jobPart = s.host.jobPart
  | host => t.host.rest = s.host.rest
  | faults => t.run.faults = s.run.faults
  | run => t.run.rest = s.run.rest
  | blocks => t.blocks = s.blocks
  | hostLock => t.hostLock = s.hostLock
  | hostWign => t.hostWign = s.hostWign
  | log => t.mgp.ring = s.mgp.ring
  | mgp => t.mgp.rest = s.mgp.rest
  | fwFault => t.sec.fwFault = s.sec.fwFault
  | sec => t.sec.rest = s.sec.rest
  | power => t.power = s.power
  | routines => t.routines = s.routines
  | freeCtr => t.freeCtr = s.freeCtr
  | pending => t.pending = s.pending

/-- Only the parts listed have changed. -/
def Only (P : List Part) (s t : State) : Prop := ∀ p, p ∉ P → p.same s t

namespace Only

variable {P : List Part} {s0 s t : State}

theorem refl (P : List Part) (s : State) : Only P s s := fun p _ => by cases p <;> rfl

theorem trans {u : State} (h : Only P s t) (g : Only P t u) : Only P s u := fun p hp => by
  have h1 := h p hp
  have h2 := g p hp
  cases p <;> exact h2.trans h1

theorem mono {Q : List Part} (h : Only P s t) (hPQ : P ⊆ Q) : Only Q s t := fun p hp => h p (fun hm => hp (hPQ hm))

/-- An update of a state: each part is listed, or as before. -/
theorem put (h : Only P s0 s) {tiles : SMap Tile} {net : NetState} {mem : MemState} {domain : DomainState} {pair : PairState}
    {clock : ClockState} {host : HostState} {run : RunRec} {blocks : SMap Block} {hostLock : Bool} {hostWign : Word}
    {mgp : MgpState} {sec : SecState} {power : PowerState} {routines : List Routine} {freeCtr : Nat} {pending : List Instr}
    (h1 : .tiles ∈ P ∨ tiles = s.tiles) (h2 : .net ∈ P ∨ net = s.net) (h3 : .hbm ∈ P ∨ mem.hbm = s.mem.hbm)
    (h4 : .stackMap ∈ P ∨ mem.stackMap = s.mem.stackMap) (h5 : .memNet ∈ P ∨ mem.net = s.mem.net)
    (h6 : .mem ∈ P ∨ mem.rest = s.mem.rest) (h7 : .ports ∈ P ∨ domain.ports = s.domain.ports)
    (h8 : .domain ∈ P ∨ domain.rest = s.domain.rest) (h9 : .held ∈ P ∨ pair.heldPackets = s.pair.heldPackets)
    (h10 : .pair ∈ P ∨ pair.rest = s.pair.rest) (h11 : .datum ∈ P ∨ clock.datumReq = s.clock.datumReq)
    (h12 : .clock ∈ P ∨ clock.rest = s.clock.rest) (h13 : .sessions ∈ P ∨ host.sessions = s.host.sessions)
    (h13a : .replies ∈ P ∨ host.replies = s.host.replies) (h13b : .jobs ∈ P ∨ host.jobPart = s.host.jobPart)
    (h13c : .host ∈ P ∨ host.rest = s.host.rest)
    (h14 : .faults ∈ P ∨ run.faults = s.run.faults) (h15 : .run ∈ P ∨ run.rest = s.run.rest)
    (h16 : .blocks ∈ P ∨ blocks = s.blocks) (h17 : .hostLock ∈ P ∨ hostLock = s.hostLock)
    (h18 : .hostWign ∈ P ∨ hostWign = s.hostWign) (h19 : .log ∈ P ∨ mgp.ring = s.mgp.ring)
    (h20 : .mgp ∈ P ∨ mgp.rest = s.mgp.rest) (h21 : .fwFault ∈ P ∨ sec.fwFault = s.sec.fwFault)
    (h22 : .sec ∈ P ∨ sec.rest = s.sec.rest) (h23 : .power ∈ P ∨ power = s.power)
    (h24 : .routines ∈ P ∨ routines = s.routines) (h25 : .freeCtr ∈ P ∨ freeCtr = s.freeCtr)
    (h26 : .pending ∈ P ∨ pending = s.pending) :
    Only P s0 { fuses := s.fuses, tiles, net, mem, domain, pair, clock, host, run, blocks, hostLock, hostWign, mgp, sec, power,
                routines, freeCtr, pending } := by
  refine h.trans (fun p hp => ?_)
  cases p with
  | fuses => rfl
  | _ => exact Or.resolve_left (by assumption) hp

/-! ### Updates of the parts -/

theorem setTile (h : Only P s0 s) (k : Nat) (x : Tile) (hTiles : .tiles ∈ P := by decide) : Only P s0 (s.setTile k x) := by
  unfold State.setTile
  grind only [← Only.put]

theorem modTile (h : Only P s0 s) (k : Nat) (f : Tile → Tile) (hTiles : .tiles ∈ P := by decide) : Only P s0 (s.modTile k f) :=
  h.setTile k _ hTiles

theorem mapTiles (h : Only P s0 s) (f : Tile → Tile) (hTiles : .tiles ∈ P := by decide) : Only P s0 (s.mapTiles f) := by
  unfold State.mapTiles
  grind only [← Only.put]

theorem setStack (h : Only P s0 s) (k : Nat) (x : Stack) (hStackMap : .stackMap ∈ P := by decide) :
    Only P s0 (s.setStack k x) := by
  unfold State.setStack
  grind only [← Only.put, MemState.rest]

theorem modStack (h : Only P s0 s) (k : Nat) (f : Stack → Stack) (hStackMap : .stackMap ∈ P := by decide) :
    Only P s0 (s.modStack k f) :=
  h.setStack k _ hStackMap

theorem setPort (h : Only P s0 s) (p : Nat) (x : Port) (hPorts : .ports ∈ P := by decide) : Only P s0 (s.setPort p x) := by
  unfold State.setPort
  grind only [← Only.put, DomainState.rest]

theorem modPort (h : Only P s0 s) (p : Nat) (f : Port → Port) (hPorts : .ports ∈ P := by decide) : Only P s0 (s.modPort p f) :=
  h.setPort p _ hPorts

theorem modRegion (h : Only P s0 s) (r : Nat) (f : RegionState → RegionState) (hClock : .clock ∈ P := by decide) :
    Only P s0 (s.modRegion r f) := by
  unfold State.modRegion
  grind only [← Only.put, ClockState.rest]

theorem modBlock (h : Only P s0 s) (b : Nat) (f : Block → Block) (hBlocks : .blocks ∈ P := by decide) :
    Only P s0 (s.modBlock b f) := by
  unfold State.modBlock
  grind only [← Only.put]

theorem setHbm (h : Only P s0 s) (m : Memory) (hHbm : .hbm ∈ P := by decide) : Only P s0 (s.setHbm m) := by
  unfold State.setHbm
  grind only [← Only.put, MemState.rest]

theorem writeHbm (h : Only P s0 s) (a : Nat) (bs : Bytes) (hHbm : .hbm ∈ P := by decide) : Only P s0 (s.writeHbm a bs) :=
  h.setHbm _ hHbm

theorem drawn (h : Only P s0 s) (n : Nat) (hFreeCtr : .freeCtr ∈ P := by decide) : Only P s0 (s.drawn n) := by
  unfold State.drawn
  grind only [← Only.put]

theorem putNet (h : Only P s0 s) (x : NetState) (hNet : .net ∈ P := by decide) : Only P s0 { s with net := x } := by
  grind only [← Only.put]

/-- The pair changes but for its held packets. -/
theorem putPair (h : Only P s0 s) (x : PairState) (hheld : x.heldPackets = s.pair.heldPackets)
    (hPair : .pair ∈ P := by decide) : Only P s0 { s with pair := x } := by
  grind only [← Only.put]

/-- The management processor changes but for the ring of the event log. -/
theorem putMgp (h : Only P s0 s) (x : MgpState) (hring : x.ring = s.mgp.ring) (hMgp : .mgp ∈ P := by decide) :
    Only P s0 { s with mgp := x } := by
  grind only [← Only.put]

/-- The security block changes but for the mark of a fault of firmware's own. -/
theorem putSec (h : Only P s0 s) (x : SecState) (hmark : x.fwFault = s.sec.fwFault) (hSec : .sec ∈ P := by decide) :
    Only P s0 { s with sec := x } := by
  grind only [← Only.put]

/-- Folds of operations that change only the parts listed. -/
theorem foldl {α : Type} {f : State → α → State} (hf : ∀ {s : State} (x : α), Only P s0 s → Only P s0 (f s x)) (l : List α)
    (h : Only P s0 s) : Only P s0 (l.foldl f s) := by
  induction l generalizing s with
  | nil => exact h
  | cons x l ih => exact ih (hf x h)

/-! ### What is as before -/

theorem tiles (h : Only P s t) (hp : .tiles ∉ P := by decide) : t.tiles = s.tiles := h .tiles hp
theorem net (h : Only P s t) (hp : .net ∉ P := by decide) : t.net = s.net := h .net hp
theorem hbm (h : Only P s t) (hp : .hbm ∉ P := by decide) : t.mem.hbm = s.mem.hbm := h .hbm hp
theorem stackMap (h : Only P s t) (hp : .stackMap ∉ P := by decide) : t.mem.stackMap = s.mem.stackMap := h .stackMap hp
theorem memNet (h : Only P s t) (hp : .memNet ∉ P := by decide) : t.mem.net = s.mem.net := h .memNet hp
theorem sessions (h : Only P s t) (hp : .sessions ∉ P := by decide) : t.host.sessions = s.host.sessions := h .sessions hp
theorem replies (h : Only P s t) (hp : .replies ∉ P := by decide) : t.host.replies = s.host.replies := h .replies hp
theorem jobPart (h : Only P s t) (hp : .jobs ∉ P := by decide) : t.host.jobPart = s.host.jobPart := h .jobs hp
theorem hostRest (h : Only P s t) (hp : .host ∉ P := by decide) : t.host.rest = s.host.rest := h .host hp
theorem blocks (h : Only P s t) (hp : .blocks ∉ P := by decide) : t.blocks = s.blocks := h .blocks hp
theorem power (h : Only P s t) (hp : .power ∉ P := by decide) : t.power = s.power := h .power hp
theorem faults (h : Only P s t) (hp : .faults ∉ P := by decide) : t.run.faults = s.run.faults := h .faults hp
theorem domainRest (h : Only P s t) (hp : .domain ∉ P := by decide) : t.domain.rest = s.domain.rest := h .domain hp
theorem clockRest (h : Only P s t) (hp : .clock ∉ P := by decide) : t.clock.rest = s.clock.rest := h .clock hp
theorem region (h : Only P s t) (r : Nat) (hp : .clock ∉ P := by decide) : t.region r = s.region r := by
  have hregions := congrArg ClockState.regions (h.clockRest hp)
  exact congrArg (fun m => mget RegionState.reset m r) hregions
theorem mgpRest (h : Only P s t) (hp : .mgp ∉ P := by decide) : t.mgp.rest = s.mgp.rest := h .mgp hp
theorem memRest (h : Only P s t) (hp : .mem ∉ P := by decide) : t.mem.rest = s.mem.rest := h .mem hp

theorem mem (h : Only P s t) (hp : Part.mem ∉ P ∧ .hbm ∉ P ∧ .stackMap ∉ P ∧ .memNet ∉ P := by decide) : t.mem = s.mem := by
  obtain ⟨hrest, hhbm, hstack, hnet⟩ := hp
  have h1 := congrArg (fun x => { x with hbm := t.mem.hbm, stackMap := t.mem.stackMap, net := t.mem.net }) (h.memRest hrest)
  have h2 : t.mem = { s.mem with hbm := t.mem.hbm, stackMap := t.mem.stackMap, net := t.mem.net } := h1
  rw [h2, h.hbm hhbm, h.stackMap hstack, h.memNet hnet]

theorem host (h : Only P s t) (hp : Part.host ∉ P ∧ .sessions ∉ P ∧ .replies ∉ P ∧ .jobs ∉ P := by decide) : t.host = s.host := by
  obtain ⟨hrest, hsessions, hreplies, hjobs⟩ := hp
  have h1 := h.sessions hsessions
  have h2 := h.replies hreplies
  have h3 := h.jobPart hjobs
  simp only [HostState.sessions, HostState.replies, HostState.jobPart, Prod.mk.injEq] at h1 h2 h3
  obtain ⟨hpcie, hmctp, hnext⟩ := h1
  obtain ⟨hwaiting, hsent, hdropped, hout⟩ := h2
  obtain ⟨hj, hended⟩ := h3
  have h4 : t.host =
      { s.host with pcie := t.host.pcie, mctp := t.host.mctp, nextSession := t.host.nextSession, waiting := t.host.waiting,
                    mctpSent := t.host.mctpSent, unsolicitedDropped := t.host.unsolicitedDropped,
                    mctpOutstanding := t.host.mctpOutstanding, jobs := t.host.jobs, runEnded := t.host.runEnded } :=
    congrArg (fun x => { x with pcie := t.host.pcie, mctp := t.host.mctp, nextSession := t.host.nextSession,
                                waiting := t.host.waiting, mctpSent := t.host.mctpSent,
                                unsolicitedDropped := t.host.unsolicitedDropped,
                                mctpOutstanding := t.host.mctpOutstanding, jobs := t.host.jobs,
                                runEnded := t.host.runEnded }) (h.hostRest hrest)
  rw [h4, hpcie, hmctp, hnext, hwaiting, hsent, hdropped, hout, hj, hended]

theorem domain (h : Only P s t) (hp : Part.domain ∉ P ∧ .ports ∉ P := by decide) : t.domain = s.domain := by
  have h1 : t.domain = { s.domain with ports := t.domain.ports } :=
    congrArg (fun x => { x with ports := t.domain.ports }) (h .domain hp.1)
  rw [h1, show t.domain.ports = s.domain.ports from h .ports hp.2]

theorem pair (h : Only P s t) (hp : Part.pair ∉ P ∧ .held ∉ P := by decide) : t.pair = s.pair := by
  have h1 : t.pair = { s.pair with heldPackets := t.pair.heldPackets } :=
    congrArg (fun x => { x with heldPackets := t.pair.heldPackets }) (h .pair hp.1)
  rw [h1, show t.pair.heldPackets = s.pair.heldPackets from h .held hp.2]

theorem clock (h : Only P s t) (hp : Part.clock ∉ P ∧ .datum ∉ P := by decide) : t.clock = s.clock := by
  have h1 : t.clock = { s.clock with datumReq := t.clock.datumReq } :=
    congrArg (fun x => { x with datumReq := t.clock.datumReq }) (h .clock hp.1)
  rw [h1, show t.clock.datumReq = s.clock.datumReq from h .datum hp.2]

theorem run (h : Only P s t) (hp : Part.run ∉ P ∧ .faults ∉ P := by decide) : t.run = s.run := by
  have h1 : t.run = { s.run with faults := t.run.faults } :=
    congrArg (fun x => { x with faults := t.run.faults }) (h .run hp.1)
  rw [h1, show t.run.faults = s.run.faults from h .faults hp.2]

theorem sec (h : Only P s t) (hp : Part.sec ∉ P ∧ .fwFault ∉ P := by decide) : t.sec = s.sec := by
  have h1 : t.sec = { s.sec with fwFault := t.sec.fwFault } :=
    congrArg (fun x => { x with fwFault := t.sec.fwFault }) (h .sec hp.1)
  rw [h1, show t.sec.fwFault = s.sec.fwFault from h .fwFault hp.2]

theorem mgp (h : Only P s t) (hp : Part.mgp ∉ P ∧ .log ∉ P := by decide) : t.mgp = s.mgp := by
  have hring : t.mgp.ring = s.mgp.ring := h .log hp.2
  simp only [MgpState.ring, Prod.mk.injEq] at hring
  obtain ⟨h1, h2, h3, h4⟩ := hring
  have h5 : t.mgp = { s.mgp with logRing := t.mgp.logRing, logSeq := t.mgp.logSeq, overflowEpisode := t.mgp.overflowEpisode,
                                 overflowCount := t.mgp.overflowCount } :=
    congrArg (fun x => { x with logRing := t.mgp.logRing, logSeq := t.mgp.logSeq, overflowEpisode := t.mgp.overflowEpisode,
                                overflowCount := t.mgp.overflowCount }) (h .mgp hp.1)
  rw [h5, h1, h2, h3, h4]

end Only

theorem MgpState.push_rest (m : MgpState) (e : LogEntry) : (m.push e).rest = m.rest := by
  unfold MgpState.push
  split <;> rfl

theorem MgpState.foldl_push_rest {α : Type} (f : α → LogEntry) (l : List α) (m : MgpState) :
    (l.foldl (fun m x => m.push (f x)) m).rest = m.rest := by
  induction l generalizing m with
  | nil => rfl
  | cons x l ih => exact (ih _).trans (m.push_rest _)

theorem State.logCode_mgp_rest (s : State) (code : BitVec 16) (cls : Nat) (severity : Fin 4) (source : BitVec 16)
    (payload : Bytes) : (s.logCode code cls severity source payload).mgp.rest = s.mgp.rest := by
  unfold State.logCode
  extract_lets pieces mk folded mgp first pushed mgp'
  have hmgp : mgp.rest = s.mgp.rest := MgpState.foldl_push_rest mk pieces s.mgp
  change mgp'.rest = s.mgp.rest
  unfold mgp'
  split
  · exact (MgpState.push_rest _ _).trans hmgp
  · exact hmgp

/-- Posting a notice changes the replies alone. -/
theorem HostState.postUnsolicited_parts (h : HostState) (path : Path) (opcode : BitVec 16) (vector : BitVec 4) (body : Bytes) :
    (h.postUnsolicited path opcode vector body).sessions = h.sessions ∧
    (h.postUnsolicited path opcode vector body).jobPart = h.jobPart ∧
    (h.postUnsolicited path opcode vector body).rest = h.rest := by
  unfold HostState.postUnsolicited
  cases path with
  | mctp => exact ⟨rfl, rfl, rfl⟩
  | pcie =>
    dsimp only
    split <;> exact ⟨rfl, rfl, rfl⟩

theorem HostState.postUnsolicited_sessions (h : HostState) (path : Path) (opcode : BitVec 16) (vector : BitVec 4)
    (body : Bytes) : (h.postUnsolicited path opcode vector body).sessions = h.sessions :=
  (h.postUnsolicited_parts path opcode vector body).1

theorem HostState.postUnsolicited_jobPart (h : HostState) (path : Path) (opcode : BitVec 16) (vector : BitVec 4)
    (body : Bytes) : (h.postUnsolicited path opcode vector body).jobPart = h.jobPart :=
  (h.postUnsolicited_parts path opcode vector body).2.1

theorem HostState.postUnsolicited_rest (h : HostState) (path : Path) (opcode : BitVec 16) (vector : BitVec 4)
    (body : Bytes) : (h.postUnsolicited path opcode vector body).rest = h.rest :=
  (h.postUnsolicited_parts path opcode vector body).2.2

/-- Posting an event changes the replies alone. -/
theorem HostState.postEvent_parts (h : HostState) (cls : Nat) (body : Bytes) :
    (h.postEvent cls body).sessions = h.sessions ∧ (h.postEvent cls body).jobPart = h.jobPart ∧
    (h.postEvent cls body).rest = h.rest := by
  have hpost (h : HostState) := fun path vector => h.postUnsolicited_parts path 0x8880 vector body
  unfold HostState.postEvent
  grind only

theorem Only.logCode {P : List Part} {s0 s : State} (h : Only P s0 s) (code : BitVec 16) (cls : Nat) (severity : Fin 4)
    (source : BitVec 16) (payload : Bytes) (hLog : .log ∈ P := by decide) (hReplies : .replies ∈ P := by decide) :
    Only P s0 (s.logCode code cls severity source payload) :=
  have hpost := s.host.postEvent_parts cls
  h.put (.inr rfl) (.inr rfl) (.inr rfl) (.inr rfl) (.inr rfl) (.inr rfl) (.inr rfl) (.inr rfl) (.inr rfl) (.inr rfl)
    (.inr rfl) (.inr rfl) (.inr (hpost _).1) (.inl hReplies) (.inr (hpost _).2.1) (.inr (hpost _).2.2) (.inr rfl) (.inr rfl)
    (.inr rfl) (.inr rfl) (.inr rfl) (.inl hLog) (.inr (s.logCode_mgp_rest code cls severity source payload)) (.inr rfl)
    (.inr rfl) (.inr rfl) (.inr rfl) (.inr rfl) (.inr rfl)

/-- The host posts a notice. -/
theorem Only.postUnsolicited {P : List Part} {s0 s : State} (h : Only P s0 s) (path : Path) (opcode : BitVec 16)
    (vector : BitVec 4) (body : Bytes) (hReplies : .replies ∈ P := by decide) :
    Only P s0 { s with host := s.host.postUnsolicited path opcode vector body } := by
  grind only [← Only.put, HostState.postUnsolicited_sessions, HostState.postUnsolicited_jobPart,
    HostState.postUnsolicited_rest]

end Sys2Proof.Machine
end

section
/-! PROOFS. Which parts of the state the operations of the model may change (`Only`), part 1 of 2. -/

namespace Sys2Proof.Machine

set_option Elab.async false

/-! ### Ops -/

theorem Only.event {P : List Part} {s0 s : State} (hk : Only P s0 s) (e : Event) (source : BitVec 16) (payload : Bytes)
    (hReplies : .replies ∈ P := by decide) (hLog : .log ∈ P := by decide) :
    Only P s0 (State.event s e source payload) := by
  unfold State.event
  grind only [← Only.logCode]

theorem Only.raiseContract {P : List Part} {s0 s : State} (hk : Only P s0 s) (t : Nat) (code : BitVec 16) (slot : Byte)
    (more : Bool) (bundle : Word) (offending detail : DWord) (hTiles : .tiles ∈ P := by decide)
    (hFaults : .faults ∈ P := by decide) :
    Only P s0 (State.raiseContract s t code slot more bundle offending detail) := by
  unfold State.raiseContract
  grind only [← Only.modTile, ← Only.put, RunRec.rest, = State.modTile_run]

theorem Only.contractFault {P : List Part} {s0 s : State} (hk : Only P s0 s) (t : Nat) (code : BitVec 16) (slot : Byte)
    (bundle : Word) (offending detail : DWord) (hTiles : .tiles ∈ P := by decide) (hFaults : .faults ∈ P := by decide) :
    Only P s0 (State.contractFault s t code slot bundle offending detail) := by
  unfold State.contractFault
  grind only [← Only.raiseContract]

theorem Only.setSession {P : List Part} {s0 s : State} (hk : Only P s0 s) (p : Path) (x : Option Session)
    (hSessions : .sessions ∈ P := by decide) :
    Only P s0 (State.setSession s p x) := by
  unfold State.setSession
  grind only [← Only.put, HostState.rest, HostState.sessions, HostState.replies, HostState.jobPart]

theorem Only.postReply {P : List Part} {s0 s : State} (hk : Only P s0 s) (r : Reply)
    (hReplies : .replies ∈ P := by decide) :
    Only P s0 (State.postReply s r) := by
  unfold State.postReply
  grind only [← Only.put, HostState.rest, HostState.sessions, HostState.replies, HostState.jobPart]

theorem Only.answer {P : List Part} {s0 s : State} (hk : Only P s0 s) (h : Hdr) (opcode status : BitVec 16)
    (final : Bool) (body : Bytes) (hReplies : .replies ∈ P := by decide) :
    Only P s0 (State.answer s h opcode status final body) := by
  unfold State.answer
  grind only [← Only.postReply]

theorem Only.reply {P : List Part} {s0 s : State} (hk : Only P s0 s) (h : Hdr) (opcode status : BitVec 16)
    (final : Bool) (body : Bytes) (hReplies : .replies ∈ P := by decide) :
    Only P s0 (State.reply s h opcode status final body) := by
  unfold State.reply
  grind only [← Only.answer]

theorem Only.ok {P : List Part} {s0 s : State} (hk : Only P s0 s) (h : Hdr) (opcode : BitVec 16) (body : Bytes)
    (hReplies : .replies ∈ P := by decide) :
    Only P s0 (State.ok s h opcode body) := by
  unfold State.ok
  grind only [← Only.reply]

theorem Only.fail {P : List Part} {s0 s : State} (hk : Only P s0 s) (h : Hdr) (opcode status : BitVec 16)
    (field reason value : Nat) (hReplies : .replies ∈ P := by decide) :
    Only P s0 (State.fail s h opcode status field reason value) := by
  unfold State.fail
  grind only [← Only.reply]

/-! ### PortOps -/

theorem Only.assignParcels {P : List Part} {s0 s : State} (hk : Only P s0 s) (hRun : .run ∈ P := by decide) :
    Only P s0 (State.assignParcels s) := by
  unfold State.assignParcels
  grind only [← Only.put, RunRec.rest]

theorem Only.pumpPort {P : List Part} {s0 s : State} (hk : Only P s0 s) (p : Nat) (hPorts : .ports ∈ P := by decide) :
    Only P s0 (State.pumpPort s p) := by
  unfold State.pumpPort
  grind only [← Only.modPort]

theorem Only.sendOn {P : List Part} {s0 s : State} (hk : Only P s0 s) (p : Fin 20) (k : Packet)
    (hPorts : .ports ∈ P := by decide) (hHeld : .held ∈ P := by decide) :
    Only P s0 (State.sendOn s p k) := by
  unfold State.sendOn
  grind only [← Only.modPort, ← Only.pumpPort, ← Only.put, PairState.rest, = State.modPort_pair]

theorem Only.sendMgmt {P : List Part} {s0 s : State} (hk : Only P s0 s) (dst : Nat) (m : MgmtMsg)
    (hPorts : .ports ∈ P := by decide) (hHeld : .held ∈ P := by decide) :
    Only P s0 (State.sendMgmt s dst m) := by
  unfold State.sendMgmt
  grind only [← Only.sendOn]

theorem Only.sendTileTable {P : List Part} {s0 s : State} (hk : Only P s0 s) (hPorts : .ports ∈ P := by decide)
    (hHeld : .held ∈ P := by decide) :
    Only P s0 (State.sendTileTable s) := by
  unfold State.sendTileTable
  grind only [← Only.sendMgmt, ← Only.foldl]

theorem Only.flushCredits {P : List Part} {s0 s : State} (hk : Only P s0 s) (p : PortNo) (m : BitVec 20)
    (hPorts : .ports ∈ P := by decide) (hHeld : .held ∈ P := by decide) :
    Only P s0 (State.flushCredits s p m) := by
  unfold State.flushCredits
  grind only [← Only.modPort, ← Only.sendOn, ← Only.put]

theorem Only.pendCredit {P : List Part} {s0 s : State} (hk : Only P s0 s) (p : PortNo) (m : BitVec 20) (t : TileNo)
    (ep : Fin 64) (hPorts : .ports ∈ P := by decide) (hHeld : .held ∈ P := by decide) :
    Only P s0 (State.pendCredit s p m t ep) := by
  unfold State.pendCredit
  grind only [← Only.flushCredits, ← Only.modPort, ← Only.put]

theorem Only.sendReverse {P : List Part} {s0 s : State} (hk : Only P s0 s) (p : PortNo) (ptype : Nat) (m : BitVec 20)
    (t : TileNo) (ep : Fin 64) (here hereEp : Nat) (payload : Bytes) (hPorts : .ports ∈ P := by decide)
    (hHeld : .held ∈ P := by decide) :
    Only P s0 (State.sendReverse s p ptype m t ep here hereEp payload) := by
  unfold State.sendReverse
  grind only [← Only.sendOn]

/-! ### ChanOps -/

theorem Only.judgeWatches {P : List Part} {s0 s : State} (hk : Only P s0 s) (hTiles : .tiles ∈ P := by decide)
    (hNet : .net ∈ P := by decide) :
    Only P s0 (State.judgeWatches s) := by
  unfold State.judgeWatches
  grind only [← Only.put]

theorem Only.semAdd {P : List Part} {s0 s : State} (hk : Only P s0 s) (t k n : Nat) (slot : Byte) (bundle : Word)
    (hTiles : .tiles ∈ P := by decide) (hFaults : .faults ∈ P := by decide) (hFreeCtr : .freeCtr ∈ P := by decide) :
    Only P s0 (State.semAdd s t k n slot bundle) := by
  unfold State.semAdd
  grind only [← Only.contractFault, ← Only.drawn, ← Only.modTile]

theorem Only.creditBack {P : List Part} {s0 s : State} (hk : Only P s0 s) (m : MsgOrigin) (hNet : .net ∈ P := by decide)
    (hPorts : .ports ∈ P := by decide) (hHeld : .held ∈ P := by decide) :
    Only P s0 (State.creditBack s m) := by
  unfold State.creditBack
  grind only [← Only.pendCredit, ← Only.put]

theorem Only.closeTo {P : List Part} {s0 s : State} (hk : Only P s0 s) (t : TileNo) (e : Nat) (o : MsgOrigin)
    (hNet : .net ∈ P := by decide) (hPorts : .ports ∈ P := by decide) (hHeld : .held ∈ P := by decide) :
    Only P s0 (State.closeTo s t e o) := by
  unfold State.closeTo
  grind only [← Only.sendReverse, ← Only.put]

theorem Only.openTo {P : List Part} {s0 s : State} (hk : Only P s0 s) (t : TileNo) (e : Nat) (o : MsgOrigin)
    (hNet : .net ∈ P := by decide) (hPorts : .ports ∈ P := by decide) (hHeld : .held ∈ P := by decide) :
    Only P s0 (State.openTo s t e o) := by
  unfold State.openTo
  grind only [← Only.sendReverse, ← Only.put]

theorem Only.reportDiscard {P : List Part} {s0 s : State} (hk : Only P s0 s) (m : Msg) (hNet : .net ∈ P := by decide) :
    Only P s0 (State.reportDiscard s m) := by
  unfold State.reportDiscard
  grind only [← Only.put]

theorem Only.judgeOne {P : List Part} {s0 s : State} (hk : Only P s0 s) (t : TileNo) (e : Nat) (m : Msg)
    (hTiles : .tiles ∈ P := by decide) (hNet : .net ∈ P := by decide) (hPorts : .ports ∈ P := by decide)
    (hHeld : .held ∈ P := by decide) (hReplies : .replies ∈ P := by decide) (hLog : .log ∈ P := by decide) :
    Only P s0 (s.judgeOne t e m).1 := by
  unfold State.judgeOne
  grind only [← Only.modTile, ← Only.creditBack, ← Only.event]

theorem Only.deliver {P : List Part} {s0 s : State} (hk : Only P s0 s) (t : TileNo) (e : Nat) (m : Msg)
    (hTiles : .tiles ∈ P := by decide) (hNet : .net ∈ P := by decide) (hPorts : .ports ∈ P := by decide)
    (hHeld : .held ∈ P := by decide) (hReplies : .replies ∈ P := by decide) (hLog : .log ∈ P := by decide) :
    Only P s0 (s.deliver t e m) := by
  have hjudged : Only P s0 (s.judgeOne t e m).1 := by grind only [← Only.judgeOne]
  unfold State.deliver
  generalize s.judgeOne t e m = p at *
  obtain ⟨s', _ | m'⟩ := p <;> grind only [← Only.modTile]

theorem Only.rejudge {P : List Part} {s0 s : State} (hk : Only P s0 s) (t : TileNo) (e slot : Nat) (l : List Msg)
    (hTiles : .tiles ∈ P := by decide) (hNet : .net ∈ P := by decide) (hPorts : .ports ∈ P := by decide)
    (hHeld : .held ∈ P := by decide) (hReplies : .replies ∈ P := by decide) (hLog : .log ∈ P := by decide) :
    Only P s0 (s.rejudge t e slot l) := by
  induction l generalizing s with
  | nil => exact hk
  | cons m l ih =>
    have hjudged : Only P s0 (s.judgeOne t e m).1 := by grind only [← Only.judgeOne]
    unfold State.rejudge
    generalize s.judgeOne t e m = p at *
    obtain ⟨s', _ | m'⟩ := p <;> grind only [← Only.modTile]

theorem Only.rejudgeSlot {P : List Part} {s0 s : State} (hk : Only P s0 s) (t : TileNo) (e slot : Nat)
    (hTiles : .tiles ∈ P := by decide) (hNet : .net ∈ P := by decide) (hPorts : .ports ∈ P := by decide)
    (hHeld : .held ∈ P := by decide) (hReplies : .replies ∈ P := by decide) (hFaults : .faults ∈ P := by decide)
    (hLog : .log ∈ P := by decide) :
    Only P s0 (State.rejudgeSlot s t e slot) := by
  unfold State.rejudgeSlot
  grind only [← Only.modTile, ← Only.rejudge, ← Only.put]

theorem Only.arrive {P : List Part} {s0 s : State} (hk : Only P s0 s) (t : TileNo) (e : Nat) (m : Msg)
    (hTiles : .tiles ∈ P := by decide) (hNet : .net ∈ P := by decide) (hPorts : .ports ∈ P := by decide)
    (hHeld : .held ∈ P := by decide) (hReplies : .replies ∈ P := by decide) (hFaults : .faults ∈ P := by decide)
    (hLog : .log ∈ P := by decide) :
    Only P s0 (State.arrive s t e m) := by
  unfold State.arrive
  grind only [← Only.deliver, ← Only.modTile, ← Only.reportDiscard, ← Only.put]

theorem Only.reportAll {P : List Part} {s0 s : State} (hk : Only P s0 s) (l : List Msg) (hNet : .net ∈ P := by decide) :
    Only P s0 (State.reportAll s l) := by
  induction l generalizing s with
  | nil => exact hk
  | cons x l ih =>
    unfold State.reportAll
    grind only [← Only.reportDiscard]

theorem Only.closeAll {P : List Part} {s0 s : State} (hk : Only P s0 s) (t : TileNo) (e : Nat) (l : List MsgOrigin)
    (hNet : .net ∈ P := by decide) (hPorts : .ports ∈ P := by decide) (hHeld : .held ∈ P := by decide) :
    Only P s0 (State.closeAll s t e l) := by
  induction l generalizing s with
  | nil => exact hk
  | cons x l ih =>
    unfold State.closeAll
    grind only [← Only.closeTo]

theorem Only.openAll {P : List Part} {s0 s : State} (hk : Only P s0 s) (t : TileNo) (e : Nat) (l : List MsgOrigin)
    (hNet : .net ∈ P := by decide) (hPorts : .ports ∈ P := by decide) (hHeld : .held ∈ P := by decide) :
    Only P s0 (State.openAll s t e l) := by
  induction l generalizing s with
  | nil => exact hk
  | cons x l ih =>
    unfold State.openAll
    grind only [← Only.openTo]

theorem Only.resetRecv {P : List Part} {s0 s : State} (hk : Only P s0 s) (t : TileNo) (e : Nat)
    (hTiles : .tiles ∈ P := by decide) (hNet : .net ∈ P := by decide) (hPorts : .ports ∈ P := by decide)
    (hHeld : .held ∈ P := by decide) :
    Only P s0 (State.resetRecv s t e) := by
  unfold State.resetRecv
  grind only [← Only.closeAll, ← Only.reportAll, ← Only.setTile, ← Only.put]

theorem Only.openRecv {P : List Part} {s0 s : State} (hk : Only P s0 s) (t : TileNo) (e : Nat)
    (hTiles : .tiles ∈ P := by decide) (hNet : .net ∈ P := by decide) (hPorts : .ports ∈ P := by decide)
    (hHeld : .held ∈ P := by decide) :
    Only P s0 (State.openRecv s t e) := by
  unfold State.openRecv
  grind only [← Only.openAll, ← Only.setTile, ← Only.put]

theorem Only.closedFault {P : List Part} {s0 s : State} (hk : Only P s0 s) (t : TileNo) (e : Nat) (slot : Byte)
    (bundle : Word) (hTiles : .tiles ∈ P := by decide) (hFaults : .faults ∈ P := by decide) :
    Only P s0 (State.closedFault s t e slot bundle) := by
  unfold State.closedFault
  grind only [← Only.contractFault]

theorem Only.noteContrib {P : List Part} {s0 s : State} (hk : Only P s0 s) (context : Option (Fin 64))
    (slot : Option DWord) (data : Bytes) (hPair : .pair ∈ P := by decide) :
    Only P s0 (State.noteContrib s context slot data) := by
  unfold State.noteContrib
  grind only [← Only.put, PairState.rest]

theorem Only.noteTally {P : List Part} {s0 s : State} (hk : Only P s0 s) (step context position : Nat) (flags : Bytes)
    (hRun : .run ∈ P := by decide) :
    Only P s0 (State.noteTally s step context position flags) := by
  unfold State.noteTally
  grind only [← Only.put, RunRec.rest]

theorem Only.noteGather {P : List Part} {s0 s : State} (hk : Only P s0 s) (context : Nat) (c : DWord) (data : Bytes)
    (hRun : .run ∈ P := by decide) :
    Only P s0 (State.noteGather s context c data) := by
  unfold State.noteGather
  grind only [← Only.noteTally]

theorem Only.sendData {P : List Part} {s0 s : State} (hk : Only P s0 s) (t : TileNo) (e : Fin 64) (slot : Option DWord)
    (data : Bytes) (slotNo : Byte) (bundle : Word) (hTiles : .tiles ∈ P := by decide) (hNet : .net ∈ P := by decide)
    (hPorts : .ports ∈ P := by decide) (hHeld : .held ∈ P := by decide) (hPair : .pair ∈ P := by decide)
    (hFaults : .faults ∈ P := by decide) (hRun : .run ∈ P := by decide) :
    Only P s0 (s.sendData t e slot data slotNo bundle).1 := by
  unfold State.sendData
  grind only [← Only.closedFault, ← Only.setTile, ← Only.modTile, ← Only.put, ← Only.noteContrib, ← Only.noteGather,
    ← Only.sendOn]

/-! ### Operands -/

theorem Only.raiseAccess {P : List Part} {s0 s : State} (hk : Only P s0 s) (t : Nat) (f : AccessFault)
    (hTiles : .tiles ∈ P := by decide) (hFaults : .faults ∈ P := by decide) :
    Only P s0 (State.raiseAccess s t f) := by
  unfold State.raiseAccess
  grind only [← Only.raiseContract]

/-! ### Check -/

theorem Only.checkShot {P : List Part} {s0 s : State} (hk : Only P s0 s) (t : Nat) (r : Regs) (c : CheckShot)
    (hTiles : .tiles ∈ P := by decide) (hReplies : .replies ∈ P := by decide) (hLog : .log ∈ P := by decide)
    (hFreeCtr : .freeCtr ∈ P := by decide) :
    Only P s0 (State.checkShot s t r c) := by
  unfold State.checkShot
  grind only [← Only.drawn, ← Only.event, ← Only.setTile, ← Only.put]

theorem Only.flushChecks {P : List Part} {s0 s : State} (hk : Only P s0 s) (l : List Nat)
    (hTiles : .tiles ∈ P := by decide) (hReplies : .replies ∈ P := by decide) (hLog : .log ∈ P := by decide) :
    Only P s0 (State.flushChecks s l) := by
  induction l generalizing s with
  | nil => exact hk
  | cons x l ih =>
    unfold State.flushChecks
    grind only [← Only.event, ← Only.modTile, ← Only.put]

/-! ### Issue -/

theorem Only.holdAt {P : List Part} {s0 s : State} (hk : Only P s0 s) (i : Iss) (ws : List WaitPoint)
    (hTiles : .tiles ∈ P := by decide) :
    Only P s0 (State.holdAt s i ws) := by
  unfold State.holdAt
  grind only [← Only.modTile, ← Only.put]

/-! ### Scalar -/

theorem Only.routineReturn {P : List Part} {s0 s : State} (hk : Only P s0 s) (tile : Nat)
    (hTiles : .tiles ∈ P := by decide) :
    Only P s0 (State.routineReturn s tile) := by
  unfold State.routineReturn
  grind only [← Only.setTile, ← Only.put]

/-! ### Matrix -/

theorem Only.creditAll {P : List Part} {s0 s : State} (hk : Only P s0 s) (l : List MsgOrigin)
    (hNet : .net ∈ P := by decide) (hPorts : .ports ∈ P := by decide) (hHeld : .held ∈ P := by decide) :
    Only P s0 (State.creditAll s l) := by
  induction l generalizing s with
  | nil => exact hk
  | cons x l ih =>
    unfold State.creditAll
    grind only [← Only.creditBack]

theorem Only.feedChannel {P : List Part} {s0 s : State} (hk : Only P s0 s) (t : TileNo) (now fuel : Nat)
    (hTiles : .tiles ∈ P := by decide) (hNet : .net ∈ P := by decide) (hPorts : .ports ∈ P := by decide)
    (hHeld : .held ∈ P := by decide) : Only P s0 (State.feedChannel t now fuel s) := by
  induction fuel generalizing s with
  | zero => exact hk
  | succ fuel ih =>
    unfold State.feedChannel
    grind only [← Only.setTile, ← Only.creditAll]

theorem Only.drainChannel {P : List Part} {s0 s : State} (hk : Only P s0 s) (t : TileNo) (r : ArrayRun) (rows : Nat)
    (f : Fmt) (ep : Fin 64) (codes : List Nat) (hTiles : .tiles ∈ P := by decide) (hNet : .net ∈ P := by decide)
    (hPorts : .ports ∈ P := by decide) (hHeld : .held ∈ P := by decide) (hPair : .pair ∈ P := by decide)
    (hFaults : .faults ∈ P := by decide) (hRun : .run ∈ P := by decide) :
    Only P s0 (State.drainChannel s t r rows f ep codes) := by
  unfold State.drainChannel
  grind only [← Only.sendData, ← Only.setTile, ← Only.put]

theorem Only.drainCycle {P : List Part} {s0 s : State} (hk : Only P s0 s) (t : TileNo) (now : Nat)
    (hTiles : .tiles ∈ P := by decide) (hNet : .net ∈ P := by decide) (hPorts : .ports ∈ P := by decide)
    (hHeld : .held ∈ P := by decide) (hPair : .pair ∈ P := by decide) (hFaults : .faults ∈ P := by decide)
    (hRun : .run ∈ P := by decide) :
    Only P s0 (State.drainCycle s t now) := by
  unfold State.drainCycle
  grind only [← Only.drainChannel, ← Only.setTile, ← Only.put]

theorem Only.cycleArray {P : List Part} {s0 s : State} (hk : Only P s0 s) (t : TileNo)
    (hTiles : .tiles ∈ P := by decide) (hNet : .net ∈ P := by decide) (hPorts : .ports ∈ P := by decide)
    (hHeld : .held ∈ P := by decide) (hPair : .pair ∈ P := by decide) (hFaults : .faults ∈ P := by decide)
    (hRun : .run ∈ P := by decide) : Only P s0 (s.cycleArray t) := by
  unfold State.cycleArray
  grind only [← Only.modTile, ← Only.feedChannel, ← Only.drainCycle]

/-! ### Vector -/

theorem Only.noteOwnFlags {P : List Part} {s0 s : State} (hk : Only P s0 s) (r : RecvEp) (slot : Nat)
    (hRun : .run ∈ P := by decide) :
    Only P s0 (State.noteOwnFlags s r slot) := by
  unfold State.noteOwnFlags
  grind only [← Only.noteTally]

theorem Only.endSlot {P : List Part} {s0 s : State} (hk : Only P s0 s) (t : TileNo) (ep : Fin 64) (slot : Nat)
    (hTiles : .tiles ∈ P := by decide) (hNet : .net ∈ P := by decide) (hPorts : .ports ∈ P := by decide)
    (hHeld : .held ∈ P := by decide) (hReplies : .replies ∈ P := by decide) (hFaults : .faults ∈ P := by decide)
    (hRun : .run ∈ P := by decide) (hLog : .log ∈ P := by decide) :
    Only P s0 (State.endSlot s t ep slot) := by
  unfold State.endSlot
  grind only [← Only.modTile, ← Only.noteOwnFlags, ← Only.rejudgeSlot, ← Only.put]

theorem Only.combineCycle {P : List Part} {s0 s : State} (hk : Only P s0 s) (t : TileNo) (v : VecRun) (c : CombineArg)
    (regs : Regs) (hTiles : .tiles ∈ P := by decide) (hNet : .net ∈ P := by decide) (hPorts : .ports ∈ P := by decide)
    (hHeld : .held ∈ P := by decide) :
    Only P s0 (State.combineCycle s t v c regs) := by
  unfold State.combineCycle
  grind only [← Only.creditBack, ← Only.setTile, ← Only.put]

theorem Only.startVec {P : List Part} {s0 s : State} (hk : Only P s0 s) (t : TileNo) (hTiles : .tiles ∈ P := by decide)
    (hRun : .run ∈ P := by decide) :
    Only P s0 (State.startVec s t) := by
  unfold State.startVec
  grind only [← Only.setTile, ← Only.put, RunRec.rest, = State.setTile_run]

theorem Only.cycleVector {P : List Part} {a s0 : State} (hk : Only P a s0) (t : TileNo)
    (hTiles : .tiles ∈ P := by decide) (hNet : .net ∈ P := by decide) (hPorts : .ports ∈ P := by decide)
    (hHeld : .held ∈ P := by decide) (hRun : .run ∈ P := by decide) :
    Only P a (State.cycleVector s0 t) := by
  unfold State.cycleVector
  grind only [← Only.combineCycle, ← Only.setTile, ← Only.startVec, ← Only.put]

/-! ### Stream -/

theorem Only.streamFault {P : List Part} {s0 s : State} (hk : Only P s0 s) (i : Iss) (offending code : Nat)
    (hTiles : .tiles ∈ P := by decide) (hFaults : .faults ∈ P := by decide) :
    Only P s0 (State.streamFault s i offending code) := by
  unfold State.streamFault
  grind only [← Only.contractFault]

theorem Only.descFault {P : List Part} {s0 s : State} (hk : Only P s0 s) (i : Iss) (d : Fin 32) (code : Nat)
    (hTiles : .tiles ∈ P := by decide) (hFaults : .faults ∈ P := by decide) (hFreeCtr : .freeCtr ∈ P := by decide) :
    Only P s0 (State.descFault s i d code) := by
  unfold State.descFault
  grind only [← Only.drawn, ← Only.modTile, ← Only.streamFault]

theorem Only.endFill {P : List Part} {s0 s : State} (hk : Only P s0 s) (t : Nat) (f : FillRun)
    (hTiles : .tiles ∈ P := by decide) (hFaults : .faults ∈ P := by decide) (hFreeCtr : .freeCtr ∈ P := by decide) :
    Only P s0 (State.endFill s t f) := by
  unfold State.endFill
  grind only [← Only.modTile, ← Only.semAdd]

theorem Only.fillEnds {P : List Part} {s0 s : State} (hk : Only P s0 s) (t : Nat) (hTiles : .tiles ∈ P := by decide)
    (hFaults : .faults ∈ P := by decide) (hFreeCtr : .freeCtr ∈ P := by decide) :
    Only P s0 (State.fillEnds s t) := by
  unfold State.fillEnds
  grind only [← Only.endFill, ← Only.setTile, ← Only.put]

theorem Only.allFillsEnd {P : List Part} {s0 s : State} (hk : Only P s0 s) (t : Nat) (hTiles : .tiles ∈ P := by decide)
    (hFaults : .faults ∈ P := by decide) (hFreeCtr : .freeCtr ∈ P := by decide) :
    Only P s0 (State.allFillsEnd s t) := by
  unfold State.allFillsEnd
  grind only [← Only.fillEnds, ← Only.foldl]

theorem Only.prefetched {P : List Part} {s0 s : State} (hk : Only P s0 s) (tile line : Nat) (needBy : DWord)
    (hTiles : .tiles ∈ P := by decide) (hFaults : .faults ∈ P := by decide) (hFreeCtr : .freeCtr ∈ P := by decide) :
    Only P s0 (State.prefetched s tile line needBy) := by
  unfold State.prefetched
  grind only [← Only.semAdd, ← Only.setTile, ← Only.put]

theorem Only.sendTransfer {P : List Part} {s0 s : State} (hk : Only P s0 s) (tile : TileNo) (tag : Fin 256)
    (d : Descriptor) (tr : Transfer) (hNet : .net ∈ P := by decide) (hMemNet : .memNet ∈ P := by decide) :
    Only P s0 (State.sendTransfer s tile tag d tr) := by
  unfold State.sendTransfer
  grind only [← Only.put, MemState.rest]

theorem Only.landInbound {P : List Part} {s0 s : State} (hk : Only P s0 s) (t : TileNo) (x : Inbound)
    (hTiles : .tiles ∈ P := by decide) :
    Only P s0 (State.landInbound s t x) := by
  unfold State.landInbound
  grind only [← Only.modTile, ← Only.put]

/-! ### Barrier -/

theorem Only.setCounter {P : List Part} {s0 s : State} (hk : Only P s0 s) (level unit b : Nat) (c : BarrierCounter)
    (hNet : .net ∈ P := by decide) :
    Only P s0 (State.setCounter s level unit b c) := by
  unfold State.setCounter
  grind only [← Only.put]

theorem Only.adoptMembership {P : List Part} {s0 s : State} (hk : Only P s0 s) (m : Membership) (epochs : List
    (Nat × Word)) (hDomain : .domain ∈ P := by decide) :
    Only P s0 (State.adoptMembership s m epochs) := by
  unfold State.adoptMembership
  grind only [← Only.put, DomainState.rest, ← Only.foldl]

theorem Only.bindTile {P : List Part} {s0 s : State} (hk : Only P s0 s) (t : Nat) (hTiles : .tiles ∈ P := by decide) :
    Only P s0 (State.bindTile s t) := by
  unfold State.bindTile
  grind only [← Only.modTile, ← Only.put]

theorem Only.bindAll {P : List Part} {s0 s : State} (hk : Only P s0 s) (l : List Nat) (hTiles : .tiles ∈ P := by decide) :
    Only P s0 (State.bindAll s l) := by
  induction l generalizing s with
  | nil => exact hk
  | cons x l ih =>
    unfold State.bindAll
    grind only [← Only.bindTile]

theorem Only.resetLost {P : List Part} {s0 s : State} (hk : Only P s0 s) (l : List (Nat × Nat))
    (hTiles : .tiles ∈ P := by decide) (hNet : .net ∈ P := by decide) (hPorts : .ports ∈ P := by decide)
    (hHeld : .held ∈ P := by decide) :
    Only P s0 (State.resetLost s l) := by
  induction l generalizing s with
  | nil => exact hk
  | cons x l ih =>
    unfold State.resetLost
    grind only [← Only.resetRecv]

theorem Only.soloAfter {P : List Part} {s0 s : State} (hk : Only P s0 s) (c : Change) (hPair : .pair ∈ P := by decide) :
    Only P s0 (State.soloAfter s c) := by
  unfold State.soloAfter
  grind only [← Only.put, PairState.rest]

theorem Only.applyChange {P : List Part} {s0 s : State} (hk : Only P s0 s) (c : Change)
    (hTiles : .tiles ∈ P := by decide) (hNet : .net ∈ P := by decide) (hPorts : .ports ∈ P := by decide)
    (hDomain : .domain ∈ P := by decide) (hHeld : .held ∈ P := by decide) (hPair : .pair ∈ P := by decide)
    (hReplies : .replies ∈ P := by decide) (hRun : .run ∈ P := by decide) (hLog : .log ∈ P := by decide) :
    Only P s0 (s.applyChange c) := by
  unfold State.applyChange
  extract_lets old past s1 s2 s3
  have hs1 : Only P s0 s1 := by
    unfold s1 past
    grind only [← Only.put, DomainState.rest]
  have hs2 : Only P s0 s2 := by
    unfold s2
    clear_value s1
    grind only [← Only.soloAfter, ← Only.adoptMembership, ← Only.assignParcels]
  have hs3 : Only P s0 s3 := by
    unfold s3
    clear_value s2
    grind only [← Only.bindAll, ← Only.resetLost]
  clear_value s3
  grind only [← Only.sendTileTable, ← Only.event]

theorem Only.sendRelease {P : List Part} {s0 s : State} (hk : Only P s0 s) (b : Fin 16) (round : Word)
    (hNet : .net ∈ P := by decide) :
    Only P s0 (State.sendRelease s b round) := by
  unfold State.sendRelease
  grind only [← Only.put]

theorem Only.moduleRelease {P : List Part} {s0 s : State} (hk : Only P s0 s) (b : Fin 16) (round : Word)
    (hTiles : .tiles ∈ P := by decide) (hNet : .net ∈ P := by decide) (hPorts : .ports ∈ P := by decide)
    (hDomain : .domain ∈ P := by decide) (hHeld : .held ∈ P := by decide) (hPair : .pair ∈ P := by decide)
    (hReplies : .replies ∈ P := by decide) (hRun : .run ∈ P := by decide) (hLog : .log ∈ P := by decide) :
    Only P s0 (State.moduleRelease s b round) := by
  unfold State.moduleRelease
  grind only [← Only.applyChange, ← Only.sendRelease, ← Only.put]

theorem Only.sendBarrier {P : List Part} {s0 s : State} (hk : Only P s0 s) (ptype dst : Nat) (b : Fin 16) (round : Word)
    (level count : Nat) (hPorts : .ports ∈ P := by decide) (hHeld : .held ∈ P := by decide) :
    Only P s0 (State.sendBarrier s ptype dst b round level count) := by
  unfold State.sendBarrier
  grind only [← Only.sendOn, ← Only.put]

theorem Only.releaseChildren {P : List Part} {s0 s : State} (hk : Only P s0 s) (b : Fin 16) (round : Word) (level : Nat)
    (members : List Nat) (own : Nat) (l : List Nat) (hPorts : .ports ∈ P := by decide) (hHeld : .held ∈ P := by decide) :
    Only P s0 (State.releaseChildren s b round level members own l) := by
  induction l generalizing s with
  | nil => exact hk
  | cons x l ih =>
    unfold State.releaseChildren
    grind only [← Only.sendBarrier]

theorem Only.releaseDown {P : List Part} {s0 s : State} (hk : Only P s0 s) (b : Fin 16) (round : Word) (level : Nat)
    (hTiles : .tiles ∈ P := by decide) (hNet : .net ∈ P := by decide) (hPorts : .ports ∈ P := by decide)
    (hDomain : .domain ∈ P := by decide) (hHeld : .held ∈ P := by decide) (hPair : .pair ∈ P := by decide)
    (hReplies : .replies ∈ P := by decide) (hRun : .run ∈ P := by decide) (hLog : .log ∈ P := by decide) :
    Only P s0 (State.releaseDown b round level s) := by
  induction level generalizing s with
  | zero =>
    unfold State.releaseDown
    grind only [← Only.moduleRelease]
  | succ level ih =>
    unfold State.releaseDown
    grind only [← Only.releaseChildren]

theorem Only.releaseTop {P : List Part} {s0 s : State} (hk : Only P s0 s) (b : Fin 16) (round : Word) (level : Nat)
    (hTiles : .tiles ∈ P := by decide) (hNet : .net ∈ P := by decide) (hPorts : .ports ∈ P := by decide)
    (hDomain : .domain ∈ P := by decide) (hHeld : .held ∈ P := by decide) (hPair : .pair ∈ P := by decide)
    (hReplies : .replies ∈ P := by decide) (hRun : .run ∈ P := by decide) (hLog : .log ∈ P := by decide) :
    Only P s0 (State.releaseTop s b round level) := by
  unfold State.releaseTop
  grind only [← Only.releaseDown, ← Only.put, DomainState.rest]

theorem Only.countAt {P : List Part} {s0 s : State} (hk : Only P s0 s) (b : Fin 16) (round : Word) (fuel level n : Nat)
    (hTiles : .tiles ∈ P := by decide) (hNet : .net ∈ P := by decide) (hPorts : .ports ∈ P := by decide)
    (hDomain : .domain ∈ P := by decide) (hHeld : .held ∈ P := by decide) (hPair : .pair ∈ P := by decide)
    (hReplies : .replies ∈ P := by decide) (hRun : .run ∈ P := by decide) (hLog : .log ∈ P := by decide) :
    Only P s0 (State.countAt b round fuel level n s) := by
  induction fuel generalizing s level n with
  | zero => exact hk
  | succ fuel ih =>
    unfold State.countAt
    grind only [← Only.put, DomainState.rest, ← Only.releaseTop, ← Only.sendBarrier]

theorem Only.domainArrive {P : List Part} {s0 s : State} (hk : Only P s0 s) (b : Fin 16) (round : Word)
    (hTiles : .tiles ∈ P := by decide) (hNet : .net ∈ P := by decide) (hPorts : .ports ∈ P := by decide)
    (hDomain : .domain ∈ P := by decide) (hHeld : .held ∈ P := by decide) (hPair : .pair ∈ P := by decide)
    (hReplies : .replies ∈ P := by decide) (hRun : .run ∈ P := by decide) (hLog : .log ∈ P := by decide) :
    Only P s0 (State.domainArrive s b round) := by
  unfold State.domainArrive
  grind only [← Only.countAt, ← Only.releaseTop, ← Only.sendBarrier]

theorem Only.sendTieBarrier {P : List Part} {s0 s : State} (hk : Only P s0 s) (ptype : Nat) (b : Fin 16) (round : Word)
    (count : Nat) (hPorts : .ports ∈ P := by decide) (hHeld : .held ∈ P := by decide) :
    Only P s0 (State.sendTieBarrier s ptype b round count) := by
  unfold State.sendTieBarrier
  grind only [← Only.sendOn]

theorem Only.pairCount {P : List Part} {s0 s : State} (hk : Only P s0 s) (b : Fin 16) (round : Word) (n : Nat)
    (hTiles : .tiles ∈ P := by decide) (hNet : .net ∈ P := by decide) (hPorts : .ports ∈ P := by decide)
    (hDomain : .domain ∈ P := by decide) (hHeld : .held ∈ P := by decide) (hPair : .pair ∈ P := by decide)
    (hReplies : .replies ∈ P := by decide) (hRun : .run ∈ P := by decide) (hLog : .log ∈ P := by decide) :
    Only P s0 (State.pairCount s b round n) := by
  unfold State.pairCount
  grind only [← Only.moduleRelease, ← Only.sendTieBarrier, ← Only.put, DomainState.rest]

theorem Only.pairArrive {P : List Part} {s0 s : State} (hk : Only P s0 s) (b : Fin 16) (round : Word)
    (hTiles : .tiles ∈ P := by decide) (hNet : .net ∈ P := by decide) (hPorts : .ports ∈ P := by decide)
    (hDomain : .domain ∈ P := by decide) (hHeld : .held ∈ P := by decide) (hPair : .pair ∈ P := by decide)
    (hReplies : .replies ∈ P := by decide) (hRun : .run ∈ P := by decide) (hLog : .log ∈ P := by decide) :
    Only P s0 (State.pairArrive s b round) := by
  unfold State.pairArrive
  grind only [← Only.pairCount, ← Only.sendTieBarrier]

theorem Only.moduleComplete {P : List Part} {s0 s : State} (hk : Only P s0 s) (d : BarrierDecl) (round : Word)
    (hTiles : .tiles ∈ P := by decide) (hNet : .net ∈ P := by decide) (hPorts : .ports ∈ P := by decide)
    (hDomain : .domain ∈ P := by decide) (hHeld : .held ∈ P := by decide) (hPair : .pair ∈ P := by decide)
    (hReplies : .replies ∈ P := by decide) (hRun : .run ∈ P := by decide) (hLog : .log ∈ P := by decide) :
    Only P s0 (State.moduleComplete s d round) := by
  unfold State.moduleComplete
  grind only [← Only.domainArrive, ← Only.pairArrive, ← Only.sendRelease, ← Only.put, RunRec.rest]

theorem Only.counterArrive {P : List Part} {s0 s : State} (hk : Only P s0 s) (d : BarrierDecl) (level : BarrierScope)
    (unit bank n : Nat) (round : Word) (hTiles : .tiles ∈ P := by decide) (hNet : .net ∈ P := by decide)
    (hPorts : .ports ∈ P := by decide) (hDomain : .domain ∈ P := by decide) (hHeld : .held ∈ P := by decide)
    (hPair : .pair ∈ P := by decide) (hReplies : .replies ∈ P := by decide) (hRun : .run ∈ P := by decide)
    (hLog : .log ∈ P := by decide) :
    Only P s0 (State.counterArrive s d level unit bank n round) := by
  unfold State.counterArrive
  grind only [← Only.moduleComplete, ← Only.setCounter, ← Only.put]

theorem Only.releaseTiles {P : List Part} {s0 s : State} (hk : Only P s0 s) (b : Nat) (l : List Nat)
    (hTiles : .tiles ∈ P := by decide) : Only P s0 (s.releaseTiles b l) := by
  induction l generalizing s with
  | nil => exact hk
  | cons t l ih => exact ih (hk.modTile _ _ hTiles)

/-! ### UpeOps -/

theorem Only.writeStack {P : List Part} {s0 s : State} (hk : Only P s0 s) (k sa : Nat) (bs : Bytes)
    (hHbm : .hbm ∈ P := by decide) : Only P s0 (s.writeStack k sa bs) := by
  induction bs generalizing s sa with
  | nil => exact hk
  | cons b bs ih => exact ih (hk.setHbm _ hHbm) _

theorem Only.writeStackRuns {P : List Part} {s0 s : State} (hk : Only P s0 s) (k : Nat) (l : List (Nat × Bytes))
    (hHbm : .hbm ∈ P := by decide) :
    Only P s0 (State.writeStackRuns s k l) := by
  induction l generalizing s with
  | nil => exact hk
  | cons x l ih =>
    unfold State.writeStackRuns
    grind only [← Only.writeStack]

theorem Only.refreshBlock {P : List Part} {s0 s : State} (hk : Only P s0 s) (k : Nat) (x inv : PlanSlot) (r : Refresh)
    (b : Nat) (hHbm : .hbm ∈ P := by decide) : Only P s0 (s.refreshBlock k x inv r b).1 := by
  unfold State.refreshBlock
  grind only [← Only.writeStack]

theorem Only.refreshBlocks {P : List Part} {s0 s : State} (hk : Only P s0 s) (k : Nat) (x inv : PlanSlot) (r : Refresh)
    (n : Nat) (hHbm : .hbm ∈ P := by decide) : Only P s0 (s.refreshBlocks k x inv r n).1 := by
  induction n with
  | zero => exact hk
  | succ n ih => exact ih.refreshBlock k x inv r n hHbm

theorem Only.entryRefresh {P : List Part} {s0 s : State} (hk : Only P s0 s) (k : Nat) (e : PlanEntry)
    (p : UpdateProgram) (t : Nat) (hHbm : .hbm ∈ P := by decide) (hStackMap : .stackMap ∈ P := by decide) :
    Only P s0 (State.entryRefresh s k e p t) := by
  unfold State.entryRefresh
  grind only [← Only.modStack, ← Only.refreshBlocks, ← Only.put]

theorem Only.passBody {P : List Part} {s0 s : State} (hk : Only P s0 s) (k : Nat) (e : PlanEntry) (t : Nat)
    (hHbm : .hbm ∈ P := by decide) (hStackMap : .stackMap ∈ P := by decide) :
    Only P s0 (State.passBody s k e t) := by
  unfold State.passBody
  grind only [← Only.entryRefresh, ← Only.modStack, ← Only.writeStackRuns, ← Only.put]

theorem Only.completePass {P : List Part} {s0 s : State} (hk : Only P s0 s) (k i : Nat) (hHbm : .hbm ∈ P := by decide)
    (hStackMap : .stackMap ∈ P := by decide) :
    Only P s0 (State.completePass s k i) := by
  unfold State.completePass
  grind only [← Only.modStack, ← Only.passBody, ← Only.put]

theorem Only.completeEntries {P : List Part} {s0 s : State} (hk : Only P s0 s) (k : Nat) (l : List Nat)
    (hHbm : .hbm ∈ P := by decide) (hStackMap : .stackMap ∈ P := by decide) :
    Only P s0 (State.completeEntries s k l) := by
  induction l generalizing s with
  | nil => exact hk
  | cons x l ih =>
    unfold State.completeEntries
    grind only [← Only.completePass]

theorem Only.completeAll {P : List Part} {s0 s : State} (hk : Only P s0 s) (l : List Nat) (hHbm : .hbm ∈ P := by decide)
    (hStackMap : .stackMap ∈ P := by decide) :
    Only P s0 (State.completeAll s l) := by
  induction l generalizing s with
  | nil => exact hk
  | cons x l ih =>
    unfold State.completeAll
    grind only [← Only.completeEntries]

theorem Only.abandonPass {P : List Part} {s0 s : State} (hk : Only P s0 s) (k i : Nat) (hHbm : .hbm ∈ P := by decide)
    (hStackMap : .stackMap ∈ P := by decide) (hFreeCtr : .freeCtr ∈ P := by decide) :
    Only P s0 (State.abandonPass s k i) := by
  unfold State.abandonPass
  grind only [← Only.drawn, ← Only.modStack, ← Only.writeStack, ← Only.put, ← Only.foldl]

theorem Only.abandonEntries {P : List Part} {s0 s : State} (hk : Only P s0 s) (k : Nat) (l : List Nat)
    (hHbm : .hbm ∈ P := by decide) (hStackMap : .stackMap ∈ P := by decide) (hFreeCtr : .freeCtr ∈ P := by decide) :
    Only P s0 (State.abandonEntries s k l) := by
  induction l generalizing s with
  | nil => exact hk
  | cons x l ih =>
    unfold State.abandonEntries
    grind only [← Only.abandonPass]

theorem Only.abandonAll {P : List Part} {s0 s : State} (hk : Only P s0 s) (l : List Nat) (hHbm : .hbm ∈ P := by decide)
    (hStackMap : .stackMap ∈ P := by decide) (hFreeCtr : .freeCtr ∈ P := by decide) :
    Only P s0 (State.abandonAll s l) := by
  induction l generalizing s with
  | nil => exact hk
  | cons x l ih =>
    unfold State.abandonAll
    grind only [← Only.abandonEntries]

/-! ### RegMap -/

theorem Only.applyCfg {P : List Part} {s0 s : State} (hk : Only P s0 s) (b : Nat) (hTiles : .tiles ∈ P := by decide)
    (hMem : .mem ∈ P := by decide) (hMgp : .mgp ∈ P := by decide) :
    Only P s0 (State.applyCfg s b) := by
  unfold State.applyCfg
  grind only [← Only.modTile, ← Only.put, MemState.rest, MgpState.rest, MgpState.ring, = State.modTile_mem, =
      State.modTile_mgp, ← Only.foldl]

theorem Only.fwCfg {P : List Part} {s0 s : State} (hk : Only P s0 s) (b off : Nat) (bs : Bytes)
    (hTiles : .tiles ∈ P := by decide) (hMem : .mem ∈ P := by decide) (hBlocks : .blocks ∈ P := by decide)
    (hMgp : .mgp ∈ P := by decide) :
    Only P s0 (State.fwCfg s b off bs) := by
  unfold State.fwCfg
  grind only [← Only.applyCfg, ← Only.modBlock, ← Only.put]

theorem Only.fwBands {P : List Part} {s0 s : State} (hk : Only P s0 s) (first : Nat) (bs : Bytes)
    (hTiles : .tiles ∈ P := by decide) (hMem : .mem ∈ P := by decide) (hBlocks : .blocks ∈ P := by decide)
    (hMgp : .mgp ∈ P := by decide) :
    Only P s0 (State.fwBands s first bs) := by
  unfold State.fwBands
  grind only [← Only.fwCfg, ← Only.foldl]

theorem Only.setRunEn {P : List Part} {s0 s : State} (hk : Only P s0 s) (en : Bool) (hBlocks : .blocks ∈ P := by decide) :
    Only P s0 (State.setRunEn s en) := by
  unfold State.setRunEn
  grind only [← Only.modBlock, ← Only.put, ← Only.foldl]

/-! ### StepEnd -/

theorem Only.addStep {P : List Part} {s0 s : State} (hk : Only P s0 s) (t : Nat) (hTiles : .tiles ∈ P := by decide)
    (hReplies : .replies ∈ P := by decide) (hRun : .run ∈ P := by decide) (hLog : .log ∈ P := by decide) :
    Only P s0 (State.addStep s t) := by
  unfold State.addStep
  grind only [← Only.flushChecks, ← Only.put, RunRec.rest]

theorem Only.flushRecords {P : List Part} {s0 s : State} (hk : Only P s0 s) (l : List Nat)
    (hStackMap : .stackMap ∈ P := by decide) (hMem : .mem ∈ P := by decide) :
    Only P s0 (State.flushRecords s l) := by
  induction l generalizing s with
  | nil => exact hk
  | cons x l ih =>
    unfold State.flushRecords
    grind only [← Only.modStack, ← Only.put, MemState.rest]

theorem Only.sendRecords {P : List Part} {s0 s : State} (hk : Only P s0 s) (t : Nat) (hPorts : .ports ∈ P := by decide)
    (hHeld : .held ∈ P := by decide) :
    Only P s0 (State.sendRecords s t) := by
  unfold State.sendRecords
  grind only [← Only.sendOn, ← Only.foldl]

theorem Only.releaseWithheld {P : List Part} {s0 s : State} (hk : Only P s0 s) (hTiles : .tiles ∈ P := by decide)
    (hNet : .net ∈ P := by decide) (hPorts : .ports ∈ P := by decide) (hDomain : .domain ∈ P := by decide)
    (hHeld : .held ∈ P := by decide) (hPair : .pair ∈ P := by decide) (hReplies : .replies ∈ P := by decide)
    (hRun : .run ∈ P := by decide) (hLog : .log ∈ P := by decide) :
    Only P s0 (State.releaseWithheld s) := by
  unfold State.releaseWithheld
  grind only [← Only.domainArrive, ← Only.put, RunRec.rest]

theorem Only.closePassed {P : List Part} {s0 s : State} (hk : Only P s0 s) (t : Nat) (hTiles : .tiles ∈ P := by decide)
    (hNet : .net ∈ P := by decide) (hPorts : .ports ∈ P := by decide) (hDomain : .domain ∈ P := by decide)
    (hHeld : .held ∈ P := by decide) (hPair : .pair ∈ P := by decide) (hReplies : .replies ∈ P := by decide)
    (hRun : .run ∈ P := by decide) (hLog : .log ∈ P := by decide) :
    Only P s0 (State.closePassed s t) := by
  unfold State.closePassed
  grind only [← Only.releaseWithheld, ← Only.put, PairState.rest]

theorem Only.skipClosure {P : List Part} {s0 s : State} (hk : Only P s0 s) (t : Nat) (hTiles : .tiles ∈ P := by decide)
    (hNet : .net ∈ P := by decide) (hPorts : .ports ∈ P := by decide) (hDomain : .domain ∈ P := by decide)
    (hHeld : .held ∈ P := by decide) (hPair : .pair ∈ P := by decide) (hReplies : .replies ∈ P := by decide)
    (hRun : .run ∈ P := by decide) (hLog : .log ∈ P := by decide) :
    Only P s0 (State.skipClosure s t) := by
  unfold State.skipClosure
  grind only [← Only.releaseWithheld, ← Only.put, PairState.rest]

theorem Only.skipClosures {P : List Part} {s0 s : State} (hk : Only P s0 s) (hTiles : .tiles ∈ P := by decide)
    (hNet : .net ∈ P := by decide) (hPorts : .ports ∈ P := by decide) (hDomain : .domain ∈ P := by decide)
    (hHeld : .held ∈ P := by decide) (hPair : .pair ∈ P := by decide) (hReplies : .replies ∈ P := by decide)
    (hRun : .run ∈ P := by decide) (hLog : .log ∈ P := by decide) :
    Only P s0 (State.skipClosures s) := by
  unfold State.skipClosures
  grind only [← Only.releaseWithheld, ← Only.skipClosure, ← Only.foldl]

theorem Only.closureDiffers {P : List Part} {s0 s : State} (hk : Only P s0 s) (t : Nat) (own twin : Digest)
    (hPorts : .ports ∈ P := by decide) (hHeld : .held ∈ P := by decide) (hPair : .pair ∈ P := by decide)
    (hReplies : .replies ∈ P := by decide) (hLog : .log ∈ P := by decide) :
    Only P s0 (State.closureDiffers s t own twin) := by
  unfold State.closureDiffers
  grind only [← Only.event, ← Only.sendRecords, ← Only.put, PairState.rest]

theorem Only.takeClosure {P : List Part} {s0 s s1 : State} {t : Nat} {a b : Digest} (hk : Only P s0 s)
    (h : s.takeClosure t = some (a, b, s1)) (hPair : .pair ∈ P := by decide) : Only P s0 s1 := by
  unfold State.takeClosure at h
  split at h
  · obtain ⟨rfl, rfl, rfl⟩ := h
    grind only [← Only.put, PairState.rest]
  · cases h

theorem Only.sendFingerprints {P : List Part} {s0 s : State} (hk : Only P s0 s) (t : Nat)
    (hPorts : .ports ∈ P := by decide) (hHeld : .held ∈ P := by decide) :
    Only P s0 (State.sendFingerprints s t) := by
  unfold State.sendFingerprints
  grind only [← Only.sendMgmt, ← Only.foldl]

theorem Only.sendClosure {P : List Part} {s0 s : State} (hk : Only P s0 s) (t : Nat) (hTiles : .tiles ∈ P := by decide)
    (hNet : .net ∈ P := by decide) (hPorts : .ports ∈ P := by decide) (hDomain : .domain ∈ P := by decide)
    (hHeld : .held ∈ P := by decide) (hPair : .pair ∈ P := by decide) (hReplies : .replies ∈ P := by decide)
    (hRun : .run ∈ P := by decide) (hLog : .log ∈ P := by decide) :
    Only P s0 (State.sendClosure s t) := by
  unfold State.sendClosure
  grind only [← Only.sendOn, ← Only.skipClosure, ← Only.put, PairState.rest]

theorem Only.reportStep {P : List Part} {s0 s : State} (hk : Only P s0 s) (t : Nat) (hTiles : .tiles ∈ P := by decide)
    (hNet : .net ∈ P := by decide) (hPorts : .ports ∈ P := by decide) (hDomain : .domain ∈ P := by decide)
    (hHeld : .held ∈ P := by decide) (hPair : .pair ∈ P := by decide) (hReplies : .replies ∈ P := by decide)
    (hRun : .run ∈ P := by decide) (hLog : .log ∈ P := by decide) :
    Only P s0 (State.reportStep s t) := by
  unfold State.reportStep
  grind only [← Only.sendClosure, ← Only.sendFingerprints]

theorem Only.settleClosure {P : List Part} {s0 s : State} (hk : Only P s0 s) (t : Nat)
    (hTiles : .tiles ∈ P := by decide) (hNet : .net ∈ P := by decide) (hPorts : .ports ∈ P := by decide)
    (hDomain : .domain ∈ P := by decide) (hHeld : .held ∈ P := by decide) (hPair : .pair ∈ P := by decide)
    (hReplies : .replies ∈ P := by decide) (hRun : .run ∈ P := by decide) (hLog : .log ∈ P := by decide) :
    Only P s0 (s.settleClosure t) := by
  unfold State.settleClosure
  split
  case h_1 a b s1 htake =>
    have hk1 := hk.takeClosure htake hPair
    clear htake
    grind only [← Only.closePassed, ← Only.closureDiffers]
  case h_2 => exact hk

theorem Only.addSteps {P : List Part} {s0 s : State} (hk : Only P s0 s) (n : Nat)
    (hTiles : .tiles ∈ P := by decide) (hNet : .net ∈ P := by decide) (hPorts : .ports ∈ P := by decide)
    (hDomain : .domain ∈ P := by decide) (hHeld : .held ∈ P := by decide) (hPair : .pair ∈ P := by decide)
    (hReplies : .replies ∈ P := by decide) (hRun : .run ∈ P := by decide) (hLog : .log ∈ P := by decide) :
    Only P s0 (s.addSteps n) := by
  induction n generalizing s with
  | zero => exact hk
  | succ n ih =>
    unfold State.addSteps
    grind only [← Only.addStep, ← Only.reportStep, ← Only.settleClosure]

/-! ### RunEnd -/

theorem Only.postRunEnd {P : List Part} {s0 s : State} (hk : Only P s0 s) (h : Hdr) (c : EndCause) (body : Bytes)
    (hReplies : .replies ∈ P := by decide) (hJobs : .jobs ∈ P := by decide) :
    Only P s0 (State.postRunEnd s h c body) := by
  unfold State.postRunEnd
  grind only [← Only.reply, ← Only.put, HostState.rest, HostState.sessions, HostState.replies, HostState.jobPart, ←
      Only.postUnsolicited, HostState.postUnsolicited_sessions, HostState.postUnsolicited_jobPart,
      HostState.postUnsolicited_rest]

theorem Only.resetEndpoints {P : List Part} {s0 s : State} (hk : Only P s0 s) (l : List (Nat × Nat))
    (hTiles : .tiles ∈ P := by decide) (hNet : .net ∈ P := by decide) (hPorts : .ports ∈ P := by decide)
    (hHeld : .held ∈ P := by decide) :
    Only P s0 (State.resetEndpoints s l) := by
  induction l generalizing s with
  | nil => exact hk
  | cons x l ih =>
    unfold State.resetEndpoints
    grind only [← Only.resetRecv]

theorem Only.keepRecord {P : List Part} {s0 s : State} (hk : Only P s0 s) (record : Bytes)
    (hJobs : .jobs ∈ P := by decide) :
    Only P s0 (State.keepRecord s record) := by
  unfold State.keepRecord
  grind only [← Only.put, HostState.rest, HostState.sessions, HostState.replies, HostState.jobPart]

theorem Only.settleEngines {P : List Part} {s0 s : State} (hk : Only P s0 s) (c : EndCause)
    (hHbm : .hbm ∈ P := by decide) (hStackMap : .stackMap ∈ P := by decide) (hFreeCtr : .freeCtr ∈ P := by decide) :
    Only P s0 (State.settleEngines s c) := by
  unfold State.settleEngines
  grind only [← Only.abandonAll, ← Only.completeAll, ← Only.put]

theorem Only.logFaults {P : List Part} {s0 s : State} (hk : Only P s0 s) (l : List FaultRec)
    (hReplies : .replies ∈ P := by decide) (hLog : .log ∈ P := by decide) :
    Only P s0 (State.logFaults s l) := by
  induction l generalizing s with
  | nil => exact hk
  | cons x l ih =>
    unfold State.logFaults
    grind only [← Only.logCode]

theorem Only.endRun {P : List Part} {s0 s : State} (hk : Only P s0 s) (c : EndCause)
    (hTiles : .tiles ∈ P := by decide) (hNet : .net ∈ P := by decide) (hHbm : .hbm ∈ P := by decide)
    (hStackMap : .stackMap ∈ P := by decide) (hMem : .mem ∈ P := by decide) (hPorts : .ports ∈ P := by decide)
    (hDomain : .domain ∈ P := by decide) (hHeld : .held ∈ P := by decide) (hPair : .pair ∈ P := by decide)
    (hReplies : .replies ∈ P := by decide) (hJobs : .jobs ∈ P := by decide) (hRun : .run ∈ P := by decide)
        (hBlocks : .blocks ∈ P := by decide)
    (hLog : .log ∈ P := by decide) (hFreeCtr : .freeCtr ∈ P := by decide) : Only P s0 (s.endRun c) := by
  unfold State.endRun
  split
  case isTrue =>
    extract_lets s1 s2 s2' record body s3 s4 s4'
    have hs2 : Only P s0 s2' := by
      unfold s2' s2 s1
      grind only [← Only.logFaults, ← Only.settleEngines, ← Only.flushRecords, ← Only.addSteps]
    have hs3 : Only P s0 s3 := by
      unfold s3
      clear_value record s2'
      grind only [← Only.keepRecord, ← Only.resetEndpoints, ← Only.setRunEn]
    have hs4 : Only P s0 s4' := by
      unfold s4' s4
      clear_value s3 body
      grind only [← Only.postRunEnd, ← Only.flushChecks]
    clear_value s4'
    grind only [← Only.put, RunRec.rest]
  case isFalse => exact hk

theorem Only.raiseHw {P : List Part} {s0 s : State} (hk : Only P s0 s) (code source : BitVec 16)
    (offending detail : DWord)
    (payload : Bytes)
    (hTiles : .tiles ∈ P := by decide) (hNet : .net ∈ P := by decide) (hHbm : .hbm ∈ P := by decide)
    (hStackMap : .stackMap ∈ P := by decide) (hMem : .mem ∈ P := by decide) (hPorts : .ports ∈ P := by decide)
    (hDomain : .domain ∈ P := by decide) (hHeld : .held ∈ P := by decide) (hPair : .pair ∈ P := by decide)
    (hDatum : .datum ∈ P := by decide) (hReplies : .replies ∈ P := by decide) (hJobs : .jobs ∈ P := by decide)
        (hFaults : .faults ∈ P := by decide)
    (hRun : .run ∈ P := by decide) (hBlocks : .blocks ∈ P := by decide) (hLog : .log ∈ P := by decide)
    (hFwFault : .fwFault ∈ P := by decide) (hFreeCtr : .freeCtr ∈ P := by decide) :
    Only P s0 (s.raiseHw code source offending detail payload) := by
  unfold State.raiseHw
  extract_lets f s1 run s2 clock sec s3
  have hs1 : Only P s0 s1 := hk.logCode _ _ _ _ _ hLog hReplies
  have hs2 : Only P s0 s2 := by
    unfold s2 run
    clear_value s1
    grind only [← Only.put, RunRec.rest]
  have hs3 : Only P s0 s3 := by
    unfold s3 clock sec
    clear_value s2
    grind only [← Only.put, ClockState.rest, SecState.rest]
  clear_value s3
  grind only [← Only.endRun]

/-! ### Hbm -/

theorem Only.putPiece {P : List Part} {s0 s : State} (hk : Only P s0 s) (a : Nat) (bs : Bytes) (deadline : Option DWord)
    (hHbm : .hbm ∈ P := by decide) (hStackMap : .stackMap ∈ P := by decide) :
    Only P s0 (State.putPiece s a bs deadline) := by
  unfold State.putPiece
  grind only [← Only.modStack, ← Only.writeHbm, ← Only.put]

theorem Only.putPieces {P : List Part} {s0 s : State} (hk : Only P s0 s) (deadline : Option DWord) (fuel a : Nat)
    (bs : Bytes)
    (hHbm : .hbm ∈ P := by decide) (hStackMap : .stackMap ∈ P := by decide) :
    Only P s0 (s.putPieces deadline fuel a bs) := by
  induction fuel generalizing s a bs with
  | zero => exact hk
  | succ fuel ih =>
    unfold State.putPieces
    grind only [← Only.putPiece]

theorem Only.clearPoison {P : List Part} {s0 s : State} (hk : Only P s0 s) (a n : Nat) (l : List Nat)
    (hStackMap : .stackMap ∈ P := by decide) :
    Only P s0 (State.clearPoison s a n l) := by
  induction l generalizing s with
  | nil => exact hk
  | cons x l ih =>
    unfold State.clearPoison
    grind only [← Only.modStack, ← Only.put]

theorem Only.hbmPut {P : List Part} {s0 s : State} (hk : Only P s0 s) (a : Nat) (bs : Bytes) (deadline : Option DWord)
    (hHbm : .hbm ∈ P := by decide) (hStackMap : .stackMap ∈ P := by decide) :
    Only P s0 (State.hbmPut s a bs deadline) := by
  unfold State.hbmPut
  grind only [← Only.clearPoison, ← Only.putPieces]

theorem Only.raiseHbm {P : List Part} {s0 s : State} (hk : Only P s0 s) (k cw : Nat) (hTiles : .tiles ∈ P := by decide)
    (hNet : .net ∈ P := by decide) (hHbm : .hbm ∈ P := by decide) (hStackMap : .stackMap ∈ P := by decide)
    (hMem : .mem ∈ P := by decide) (hPorts : .ports ∈ P := by decide) (hDomain : .domain ∈ P := by decide)
    (hHeld : .held ∈ P := by decide) (hPair : .pair ∈ P := by decide) (hDatum : .datum ∈ P := by decide)
    (hReplies : .replies ∈ P := by decide) (hJobs : .jobs ∈ P := by decide) (hFaults : .faults ∈ P := by decide)
    (hRun : .run ∈ P := by decide) (hBlocks : .blocks ∈ P := by decide) (hLog : .log ∈ P := by decide)
    (hFwFault : .fwFault ∈ P := by decide) (hFreeCtr : .freeCtr ∈ P := by decide) :
    Only P s0 (State.raiseHbm s k cw) := by
  unfold State.raiseHbm
  grind only [← Only.raiseHw]

theorem Only.captureLines {P : List Part} {s0 s : State} (hk : Only P s0 s) (k : Nat) (plan : UpdatePlan) (l : List Nat)
    (got : SMap DWord) (hStackMap : .stackMap ∈ P := by decide) : Only P s0 (s.captureLines k plan l got).1 := by
  induction l generalizing s got with
  | nil => exact hk
  | cons x l ih =>
    unfold State.captureLines
    split
    · split
      · refine ih ?_ _
        split
        · exact hk.modStack _ _ hStackMap
        · exact hk
      · exact ih hk _
    · exact ih hk _

theorem Only.completeLoad {P : List Part} {s0 s : State} (hk : Only P s0 s) (data : Option Bytes)
    (hHost : .host ∈ P := by decide) :
    Only P s0 (State.completeLoad s data) := by
  unfold State.completeLoad
  grind only [← Only.put, HostState.rest, HostState.sessions, HostState.replies, HostState.jobPart]

theorem Only.poisonLoad {P : List Part} {s0 s : State} (hk : Only P s0 s) (k cw : Nat)
    (hReplies : .replies ∈ P := by decide) (hHost : .host ∈ P := by decide) (hLog : .log ∈ P := by decide) :
    Only P s0 (State.poisonLoad s k cw) := by
  unfold State.poisonLoad
  grind only [← Only.completeLoad, ← Only.event]

theorem Only.returnData {P : List Part} {s0 s : State} (hk : Only P s0 s) (r : HbmReq) (data : Bytes)
    (hTiles : .tiles ∈ P := by decide) (hNet : .net ∈ P := by decide) (hHost : .host ∈ P := by decide) :
    Only P s0 (s.returnData r data) := by
  obtain ⟨who, w, a, n, d, deadline, remote, p⟩ := r
  cases who with
  | tile t tag =>
    cases remote with
    | none => exact hk.modTile _ _ hTiles
    | some x => exact hk.putNet _ hNet
  | code t line => exact hk.modTile _ _ hTiles
  | aperture => exact hk.completeLoad _ hHost
  | _ => exact hk

theorem Only.judgeHeld {P : List Part} {s0 s : State} (hk : Only P s0 s) (k : Nat) (plan : UpdatePlan) (l : List GateRead)
    (hTiles : .tiles ∈ P := by decide) (hNet : .net ∈ P := by decide) (hHbm : .hbm ∈ P := by decide)
    (hStackMap : .stackMap ∈ P := by decide) (hMem : .mem ∈ P := by decide) (hPorts : .ports ∈ P := by decide)
    (hDomain : .domain ∈ P := by decide) (hHeld : .held ∈ P := by decide) (hPair : .pair ∈ P := by decide)
    (hDatum : .datum ∈ P := by decide) (hReplies : .replies ∈ P := by decide)
    (hJobs : .jobs ∈ P := by decide) (hHost : .host ∈ P := by decide) (hFaults : .faults ∈ P := by decide)
    (hRun : .run ∈ P := by decide) (hBlocks : .blocks ∈ P := by decide) (hLog : .log ∈ P := by decide)
    (hFwFault : .fwFault ∈ P := by decide) (hFreeCtr : .freeCtr ∈ P := by decide) : Only P s0 (s.judgeHeld k plan l) := by
  induction l generalizing s with
  | nil => exact hk
  | cons g l ih =>
    have hgot := hk.captureLines k plan (gateLines plan (s.stackAddr g.req.addr) g.req.len) g.got hStackMap
    unfold State.judgeHeld
    refine ih ?_
    split
    · split
      · grind only [← Only.raiseHbm]
      · exact hgot.returnData _ _ hTiles hNet hHost
    · exact hgot.modStack _ _ hStackMap

theorem Only.judgeGates {P : List Part} {s0 s : State} (hk : Only P s0 s) (k : Nat) (hTiles : .tiles ∈ P := by decide)
    (hNet : .net ∈ P := by decide) (hHbm : .hbm ∈ P := by decide) (hStackMap : .stackMap ∈ P := by decide)
    (hMem : .mem ∈ P := by decide) (hPorts : .ports ∈ P := by decide) (hDomain : .domain ∈ P := by decide)
    (hHeld : .held ∈ P := by decide) (hPair : .pair ∈ P := by decide) (hDatum : .datum ∈ P := by decide)
    (hReplies : .replies ∈ P := by decide) (hJobs : .jobs ∈ P := by decide) (hHost : .host ∈ P := by decide)
    (hFaults : .faults ∈ P := by decide) (hRun : .run ∈ P := by decide) (hBlocks : .blocks ∈ P := by decide)
    (hLog : .log ∈ P := by decide) (hFwFault : .fwFault ∈ P := by decide) (hFreeCtr : .freeCtr ∈ P := by decide) :
    Only P s0 (State.judgeGates s k) := by
  unfold State.judgeGates
  grind only [← Only.judgeHeld, ← Only.modStack, ← Only.put]

theorem Only.ackWrite {P : List Part} {s0 s : State} (hk : Only P s0 s) (r : HbmReq) (hTiles : .tiles ∈ P := by decide) :
    Only P s0 (State.ackWrite s r) := by
  unfold State.ackWrite
  grind only [← Only.modTile, ← Only.put]

theorem Only.dropNet {P : List Part} {s0 s : State} (hk : Only P s0 s) (i : Nat) (hMemNet : .memNet ∈ P := by decide) :
    Only P s0 (State.dropNet s i) := by
  unfold State.dropNet
  grind only [← Only.put, MemState.rest]

theorem Only.intake {P : List Part} {s0 s : State} (hk : Only P s0 s) (k i : Nat) (r : HbmReq)
    (hTiles : .tiles ∈ P := by decide) (hNet : .net ∈ P := by decide) (hHbm : .hbm ∈ P := by decide)
    (hStackMap : .stackMap ∈ P := by decide) (hMemNet : .memNet ∈ P := by decide) (hMem : .mem ∈ P := by decide)
    (hPorts : .ports ∈ P := by decide) (hDomain : .domain ∈ P := by decide) (hHeld : .held ∈ P := by decide)
    (hPair : .pair ∈ P := by decide) (hDatum : .datum ∈ P := by decide) (hReplies : .replies ∈ P := by decide)
    (hJobs : .jobs ∈ P := by decide) (hHost : .host ∈ P := by decide) (hFaults : .faults ∈ P := by decide)
    (hRun : .run ∈ P := by decide) (hBlocks : .blocks ∈ P := by decide) (hLog : .log ∈ P := by decide)
    (hFwFault : .fwFault ∈ P := by decide) (hFreeCtr : .freeCtr ∈ P := by decide) :
    Only P s0 (State.intake s k i r) := by
  unfold State.intake
  grind only [← Only.ackWrite, ← Only.dropNet, ← Only.hbmPut, ← Only.judgeGates, ← Only.modStack, ← Only.put]

theorem Only.listPoison {P : List Part} {s0 s : State} (hk : Only P s0 s) (k cw : Nat)
    (hStackMap : .stackMap ∈ P := by decide) (hReplies : .replies ∈ P := by decide) (hLog : .log ∈ P := by decide) :
    Only P s0 (State.listPoison s k cw) := by
  unfold State.listPoison
  grind only [← Only.event, ← Only.modStack, ← Only.put]

theorem Only.actMark {P : List Part} {s0 s : State} (hk : Only P s0 s) (k : Nat) (plan : UpdatePlan) (m : Mark)
    (later : List Mark) (hTiles : .tiles ∈ P := by decide) (hNet : .net ∈ P := by decide) (hHbm : .hbm ∈ P := by decide)
    (hStackMap : .stackMap ∈ P := by decide) (hMem : .mem ∈ P := by decide) (hPorts : .ports ∈ P := by decide)
    (hDomain : .domain ∈ P := by decide) (hHeld : .held ∈ P := by decide) (hPair : .pair ∈ P := by decide)
    (hDatum : .datum ∈ P := by decide) (hReplies : .replies ∈ P := by decide) (hJobs : .jobs ∈ P := by decide)
    (hFaults : .faults ∈ P := by decide) (hRun : .run ∈ P := by decide) (hBlocks : .blocks ∈ P := by decide)
    (hLog : .log ∈ P := by decide) (hFwFault : .fwFault ∈ P := by decide) (hFreeCtr : .freeCtr ∈ P := by decide) :
    Only P s0 (State.actMark s k plan m later) := by
  unfold State.actMark
  grind only [← Only.modStack, ← Only.raiseHw, ← Only.put]

end Sys2Proof.Machine
end

section
/-! PROOFS. Which parts of the state the operations of the model may change (`Only`), part 2 of 2. -/

namespace Sys2Proof.Machine

set_option Elab.async false

/-! ### Ports -/

theorem Only.settlePort {P : List Part} {s0 s : State} (hk : Only P s0 s) (p : Nat) (hPorts : .ports ∈ P := by decide)
    (hReplies : .replies ∈ P := by decide) (hLog : .log ∈ P := by decide) :
    Only P s0 (State.settlePort s p) := by
  unfold State.settlePort
  grind only [← Only.event, ← Only.modPort, ← Only.put]

theorem Only.portDown {P : List Part} {s0 s : State} (hk : Only P s0 s) (p : Nat) (hTiles : .tiles ∈ P := by decide)
    (hNet : .net ∈ P := by decide) (hPorts : .ports ∈ P := by decide) (hDomain : .domain ∈ P := by decide)
    (hHeld : .held ∈ P := by decide) (hPair : .pair ∈ P := by decide) (hReplies : .replies ∈ P := by decide)
    (hRun : .run ∈ P := by decide) (hLog : .log ∈ P := by decide) :
    Only P s0 (State.portDown s p) := by
  unfold State.portDown
  grind only [← Only.event, ← Only.modPort, ← Only.skipClosures, ← Only.put]

theorem Only.discardCseq {P : List Part} {s0 s : State} (hk : Only P s0 s) (p : Nat) (hPorts : .ports ∈ P := by decide) :
    Only P s0 (State.discardCseq s p) := by
  unfold State.discardCseq
  grind only [← Only.modPort, ← Only.put]

theorem Only.raiseEpoch {P : List Part} {s0 s : State} (hk : Only P s0 s) (pair : Nat) (e : Word)
    (hDomain : .domain ∈ P := by decide) :
    Only P s0 (State.raiseEpoch s pair e) := by
  unfold State.raiseEpoch
  grind only [← Only.put, DomainState.rest]

theorem Only.takePacket {P : List Part} {s0 s s1 : State} {p n : Nat} {k : Packet} (hk : Only P s0 s)
    (h : s.takePacket p n = some (k, s1)) (hPorts : .ports ∈ P := by decide) : Only P s0 s1 := by
  unfold State.takePacket at h
  grind only [← Only.modPort, ← Only.setPort]

theorem Only.rejectData {P : List Part} {s0 s : State} (hk : Only P s0 s) (p : PortNo) (k : Packet)
    (hPorts : .ports ∈ P := by decide) (hHeld : .held ∈ P := by decide) :
    Only P s0 (State.rejectData s p k) := by
  unfold State.rejectData
  grind only [← Only.sendReverse]

theorem Only.takeData {P : List Part} {s0 s : State} (hk : Only P s0 s) (port : PortNo) (k : Packet)
    (hTiles : .tiles ∈ P := by decide) (hNet : .net ∈ P := by decide) (hPorts : .ports ∈ P := by decide)
    (hHeld : .held ∈ P := by decide) (hReplies : .replies ∈ P := by decide) (hFaults : .faults ∈ P := by decide)
    (hRun : .run ∈ P := by decide) (hLog : .log ∈ P := by decide) :
    Only P s0 (State.takeData s port k) := by
  unfold State.takeData
  grind only [← Only.deliver, ← Only.modTile, ← Only.noteGather, ← Only.put]

theorem Only.returnCredits {P : List Part} {s0 s : State} (hk : Only P s0 s) (l : List Nat)
    (hTiles : .tiles ∈ P := by decide) :
    Only P s0 (State.returnCredits s l) := by
  induction l generalizing s with
  | nil => exact hk
  | cons x l ih =>
    unfold State.returnCredits
    grind only [← Only.modTile, ← Only.put]

theorem Only.correctMeridian {P : List Part} {s0 s : State} (hk : Only P s0 s) (off : Int)
    (hDomain : .domain ∈ P := by decide) (hClock : .clock ∈ P := by decide) :
    Only P s0 (State.correctMeridian s off) := by
  unfold State.correctMeridian
  grind only [← Only.put, ClockState.rest, DomainState.rest]

theorem Only.watchLock {P : List Part} {s0 s : State} (hk : Only P s0 s) (off : Int)
    (hDomain : .domain ∈ P := by decide) (hReplies : .replies ∈ P := by decide) (hLog : .log ∈ P := by decide) :
    Only P s0 (State.watchLock s off) := by
  unfold State.watchLock
  grind only [← Only.event, ← Only.put, DomainState.rest]

/-! ### Pair -/

theorem Only.postOwner {P : List Part} {s0 s : State} (hk : Only P s0 s) (opcode : BitVec 16) (body : Bytes)
    (hReplies : .replies ∈ P := by decide) :
    Only P s0 (State.postOwner s opcode body) := by
  unfold State.postOwner
  grind only [← Only.put, HostState.rest, HostState.sessions, HostState.replies, HostState.jobPart, ←
      Only.postUnsolicited, HostState.postUnsolicited_sessions, HostState.postUnsolicited_jobPart,
      HostState.postUnsolicited_rest]

theorem Only.askWitness {P : List Part} {s0 s : State} (hk : Only P s0 s) (kind : Byte)
    (hPorts : .ports ∈ P := by decide) (hHeld : .held ∈ P := by decide) (hPair : .pair ∈ P := by decide)
    (hReplies : .replies ∈ P := by decide) (hFreeCtr : .freeCtr ∈ P := by decide) :
    Only P s0 (State.askWitness s kind) := by
  unfold State.askWitness
  grind only [← Only.drawn, ← Only.postOwner, ← Only.sendMgmt, ← Only.put, PairState.rest, = State.drawn_pair]

theorem Only.keepEgress {P : List Part} {s0 s : State} (hk : Only P s0 s) (p : Packet → Bool)
    (hPorts : .ports ∈ P := by decide) :
    Only P s0 (State.keepEgress s p) := by
  unfold State.keepEgress
  grind only [← Only.put, DomainState.rest]

theorem Only.suspend {P : List Part} {s0 s : State} (hk : Only P s0 s) (hPorts : .ports ∈ P := by decide)
    (hHeld : .held ∈ P := by decide) (hPair : .pair ∈ P := by decide) (hRun : .run ∈ P := by decide) :
    Only P s0 s.suspend := by
  have hkeep : Only [.ports] s (s.keepEgress (fun k => !heldType k.ptype.toNat)) := (Only.refl _ s).keepEgress _
  have hrun := hkeep.run
  unfold State.suspend
  generalize s.keepEgress (fun k => !heldType k.ptype.toNat) = t at *
  have ht : Only P s0 t := hk.trans (hkeep.mono (by simpa using hPorts))
  grind only [← Only.put, RunRec.rest]

theorem Only.sendHeld {P : List Part} {s0 s : State} (hk : Only P s0 s) (l : List (PortNo × Packet))
    (hPorts : .ports ∈ P := by decide) (hHeld : .held ∈ P := by decide) :
    Only P s0 (State.sendHeld s l) := by
  induction l generalizing s with
  | nil => exact hk
  | cons x l ih =>
    unfold State.sendHeld
    grind only [← Only.sendOn, ← Only.put]

theorem Only.resumeAs {P : List Part} {s0 s : State} (hk : Only P s0 s) (r : Role) (hPorts : .ports ∈ P := by decide)
    (hHeld : .held ∈ P := by decide) (hPair : .pair ∈ P := by decide) (hRun : .run ∈ P := by decide) :
    Only P s0 (State.resumeAs s r) := by
  unfold State.resumeAs
  grind only [← Only.sendHeld, ← Only.put, PairState.rest, RunRec.rest]

theorem Only.learnEpoch {P : List Part} {s0 s : State} (hk : Only P s0 s) (e : Word) (hTiles : .tiles ∈ P := by decide)
    (hNet : .net ∈ P := by decide) (hHbm : .hbm ∈ P := by decide) (hStackMap : .stackMap ∈ P := by decide)
    (hMem : .mem ∈ P := by decide) (hPorts : .ports ∈ P := by decide) (hDomain : .domain ∈ P := by decide)
    (hHeld : .held ∈ P := by decide) (hPair : .pair ∈ P := by decide) (hDatum : .datum ∈ P := by decide)
    (hReplies : .replies ∈ P := by decide) (hJobs : .jobs ∈ P := by decide) (hFaults : .faults ∈ P := by decide)
    (hRun : .run ∈ P := by decide) (hBlocks : .blocks ∈ P := by decide) (hLog : .log ∈ P := by decide)
    (hFwFault : .fwFault ∈ P := by decide) (hFreeCtr : .freeCtr ∈ P := by decide) :
    Only P s0 (State.learnEpoch s e) := by
  unfold State.learnEpoch
  grind only [← Only.keepEgress, ← Only.raiseHw, ← Only.put, PairState.rest]

theorem Only.epochNotices {P : List Part} {s0 s : State} (hk : Only P s0 s) (hPorts : .ports ∈ P := by decide)
    (hHeld : .held ∈ P := by decide) :
    Only P s0 (State.epochNotices s) := by
  unfold State.epochNotices
  grind only [← Only.sendMgmt, ← Only.foldl]

theorem Only.adoptEpoch {P : List Part} {s0 s : State} (hk : Only P s0 s) (e : Word) (hPorts : .ports ∈ P := by decide)
    (hDomain : .domain ∈ P := by decide) (hHeld : .held ∈ P := by decide) (hPair : .pair ∈ P := by decide) :
    Only P s0 (State.adoptEpoch s e) := by
  unfold State.adoptEpoch
  grind only [← Only.epochNotices, ← Only.raiseEpoch, ← Only.put, PairState.rest]

theorem Only.granted {P : List Part} {s0 s : State} (hk : Only P s0 s) (kind : Byte) (sent : DWord) (r : LeaseReplyMsg)
    (hPorts : .ports ∈ P := by decide) (hDomain : .domain ∈ P := by decide) (hHeld : .held ∈ P := by decide)
    (hPair : .pair ∈ P := by decide) (hReplies : .replies ∈ P := by decide) (hRun : .run ∈ P := by decide)
    (hLog : .log ∈ P := by decide) : Only P s0 (s.granted kind sent r) := by
  unfold State.granted
  extract_lets fin pair s1 pair' s2
  have hs1 : Only P s0 s1 := hk.putPair _ rfl hPair
  clear_value fin
  have hresume {t : State} (ht : Only P s0 t) (role : Role) : Only P s0
      (t.resumeAs role) := by grind only [← Only.resumeAs]
  have hs2 : Only P s0 s2 := hresume (by grind only [← Only.adoptEpoch]) _
  split
  · exact hk
  · split
    · exact hresume hs1 _
    · split
      · exact hs1.putPair _ rfl hPair
      · split
        · exact hs2.event _ _ _ hReplies hLog
        · exact hs2

theorem Only.takeLeaseReply {P : List Part} {s0 s : State} (hk : Only P s0 s) (r : LeaseReplyMsg)
    (hTiles : .tiles ∈ P := by decide) (hNet : .net ∈ P := by decide) (hHbm : .hbm ∈ P := by decide)
    (hStackMap : .stackMap ∈ P := by decide) (hMem : .mem ∈ P := by decide) (hPorts : .ports ∈ P := by decide)
    (hDomain : .domain ∈ P := by decide) (hHeld : .held ∈ P := by decide) (hPair : .pair ∈ P := by decide)
    (hDatum : .datum ∈ P := by decide) (hReplies : .replies ∈ P := by decide) (hJobs : .jobs ∈ P := by decide)
    (hFaults : .faults ∈ P := by decide) (hRun : .run ∈ P := by decide) (hBlocks : .blocks ∈ P := by decide)
    (hLog : .log ∈ P := by decide) (hFwFault : .fwFault ∈ P := by decide) (hFreeCtr : .freeCtr ∈ P := by decide) :
    Only P s0 (State.takeLeaseReply s r) := by
  unfold State.takeLeaseReply
  grind only [← Only.granted, ← Only.learnEpoch, ← Only.put, PairState.rest]

theorem Only.compareModes {P : List Part} {s0 s : State} (hk : Only P s0 s) (h : HeartbeatMsg)
    (hPair : .pair ∈ P := by decide) (hReplies : .replies ∈ P := by decide) (hLog : .log ∈ P := by decide) :
    Only P s0 (State.compareModes s h) := by
  unfold State.compareModes
  grind only [← Only.event, ← Only.put, PairState.rest]

theorem Only.closeFailed {P : List Part} {s0 s : State} (hk : Only P s0 s) (t : Nat) (own twin : Digest)
    (hTiles : .tiles ∈ P := by decide) (hNet : .net ∈ P := by decide) (hHbm : .hbm ∈ P := by decide)
    (hStackMap : .stackMap ∈ P := by decide) (hMem : .mem ∈ P := by decide) (hPorts : .ports ∈ P := by decide)
    (hDomain : .domain ∈ P := by decide) (hHeld : .held ∈ P := by decide) (hPair : .pair ∈ P := by decide)
    (hDatum : .datum ∈ P := by decide) (hReplies : .replies ∈ P := by decide) (hJobs : .jobs ∈ P := by decide)
    (hFaults : .faults ∈ P := by decide) (hRun : .run ∈ P := by decide) (hBlocks : .blocks ∈ P := by decide)
    (hLog : .log ∈ P := by decide) (hFwFault : .fwFault ∈ P := by decide) (hFreeCtr : .freeCtr ∈ P := by decide) :
    Only P s0 (State.closeFailed s t own twin) := by
  unfold State.closeFailed
  grind only [← Only.closureDiffers, ← Only.raiseHw]

theorem Only.compareClosure {P : List Part} {s0 s : State} (hk : Only P s0 s) (t : Nat)
    (hTiles : .tiles ∈ P := by decide) (hNet : .net ∈ P := by decide) (hHbm : .hbm ∈ P := by decide)
    (hStackMap : .stackMap ∈ P := by decide) (hMem : .mem ∈ P := by decide) (hPorts : .ports ∈ P := by decide)
    (hDomain : .domain ∈ P := by decide) (hHeld : .held ∈ P := by decide) (hPair : .pair ∈ P := by decide)
    (hDatum : .datum ∈ P := by decide) (hReplies : .replies ∈ P := by decide) (hJobs : .jobs ∈ P := by decide)
    (hFaults : .faults ∈ P := by decide) (hRun : .run ∈ P := by decide) (hBlocks : .blocks ∈ P := by decide)
    (hLog : .log ∈ P := by decide) (hFwFault : .fwFault ∈ P := by decide) (hFreeCtr : .freeCtr ∈ P := by decide) :
    Only P s0 (State.compareClosure s t) := by
  unfold State.compareClosure
  grind only [← Only.closeFailed, ← Only.closePassed, → Only.takeClosure, ← Only.put]

theorem Only.judgeRecords {P : List Part} {s0 s : State} (hk : Only P s0 s) (t : Nat) (twin : List Bytes)
    (hPair : .pair ∈ P := by decide) (hReplies : .replies ∈ P := by decide) (hLog : .log ∈ P := by decide) :
    Only P s0 (State.judgeRecords s t twin) := by
  unfold State.judgeRecords
  grind only [← Only.event, ← Only.put, PairState.rest]

theorem Only.tryHeldRelease {P : List Part} {s0 s : State} (hk : Only P s0 s) (hTiles : .tiles ∈ P := by decide)
    (hNet : .net ∈ P := by decide) (hPorts : .ports ∈ P := by decide) (hDomain : .domain ∈ P := by decide)
    (hHeld : .held ∈ P := by decide) (hPair : .pair ∈ P := by decide) (hReplies : .replies ∈ P := by decide)
    (hRun : .run ∈ P := by decide) (hLog : .log ∈ P := by decide) :
    Only P s0 (State.tryHeldRelease s) := by
  unfold State.tryHeldRelease
  grind only [← Only.releaseDown, ← Only.put, DomainState.rest]

theorem Only.noteReport {P : List Part} {s0 s : State} (hk : Only P s0 s) (rank : Nat)
    (hTiles : .tiles ∈ P := by decide) (hNet : .net ∈ P := by decide) (hPorts : .ports ∈ P := by decide)
    (hDomain : .domain ∈ P := by decide) (hHeld : .held ∈ P := by decide) (hPair : .pair ∈ P := by decide)
    (hReplies : .replies ∈ P := by decide) (hRun : .run ∈ P := by decide) (hLog : .log ∈ P := by decide) :
    Only P s0 (State.noteReport s rank) := by
  unfold State.noteReport
  grind only [← Only.tryHeldRelease, ← Only.put, DomainState.rest]

theorem Only.noticeEpoch {P : List Part} {s0 s : State} (hk : Only P s0 s) (pair : Nat) (e : Word)
    (hTiles : .tiles ∈ P := by decide) (hNet : .net ∈ P := by decide) (hHbm : .hbm ∈ P := by decide)
    (hStackMap : .stackMap ∈ P := by decide) (hMem : .mem ∈ P := by decide) (hPorts : .ports ∈ P := by decide)
    (hDomain : .domain ∈ P := by decide) (hHeld : .held ∈ P := by decide) (hPair : .pair ∈ P := by decide)
    (hDatum : .datum ∈ P := by decide) (hReplies : .replies ∈ P := by decide) (hJobs : .jobs ∈ P := by decide)
    (hFaults : .faults ∈ P := by decide) (hRun : .run ∈ P := by decide) (hBlocks : .blocks ∈ P := by decide)
    (hLog : .log ∈ P := by decide) (hFwFault : .fwFault ∈ P := by decide) (hFreeCtr : .freeCtr ∈ P := by decide) :
    Only P s0 (State.noticeEpoch s pair e) := by
  unfold State.noticeEpoch
  grind only [← Only.learnEpoch, ← Only.raiseEpoch, ← Only.put]

theorem Only.replacePlan {P : List Part} {s0 s : State} (hk : Only P s0 s) (k : Nat) (plan : UpdatePlan)
    (hStackMap : .stackMap ∈ P := by decide) :
    Only P s0 (State.replacePlan s k plan) := by
  unfold State.replacePlan
  grind only [← Only.modStack, ← Only.put]

theorem Only.keepPlans {P : List Part} {s0 s : State} (hk : Only P s0 s) (plans : List (StackNo × UpdatePlan))
    (hHost : .host ∈ P := by decide) :
    Only P s0 (State.keepPlans s plans) := by
  unfold State.keepPlans
  grind only [← Only.put, HostState.rest, HostState.sessions, HostState.replies, HostState.jobPart, ← Only.foldl]

theorem Only.sendMoved {P : List Part} {s0 s : State} (hk : Only P s0 s) (dst : Nat) (m : MovedState)
    (hPorts : .ports ∈ P := by decide) (hHeld : .held ∈ P := by decide) :
    Only P s0 (State.sendMoved s dst m) := by
  unfold State.sendMoved
  grind only [← Only.sendOn, ← Only.put]

theorem Only.moveEntry {P : List Part} {s0 s : State} (hk : Only P s0 s) (c : Change) (k : Nat) (e : PlanEntry)
    (hPorts : .ports ∈ P := by decide) (hHeld : .held ∈ P := by decide) :
    Only P s0 (State.moveEntry s c k e) := by
  unfold State.moveEntry
  grind only [← Only.sendMoved, ← Only.put, ← Only.foldl]

theorem Only.moveState {P : List Part} {s0 s : State} (hk : Only P s0 s) (c : Change) (hPorts : .ports ∈ P := by decide)
    (hHeld : .held ∈ P := by decide) :
    Only P s0 (State.moveState s c) := by
  unfold State.moveState
  grind only [← Only.moveEntry, ← Only.put, ← Only.foldl]

theorem Only.reportTransfer {P : List Part} {s0 s : State} (hk : Only P s0 s) (c : Change)
    (hTiles : .tiles ∈ P := by decide) (hNet : .net ∈ P := by decide) (hPorts : .ports ∈ P := by decide)
    (hDomain : .domain ∈ P := by decide) (hHeld : .held ∈ P := by decide) (hPair : .pair ∈ P := by decide)
    (hReplies : .replies ∈ P := by decide) (hRun : .run ∈ P := by decide) (hLog : .log ∈ P := by decide) :
    Only P s0 (State.reportTransfer s c) := by
  unfold State.reportTransfer
  grind only [← Only.noteReport, ← Only.sendMgmt]

/-! ### Clocks -/

theorem Only.askBase {P : List Part} {s0 s : State} (hk : Only P s0 s) (b : Nat) (hClock : .clock ∈ P := by decide) :
    Only P s0 (State.askBase s b) := by
  unfold State.askBase
  grind only [← Only.put, ClockState.rest]

theorem Only.raiseBase {P : List Part} {s0 s : State} (hk : Only P s0 s) (hClock : .clock ∈ P := by decide) :
    Only P s0 (State.raiseBase s) := by
  unfold State.raiseBase
  grind only [← Only.askBase]

theorem Only.lowerBase {P : List Part} {s0 s : State} (hk : Only P s0 s) (hClock : .clock ∈ P := by decide) :
    Only P s0 (State.lowerBase s) := by
  unfold State.lowerBase
  grind only [← Only.askBase]

theorem Only.turnBase {P : List Part} {s0 s : State} (hk : Only P s0 s) (hClock : .clock ∈ P := by decide) :
    Only P s0 (State.turnBase s) := by
  unfold State.turnBase
  grind only [← Only.put, ClockState.rest]

theorem Only.raiseRails {P : List Part} {s0 s : State} (hk : Only P s0 s) (r : MarginReading) (l : List Nat)
    (hClock : .clock ∈ P := by decide) : Only P s0 (s.raiseRails r l).1 := by
  induction l generalizing s with
  | nil => exact hk
  | cons d l ih =>
    unfold State.raiseRails
    grind only [← Only.put, ClockState.rest]

theorem Only.lowerRails {P : List Part} {s0 s : State} (hk : Only P s0 s) (l : List Nat)
    (hClock : .clock ∈ P := by decide) :
    Only P s0 (State.lowerRails s l) := by
  induction l generalizing s with
  | nil => exact hk
  | cons x l ih =>
    unfold State.lowerRails
    grind only [← Only.put, ClockState.rest]

theorem Only.marginRaise {P : List Part} {s0 s : State} (hk : Only P s0 s) (hClock : .clock ∈ P := by decide)
    (hReplies : .replies ∈ P := by decide) (hLog : .log ∈ P := by decide) :
    Only P s0 (State.marginRaise s) := by
  unfold State.marginRaise
  grind only [← Only.event, ← Only.raiseBase, ← Only.put, ClockState.rest]

/-! ### Session -/

theorem Only.countMctp {P : List Part} {s0 s : State} (hk : Only P s0 s) (h : Hdr)
    (hReplies : .replies ∈ P := by decide) :
    Only P s0 (State.countMctp s h) := by
  unfold State.countMctp
  grind only [← Only.put, HostState.rest, HostState.sessions, HostState.replies, HostState.jobPart]

theorem Only.endSession {P : List Part} {s0 s : State} (hk : Only P s0 s) (p : Path)
    (hSessions : .sessions ∈ P := by decide) (hReplies : .replies ∈ P := by decide) (hJobs : .jobs ∈ P := by decide)
    (hHost : .host ∈ P := by decide) :
    Only P s0 (State.endSession s p) := by
  unfold State.endSession
  grind only [← Only.put, HostState.rest, HostState.sessions, HostState.replies, HostState.jobPart]

/-- Notices that are posted one after another change the replies alone. -/
theorem Only.notices {P : List Part} {s0 s : State} (hk : Only P s0 s) (p : Path) (v : BitVec 4) (l : List Reply)
    (hReplies : .replies ∈ P := by decide) :
    Only P s0 { s with host := l.foldl (fun h r => h.postUnsolicited p 0x8880 v r.body) s.host } := by
  induction l generalizing s with
  | nil => exact hk
  | cons r l ih => exact ih (hk.postUnsolicited p 0x8880 v r.body hReplies)

theorem Only.flushRunEnded {P : List Part} {s0 s : State} (hk : Only P s0 s) (hReplies : .replies ∈ P := by decide)
    (hJobs : .jobs ∈ P := by decide) : Only P s0 s.flushRunEnded := by
  have hcleared : Only P s0 { s with host := { s.host with runEnded := [] } } := by
    grind only [← Only.put, HostState.rest, HostState.sessions, HostState.replies, HostState.jobPart]
  unfold State.flushRunEnded
  split
  · exact hcleared.notices _ _ _ hReplies
  · exact hk

theorem Only.openSession {P : List Part} {s0 s : State} (hk : Only P s0 s) (h : Hdr) (op : BitVec 16) (b : OpenBody)
    (v : BitVec 16) (hSessions : .sessions ∈ P := by decide) (hReplies : .replies ∈ P := by decide)
    (hJobs : .jobs ∈ P := by decide) (hHost : .host ∈ P := by decide) :
    Only P s0 (State.openSession s h op b v) := by
  unfold State.openSession
  grind only [← Only.answer, ← Only.flushRunEnded, ← Only.put, HostState.rest, HostState.sessions, HostState.replies,
      HostState.jobPart]

/-! ### Image -/

theorem Only.writeSections {P : List Part} {s0 s : State} (hk : Only P s0 s) (l : List (SectionDecl × Nat))
    (hHbm : .hbm ∈ P := by decide) :
    Only P s0 (State.writeSections s l) := by
  induction l generalizing s with
  | nil => exact hk
  | cons x l ih =>
    unfold State.writeSections
    grind only [← Only.writeHbm]

theorem Only.loadFailed {P : List Part} {s0 s : State} (hk : Only P s0 s) (h : Hdr) (op : BitVec 16) (addr step : Nat)
    (status : BitVec 16) (hReplies : .replies ∈ P := by decide) (hLog : .log ∈ P := by decide) :
    Only P s0 (State.loadFailed s h op addr step status) := by
  unfold State.loadFailed
  grind only [← Only.event, ← Only.fail]

theorem Only.installImage {P : List Part} {s0 s : State} (hk : Only P s0 s) (h : Hdr) (x : LoadBody) (lt : BitVec 16)
    (tiles : List TileNo) (b : ImageBody) (hHbm : .hbm ∈ P := by decide) (hReplies : .replies ∈ P := by decide)
    (hHost : .host ∈ P := by decide) (hLog : .log ∈ P := by decide) :
    Only P s0 (State.installImage s h x lt tiles b) := by
  unfold State.installImage
  grind only [← Only.loadFailed, ← Only.ok, ← Only.writeSections, ← Only.put, HostState.rest, HostState.sessions,
      HostState.replies, HostState.jobPart]

/-! ### Data -/

theorem Only.hostWrite {P : List Part} {s0 s : State} (hk : Only P s0 s) (ws : List (DWord × Bytes))
    (hHost : .host ∈ P := by decide) :
    Only P s0 (State.hostWrite s ws) := by
  unfold State.hostWrite
  grind only [← Only.put, HostState.rest, HostState.sessions, HostState.replies, HostState.jobPart]

theorem Only.stopDma {P : List Part} {s0 s : State} (hk : Only P s0 s) (d : Dma) (hHbm : .hbm ∈ P := by decide)
    (hStackMap : .stackMap ∈ P := by decide) (hReplies : .replies ∈ P := by decide) (hHost : .host ∈ P := by decide)
    (hFreeCtr : .freeCtr ∈ P := by decide) :
    Only P s0 (State.stopDma s d) := by
  unfold State.stopDma
  grind only [← Only.drawn, ← Only.hbmPut, ← Only.hostWrite, ← Only.reply]

theorem Only.discardDmas {P : List Part} {s0 s : State} (hk : Only P s0 s) (l : List Dma)
    (hReplies : .replies ∈ P := by decide) :
    Only P s0 (State.discardDmas s l) := by
  induction l generalizing s with
  | nil => exact hk
  | cons x l ih =>
    unfold State.discardDmas
    grind only [← Only.reply]

theorem Only.apertureLoad {P : List Part} {s0 s : State} (hk : Only P s0 s) (a n : Nat)
    (hReplies : .replies ∈ P := by decide) (hHost : .host ∈ P := by decide) (hLog : .log ∈ P := by decide) :
    Only P s0 (State.apertureLoad s a n) := by
  unfold State.apertureLoad
  grind only [← Only.completeLoad, ← Only.poisonLoad, ← Only.put]

theorem Only.zeroBand {P : List Part} {s0 s : State} (hk : Only P s0 s) (b : Nat) (hHbm : .hbm ∈ P := by decide)
    (hStackMap : .stackMap ∈ P := by decide) (hMem : .mem ∈ P := by decide) :
    Only P s0 (State.zeroBand s b) := by
  unfold State.zeroBand
  grind only [← Only.put, MemState.rest]

/-! ### RunControl -/

theorem Only.setJob {P : List Part} {s0 s : State} (hk : Only P s0 s) (id : BitVec 16) (j : Job)
    (hJobs : .jobs ∈ P := by decide) :
    Only P s0 (State.setJob s id j) := by
  unfold State.setJob
  grind only [← Only.put, HostState.rest, HostState.sessions, HostState.replies, HostState.jobPart]

theorem Only.startTiles {P : List Part} {s0 s : State} (hk : Only P s0 s) (im : Image) (first : Word)
    (ps : List PatchEntry) (l : List Nat) (hTiles : .tiles ∈ P := by decide) :
    Only P s0 (State.startTiles s im first ps l) := by
  induction l generalizing s with
  | nil => exact hk
  | cons x l ih =>
    unfold State.startTiles
    grind only [← Only.setTile]

theorem Only.startEngines {P : List Part} {s0 s : State} (hk : Only P s0 s) (im : Image) (first : Word)
    (hStackMap : .stackMap ∈ P := by decide) (hMem : .mem ∈ P := by decide) :
    Only P s0 (State.startEngines s im first) := by
  unfold State.startEngines
  grind only [← Only.modStack, ← Only.put, MemState.rest, ← Only.foldl]

theorem Only.configTiles {P : List Part} {s0 s : State} (hk : Only P s0 s) (im : Image) (l : List Nat)
    (hTiles : .tiles ∈ P := by decide) (hMem : .mem ∈ P := by decide) (hBlocks : .blocks ∈ P := by decide)
    (hMgp : .mgp ∈ P := by decide) :
    Only P s0 (State.configTiles s im l) := by
  induction l generalizing s with
  | nil => exact hk
  | cons x l ih =>
    unfold State.configTiles
    grind only [← Only.fwCfg]

/-! ### PairCmds -/

theorem Only.admitEpoch {P : List Part} {s0 s : State} (hk : Only P s0 s) (t : MemberTable)
    (hPair : .pair ∈ P := by decide) :
    Only P s0 (State.admitEpoch s t) := by
  unfold State.admitEpoch
  grind only [← Only.put, PairState.rest]

theorem Only.announceChange {P : List Part} {s0 s : State} (hk : Only P s0 s) (b : AnnounceBody) (t : MemberTable)
    (forced : Bool) (hDomain : .domain ∈ P := by decide) (hPair : .pair ∈ P := by decide) :
    Only P s0 (State.announceChange s b t forced) := by
  unfold State.announceChange
  grind only [← Only.admitEpoch, ← Only.put, DomainState.rest]

/-! ### Nv -/

theorem Only.writeCal {P : List Part} {s0 s : State} (hk : Only P s0 s) (m : Memory) (scopes : Word)
    (hClock : .clock ∈ P := by decide) (hReplies : .replies ∈ P := by decide) (hLog : .log ∈ P := by decide)
    (hMgp : .mgp ∈ P := by decide) :
    Only P s0 (State.writeCal s m scopes) := by
  unfold State.writeCal
  grind only [← Only.event, ← Only.put, ClockState.rest, MgpState.rest, MgpState.ring]

theorem Only.nvReply {P : List Part} {s0 s : State} (hk : Only P s0 s) (h : Option Hdr) (w : NvWrite)
    (status : BitVec 16) (reason : Nat) (hReplies : .replies ∈ P := by decide) :
    Only P s0 (State.nvReply s h w status reason) := by
  unfold State.nvReply
  grind only [← Only.fail, ← Only.ok, ← Only.put]

theorem Only.keyDo {P : List Part} {s0 s : State} (hk : Only P s0 s) (w : NvWrite) (hReplies : .replies ∈ P := by decide)
    (hLog : .log ∈ P := by decide) (hSec : .sec ∈ P := by decide) : Only P s0 (s.keyDo w) := by
  unfold State.keyDo
  split
  case h_4 => exact hk
  all_goals exact (hk.putSec _ (by rfl) hSec).event _ _ _ hReplies hLog

theorem Only.keyRun {P : List Part} {s0 s : State} (hk : Only P s0 s) (h : Option Hdr) (w : NvWrite)
    (hReplies : .replies ∈ P := by decide) (hLog : .log ∈ P := by decide) (hSec : .sec ∈ P := by decide) :
    Only P s0 (State.keyRun s h w) := by
  unfold State.keyRun
  grind only [← Only.keyDo, ← Only.nvReply]

theorem Only.importDo {P : List Part} {s0 s : State} (hk : Only P s0 s) (h : Option Hdr) (offset total : Nat)
    (chunk : Bytes)
    (hClock : .clock ∈ P := by decide) (hReplies : .replies ∈ P := by decide) (hLog : .log ∈ P := by decide)
    (hMgp : .mgp ∈ P := by decide) : Only P s0 (s.importDo h offset total chunk) := by
  unfold State.importDo
  extract_lets w mgp set buf store sig m
  have hset (b : Bytes) : Only P s0 (set b) := hk.putMgp _ rfl hMgp
  have hreply {t : State} (ht : Only P s0 t) (st : BitVec 16) (n : Nat) : Only P s0 (t.nvReply h w st n) := by
    grind only [← Only.nvReply]
  split
  · exact hreply hk _ _
  · split
    · exact hreply (hset _) _ _
    · split
      · exact hreply (hset _) _ _
      · split
        · refine hreply ?_ _ _
          have hs := hset []
          generalize set [] = t at *
          clear_value m
          grind only [← Only.writeCal]
        · exact hreply (hset _) _ _

theorem Only.activateDo {P : List Part} {s0 s : State} (hk : Only P s0 s) (h : Option Hdr) (digest : Digest)
    (hReplies : .replies ∈ P := by decide) (hLog : .log ∈ P := by decide) (hSec : .sec ∈ P := by decide) :
    Only P s0 (s.activateDo h digest) := by
  have hother (x : FwImage) : (s.sec.setOther x).fwFault = s.sec.fwFault := by unfold SecState.setOther; split <;> rfl
  have hset (x : FwImage) : Only P s0 { s with sec := s.sec.setOther x } := hk.putSec _ (hother x) hSec
  unfold State.activateDo
  grind only [← Only.event, ← Only.nvReply]

theorem Only.nvDo {P : List Part} {s0 s : State} (hk : Only P s0 s) (h : Option Hdr) (w : NvWrite)
    (hClock : .clock ∈ P := by decide) (hReplies : .replies ∈ P := by decide) (hLog : .log ∈ P := by decide)
    (hMgp : .mgp ∈ P := by decide) (hSec : .sec ∈ P := by decide) : Only P s0 (s.nvDo h w) := by
  have hother (x : FwImage) : (s.sec.setOther x).fwFault = s.sec.fwFault := by unfold SecState.setOther; split <;> rfl
  cases w with
  | calSet m scopes =>
    change Only P s0 ((s.writeCal m scopes).nvReply h (.calSet m scopes) stOk 0)
    grind only [← Only.writeCal, ← Only.nvReply]
  | calChunk o t c => exact hk.importDo h o t c hClock hReplies hLog hMgp
  | enrol i k => exact hk.keyRun h _ hReplies hLog hSec
  | revoke i => exact hk.keyRun h _ hReplies hLog hSec
  | enforce on => exact hk.keyRun h _ hReplies hLog hSec
  | fwChunk o d => exact (hk.putSec _ (hother _) hSec).nvReply _ _ _ _ hReplies
  | fwActivate d => exact hk.activateDo h d hReplies hLog hSec
  | rollback n =>
    simp only [State.nvDo]
    split
    · exact (hk.putSec _ (by rfl) hSec).event _ _ _ hReplies hLog
    · exact hk

theorem Only.nvDrain {P : List Part} {s0 s : State} (hk : Only P s0 s) (l : List (Option Hdr × NvWrite))
    (hClock : .clock ∈ P := by decide) (hReplies : .replies ∈ P := by decide) (hLog : .log ∈ P := by decide)
    (hMgp : .mgp ∈ P := by decide) (hSec : .sec ∈ P := by decide) :
    Only P s0 (State.nvDrain s l) := by
  induction l generalizing s with
  | nil => exact hk
  | cons x l ih =>
    unfold State.nvDrain
    grind only [← Only.nvDo]

theorem Only.trainStacks {P : List Part} {s0 s : State} (hk : Only P s0 s) (hHbm : .hbm ∈ P := by decide)
    (hStackMap : .stackMap ∈ P := by decide) :
    Only P s0 (State.trainStacks s) := by
  unfold State.trainStacks
  grind only [← Only.modStack, ← Only.setHbm, ← Only.put, ← Only.foldl]

/-! ### Debug -/

theorem Only.setHalted {P : List Part} {s0 s : State} (hk : Only P s0 s) (t : Nat) (on : Bool)
    (hTiles : .tiles ∈ P := by decide) :
    Only P s0 (State.setHalted s t on) := by
  unfold State.setHalted
  grind only [← Only.modTile, ← Only.put]

/-! ### RegWrite -/

theorem Only.restoreCfg {P : List Part} {s0 s : State} (hk : Only P s0 s) (b : Nat) (hTiles : .tiles ∈ P := by decide)
    (hMem : .mem ∈ P := by decide) (hBlocks : .blocks ∈ P := by decide) (hMgp : .mgp ∈ P := by decide) :
    Only P s0 (State.restoreCfg s b) := by
  unfold State.restoreCfg
  grind only [← Only.applyCfg, ← Only.modBlock, ← Only.put]

theorem Only.driftPolicy {P : List Part} {s0 s : State} (hk : Only P s0 s) (b : Nat) (hTiles : .tiles ∈ P := by decide)
    (hNet : .net ∈ P := by decide) (hHbm : .hbm ∈ P := by decide) (hStackMap : .stackMap ∈ P := by decide)
    (hMem : .mem ∈ P := by decide) (hPorts : .ports ∈ P := by decide) (hDomain : .domain ∈ P := by decide)
    (hHeld : .held ∈ P := by decide) (hPair : .pair ∈ P := by decide) (hDatum : .datum ∈ P := by decide)
    (hReplies : .replies ∈ P := by decide) (hJobs : .jobs ∈ P := by decide) (hFaults : .faults ∈ P := by decide)
    (hRun : .run ∈ P := by decide) (hBlocks : .blocks ∈ P := by decide) (hLog : .log ∈ P := by decide)
    (hMgp : .mgp ∈ P := by decide) (hFwFault : .fwFault ∈ P := by decide) (hFreeCtr : .freeCtr ∈ P := by decide) :
    Only P s0 (State.driftPolicy s b) := by
  unfold State.driftPolicy
  grind only [← Only.logCode, ← Only.modBlock, ← Only.raiseHw, ← Only.restoreCfg]

theorem Only.compareCrc {P : List Part} {s0 s : State} (hk : Only P s0 s) (b : Nat) (hTiles : .tiles ∈ P := by decide)
    (hNet : .net ∈ P := by decide) (hHbm : .hbm ∈ P := by decide) (hStackMap : .stackMap ∈ P := by decide)
    (hMem : .mem ∈ P := by decide) (hPorts : .ports ∈ P := by decide) (hDomain : .domain ∈ P := by decide)
    (hHeld : .held ∈ P := by decide) (hPair : .pair ∈ P := by decide) (hDatum : .datum ∈ P := by decide)
    (hReplies : .replies ∈ P := by decide) (hJobs : .jobs ∈ P := by decide) (hFaults : .faults ∈ P := by decide)
    (hRun : .run ∈ P := by decide) (hBlocks : .blocks ∈ P := by decide) (hLog : .log ∈ P := by decide)
    (hMgp : .mgp ∈ P := by decide) (hFwFault : .fwFault ∈ P := by decide) (hFreeCtr : .freeCtr ∈ P := by decide) :
    Only P s0 (State.compareCrc s b) := by
  unfold State.compareCrc
  grind only [← Only.driftPolicy, ← Only.event, ← Only.modBlock, ← Only.put]

/-! ### Power -/

theorem Only.railsOff {P : List Part} {s0 s : State} (hk : Only P s0 s) (hTiles : .tiles ∈ P := by decide)
    (hNet : .net ∈ P := by decide) (hHbm : .hbm ∈ P := by decide) (hStackMap : .stackMap ∈ P := by decide)
    (hMemNet : .memNet ∈ P := by decide) (hMem : .mem ∈ P := by decide) (hPower : .power ∈ P := by decide) :
    Only P s0 (State.railsOff s) := by
  unfold State.railsOff
  grind only [← Only.mapTiles, ← Only.put, MemState.rest, = State.mapTiles_mem]

theorem Only.railsOn {P : List Part} {s0 s : State} (hk : Only P s0 s) (hHbm : .hbm ∈ P := by decide)
    (hStackMap : .stackMap ∈ P := by decide) (hPower : .power ∈ P := by decide) :
    Only P s0 (State.railsOn s) := by
  unfold State.railsOn
  grind only [← Only.trainStacks, ← Only.put]

theorem Only.stopRun {P : List Part} {s0 s : State} (hk : Only P s0 s) (code : BitVec 16) (detail : Nat)
    (hTiles : .tiles ∈ P := by decide) (hNet : .net ∈ P := by decide) (hHbm : .hbm ∈ P := by decide)
    (hStackMap : .stackMap ∈ P := by decide) (hMem : .mem ∈ P := by decide) (hPorts : .ports ∈ P := by decide)
    (hDomain : .domain ∈ P := by decide) (hHeld : .held ∈ P := by decide) (hPair : .pair ∈ P := by decide)
    (hDatum : .datum ∈ P := by decide) (hReplies : .replies ∈ P := by decide) (hJobs : .jobs ∈ P := by decide)
    (hFaults : .faults ∈ P := by decide) (hRun : .run ∈ P := by decide) (hBlocks : .blocks ∈ P := by decide)
    (hLog : .log ∈ P := by decide) (hFwFault : .fwFault ∈ P := by decide) (hFreeCtr : .freeCtr ∈ P := by decide) :
    Only P s0 (State.stopRun s code detail) := by
  unfold State.stopRun
  grind only [← Only.raiseHw]

theorem Only.throttle {P : List Part} {s0 s : State} (hk : Only P s0 s) (r : ThermalReading)
    (hClock : .clock ∈ P := by decide) (hReplies : .replies ∈ P := by decide) (hLog : .log ∈ P := by decide)
    (hMgp : .mgp ∈ P := by decide) :
    Only P s0 (State.throttle s r) := by
  unfold State.throttle
  grind only [← Only.event, ← Only.raiseBase, ← Only.put, MgpState.rest, MgpState.ring]

theorem Only.release {P : List Part} {s0 s : State} (hk : Only P s0 s) (r : ThermalReading)
    (hClock : .clock ∈ P := by decide) (hReplies : .replies ∈ P := by decide) (hLog : .log ∈ P := by decide)
    (hMgp : .mgp ∈ P := by decide) :
    Only P s0 (State.release s r) := by
  unfold State.release
  grind only [← Only.event, ← Only.lowerBase, ← Only.put, MgpState.rest, MgpState.ring]

theorem Only.overheat {P : List Part} {s0 s : State} (hk : Only P s0 s) (r : ThermalReading)
    (hTiles : .tiles ∈ P := by decide) (hNet : .net ∈ P := by decide) (hHbm : .hbm ∈ P := by decide)
    (hStackMap : .stackMap ∈ P := by decide) (hMemNet : .memNet ∈ P := by decide) (hMem : .mem ∈ P := by decide)
    (hPorts : .ports ∈ P := by decide) (hDomain : .domain ∈ P := by decide) (hHeld : .held ∈ P := by decide)
    (hPair : .pair ∈ P := by decide) (hDatum : .datum ∈ P := by decide) (hReplies : .replies ∈ P := by decide)
    (hJobs : .jobs ∈ P := by decide) (hFaults : .faults ∈ P := by decide) (hRun : .run ∈ P := by decide)
    (hBlocks : .blocks ∈ P := by decide) (hLog : .log ∈ P := by decide) (hMgp : .mgp ∈ P := by decide)
    (hFwFault : .fwFault ∈ P := by decide) (hPower : .power ∈ P := by decide) (hFreeCtr : .freeCtr ∈ P := by decide) :
    Only P s0 (State.overheat s r) := by
  unfold State.overheat
  grind only [← Only.railsOff, ← Only.stopRun, ← Only.put, MgpState.rest, MgpState.ring]

theorem Only.commitLog {P : List Part} {s0 s : State} (hk : Only P s0 s) (deferred : Bool)
    (hLog : .log ∈ P := by decide) (hMgp : .mgp ∈ P := by decide) :
    Only P s0 (State.commitLog s deferred) := by
  unfold State.commitLog
  grind only [← Only.put, MgpState.rest, MgpState.ring]

theorem Only.restoreSupply {P : List Part} {s0 s : State} (hk : Only P s0 s) (hClock : .clock ∈ P := by decide)
    (hReplies : .replies ∈ P := by decide) (hLog : .log ∈ P := by decide) (hMgp : .mgp ∈ P := by decide)
    (hSec : .sec ∈ P := by decide) : Only P s0 s.restoreSupply := by
  unfold State.restoreSupply
  extract_lets q mgp s1
  have hs1 : Only P s0 s1 := hk.putMgp _ rfl hMgp
  clear_value s1
  grind only [← Only.nvDrain, ← Only.event, ← Only.commitLog]

theorem Only.sag {P : List Part} {s0 s : State} (hk : Only P s0 s) (halt : Bool) (hTiles : .tiles ∈ P := by decide)
    (hNet : .net ∈ P := by decide) (hHbm : .hbm ∈ P := by decide) (hStackMap : .stackMap ∈ P := by decide)
    (hMemNet : .memNet ∈ P := by decide) (hMem : .mem ∈ P := by decide) (hPorts : .ports ∈ P := by decide)
    (hDomain : .domain ∈ P := by decide) (hHeld : .held ∈ P := by decide) (hPair : .pair ∈ P := by decide)
    (hDatum : .datum ∈ P := by decide) (hReplies : .replies ∈ P := by decide) (hJobs : .jobs ∈ P := by decide)
    (hFaults : .faults ∈ P := by decide) (hRun : .run ∈ P := by decide) (hBlocks : .blocks ∈ P := by decide)
    (hLog : .log ∈ P := by decide) (hMgp : .mgp ∈ P := by decide) (hFwFault : .fwFault ∈ P := by decide)
    (hPower : .power ∈ P := by decide) (hFreeCtr : .freeCtr ∈ P := by decide) :
    Only P s0 (State.sag s halt) := by
  unfold State.sag
  grind only [← Only.event, ← Only.railsOff, ← Only.stopRun, ← Only.put, MgpState.rest, MgpState.ring]

theorem Only.recover {P : List Part} {s0 s : State} (hk : Only P s0 s) (hHbm : .hbm ∈ P := by decide)
    (hStackMap : .stackMap ∈ P := by decide) (hDatum : .datum ∈ P := by decide) (hClock : .clock ∈ P := by decide)
    (hReplies : .replies ∈ P := by decide) (hLog : .log ∈ P := by decide) (hMgp : .mgp ∈ P := by decide)
    (hSec : .sec ∈ P := by decide) (hPower : .power ∈ P := by decide) :
    Only P s0 (State.recover s) := by
  unfold State.recover
  grind only [← Only.railsOn, ← Only.restoreSupply, ← Only.put, ClockState.rest, MgpState.rest, MgpState.ring]

/-! ### Reset -/

theorem Only.pcieReset {P : List Part} {s0 s : State} (hk : Only P s0 s) (hSessions : .sessions ∈ P := by decide)
    (hReplies : .replies ∈ P := by decide) (hJobs : .jobs ∈ P := by decide) (hHost : .host ∈ P := by decide) :
    Only P s0 (State.pcieReset s) := by
  unfold State.pcieReset
  grind only [← Only.endSession, ← Only.put, HostState.rest, HostState.sessions, HostState.replies, HostState.jobPart]

theorem Only.putClock {P : List Part} {s0 s : State} (hk : Only P s0 s) (c : ClockState)
    (hc : c.datumReq = s.clock.datumReq) (hClock : .clock ∈ P := by decide) : Only P s0 { s with clock := c } := by
  grind only [← Only.put]

theorem Only.putCal {P : List Part} {s0 s : State} (hk : Only P s0 s) (store staging : Memory) (good : Bool)
    (hMgp : .mgp ∈ P := by decide) :
    Only P s0 { s with mgp := { s.mgp with calStore := store, calStaging := staging, calValid := good } } :=
  hk.putMgp _ rfl hMgp

theorem Only.checkCal {P : List Part} {s0 s : State} (hk : Only P s0 s) (hClock : .clock ∈ P := by decide)
    (hMgp : .mgp ∈ P := by decide) :
    Only P s0 (State.checkCal s) := by
  unfold State.checkCal
  extract_lets staged store valid mgp s1
  have hs1 : Only P s0 s1 := hk.putCal _ _ _ hMgp
  clear_value s1 valid
  have hcode (n : Nat) : Only P s0 { s1 with clock := { s1.clock with criticalCode := n } } :=
    hs1.putClock _ rfl hClock
  split
  · exact hcode _
  · exact hs1.putClock _ rfl hClock

theorem Only.reportPowerFail {P : List Part} {s0 s : State} (hk : Only P s0 s) (hReplies : .replies ∈ P := by decide)
    (hLog : .log ∈ P := by decide) (hMgp : .mgp ∈ P := by decide) :
    Only P s0 (State.reportPowerFail s) := by
  unfold State.reportPowerFail
  grind only [← Only.event, ← Only.put, MgpState.rest, MgpState.ring]

theorem Only.loadLibrary {P : List Part} {s0 s : State} (hk : Only P s0 s) (hRoutines : .routines ∈ P := by decide) :
    Only P s0 (State.loadLibrary s) := by
  unfold State.loadLibrary
  grind only [← Only.put]

/-! ### Slots -/

theorem Only.raiseScratch {P : List Part} {s0 s : State} (hk : Only P s0 s) (t line : Nat)
    (hTiles : .tiles ∈ P := by decide) (hNet : .net ∈ P := by decide) (hHbm : .hbm ∈ P := by decide)
    (hStackMap : .stackMap ∈ P := by decide) (hMem : .mem ∈ P := by decide) (hPorts : .ports ∈ P := by decide)
    (hDomain : .domain ∈ P := by decide) (hHeld : .held ∈ P := by decide) (hPair : .pair ∈ P := by decide)
    (hDatum : .datum ∈ P := by decide) (hReplies : .replies ∈ P := by decide) (hJobs : .jobs ∈ P := by decide)
    (hFaults : .faults ∈ P := by decide) (hRun : .run ∈ P := by decide) (hBlocks : .blocks ∈ P := by decide)
    (hLog : .log ∈ P := by decide) (hFwFault : .fwFault ∈ P := by decide) (hFreeCtr : .freeCtr ∈ P := by decide) :
    Only P s0 (State.raiseScratch s t line) := by
  unfold State.raiseScratch
  grind only [← Only.raiseHw]

theorem Only.meetUpsets {P : List Part} {s0 s : State} (hk : Only P s0 s) (t : Nat) (lines : List Nat)
    (hTiles : .tiles ∈ P := by decide) (hNet : .net ∈ P := by decide) (hHbm : .hbm ∈ P := by decide)
    (hStackMap : .stackMap ∈ P := by decide) (hMem : .mem ∈ P := by decide) (hPorts : .ports ∈ P := by decide)
    (hDomain : .domain ∈ P := by decide) (hHeld : .held ∈ P := by decide) (hPair : .pair ∈ P := by decide)
    (hDatum : .datum ∈ P := by decide) (hReplies : .replies ∈ P := by decide) (hJobs : .jobs ∈ P := by decide)
    (hFaults : .faults ∈ P := by decide) (hRun : .run ∈ P := by decide) (hBlocks : .blocks ∈ P := by decide)
    (hLog : .log ∈ P := by decide) (hFwFault : .fwFault ∈ P := by decide) (hFreeCtr : .freeCtr ∈ P := by decide) :
    Only P s0 (State.meetUpsets s t lines) := by
  unfold State.meetUpsets
  grind only [← Only.modTile, ← Only.raiseScratch, ← Only.put, ← Only.foldl]

/-! ### Cycle -/

theorem Only.judge {P : List Part} {s0 s : State} (hk : Only P s0 s) (t : Nat) (old new : List RangeUse)
    (hTiles : .tiles ∈ P := by decide) (hFaults : .faults ∈ P := by decide) :
    Only P s0 (State.judge s t old new) := by
  unfold State.judge
  grind only [← Only.modTile, ← Only.raiseAccess, ← Only.put]

theorem Only.applyLate {P : List Part} {a s0 : State} (hk : Only P a s0) (t : TileNo) (l : Late)
    (hTiles : .tiles ∈ P := by decide) (hNet : .net ∈ P := by decide) (hPorts : .ports ∈ P := by decide)
    (hHeld : .held ∈ P := by decide) (hReplies : .replies ∈ P := by decide) (hFaults : .faults ∈ P := by decide)
    (hRun : .run ∈ P := by decide) (hLog : .log ∈ P := by decide) (hFreeCtr : .freeCtr ∈ P := by decide) :
    Only P a (State.applyLate s0 t l) := by
  unfold State.applyLate
  grind only [← Only.checkShot, ← Only.drawn, ← Only.endSlot, ← Only.modTile, ← Only.put, ← Only.foldl]

theorem Only.settleLates {P : List Part} {s0 s : State} (hk : Only P s0 s) (t : TileNo) (now : Nat)
    (hTiles : .tiles ∈ P := by decide) (hNet : .net ∈ P := by decide) (hPorts : .ports ∈ P := by decide)
    (hHeld : .held ∈ P := by decide) (hReplies : .replies ∈ P := by decide) (hFaults : .faults ∈ P := by decide)
    (hRun : .run ∈ P := by decide) (hLog : .log ∈ P := by decide) (hFreeCtr : .freeCtr ∈ P := by decide) :
    Only P s0 (State.settleLates s t now) := by
  unfold State.settleLates
  grind only [← Only.applyLate, ← Only.modTile, ← Only.put, ← Only.foldl]

theorem Only.moveEngines {P : List Part} {s0 s : State} (hk : Only P s0 s) (t : TileNo)
    (hTiles : .tiles ∈ P := by decide) (hNet : .net ∈ P := by decide) (hPorts : .ports ∈ P := by decide)
    (hHeld : .held ∈ P := by decide) (hPair : .pair ∈ P := by decide) (hFaults : .faults ∈ P := by decide)
    (hRun : .run ∈ P := by decide) :
    Only P s0 (State.moveEngines s t) := by
  unfold State.moveEngines
  grind only [← Only.cycleArray, ← Only.cycleVector, ← Only.modTile, ← Only.routineReturn, ← Only.put]

theorem Only.openCycle {P : List Part} {s0 s : State} (hk : Only P s0 s) (t : TileNo) (hTiles : .tiles ∈ P := by decide)
    (hNet : .net ∈ P := by decide) (hHbm : .hbm ∈ P := by decide) (hStackMap : .stackMap ∈ P := by decide)
    (hMem : .mem ∈ P := by decide) (hPorts : .ports ∈ P := by decide) (hDomain : .domain ∈ P := by decide)
    (hHeld : .held ∈ P := by decide) (hPair : .pair ∈ P := by decide) (hDatum : .datum ∈ P := by decide)
    (hReplies : .replies ∈ P := by decide) (hJobs : .jobs ∈ P := by decide) (hFaults : .faults ∈ P := by decide)
    (hRun : .run ∈ P := by decide) (hBlocks : .blocks ∈ P := by decide) (hLog : .log ∈ P := by decide)
    (hFwFault : .fwFault ∈ P := by decide) (hFreeCtr : .freeCtr ∈ P := by decide) :
    Only P s0 (State.openCycle s t) := by
  unfold State.openCycle
  grind only [← Only.judge, ← Only.meetUpsets, ← Only.modTile, ← Only.moveEngines, ← Only.settleLates, ← Only.put]

theorem Only.endFills {P : List Part} {s0 s : State} (hk : Only P s0 s) (t : TileNo) (hTiles : .tiles ∈ P := by decide)
    (hNet : .net ∈ P := by decide) (hHbm : .hbm ∈ P := by decide) (hStackMap : .stackMap ∈ P := by decide)
    (hMem : .mem ∈ P := by decide) (hPorts : .ports ∈ P := by decide) (hDomain : .domain ∈ P := by decide)
    (hHeld : .held ∈ P := by decide) (hPair : .pair ∈ P := by decide) (hDatum : .datum ∈ P := by decide)
    (hReplies : .replies ∈ P := by decide) (hJobs : .jobs ∈ P := by decide) (hFaults : .faults ∈ P := by decide)
    (hRun : .run ∈ P := by decide) (hBlocks : .blocks ∈ P := by decide) (hLog : .log ∈ P := by decide)
    (hFwFault : .fwFault ∈ P := by decide) (hFreeCtr : .freeCtr ∈ P := by decide) :
    Only P s0 (State.endFills s t) := by
  unfold State.endFills
  grind only [← Only.allFillsEnd, ← Only.meetUpsets, ← Only.modTile, ← Only.put]

theorem Only.cycleTile {P : List Part} {s0 s : State} (hk : Only P s0 s) (t : TileNo) (hTiles : .tiles ∈ P := by decide)
    (hNet : .net ∈ P := by decide) (hHbm : .hbm ∈ P := by decide) (hStackMap : .stackMap ∈ P := by decide)
    (hMem : .mem ∈ P := by decide) (hPorts : .ports ∈ P := by decide) (hDomain : .domain ∈ P := by decide)
    (hHeld : .held ∈ P := by decide) (hPair : .pair ∈ P := by decide) (hDatum : .datum ∈ P := by decide)
    (hReplies : .replies ∈ P := by decide) (hJobs : .jobs ∈ P := by decide) (hFaults : .faults ∈ P := by decide)
    (hRun : .run ∈ P := by decide) (hBlocks : .blocks ∈ P := by decide) (hLog : .log ∈ P := by decide)
    (hFwFault : .fwFault ∈ P := by decide) (hFreeCtr : .freeCtr ∈ P := by decide) :
    Only P s0 (State.cycleTile s t) := by
  unfold State.cycleTile
  grind only [← Only.endFills, ← Only.modTile, ← Only.openCycle, ← Only.put]

/-! ### Tick -/

theorem Only.seeCrossings {P : List Part} {s0 s : State} (hk : Only P s0 s) (hDatum : .datum ∈ P := by decide)
    (hClock : .clock ∈ P := by decide) (hFreeCtr : .freeCtr ∈ P := by decide) :
    Only P s0 (State.seeCrossings s) := by
  unfold State.seeCrossings
  grind only [← Only.drawn, ← Only.put, ClockState.rest, = State.drawn_clock, ← Only.foldl]

theorem Only.advanceRegions {P : List Part} {s0 s : State} (hk : Only P s0 s) (hClock : .clock ∈ P := by decide) :
    Only P s0 (State.advanceRegions s) := by
  unfold State.advanceRegions
  grind only [← Only.modRegion, ← Only.foldl]

theorem Only.moveClocks {P : List Part} {a s0 : State} (hk : Only P a s0) (hDatum : .datum ∈ P := by decide)
    (hClock : .clock ∈ P := by decide) (hFreeCtr : .freeCtr ∈ P := by decide) :
    Only P a (State.moveClocks s0) := by
  unfold State.moveClocks
  grind only [← Only.advanceRegions, ← Only.seeCrossings, ← Only.turnBase, ← Only.put, ClockState.rest]

theorem Only.endWatches {P : List Part} {s0 s : State} (hk : Only P s0 s) (hTiles : .tiles ∈ P := by decide)
    (hNet : .net ∈ P := by decide) :
    Only P s0 (State.endWatches s) := by
  unfold State.endWatches
  grind only [← Only.judgeWatches]

theorem Only.tick {P : List Part} {s0 s : State} (hk : Only P s0 s) (hTiles : .tiles ∈ P := by decide)
    (hNet : .net ∈ P := by decide) (hHbm : .hbm ∈ P := by decide) (hStackMap : .stackMap ∈ P := by decide)
    (hMem : .mem ∈ P := by decide) (hPorts : .ports ∈ P := by decide) (hDomain : .domain ∈ P := by decide)
    (hHeld : .held ∈ P := by decide) (hPair : .pair ∈ P := by decide) (hDatum : .datum ∈ P := by decide)
    (hClock : .clock ∈ P := by decide) (hReplies : .replies ∈ P := by decide) (hJobs : .jobs ∈ P := by decide)
    (hFaults : .faults ∈ P := by decide) (hRun : .run ∈ P := by decide) (hBlocks : .blocks ∈ P := by decide)
    (hLog : .log ∈ P := by decide) (hFwFault : .fwFault ∈ P := by decide) (hFreeCtr : .freeCtr ∈ P := by decide) :
    Only P s0 (State.tick s) := by
  unfold State.tick
  grind only [← Only.cycleTile, ← Only.endWatches, ← Only.modTile, ← Only.moveClocks, ← Only.foldl]

end Sys2Proof.Machine
end

section
/-! PROOFS. No command outside the bundles and the register writes stops the machine (O57). -/

namespace Sys2Proof.Machine

set_option Elab.async false

/-- Every command that a packet carries goes on. -/
theorem exec_next_of_encodeBody (s : State) {i : Instr} (hi : encodeBody i ≠ none) : ∃ t, exec i s = .next t := by
  have hk := Kept.refl s
  cases i with
  | sessionOpen h b => exact (Goes.execSessionOpen hk h b).runs
  | sessionClose h => exact (Goes.execSessionClose hk h).runs
  | nop h => exact (Goes.execNop hk h).runs
  | identify h => exact (Goes.execIdentify hk h).runs
  | sessionTake h b => exact (Goes.execSessionTake hk h b).runs
  | loadImage h b body => exact (Goes.execLoadImage hk h b body).runs
  | verifyImage h b body => exact (Goes.execVerifyImage hk h b body).runs
  | unloadImage h handle => exact (Goes.execUnloadImage hk h handle).runs
  | listImages h => exact (Goes.execListImages hk h).runs
  | dmaStart h b => exact (Goes.execDmaStart hk h b).runs
  | dmaAbort h channel => exact (Goes.execDmaAbort hk h channel).runs
  | dmaStatus h channel => exact (Goes.execDmaStatus hk h channel).runs
  | apertureMove h base => exact (Goes.execApertureMove hk h base).runs
  | memoryLayout h firstBand count bands => exact (Goes.execMemoryLayout hk h firstBand count bands).runs
  | run h b patches => exact (Goes.execRun hk h b patches).runs
  | stop h => exact (Goes.execStop hk h).runs
  | step h mask bundles => exact (Goes.execStep hk h mask bundles).runs
  | jobConfig h checkT closure lead => exact (Goes.execJobConfig hk h checkT closure lead).runs
  | runStatus h => exact (Goes.execRunStatus hk h).runs
  | setModuleId h id => exact (Goes.execSetModuleId hk h id).runs
  | setDomain h b => exact (Goes.execSetDomain hk h b).runs
  | setPairMode h mode => exact (Goes.execSetPairMode hk h mode).runs
  | announceInitialMembership h b => exact (Goes.execAnnounceInitialMembership hk h b).runs
  | announcePlannedChange h b => exact (Goes.execAnnouncePlannedChange hk h b).runs
  | announceForcedChange h b => exact (Goes.execAnnounceForcedChange hk h b).runs
  | withdrawChange h memberEpoch => exact (Goes.execWithdrawChange hk h memberEpoch).runs
  | leaseDeliver h r => exact (Goes.execLeaseDeliver hk h r).runs
  | portReset h port => exact (Goes.execPortReset hk h port).runs
  | quarantineClear h => exact (Goes.execQuarantineClear hk h).runs
  | linkStatus h => exact (Goes.execLinkStatus hk h).runs
  | calibrate h scope r => exact (Goes.execCalibrate hk h scope r).runs
  | calExport h offset => exact (Goes.execCalExport hk h offset).runs
  | calImport h offset total chunk => exact (Goes.execCalImport hk h offset total chunk).runs
  | powerPolicy h targetB capB inputLimit => exact (Goes.execPowerPolicy hk h targetB capB inputLimit).runs
  | spdm h r => exact (Goes.execSpdm hk h r).runs
  | enrolBuildKey h index key => exact (Goes.execEnrolBuildKey hk h index key).runs
  | revokeBuildKey h index => exact (Goes.execRevokeBuildKey hk h index).runs
  | signingEnforce h on => exact (Goes.execSigningEnforce hk h on).runs
  | fwWrite h offset chunk => exact (Goes.execFwWrite hk h offset chunk).runs
  | fwActivate h digest => exact (Goes.execFwActivate hk h digest).runs
  | haltTiles h mask => exact (Goes.execHaltTiles hk h mask).runs
  | resumeTiles h mask => exact (Goes.execResumeTiles hk h mask).runs
  | readSync h object tile number => exact (Goes.execReadSync hk h object tile number).runs
  | syncHaltTile h tile value => exact (Goes.execSyncHaltTile hk h tile value).runs
  | syncResumeTile h tile value => exact (Goes.execSyncResumeTile hk h tile value).runs
  | syncSetCount h tile number value => exact (Goes.execSyncSetCount hk h tile number value).runs
  | syncAddArrivals h tile number value => exact (Goes.execSyncAddArrivals hk h tile number value).runs
  | syncReleaseRound h tile number value => exact (Goes.execSyncReleaseRound hk h tile number value).runs
  | syncFireWatch h tile number value => exact (Goes.execSyncFireWatch hk h tile number value).runs
  | syncDisarmWatch h tile number value => exact (Goes.execSyncDisarmWatch hk h tile number value).runs
  | syncResetEndpoint h tile number value => exact (Goes.execSyncResetEndpoint hk h tile number value).runs
  | readTileState h tile set index => exact (Goes.execReadTileState hk h tile set index).runs
  | readTelemetry h block offset => exact (Goes.execReadTelemetry hk h block offset).runs
  | readRecord h runIndex offset => exact (Goes.execReadRecord hk h runIndex offset).runs
  | readEventLog h start finish offset => exact (Goes.execReadEventLog hk h start finish offset).runs
  | readFaults h offset => exact (Goes.execReadFaults hk h offset).runs
  | readRoutines h offset => exact (Goes.execReadRoutines hk h offset).runs
  | readCheckHist h tile => exact (Goes.execReadCheckHist hk h tile).runs
  | readFlags h tile => exact (Goes.execReadFlags hk h tile).runs
  | subscribe h mask => exact (Goes.execSubscribe hk h mask).runs
  | _ => exact absurd rfl hi

/-- Settles O57: an outcome that only goes on is what each row of a packet and each event of a unit has, and a step of it needs
no premise about the state. -/
theorem packetCommandsNeverStop : Obligations.PacketCommandsNeverStop := by
  unfold Obligations.PacketCommandsNeverStop
  intro s
  have hk := Kept.refl s
  exact ⟨fun _ hi => exec_next_of_encodeBody s hi, fun _ _ _ => (Goes.execInboxCommit hk ..).runs,
    fun _ _ => (Goes.execMctpMessage hk ..).runs, (Goes.execOutboxReplyWrite hk).runs,
    fun _ => (Goes.execCoalescingIntervalExpiry hk ..).runs, fun _ _ => (Goes.execDmaComplete hk ..).runs,
    fun _ => (Goes.execApertureAccess hk ..).runs, fun _ => (Goes.execBandZeroingDone hk ..).runs,
    fun _ => (Goes.execRunEnd hk ..).runs, (Goes.execFaultStop hk).runs, (Goes.execHangReport hk).runs, fun _ =>
    ⟨(Goes.execStepBundlesDone hk ..).runs, fun _ => (Goes.execPendingArrayOpStart hk ..).runs,
    (Goes.execArrayFreeze hk ..).runs, (Goes.execPendingPassStart hk ..).runs,
    (Goes.execReductionSegmentResult hk ..).runs, (Goes.execLoopBodyEnd hk ..).runs,
    (Goes.execRoutineReturn hk ..).runs, fun _ => (Goes.execIstoreMissFill hk ..).runs,
    (Goes.execFillCopyDone hk ..).runs, (Goes.execPrefetchLineArrival hk ..).runs,
    (Goes.execPostSendDispatch hk ..).runs, fun _ => (Goes.execReadyTake hk ..).runs,
    (Goes.execTransferIssue hk ..).runs, fun _ => (Goes.execTransferComplete hk ..).runs,
    (Goes.execInboundDataArrival hk ..).runs, (Goes.execHoldAreaWrite hk ..).runs,
    (Goes.execRemoteWriteJudged hk ..).runs, (Goes.execWindowViolation hk ..).runs,
    fun _ => (Goes.execMessageArrival hk ..).runs, fun _ => (Goes.execCreditArrival hk ..).runs,
    fun _ => (Goes.execClosingNoticeArrival hk ..).runs, fun _ => (Goes.execOpeningNoticeArrival hk ..).runs,
    fun _ => (Goes.execDiscardReportArrival hk ..).runs, fun _ => (Goes.execWatchRegArrival hk ..).runs,
    fun _ => (Goes.execWatchFiredArrival hk ..).runs, fun _ => (Goes.execHang hk ..).runs⟩, fun _ =>
    ⟨(Goes.execBarrierCounterArrival hk ..).runs, (Goes.execBarrierReleaseArrival hk ..).runs⟩, fun _ =>
    ⟨(Goes.execHbmRequestIntake hk ..).runs, fun _ => (Goes.execHbmReadReturn hk ..).runs,
    fun _ => (Goes.execRefresh hk ..).runs, fun _ => (Goes.execPhyTracking hk ..).runs,
    fun _ => (Goes.execPatrolScrub hk ..).runs, fun _ => (Goes.execStackStatusRead hk ..).runs,
    (Goes.execGatedRead hk ..).runs, (Goes.execMarkWrite hk ..).runs,
    fun _ => (Goes.execUpdatePassComplete hk ..).runs, (Goes.execFingerprintRecord hk ..).runs⟩,
    fun _ => (Goes.execStepDigestFormed hk ..).runs, fun _ _ _ => (Goes.execStateTransfer hk ..).runs, fun _ =>
    ⟨(Goes.execScheduleFlitError hk ..).runs, (Goes.execD2dMemoryRetry hk ..).runs,
    (Goes.execCrossingSlip hk ..).runs⟩, fun _ =>
    ⟨fun _ _ => (Goes.execLinkBringup hk ..).runs, fun _ => (Goes.execControlFlit hk ..).runs,
    (Goes.execRetryTimeout hk ..).runs, fun _ => (Goes.execChainPacketReceive hk ..).runs,
    (Goes.execData hk ..).runs, (Goes.execCredit hk ..).runs, (Goes.execClose hk ..).runs,
    (Goes.execOpenNotice hk ..).runs, (Goes.execNoEndpoint hk ..).runs, (Goes.execBarrierArrive hk ..).runs,
    (Goes.execBarrierRelease hk ..).runs, fun _ => (Goes.execSync hk ..).runs, fun _ => (Goes.execMgmt hk ..).runs,
    (Goes.execCreditFlush hk ..).runs, fun _ => (Goes.execLinkDown hk ..).runs,
    fun _ => (Goes.execLinkRetrainTimer hk ..).runs, (Goes.execHeartbeat hk ..).runs,
    (Goes.execClosure hk ..).runs⟩, (Goes.execSyncExchangeTimer hk).runs, (Goes.execHeartbeatTimer hk).runs,
    (Goes.execTwinLost hk).runs, (Goes.execLeaseRenewTimer hk).runs, fun _ => (Goes.execLeaseReply hk ..).runs,
    (Goes.execLeaseTermEnd hk).runs, (Goes.execEpochSwitch hk).runs,
    fun _ _ _ => (Goes.execStretchToken hk ..).runs, fun _ _ => (Goes.execTargetToken hk ..).runs,
    (Goes.execBaseChange hk).runs, fun _ => (Goes.execMarginPolicy hk ..).runs, (Goes.execRootLock hk).runs,
    (Goes.execRootUnlock hk).runs, (Goes.execDatumPulse hk).runs, (Goes.execMeridianCompare hk).runs,
    fun _ _ => (Goes.execReplicaMarginStretch hk ..).runs, fun _ => (Goes.execThermalPolicy hk ..).runs,
    fun _ => (Goes.execInputPowerWindow hk ..).runs, fun _ => (Goes.execLogCommit hk ..).runs,
    fun _ => (Goes.execSupplySample hk ..).runs, fun o => (Goes.execFlashOperationDone hk o).runs,
    (Goes.execPowerFailReset hk).runs, (Goes.execInputLoss hk).runs, (Goes.execPowerUp hk).runs,
    (Goes.execMrst hk).runs, (Goes.execResetRelease hk).runs, (Goes.execPerst hk).runs, (Goes.execFlr hk).runs,
    (Goes.execI3cLoss hk).runs, (Goes.execBoot hk).runs, (Goes.execRollbackAdvance hk).runs,
    fun _ _ => (Goes.execPcieLinkTraining hk ..).runs⟩

end Sys2Proof.Machine
end

section
/-! PROOFS. The front of the queue, the state after reset, and the event log (O1, O3, O60). -/

namespace Sys2Proof.Machine

set_option Elab.async false

/-- Settles O1: the step's own case of a queue that holds a command. -/
theorem stepRunsTheFrontCommand : Obligations.StepRunsTheFrontCommand := by
  unfold Obligations.StepRunsTheFrontCommand
  intro c rest s hqueue
  simp only [step, hqueue]

/-- No tile, and no port, is listed after reset. -/
theorem reset_tile (k : Nat) : (State.reset.tile k).holdAreaCode = 6 ∧ (State.reset.tile k).logical = none := ⟨rfl, rfl⟩

/-- Settles O3: the values are the model's own, read off. -/
theorem resetState : Obligations.ResetState := by
  unfold Obligations.ResetState
  refine ⟨⟨rfl, rfl, rfl, rfl, rfl, rfl, rfl, rfl, rfl, rfl, rfl, rfl, rfl, rfl, fun _ => rfl, fun t => reset_tile t.val,
    fun _ => rfl⟩, rfl, ?_⟩
  intro e he
  cases he

/-! ### The event log -/

/-- A payload of at most 100 bytes is one piece. -/
theorem payloadPieces_of_le {n : Nat} {bs : Bytes} (h : bs.length ≤ 100) : payloadPieces n bs = [bs] := by
  cases n with
  | zero => rfl
  | succ n => simp [payloadPieces, h]

/-- An entry enters a ring with room behind the entries that it holds (R573). -/
theorem MgpState.push_of_lt {m : MgpState} (h : m.logRing.length < 4096) (e : LogEntry) :
    m.push e = { m with logRing := m.logRing ++ [e], overflowEpisode := false } := by
  simp [MgpState.push, h]

/-- The entry of a code in the event log (Table 17.5). -/
def State.logEntryOf (s : State) (code : BitVec 16) (cls : Nat) (severity : Fin 4) (source : BitVec 16) (payload : Bytes) :
    LogEntry :=
  { meridian := s.clock.meridian, seq := s.mgp.logSeq, code := code, cls := BitVec.ofNat 8 cls, severity := severity,
    deferred := false, source := source, jobId := if s.runActive then s.run.jobId else 0,
    step := if s.runActive then s.currentStep else 0xFFFFFFFF, payload := payload }

/-- A payload that fits and a ring with room: one entry, and the next sequence number. -/
theorem State.logCode_mgp (s : State) (code : BitVec 16) (cls : Nat) (severity : Fin 4) (source : BitVec 16)
    (payload : Bytes) (hfits : payload.length ≤ 100) (hroom : s.mgp.logRing.length < 4096) :
    (s.logCode code cls severity source payload).mgp =
      { s.mgp with logRing := s.mgp.logRing ++ [s.logEntryOf code cls severity source payload], overflowEpisode := false,
                   logSeq := s.mgp.logSeq + 1 } := by
  simp only [State.logCode, payloadPieces_of_le hfits, List.foldl_cons, List.foldl_nil, MgpState.push_of_lt hroom,
    Bool.false_and, Bool.false_eq_true, if_false]
  rfl

/-- Settles O60: the entry is the one that `logEntryOf` builds. -/
theorem eventsEnterTheLog : Obligations.EventsEnterTheLog := by
  unfold Obligations.EventsEnterTheLog
  intro s e src payload hfits hroom
  have hmgp := s.logCode_mgp (eventCode e) e.1 (Config.severity (eventCode e)) src payload hfits hroom
  refine ⟨s.logEntryOf (eventCode e) e.1 (Config.severity (eventCode e)) src payload, ?_, ?_, rfl, rfl, rfl, rfl, rfl,
    rfl, rfl, rfl, rfl, rfl, rfl, rfl⟩
  · exact congrArg MgpState.logRing hmgp
  · exact congrArg MgpState.logSeq hmgp

end Sys2Proof.Machine
end

section
/-! PROOFS. Fields and packets: what is written is read back (Tables 15.5 and 15.9 to 15.16). -/

namespace Sys2Proof

open Machine Laws

/-! ### Slices and fields of joined bytes -/

theorem slice_append_ge {a b : Bytes} {o n : Nat} (h : a.length ≤ o) :
    slice (a ++ b) o n = slice b (o - a.length) n := by
  have hdrop : (a ++ b).drop o = b.drop (o - a.length) := by
    rw [List.drop_append, List.drop_eq_nil_of_le h, List.nil_append]
  simp only [slice, hdrop]

theorem slice_append_lt {a b : Bytes} {o n : Nat} (h : o + n ≤ a.length) : slice (a ++ b) o n = slice a o n := by
  have hle : o ≤ a.length := by omega
  have htake : ((a ++ b).drop o).take n = (a.drop o).take n := by
    rw [List.drop_append_of_le_length hle, List.take_append_of_le_length (by simp; omega)]
  simp only [slice, htake]

theorem slice_self (a : Bytes) : slice a 0 a.length = a := by simp [slice, zeros]

theorem slice_of_length {a : Bytes} {n : Nat} (h : a.length = n) : slice a 0 n = a := by subst h; exact slice_self a

theorem padTo_of_le {a : Bytes} {n : Nat} (h : a.length ≤ n) : padTo n a = a ++ zeros (n - a.length) := by
  simp [padTo, slice, List.take_of_length_le h]

theorem fieldAt_append_ge {a b : Bytes} {o n : Nat} (h : a.length ≤ o) :
    fieldAt (a ++ b) o n = fieldAt b (o - a.length) n := by
  rw [fieldAt, fieldAt, slice_append_ge h]

theorem fieldAt_append_lt {a b : Bytes} {o n : Nat} (h : o + n ≤ a.length) : fieldAt (a ++ b) o n = fieldAt a o n := by
  rw [fieldAt, fieldAt, slice_append_lt h]

@[simp] theorem fieldAt_cons_succ (b : Byte) (bs : Bytes) (o n : Nat) : fieldAt (b :: bs) (o + 1) n = fieldAt bs o n := rfl

@[simp] theorem fieldAt_cons_zero (b : Byte) (bs : Bytes) : fieldAt (b :: bs) 0 1 = b.toNat := by
  simp [fieldAt, slice, leNat, zeros]

theorem leNat_leBytes (n v : Nat) : leNat (leBytes n v) = v % 256 ^ n := by
  induction n generalizing v with
  | zero => simp [leBytes, leNat, Nat.mod_one]
  | succ n ih =>
    rw [leBytes, leNat, ih, BitVec.toNat_ofNat]
    change v % 256 + 256 * (v / 256 % 256 ^ n) = v % 256 ^ (n + 1)
    rw [pow_succ', Nat.mod_mul]

theorem fieldAt_leBytes (n v : Nat) : fieldAt (leBytes n v) 0 n = v % 256 ^ n := by
  rw [fieldAt, slice_of_length (leBytes_length n v), leNat_leBytes]

theorem toNat_lt_pow {w n : Nat} (v : BitVec w) (h : w ≤ 8 * n) : v.toNat < 256 ^ n :=
  calc v.toNat < 2 ^ w := v.isLt
    _ ≤ 2 ^ (8 * n) := Nat.pow_le_pow_right (by norm_num) h
    _ = 256 ^ n := Nat.pow_mul 2 8 n

/-- A field of `n` bytes that holds a bit vector of no more bits. -/
theorem fieldAt_leBytes_toNat {w : Nat} (n : Nat) (v : BitVec w) (h : w ≤ 8 * n) :
    fieldAt (leBytes n v.toNat) 0 n = v.toNat := by
  rw [fieldAt_leBytes, Nat.mod_eq_of_lt (toNat_lt_pow v h)]

@[simp] theorem fieldAt_le1 (v : Byte) : fieldAt (le1 v) 0 1 = v.toNat := fieldAt_leBytes_toNat 1 v (by norm_num)
@[simp] theorem fieldAt_le2 (v : BitVec 16) : fieldAt (le2 v) 0 2 = v.toNat := fieldAt_leBytes_toNat 2 v (by norm_num)
@[simp] theorem fieldAt_le4 (v : Word) : fieldAt (le4 v) 0 4 = v.toNat := fieldAt_leBytes_toNat 4 v (by norm_num)
@[simp] theorem fieldAt_le8 (v : DWord) : fieldAt (le8 v) 0 8 = v.toNat := fieldAt_leBytes_toNat 8 v (by norm_num)
@[simp] theorem fieldAt_leBytes_mask (m : BitVec 128) : fieldAt (leBytes 16 m.toNat) 0 16 = m.toNat :=
  fieldAt_leBytes_toNat 16 m (by norm_num)
@[simp] theorem fieldAt_keyBytes (k : Key) : fieldAt (keyBytes k) 0 32 = k.toNat := fieldAt_leBytes_toNat 32 k (by norm_num)
@[simp] theorem fieldAt_signatureBytes (k : Signature) : fieldAt (signatureBytes k) 0 64 = k.toNat :=
  fieldAt_leBytes_toNat 64 k (by norm_num)

@[simp] theorem byteAt_le1 (v : Byte) : byteAt (le1 v) 0 = v := by simp [byteAt]
@[simp] theorem wordAt_le4 (v : Word) : wordAt (le4 v) 0 = v := by simp [wordAt]
@[simp] theorem halfAt_le2 (v : BitVec 16) : halfAt (le2 v) 0 = v := by simp [halfAt]
@[simp] theorem dwordAt_le8 (v : DWord) : dwordAt (le8 v) 0 = v := by simp [dwordAt]
@[simp] theorem maskAt_leBytes (m : BitVec 128) : maskAt (leBytes 16 m.toNat) 0 = m := by
  simp [maskAt]
@[simp] theorem digestAt_digestBytes (d : Digest) : digestAt (digestBytes d) 0 = d := by
  rw [digestAt, slice_of_length (digestBytes_length d), digestBytes, beNat, beBytes, List.reverse_reverse, leNat_leBytes,
    Nat.mod_eq_of_lt (toNat_lt_pow d le_rfl), BitVec.ofNat_toNat, BitVec.setWidth_eq]

/-! ### Bodies with several fields -/

@[simp] theorem openBody_openBytes (b : OpenBody) : openBody (openBytes b) = b := by
  simp [openBody, openBytes, byteAt, halfAt, dwordAt, fieldAt_append_ge, fieldAt_append_lt]

@[simp] theorem loadBody_loadBytes (b : LoadBody) : loadBody (loadBytes b) = b := by
  simp [loadBody, loadBytes, byteAt, dwordAt, fieldAt_append_ge, fieldAt_append_lt]

@[simp] theorem dmaBody_dmaBytes (b : DmaBody) : dmaBody (dmaBytes b) = b := by
  simp [dmaBody, dmaBytes, byteAt, halfAt, dwordAt, fieldAt_append_ge, fieldAt_append_lt]

@[simp] theorem domainBody_domainBytes (b : DomainBody) : domainBody (domainBytes b) = b := by
  simp [domainBody, domainBytes, byteAt, wordAt, keyAt, fieldAt_append_ge, fieldAt_append_lt]

@[simp] theorem announceBody_announceBytes (k : Nat) (b : AnnounceBody) : announceBody (announceBytes k b) = b := by
  simp [announceBody, announceBytes, wordAt, dwordAt, fieldAt_append_ge, fieldAt_append_lt]

@[simp] theorem leaseReplyOf_leaseReplyBytes (r : LeaseReplyMsg) : leaseReplyOf (leaseReplyBytes r) = r := by
  simp [leaseReplyOf, leaseReplyBytes, byteAt, wordAt, dwordAt, signatureAt, fieldAt_append_ge, fieldAt_append_lt]

theorem fieldAt_announceBytes (k : Nat) (b : AnnounceBody) : fieldAt (announceBytes k b) 0 1 = k % 256 := by
  simp [announceBytes, fieldAt_append_lt, fieldAt_leBytes]

@[simp] theorem syncObjectOf_code (o : SyncObject) : syncObjectOf (syncObjectCode o) = some o := by cases o <;> rfl

theorem syncObjectCode_lt (o : SyncObject) : syncObjectCode o < 256 := by cases o <;> decide

@[simp] theorem bandPairs_bandBytes (ps : List (Byte × Byte)) : bandPairs (bandBytes ps) ps.length = ps := by
  induction ps with
  | nil => rfl
  | cons p ps ih =>
    have hfront : (le1 p.1 ++ le1 p.2).length = 2 := by simp
    have hbytes : bandBytes (p :: ps) = (le1 p.1 ++ le1 p.2) ++ bandBytes ps := by simp [bandBytes]
    rw [hbytes, List.length_cons, bandPairs, List.drop_left' hfront, ih]
    simp [byteAt, fieldAt_append_ge, fieldAt_append_lt]

@[simp] theorem patchEntry_patchBytes (p : PatchEntry) (r : Bytes) : patchEntry (patchBytes p ++ r) = p := by
  simp [patchEntry, patchBytes, byteAt, halfAt, dwordAt, fieldAt_append_ge, fieldAt_append_lt]

@[simp] theorem patchList_patchBytes (ps : List PatchEntry) : patchList (ps.flatMap patchBytes) ps.length = ps := by
  induction ps with
  | nil => rfl
  | cons p ps ih =>
    rw [List.flatMap_cons, List.length_cons, patchList, List.drop_left' (patchBytes_length p), ih, patchEntry_patchBytes]

/-- The bytes of a RUN body before its patch list. -/
def runFront (b : RunBody) (n : Nat) : Bytes :=
  le2 b.flags ++ leBytes 1 n ++ le1 b.hangExp ++ le2 b.jobTag ++ zeros 2 ++ le8 b.jobSeed ++ le4 b.firstStep ++ le4 b.stepLimit

@[simp] theorem runFront_length (b : RunBody) (n : Nat) : (runFront b n).length = 24 := by simp [runFront]

@[simp] theorem runBody_runBytes (b : RunBody) (ps : List PatchEntry) : runBody (runBytes b ps) = b := by
  simp [runBody, runBytes, byteAt, halfAt, wordAt, dwordAt, fieldAt_append_ge, fieldAt_append_lt]

theorem fieldAt_runBytes (b : RunBody) (ps : List PatchEntry) : fieldAt (runBytes b ps) 2 1 = ps.length % 256 := by
  simp [runBytes, fieldAt_append_ge, fieldAt_append_lt, fieldAt_leBytes]

/-- A code that is none of Table 18.5 is read as such. -/
theorem spdmRequestOf_other {code : Byte} (hwf : spdmWf (.other code) = true) :
    spdmRequestOf (spdmBytes (.other code)) = .other code := by
  have hcode : fieldAt (spdmBytes (.other code)) 1 1 = code.toNat := by
    simp [spdmBytes, fieldAt_append_lt]
  have hbyte : byteAt (spdmBytes (.other code)) 1 = code := by simp [byteAt, hcode]
  simp only [spdmWf, Bool.not_eq_true', List.contains_eq_mem, decide_eq_false_iff_not, List.mem_cons, not_or] at hwf
  obtain ⟨h1, h2, h3, h4, h5, h6, h7, -⟩ := hwf
  unfold spdmRequestOf
  split <;> simp_all

theorem spdmRequestOf_spdmBytes {r : SpdmRequest} (hwf : spdmWf r = true) : spdmRequestOf (spdmBytes r) = r := by
  cases r with
  | getVersion | getCapabilities | negotiateAlgorithms | getDigests => rfl
  | getCertificate slot o n =>
    simp [spdmRequestOf, spdmBytes, byteAt, halfAt, fieldAt_append_ge, fieldAt_append_lt]
  | challenge slot nonce =>
    simp [spdmRequestOf, spdmBytes, byteAt, keyAt, fieldAt_append_ge, fieldAt_append_lt]
  | getMeasurements i signed nonce =>
    cases signed <;> simp [spdmRequestOf, spdmBytes, byteAt, keyAt, fieldAt_append_ge, fieldAt_append_lt]
  | other code => exact spdmRequestOf_other hwf

/-! ### Bodies -/

/-- Groups 0x00 to 0x03. -/
theorem decodeLow_encodeLow {i : Instr} {h : Hdr} {op : Nat} {bs : Bytes} {img : Option ImageBody}
    (hwf : wellFormed i = true) (he : encodeLow i = some (h, op, bs))
    (himg : ∀ h' b x, (i = .loadImage h' b x ∨ i = .verifyImage h' b x) → img = x) :
    (op < 0x0400 ∧ bs.length ≤ 4056) ∧ decodeLow h op bs img = .command i := by
  cases i with
  | sessionOpen | sessionClose | nop | identify | sessionTake | unloadImage | listImages | dmaStart | dmaAbort | dmaStatus
  | apertureMove | stop | runStatus =>
    cases he
    simp [decodeLow, sized]
  | loadImage h' b x =>
    cases he
    simp [decodeLow, sized, himg h b x (.inl rfl)]
  | verifyImage h' b x =>
    cases he
    simp [decodeLow, sized, himg h b x (.inr rfl)]
  | memoryLayout h' first n ps =>
    cases he
    have hlen : ps.length = n.toNat := by simpa [wellFormed, packetWf, slotWf, eventWf] using hwf
    have hcount : fieldAt (le1 first ++ le1 n ++ bandBytes ps) 1 1 = ps.length := by
      simp [fieldAt_append_ge, fieldAt_append_lt, hlen]
    have hfirst : byteAt (le1 first ++ le1 n ++ bandBytes ps) 0 = first := by simp [byteAt, fieldAt_append_lt]
    have hsecond : byteAt (le1 first ++ le1 n ++ bandBytes ps) 1 = n := by
      simp [byteAt, fieldAt_append_ge, fieldAt_append_lt]
    have hdrop : (le1 first ++ le1 n ++ bandBytes ps).drop 2 = bandBytes ps := List.drop_left' (by simp)
    have hsize : (le1 first ++ le1 n ++ bandBytes ps).length = 2 + 2 * ps.length := by simp; omega
    have hfits : 2 + 2 * ps.length ≤ 4056 := by have := n.isLt; omega
    simp [-List.append_assoc, decodeLow, counted, hcount, hfirst, hsecond, hdrop, hsize, hfits]
  | run h' b ps =>
    cases he
    have hlen : ps.length ≤ 252 := by simpa [wellFormed, packetWf, slotWf, eventWf, atMost] using hwf
    have hcount : fieldAt (runBytes b ps) 2 1 = ps.length := by rw [fieldAt_runBytes, Nat.mod_eq_of_lt (by omega)]
    have hdrop : (runBytes b ps).drop 24 = ps.flatMap patchBytes := List.drop_left' (runFront_length b ps.length)
    have hfits : 24 + 16 * ps.length ≤ 4056 := by omega
    simp [decodeLow, counted, hcount, hdrop, hfits]
  | step h' m n =>
    cases he
    simp [decodeLow, sized, maskAt, wordAt, fieldAt_append_ge, fieldAt_append_lt]
  | jobConfig h' a b c =>
    cases he
    simp [decodeLow, sized, byteAt, fieldAt_append_ge, fieldAt_append_lt]
  | _ => cases he

/-- Groups 0x04 to 0x06. -/
theorem decodeMid_encodeMid {i : Instr} {h : Hdr} {op : Nat} {bs : Bytes} {cal : CalResult}
    (hwf : wellFormed i = true) (he : encodeMid i = some (h, op, bs)) (hcal : ∀ h' v r, i = .calibrate h' v r → cal = r) :
    (0x0400 ≤ op ∧ op < 0x0700 ∧ bs.length ≤ 4056) ∧ decodeMid h op bs cal = .command i := by
  cases i with
  | setModuleId | setDomain | setPairMode | withdrawChange | leaseDeliver | portReset | quarantineClear | linkStatus
  | calExport | revokeBuildKey | signingEnforce | fwActivate =>
    cases he
    simp [decodeMid, sized]
  | announceInitialMembership | announcePlannedChange | announceForcedChange =>
    cases he
    simp [decodeMid, sizedThen, announceOf, fieldAt_announceBytes]
  | calibrate h' v r =>
    cases he
    simp [decodeMid, sized, hcal h v r rfl]
  | calImport h' o n c =>
    cases he
    have hlen : c.length ≤ 4032 := by simpa [wellFormed, packetWf, slotWf, eventWf, atMost] using hwf
    have hdrop : (le4 o ++ le4 n ++ c).drop 8 = c := List.drop_left' (by simp)
    have hsize : (le4 o ++ le4 n ++ c).length = 8 + c.length := by simp; omega
    have hbody : 8 + c.length ≤ 4040 := by omega
    simp [-List.append_assoc, decodeMid, counted, wordAt, fieldAt_append_ge, fieldAt_append_lt, hdrop, hsize, hbody]
    omega
  | powerPolicy h' a b l =>
    cases he
    simp [decodeMid, sized, byteAt, wordAt, fieldAt_append_ge, fieldAt_append_lt]
  | spdm h' r =>
    cases he
    have hr : spdmWf r = true := by simpa [wellFormed, packetWf, slotWf, eventWf] using hwf
    have hleast : 4 ≤ (spdmBytes r).length := by cases r <;> simp [spdmBytes]
    have hfits : (spdmBytes r).length ≤ 4056 := by cases r <;> simp [spdmBytes]
    simp [decodeMid, counted, hleast, hfits, spdmRequestOf_spdmBytes hr]
  | enrolBuildKey h' n k =>
    cases he
    simp [decodeMid, sized, byteAt, keyAt, fieldAt_append_ge, fieldAt_append_lt]
  | fwWrite h' o c =>
    cases he
    have hlen : c.length ≤ 4048 := by simpa [wellFormed, packetWf, slotWf, eventWf, atMost] using hwf
    have hbody : 4 + c.length ≤ 4052 := by omega
    simp [decodeMid, counted, wordAt, fieldAt_append_lt, List.drop_left' (le4_length o), hbody]
    omega
  | _ => cases he

/-- Groups 0x07 and 0x08. -/
theorem decodeHigh_encodeHigh {i : Instr} {h : Hdr} {op : Nat} {bs : Bytes} (he : encodeHigh i = some (h, op, bs)) :
    (0x0700 ≤ op ∧ op < 65536 ∧ bs.length ≤ 4056) ∧ decodeHigh h op bs = .command i := by
  cases i with
  | haltTiles | resumeTiles | readFaults | readRoutines | readCheckHist | readFlags | subscribe =>
    cases he
    simp [decodeHigh, sized]
  | readSync h' o t n =>
    cases he
    simp [decodeHigh, sizedThen, readSyncOf, halfAt, fieldAt_append_ge, fieldAt_append_lt, fieldAt_leBytes,
      Nat.mod_eq_of_lt (syncObjectCode_lt o)]
  | syncHaltTile | syncResumeTile | syncSetCount | syncAddArrivals | syncReleaseRound | syncFireWatch | syncDisarmWatch
  | syncResetEndpoint =>
    cases he
    simp [decodeHigh, sizedThen, writeSyncOf, writeSyncBytes, syncObjectOf, halfAt, wordAt, fieldAt_append_ge,
      fieldAt_append_lt, fieldAt_leBytes]
  | readTileState | readTelemetry | readRecord | readEventLog =>
    cases he
    simp [decodeHigh, sized, byteAt, halfAt, wordAt, dwordAt, fieldAt_append_ge, fieldAt_append_lt]
  | _ => cases he

/-- The body of a command fits in a packet of four slots, and is read by its opcode. -/
theorem decodeBody_encodeBody {i : Instr} {h : Hdr} {op : Nat} {bs : Bytes} {img : Option ImageBody} {cal : CalResult}
    (hwf : wellFormed i = true) (he : encodeBody i = some (h, op, bs))
    (himg : ∀ h' b x, (i = .loadImage h' b x ∨ i = .verifyImage h' b x) → img = x)
    (hcal : ∀ h' v r, i = .calibrate h' v r → cal = r) :
    bs.length ≤ 4056 ∧ decodeBody h (BitVec.ofNat 16 op) bs img cal = .command i := by
  simp only [decodeBody, BitVec.toNat_ofNat]
  unfold encodeBody at he
  split at he
  case h_1 x hlow =>
    cases he
    obtain ⟨⟨hop, hlen⟩, hdec⟩ := decodeLow_encodeLow hwf hlow himg
    rw [Nat.mod_eq_of_lt (by omega), if_pos hop]
    exact ⟨hlen, hdec⟩
  case h_2 =>
    split at he
    case h_1 x hmid =>
      cases he
      obtain ⟨⟨hleast, hop, hlen⟩, hdec⟩ := decodeMid_encodeMid hwf hmid hcal
      rw [Nat.mod_eq_of_lt (by omega), if_neg (by omega), if_pos hop]
      exact ⟨hlen, hdec⟩
    case h_2 =>
      obtain ⟨⟨hleast, hop, hlen⟩, hdec⟩ := decodeHigh_encodeHigh he
      rw [Nat.mod_eq_of_lt (by omega), if_neg (by omega), if_neg (by omega)]
      exact ⟨hlen, hdec⟩

/-! ### The packet -/

theorem sizeOfLength_mod (n : Nat) : sizeOfLength n % 64 = 0 := by simp [sizeOfLength]

theorem le_sizeOfLength (n : Nat) : n + 40 ≤ sizeOfLength n := by
  simp only [sizeOfLength, ceilDiv]
  omega

theorem sizeOfLength_le {n : Nat} (h : n ≤ 4056) : sizeOfLength n ≤ 4096 := by
  simp only [sizeOfLength, ceilDiv]
  omega

@[simp] theorem headerBytes_length (h : Hdr) (op n : Nat) : (headerBytes h op n).length = 32 := by simp [headerBytes]

/-- A packet before its CRC: header, body, padding and the trailer's SEQ. -/
def packetFront (h : Hdr) (op : Nat) (bs : Bytes) : Bytes :=
  headerBytes h op bs.length ++ bs ++ zeros (sizeOfLength bs.length - 40 - bs.length) ++ le4 h.seq

theorem packetFront_length (h : Hdr) (op : Nat) (bs : Bytes) : (packetFront h op bs).length = sizeOfLength bs.length - 4 := by
  have hsize := le_sizeOfLength bs.length
  simp [packetFront]
  omega

theorem packetBytesOf_eq (h : Hdr) (op : Nat) (bs : Bytes) :
    packetBytesOf h op bs = packetFront h op bs ++ le4 (crc32c (packetFront h op bs)) := by
  have hsize := le_sizeOfLength bs.length
  have hfront : (headerBytes h op bs.length ++ bs).length ≤ sizeOfLength bs.length - 8 := by simp; omega
  have hzeros : sizeOfLength bs.length - 8 - (headerBytes h op bs.length ++ bs).length =
      sizeOfLength bs.length - 40 - bs.length := by simp; omega
  simp only [packetBytesOf, padTo_of_le hfront, hzeros, packetFront]

theorem packetBytesOf_length (h : Hdr) (op : Nat) (bs : Bytes) : (packetBytesOf h op bs).length = sizeOfLength bs.length := by
  have hsize := le_sizeOfLength bs.length
  rw [packetBytesOf_eq, List.length_append, packetFront_length, le4_length]
  omega

/-- A field of the header, read from the packet. -/
theorem fieldAt_packet_header (h : Hdr) (op : Nat) (bs : Bytes) {o n : Nat} (hin : o + n ≤ 32) :
    fieldAt (packetBytesOf h op bs) o n = fieldAt (headerBytes h op bs.length) o n := by
  rw [packetBytesOf_eq, packetFront, fieldAt_append_lt (by simp; omega), fieldAt_append_lt (by simp; omega),
    fieldAt_append_lt (by simp; omega), fieldAt_append_lt (by simp; omega)]

theorem slice_packet_body (h : Hdr) (op : Nat) (bs : Bytes) : slice (packetBytesOf h op bs) 32 bs.length = bs := by
  rw [packetBytesOf_eq, packetFront, slice_append_lt (by simp), slice_append_lt (by simp),
    slice_append_lt (by simp), slice_append_ge (by simp), headerBytes_length, Nat.sub_self, slice_self]

theorem flags_lt (h : Hdr) : h.vector.toNat + (if h.noReply then 16 else 0) < 65536 := by
  have := h.vector.isLt
  split <;> omega

/-- The header that a packet's first bytes hold. -/
theorem headerAt_packet (h : Hdr) (op : Nat) (bs : Bytes) : headerAt h.path (packetBytesOf h op bs) = h := by
  have hflags : fieldAt (packetBytesOf h op bs) 10 2 = h.vector.toNat + (if h.noReply then 16 else 0) := by
    rw [fieldAt_packet_header h op bs (by omega), ← Nat.mod_eq_of_lt (flags_lt h)]
    simp [headerBytes, fieldAt_append_ge, fieldAt_append_lt, fieldAt_leBytes]
  have hvector : BitVec.ofNat 4 (h.vector.toNat + (if h.noReply then 16 else 0)) = h.vector := by
    apply BitVec.eq_of_toNat_eq
    have := h.vector.isLt
    rw [BitVec.toNat_ofNat]
    split <;> omega
  have hreply : (h.vector.toNat + (if h.noReply then 16 else 0)).testBit 4 = h.noReply := by
    have := h.vector.isLt
    rw [Nat.testBit_eq_decide_div_mod_eq]
    cases h.noReply <;> simp <;> omega
  simp only [headerAt, hflags, hvector, hreply, byteAt, halfAt, wordAt]
  simp [fieldAt_packet_header, headerBytes, fieldAt_append_ge, fieldAt_append_lt]

theorem packetLength_packet (h : Hdr) (op : Nat) {bs : Bytes} (hlen : bs.length ≤ 4056) :
    packetLength (packetBytesOf h op bs) = sizeOfLength bs.length ∧ fieldAt (packetBytesOf h op bs) 8 2 = bs.length := by
  have hfield : fieldAt (packetBytesOf h op bs) 8 2 = bs.length := by
    rw [fieldAt_packet_header h op bs (by omega)]
    simp [headerBytes, fieldAt_append_ge, fieldAt_append_lt, fieldAt_leBytes]
    omega
  exact ⟨by rw [packetLength, hfield], hfield⟩

/-- A packet read back: header, opcode, body, SEQ in the trailer and a CRC that agrees. -/
theorem readPacket_packetBytesOf (h : Hdr) {op : Nat} {bs : Bytes} (hlen : bs.length ≤ 4056) :
    readPacket h.path (packetBytesOf h op bs) =
      { hdr := h, opcode := BitVec.ofNat 16 op, body := bs, trailer := h.seq, crcGood := true } := by
  obtain ⟨hn, hfield⟩ := packetLength_packet h op hlen
  have hsize := le_sizeOfLength bs.length
  have hfront := packetFront_length h op bs
  have hop : halfAt (packetBytesOf h op bs) 2 = BitVec.ofNat 16 op := by
    rw [halfAt, fieldAt_packet_header h op bs (by omega)]
    apply BitVec.eq_of_toNat_eq
    simp [headerBytes, fieldAt_append_ge, fieldAt_append_lt, fieldAt_leBytes]
  have hseq : wordAt (packetBytesOf h op bs) (sizeOfLength bs.length - 8) = h.seq := by
    have hat : sizeOfLength bs.length - 8 -
        (headerBytes h op bs.length ++ bs ++ zeros (sizeOfLength bs.length - 40 - bs.length)).length = 0 := by simp; omega
    rw [wordAt, packetBytesOf_eq, fieldAt_append_lt (by omega), packetFront, fieldAt_append_ge (by simp; omega), hat,
      fieldAt_le4, BitVec.ofNat_toNat, BitVec.setWidth_eq]
  have hcrc : wordAt (packetBytesOf h op bs) (sizeOfLength bs.length - 4) = crc32c (packetFront h op bs) := by
    rw [wordAt, packetBytesOf_eq, fieldAt_append_ge (by omega), hfront, Nat.sub_self, fieldAt_le4, BitVec.ofNat_toNat,
      BitVec.setWidth_eq]
  have hslice : slice (packetBytesOf h op bs) 0 (sizeOfLength bs.length - 4) = packetFront h op bs := by
    rw [packetBytesOf_eq, slice_append_lt (by omega), ← hfront, slice_self]
  simp only [readPacket, hn, hfield, headerAt_packet, hop, slice_packet_body, hseq, hcrc, hslice, beq_self_eq_true]

/-- The container and the measurement of a command, which no packet holds. -/
def ownContainer : Instr → Option ImageBody
  | .loadImage _ _ x => x
  | .verifyImage _ _ x => x
  | _ => none

def ownMeasurement : Instr → CalResult
  | .calibrate _ _ r => r
  | _ => { withinLimits := false, store := [] }

/-- Settles O56: the packet's fields are read back, and so is the body of its opcode. -/
theorem packetsSpellTheirCommands : Obligations.PacketsSpellTheirCommands := by
  unfold Obligations.PacketsSpellTheirCommands
  refine ⟨fun i h op bs img cal hwf he himg hcal => ?reads, fun i h op bs hwf he => ?fits⟩
  case reads =>
    obtain ⟨hlen, hdec⟩ := decodeBody_encodeBody hwf he himg hcal
    simp only [decode, readPacket_packetBytesOf h hlen, hdec, and_self, if_true]
  case fits =>
    obtain ⟨hlen, -⟩ := decodeBody_encodeBody (img := ownContainer i) (cal := ownMeasurement i) hwf he
      (by rintro _ _ _ (rfl | rfl) <;> rfl) (by rintro _ _ _ rfl; rfl)
    rw [packetBytesOf_length]
    exact ⟨sizeOfLength_mod _, sizeOfLength_le hlen⟩

end Sys2Proof
end

section
/-! PROOFS. Which parts of the state the admission of a command may change. -/

namespace Sys2Proof.Machine

set_option Elab.async false

/-- Admission changes the sessions, the count of outstanding replies and the rings (R520, R540). -/
theorem Only.admitted {P : List Part} {s0 s : State} (hk : Only P s0 s) (h : Hdr) (hSessions : .sessions ∈ P := by decide)
    (hReplies : .replies ∈ P := by decide) (hHost : .host ∈ P := by decide) : Only P s0 (s.admitted h) := by
  unfold State.admitted HostState.ack
  grind only [← Only.setSession, ← Only.countMctp, ← Only.put, HostState.rest, HostState.sessions, HostState.replies,
    HostState.jobPart]

theorem Only.fuses {P : List Part} {s t : State} (h : Only P s t) (hp : .fuses ∉ P := by decide) : t.fuses = s.fuses :=
  h .fuses hp

theorem Only.routines {P : List Part} {s t : State} (h : Only P s t) (hp : .routines ∉ P := by decide) :
    t.routines = s.routines :=
  h .routines hp

theorem Only.freeCtr {P : List Part} {s t : State} (h : Only P s t) (hp : .freeCtr ∉ P := by decide) :
    t.freeCtr = s.freeCtr :=
  h .freeCtr hp

theorem Only.hostLock {P : List Part} {s t : State} (h : Only P s t) (hp : .hostLock ∉ P := by decide) :
    t.hostLock = s.hostLock :=
  h .hostLock hp

theorem Only.hostWign {P : List Part} {s t : State} (h : Only P s t) (hp : .hostWign ∉ P := by decide) :
    t.hostWign = s.hostWign :=
  h .hostWign hp

/-- What keeps the sessions keeps the session of either path. -/
theorem Only.session {P : List Part} {s t : State} (h : Only P s t) (p : Path) (hp : .sessions ∉ P := by decide) :
    t.session p = s.session p := by
  have hsessions := h.sessions hp
  simp only [HostState.sessions, Prod.mk.injEq] at hsessions
  obtain ⟨hpcie, hmctp, -⟩ := hsessions
  cases p
  · exact hpcie
  · exact hmctp

/-- What keeps the rest of the host interface keeps the images. -/
theorem Only.images {P : List Part} {s t : State} (h : Only P s t) (hp : .host ∉ P := by decide) :
    t.host.images = s.host.images := by
  have himages := congrArg HostState.images (h.hostRest hp)
  exact himages

/-- The reply to an admitted command leaves everything but the sessions, the replies and the rings. -/
theorem Only.admittedReply (s : State) (h : Hdr) (opcode status : BitVec 16) (final : Bool) (body : Bytes) :
    Only [.sessions, .replies, .host] s ((s.admitted h).reply h opcode status final body) :=
  ((Only.refl _ s).admitted h).reply h opcode status final body

/-- The host interface without its sessions, replies and jobs, and without the acknowledgements of the outbox. -/
def HostState.work (x : HostState) : HostState := { x.rest with outLive := [], acked := 0 }

/-- Admission leaves the host interface's own work. -/
theorem State.admitted_work (s : State) (h : Hdr) : (s.admitted h).host.work = s.host.work := by
  have hset (p : Path) (x : Option Session) : (s.setSession p x).host.work = s.host.work := by cases p <;> rfl
  have hcount (t : State) : (t.countMctp h).host.work = t.host.work :=
    congrArg (fun x : HostState => { x with outLive := [], acked := 0 }) ((Only.refl [.replies] t).countMctp h).hostRest
  have hack (x : HostState) (n : Word) : (x.ack n).work = x.work := by
    unfold HostState.ack
    dsimp only
    split <;> rfl
  unfold State.admitted
  split
  · exact hcount s
  · split
    · exact (hack _ _).trans ((hcount _).trans (hset _ _))
    · exact (hcount _).trans (hset _ _)

/-- Admission leaves the images, the aperture's window and the host's DMA. -/
theorem State.admitted_images (s : State) (h : Hdr) : (s.admitted h).host.images = s.host.images := by
  have himages := congrArg HostState.images (s.admitted_work h)
  exact himages

theorem State.admitted_dma (s : State) (h : Hdr) :
    (s.admitted h).host.dmaRunning = s.host.dmaRunning ∧ (s.admitted h).host.dmaQueue = s.host.dmaQueue := by
  have hrunning := congrArg HostState.dmaRunning (s.admitted_work h)
  have hqueue := congrArg HostState.dmaQueue (s.admitted_work h)
  exact ⟨hrunning, hqueue⟩

/-- What keeps the rest of the host interface keeps its DMA. -/
theorem Only.dma {P : List Part} {s t : State} (h : Only P s t) (hp : .host ∉ P := by decide) :
    t.host.dmaRunning = s.host.dmaRunning ∧ t.host.dmaQueue = s.host.dmaQueue := by
  have hrunning := congrArg HostState.dmaRunning (h.hostRest hp)
  have hqueue := congrArg HostState.dmaQueue (h.hostRest hp)
  exact ⟨hrunning, hqueue⟩

/-- What keeps the rest of the host interface keeps the aperture's window. -/
theorem Only.apertureBase {P : List Part} {s t : State} (h : Only P s t) (hp : .host ∉ P := by decide) :
    t.host.apertureBase = s.host.apertureBase := by
  have hbase := congrArg HostState.apertureBase (h.hostRest hp)
  exact hbase

/-- What keeps the run keeps whether one is active. -/
theorem Only.runActive {P : List Part} {s t : State} (h : Only P s t) (hp : .run ∉ P := by decide) :
    t.runActive = s.runActive := by
  have hstate := congrArg RunRec.state (h .run hp)
  have hstate' : t.run.state = s.run.state := hstate
  rw [State.runActive, hstate', State.runActive]

/-- What keeps the tiles keeps each one. -/
theorem Only.tile {P : List Part} {s t : State} (h : Only P s t) (k : Nat) (hp : .tiles ∉ P := by decide) :
    t.tile k = s.tile k :=
  congrArg (fun m => mget Tile.reset m k) (h.tiles hp)

/-- What keeps the jobs keeps the job of every ID. -/
theorem Only.jobOf {P : List Part} {s t : State} (h : Only P s t) (id : BitVec 16) (hp : .jobs ∉ P := by decide) :
    t.jobOf id = s.jobOf id := by
  have hjobs := congrArg Prod.fst (h.jobPart hp)
  exact congrArg (fun m => (mfind m id.toNat).getD Job.fresh) hjobs

/-- The parts that the admission of a command may change. -/
def admitParts : List Part := [.sessions, .replies, .host]

theorem Only.admitParts (s : State) (h : Hdr) : Only admitParts s (s.admitted h) := (Only.refl _ s).admitted h

/-- The reply OK to a command changes the replies alone. -/
theorem Only.okReply (s : State) (h : Hdr) (op : BitVec 16) (body : Bytes) : Only [.replies] s (s.ok h op body) :=
  (Only.refl _ s).ok h op body

/-- Admission leaves whether a run is active. -/
@[simp] theorem State.admitted_runActive (s : State) (h : Hdr) : (s.admitted h).runActive = s.runActive :=
  ((Only.refl [.sessions, .replies, .host] s).admitted h).runActive

/-- Admission leaves which tiles a command may name. -/
theorem tileNamed_admitted (s : State) (h : Hdr) (t : BitVec 16) : (s.admitted h).tileNamed t = s.tileNamed t := by
  simp only [State.tileNamed, State.enabled, (Only.admitParts s h).fuses]

/-- The parts that the end of a run may change. -/
def runEndParts : List Part :=
  [.tiles, .net, .hbm, .stackMap, .mem, .ports, .domain, .held, .pair, .replies, .jobs, .run, .blocks, .log, .freeCtr]

theorem Only.endRunParts (s : State) (c : EndCause) : Only runEndParts s (s.endRun c) := (Only.refl _ s).endRun c

/-- No run is active once a run has ended. -/
theorem State.endRun_runActive (s : State) (c : EndCause) : (s.endRun c).runActive = false := by
  unfold State.endRun
  split
  case isTrue => rfl
  case isFalse hidle => exact eq_false_of_ne_true hidle

/-- What keeps the sessions keeps the number of the next one. -/
theorem Only.nextSession {P : List Part} {s t : State} (h : Only P s t) (hp : .sessions ∉ P := by decide) :
    t.host.nextSession = s.host.nextSession := by
  have hsessions := h.sessions hp
  simp only [HostState.sessions, Prod.mk.injEq] at hsessions
  exact hsessions.2.2

@[simp] theorem State.setSession_session_same (s : State) (p : Path) (x : Option Session) :
    (s.setSession p x).session p = x := by
  cases p <;> rfl

@[simp] theorem State.setSession_session_other (s : State) (p : Path) (x : Option Session) :
    (s.setSession p x).session (otherPath p) = s.session (otherPath p) := by
  cases p <;> rfl

@[simp] theorem State.countMctp_session (s : State) (h : Hdr) (p : Path) : (s.countMctp h).session p = s.session p :=
  ((Only.refl [.replies] s).countMctp h).session p

@[simp] theorem HostState.ack_sessions (x : HostState) (n : Word) : (x.ack n).sessions = x.sessions := by
  unfold HostState.ack
  grind only [HostState.sessions]

/-- An acknowledgement keeps the sessions. -/
theorem Only.ack {P : List Part} {s0 s : State} (hk : Only P s0 s) (n : Word) (hHost : .host ∈ P := by decide) :
    Only P s0 { s with host := s.host.ack n } := by
  unfold HostState.ack
  grind only [← Only.put, HostState.rest, HostState.sessions, HostState.replies, HostState.jobPart]

/-- Admission on an open session consumes its SEQ. -/
theorem State.admitted_session_same {s : State} {h : Hdr} {q : Session} (hq : s.session h.path = some q) :
    (s.admitted h).session h.path = some { q with nextSeq := q.nextSeq + 1 } := by
  simp only [State.admitted, hq]
  split
  · exact (((Only.refl [.host] _).ack h.ringIndex).session h.path).trans (by simp)
  · simp

/-- Admission leaves the other path's session as it is. -/
theorem State.admitted_session_other (s : State) (h : Hdr) :
    (s.admitted h).session (otherPath h.path) = s.session (otherPath h.path) := by
  unfold State.admitted
  split
  · simp
  · split
    · exact (((Only.refl [.host] _).ack h.ringIndex).session _).trans (by simp)
    · simp

/-- Admission without a session leaves the sessions as they are. -/
theorem Only.admittedFree {P : List Part} {s0 s : State} (hk : Only P s0 s) {h : Hdr} (hnone : s.session h.path = none)
    (hReplies : .replies ∈ P := by decide) : Only P s0 (s.admitted h) := by
  simp only [State.admitted, hnone]
  exact hk.countMctp h hReplies

end Sys2Proof.Machine
end

section
/-! PROOFS. Maps and byte memories: what a read finds after a write, a filter and the zeroing of a range. -/

namespace Sys2Proof.Machine

set_option Elab.async false

/-- A read after a write of a canonical map. -/
theorem mget_mput_same {α : Type} [DecidableEq α] (d : α) (m : SMap α) (k : Nat) (v : α) (h : mwf d m = true) :
    mget d (mput d m k v) k = v := by
  simp only [mwf, Bool.and_eq_true] at h
  unfold mput mget
  split
  · next hv => rw [mfind_merase_same m k h.1, Option.getD_none, hv]
  · simp

theorem mget_mput_other {α : Type} [DecidableEq α] (d : α) (m : SMap α) (k j : Nat) (v : α) (h : j ≠ k) :
    mget d (mput d m k v) j = mget d m j := by
  unfold mput mget
  split
  · rw [mfind_merase_other m k j h]
  · rw [mfind_mset_other m k j v h]

/-- The bytes written are read back from a canonical memory. -/
theorem readByte_writeBytes_inside (m : Memory) (a i : Nat) (bs : Bytes) (b : Byte) (hwf : memWf m = true)
    (hi : bs[i]? = some b) : readByte (writeBytes m a bs) (a + i) = b := by
  induction bs generalizing m a i with
  | nil => simp at hi
  | cons c bs ih =>
    rw [writeBytes]
    cases i with
    | zero =>
      rw [readByte_writeBytes_outside _ _ _ _ (.inl (by omega)), Nat.add_zero, readByte_writeByte_same m a c hwf]
      simpa using hi
    | succ i =>
      rw [Nat.add_comm i 1, ← Nat.add_assoc]
      exact ih _ _ _ (mwf_mput 0 m a c hwf) (by simpa using hi)

/-- A filter that keeps a key keeps what a read of it finds. -/
theorem mfind_filter_of_pos {α : Type} (m : SMap α) (p : Nat → Bool) (k : Nat) (hp : p k = true) :
    mfind (m.filter (fun e => p e.1)) k = mfind m k := by
  induction m with
  | nil => rfl
  | cons e m ih =>
    by_cases hk : e.1 = k
    · subst hk
      simp [List.filter_cons_of_pos, hp, mfind]
    · by_cases hpe : p e.1 = true
      · simp [List.filter_cons_of_pos, hpe, mfind, hk, ih]
      · simp [List.filter_cons_of_neg, hpe, mfind, hk, ih]

/-- A filter that takes a key away leaves nothing to read. -/
theorem mfind_filter_of_neg {α : Type} (m : SMap α) (p : Nat → Bool) (k : Nat) (hp : p k = false) :
    mfind (m.filter (fun e => p e.1)) k = none := by
  induction m with
  | nil => rfl
  | cons e m ih =>
    by_cases hpe : p e.1 = true
    · have hk : e.1 ≠ k := fun he => by simp [he, hp] at hpe
      simp [List.filter_cons_of_pos, hpe, mfind, hk, ih]
    · simp [List.filter_cons_of_neg, hpe, ih]

theorem readByte_zeroRange (m : Memory) (a n c : Nat) :
    readByte (zeroRange m a n) c = if a ≤ c ∧ c < a + n then 0 else readByte m c := by
  have hkeep := fun h => mfind_filter_of_pos m (fun k => decide (k < a) || decide (a + n ≤ k)) c h
  have hdrop := fun h => mfind_filter_of_neg m (fun k => decide (k < a) || decide (a + n ≤ k)) c h
  unfold readByte zeroRange mget
  split
  case isTrue hin => rw [hdrop (by simp; omega), Option.getD_none]
  case isFalse hout => rw [hkeep (by simp; omega)]

end Sys2Proof.Machine
end

section
/-! PROOFS. The step on an empty queue (O2). -/

namespace Sys2Proof.Machine

set_option Elab.async false

/-- The parts that the tiles' own cycle may change. -/
def cycleParts : List Part :=
  [.tiles, .net, .hbm, .stackMap, .mem, .ports, .domain, .held, .pair, .datum, .replies, .jobs,
   .host, .faults, .run, .blocks, .log, .fwFault, .freeCtr]

/-- The cycle of the tiles moves no clock. -/
theorem cycleTiles_region (s : State) (l : List TileNo) (r : Nat) :
    ((l.foldl State.cycleTile s).endWatches).region r = s.region r := by
  have h : Only cycleParts s (l.foldl State.cycleTile s).endWatches :=
    (Only.foldl (fun t h => h.cycleTile t) l (Only.refl _ s)).endWatches
  exact h.region r

theorem crossOnce_regions (c : ClockState) (n : DWord) (k w : Nat) : (c.crossOnce n k w).regions = c.regions := rfl

theorem seeCrossings_region (s : State) (r : Nat) : s.seeCrossings.region r = s.region r := by
  have h : ∀ (l : List Nat) (n : DWord) (w : Nat → Nat) (c : ClockState),
      (l.foldl (fun c k => c.crossOnce n k (w k)) c).regions = c.regions := by
    intro l n w
    induction l with
    | nil => exact fun _ => rfl
    | cons k l ih => exact fun c => (ih _).trans (crossOnce_regions c n k (w k))
  exact congrArg (fun m => mget RegionState.reset m r) (h _ _ _ _)

theorem turnBase_region (s : State) (r : Nat) : s.turnBase.region r = s.region r := by
  unfold State.turnBase
  split
  · split <;> rfl
  · rfl

theorem moveRoot_regions (c : ClockState) (periods : Nat) : (c.moveRoot periods).regions = c.regions := by
  unfold ClockState.moveRoot
  split <;> rfl

/-- Of distinct regions each advances once, and no other one does. -/
theorem advance_region (l : List Nat) (hl : l.Nodup) (s : State) (r : Nat) :
    (l.foldl (fun s r => s.modRegion r RegionState.advance) s).region r =
      if r ∈ l then (s.region r).advance else s.region r := by
  induction l generalizing s with
  | nil => rfl
  | cons k l ih =>
    obtain ⟨hk, hl⟩ := List.nodup_cons.mp hl
    rw [List.foldl_cons, ih hl]
    by_cases hrk : r = k
    · subst hrk
      simp [hk]
    · simp [hrk, State.modRegion_other s k r _ hrk]

/-- A move of the clocks counts one cycle in every region. -/
theorem moveClocks_region (s : State) (r : Region) : (s.moveClocks.region r.val).count = (s.region r.val).count + 1 := by
  have hroot : s.moveClocks.region r.val = s.turnBase.seeCrossings.advanceRegions.region r.val :=
    congrArg (fun m => mget RegionState.reset m r.val) (moveRoot_regions _ _)
  rw [hroot, State.advanceRegions, advance_region _ List.nodup_range, if_pos (List.mem_range.mpr r.isLt), seeCrossings_region,
    turnBase_region]
  rfl

theorem startTiles_region (l : List TileNo) (f : Tile → Tile) (s : State) (r : Nat) :
    (l.foldl (fun s t => s.modTile t.val f) s).region r = s.region r :=
  (Only.foldl (P := [.tiles]) (fun t h => h.modTile t.val f) l (Only.refl _ s)).region r

/-- A tick with the clocks running counts one cycle in every region. -/
theorem tick_region {s : State} (hclocks : s.clocksRun = true) (r : Region) :
    (s.tick.region r.val).count = (s.region r.val).count + 1 := by
  rw [State.tick, if_pos hclocks, startTiles_region, moveClocks_region, cycleTiles_region]

/-- Outside a run no tile has a cycle: the clocks move alone. -/
theorem tick_of_not_active {s : State} (hidle : s.runActive = false) (hclocks : s.clocksRun = true) :
    s.tick = s.endWatches.moveClocks := by
  have htiles : s.runTiles = [] := by simp [State.runTiles, hidle]
  rw [State.tick, if_pos hclocks, htiles]
  rfl

theorem endWatches_of_not_active {s : State} (hidle : s.runActive = false) : s.endWatches = s := by
  simp [State.endWatches, hidle]

/-- The parts that a tick may change outside a run. -/
theorem Only.tickIdle {s : State} (hidle : s.runActive = false) : Only [.datum, .clock, .freeCtr] s s.tick := by
  by_cases hclocks : s.clocksRun = true
  · rw [tick_of_not_active hidle hclocks, endWatches_of_not_active hidle]
    exact (Only.refl _ s).moveClocks
  · rw [State.tick, if_neg hclocks]
    exact Only.refl _ s

/-- Outside a run no access of the array meets one of a routine. -/
theorem arrayMeetsRoutine_tickIdle {s : State} (hidle : s.runActive = false) (n : Nat) :
    s.tick.arrayMeetsRoutine n = false := by
  have hrun : s.tick.runActive = false := by
    rw [State.runActive, (Only.tickIdle hidle).run]
    exact hidle
  simp [State.arrayMeetsRoutine, hrun]

/-- Settles O2: the tick moves the clocks behind the tiles' own cycle, which changes no clock. -/
theorem emptyQueueIsOneCycle : Obligations.EmptyQueueIsOneCycle := by
  unfold Obligations.EmptyQueueIsOneCycle
  intro s hempty
  have hstep (h : s.tick.arrayMeetsRoutine s.runCycle.toNat = false) : step s = .next s.tick := by
    simp [step, hempty, h]
  have hkept : Kept s s.tick := (Kept.refl s).tick
  refine ⟨hstep, fun h => by simp [step, hempty, h], fun h => by simp [State.tick, h], fun h => tick_region h,
    hkept.pending.trans hempty, hkept.fixed, fun hidle => ?_⟩
  have honly := Only.tickIdle hidle
  exact ⟨hstep (arrayMeetsRoutine_tickIdle hidle _), honly.mem, honly.host, honly.tiles, honly.run⟩

end Sys2Proof.Machine
end

section
/-! PROOFS. Sessions: their opening, their end, and the taking of the module (O5). -/

namespace Sys2Proof.Machine

set_option Elab.async false

/-! ### The end of a session -/

@[simp] theorem State.endSession_session_same (s : State) (p : Path) : (s.endSession p).session p = none := by
  unfold State.endSession
  split
  case h_1 hnone => exact hnone
  case h_2 => cases p <;> rfl

@[simp] theorem State.endSession_session_other (s : State) (p : Path) :
    (s.endSession p).session (otherPath p) = s.session (otherPath p) := by
  unfold State.endSession
  split
  · rfl
  · cases p <;> rfl

/-- The parts that the end of a session may change. -/
def hostParts : List Part := [.sessions, .replies, .jobs, .host]

/-- The end of a session with the reply to the command that asked for it. -/
theorem exec_sessionClose {s : State} {h : Hdr} (ha : Admitted s h 0x0002) :
    ∃ t, exec (.sessionClose h) s = .next t ∧ Only [.replies] ((s.admitted h).endSession h.path) t := by
  change ∃ t, execSessionClose h s = _ ∧ _
  rw [execSessionClose, admit_admitted ha]
  dsimp only
  split
  · exact ⟨_, rfl, .refl _ _⟩
  · exact ⟨_, rfl, (Only.refl _ _).postReply _⟩

/-! ### The opening of a session -/

/-- The session that a path gets. -/
def State.newSession (s : State) (h : Hdr) (b : OpenBody) (v : BitVec 16) : Session :=
  { id := s.host.nextSession, owner := b.kind == 1, version := v, nextSeq := h.seq + 1,
    eventVector := b.eventVector.setWidth 4, coalesce := b.coalesce, hostTag := b.hostTag, mask := BitVec.allOnes 64 }

/-- Opening a session gives the path its session, advances the session numbers and leaves the other path's session. -/
theorem State.openSession_sessions (s : State) (h : Hdr) (op : BitVec 16) (b : OpenBody) (v : BitVec 16) :
    (s.openSession h op b v).session h.path = some (s.newSession h b v) ∧
    (s.openSession h op b v).session (otherPath h.path) = s.session (otherPath h.path) ∧
    (s.openSession h op b v).host.nextSession = s.host.nextSession + 1 := by
  unfold State.openSession
  extract_lets q host1 s1 host2 host3 s2
  have hreply : Only [.replies, .jobs] s2 (s2.answer h op stOk true (s2.identBody q.id v)).flushRunEnded :=
    ((Only.refl _ _).answer _ _ _ _ _).flushRunEnded
  have hs2 : s2.session h.path = some (s.newSession h b v) ∧ s2.session (otherPath h.path) = s.session (otherPath h.path) ∧
      s2.host.nextSession = s.host.nextSession + 1 := by
    unfold s2
    cases hp : h.path <;> exact ⟨rfl, rfl, rfl⟩
  rwa [hreply.session, hreply.session, hreply.nextSession]

/-- SESSION_OPEN with nothing to refuse opens the session. -/
theorem exec_sessionOpen {s : State} {h : Hdr} {b : OpenBody} {v : BitVec 16} (ha : AdmittedFree s h 0x0001)
    (hkind : b.kind = 1 ∨ b.kind = 2) (hvector : b.eventVector.toNat ≤ 15) (hcoalesce : b.coalesce.toNat ≤ 1000)
    (howner : b.kind = 1 → ∀ q, s.session (otherPath h.path) = some q → q.owner = false)
    (hversion : chooseVersion b.versionMin b.versionMax = some v) :
    exec (.sessionOpen h b) s = .next ((s.admitted h).openSession h 0x0001 b v) := by
  obtain ⟨-, -, hnone, -⟩ := id ha
  have hsame := (Only.refl [.replies] s).admittedFree hnone
  have hfree : ¬ (b.kind = 1 ∧ ((s.session (otherPath h.path)).map (·.owner)).getD false = true) := by
    rintro ⟨h1, h2⟩
    cases hq : s.session (otherPath h.path) with
    | none => simp [hq] at h2
    | some q => simp [hq, howner h1 q hq] at h2
  have hkinds : ¬ (b.kind ≠ 1 ∧ b.kind ≠ 2) := by
    rintro ⟨h1, h2⟩
    exact hkind.elim h1 h2
  change execSessionOpen h b s = _
  rw [execSessionOpen, admit_free ha]
  simp only [hsame.session, hnone, Option.isSome_none, Bool.false_eq_true, if_false, if_neg hkinds,
    if_neg (Nat.not_lt.mpr hvector), if_neg (Nat.not_lt.mpr hcoalesce), if_neg hfree, hversion]

/-- SESSION_TAKE with nothing to refuse ends both sessions and the run before it opens its own. -/
theorem exec_sessionTake {s : State} {h : Hdr} {b : OpenBody} {v : BitVec 16}
    (ha : Admitted s h 0x0005 ∨ AdmittedFree s h 0x0005) (hpath : h.path = .mctp) (hkind : b.kind = 1)
    (hvector : b.eventVector.toNat ≤ 15) (hcoalesce : b.coalesce.toNat ≤ 1000)
    (hversion : chooseVersion b.versionMin b.versionMax = some v) :
    exec (.sessionTake h b) s =
      .next (((((s.admitted h).endSession .pcie).endSession .mctp).endRun .stop).openSession h 0x0005 b v) := by
  have hadmit (f : State → Res) : s.accept h 0x0005 f = f (s.admitted h) :=
    ha.elim (fun ha => admit_admitted ha f) (fun ha => admit_free ha f)
  change execSessionTake h b s = _
  rw [execSessionTake, hadmit]
  simp only [hpath, hkind, reduceCtorEq, if_false, ne_eq, not_true_eq_false, if_neg (Nat.not_lt.mpr hvector),
    if_neg (Nat.not_lt.mpr hcoalesce), hversion]

/-- Settles O5: what the five rows answer is read off; what the ends of sessions and runs leave alone comes from `Only`. -/
theorem sessionRowsComplete : Obligations.SessionRowsComplete := by
  unfold Obligations.SessionRowsComplete
  refine ⟨fun s h => ⟨fun ha => ?nop, fun ha => ?identify, fun ha => ?close⟩,
    fun s h b v ha hkind hvector hcoalesce howner hversion => ?opens,
    fun s h b v ha hpath hkind hvector hcoalesce hversion => ?take⟩
  case nop =>
    change execNop h s = _
    rw [execNop, admit_admitted ha]
  case identify =>
    change execIdentify h s = _
    rw [execIdentify]
    rcases ha with ha | ha
    · rw [admit_admitted ha]
    · rw [admit_free ha]
  case close =>
    obtain ⟨t, hexec, hreply⟩ := exec_sessionClose ha
    have hall : Only hostParts s t :=
      (((Only.refl _ s).admitted h).endSession h.path).trans (hreply.mono (by decide))
    refine ⟨t, hexec, ?_, ?_, hall.run, hall.tiles, hall.mem, hall.domain, hall.pair, hall.clock, hall.blocks, hall.mgp,
      hall.sec⟩
    · rw [hreply.session, State.endSession_session_same]
    · rw [hreply.session, State.endSession_session_other, State.admitted_session_other]
  case opens =>
    obtain ⟨-, -, hnone, -⟩ := id ha
    have hsame := (Only.refl [.replies] s).admittedFree hnone
    have hall : Only hostParts s ((s.admitted h).openSession h 0x0001 b v) :=
      ((Only.refl _ s).admitted h).openSession h 0x0001 b v
    obtain ⟨hq, hother, hnext⟩ := (s.admitted h).openSession_sessions h 0x0001 b v
    exact ⟨_, _, exec_sessionOpen ha hkind hvector hcoalesce howner hversion, hq, rfl, rfl, rfl, hsame.nextSession, rfl, rfl,
      hnext.trans (by rw [hsame.nextSession]), hother.trans (hsame.session _), hall.run, hall.tiles, hall.mem, hall.domain,
      hall.clock, hall.sec⟩
  case take =>
    have hexec := exec_sessionTake ha hpath hkind hvector hcoalesce hversion
    generalize hs1 : (s.admitted h).endSession .pcie = s1 at hexec
    have hended : s1.session .pcie = none := by rw [← hs1, State.endSession_session_same]
    have hs1k : Only hostParts s s1 := hs1 ▸ ((Only.refl _ s).admitted h).endSession .pcie
    have hrun := Only.endRunParts (s1.endSession .mctp) .stop
    have hsec : ((s1.endSession .mctp).endRun .stop).sec = s.sec :=
      hrun.sec.trans (((Only.refl hostParts _).endSession .mctp).sec.trans hs1k.sec)
    have hidle := (s1.endSession .mctp).endRun_runActive .stop
    have hpcie : ((s1.endSession .mctp).endRun .stop).session .pcie = none := by
      rw [hrun.session]
      exact (s1.endSession_session_other .mctp).trans hended
    generalize (s1.endSession .mctp).endRun .stop = s2 at *
    have hopen : Only hostParts s2 (s2.openSession h 0x0005 b v) := (Only.refl _ s2).openSession h 0x0005 b v
    obtain ⟨hq, hother, -⟩ := s2.openSession_sessions h 0x0005 b v
    rw [hpath] at hq hother
    refine ⟨_, _, hexec, hother.trans hpcie, hq, by simp [State.newSession, hkind], rfl, ?_, ?_⟩
    · rw [State.runActive, hopen.run]
      exact hidle
    · rw [hopen.sec, hsec]

end Sys2Proof.Machine
end

section
/-! PROOFS. The image commands and the loader's steps (O7). -/

namespace Sys2Proof.Machine

set_option Elab.async false

/-! ### The loader's steps -/

/-- A failed step is one of the first seven; only the first answers BAD_VERSION and only the second DENIED. -/
theorem State.loadChecks_failed {s : State} {handle addr step : Nat} {job st : BitVec 16} {body : Option ImageBody}
    (h : s.loadChecks handle addr job body = .failed step st) :
    (step = 1 ∧ st = stBadVersion) ∨ (step = 2 ∧ st = stDenied) ∨ (3 ≤ step ∧ step ≤ 7 ∧ st = stRejected) := by
  simp only [State.loadChecks] at h
  repeat' split at h
  all_goals cases h
  all_goals simp

theorem stBadVersion_ne : stBadVersion ≠ stDenied ∧ stBadVersion ≠ stRejected ∧ stDenied ≠ stRejected := by decide

/-- The loader's steps as the obligation states them (R231). -/
theorem State.loadChecks_step {s : State} {handle addr step : Nat} {job st : BitVec 16} {body : Option ImageBody}
    (h : s.loadChecks handle addr job body = .failed step st) :
    1 ≤ step ∧ step ≤ 7 ∧ (st = stBadVersion ↔ step = 1) ∧ (st = stDenied ↔ step = 2) := by
  obtain ⟨h12, h13, h23⟩ := stBadVersion_ne
  rcases State.loadChecks_failed h with ⟨rfl, rfl⟩ | ⟨rfl, rfl⟩ | ⟨hlo, hhi, rfl⟩
  · simp [h12]
  · simp [h12.symm]
  · refine ⟨by omega, hhi, ?_, ?_⟩
    · simp only [h13.symm, false_iff]
      omega
    · simp only [h23.symm, false_iff]
      omega

theorem State.loadChecks_badForm {s : State} {addr : Nat} (handle : Nat) (job : BitVec 16) (body : Option ImageBody)
    (hform : headerForm (headerOf (s.readHbm addr 512)) addr = false) :
    s.loadChecks handle addr job body = .failed 1 stBadVersion := by
  simp [State.loadChecks, hform]

theorem State.loadChecks_denied {s : State} {addr : Nat} (handle : Nat) (job : BitVec 16) (body : Option ImageBody)
    (hform : headerForm (headerOf (s.readHbm addr 512)) addr = true) (henforce : s.sec.enforce = true)
    (hsigned : s.sec.admits (headerOf (s.readHbm addr 512)).flags (headerOf (s.readHbm addr 512)).signerKey
      (headerOf (s.readHbm addr 512)).signature ((s.readHbm addr 512).take 0x120) = false) :
    s.loadChecks handle addr job body = .failed 2 stDenied := by
  simp [State.loadChecks, hform, henforce, hsigned]

/-! ### The commands -/

/-- UNLOAD_IMAGE of a loaded handle outside a run empties the handle. -/
theorem exec_unloadImage {s : State} {h : Hdr} {n : Byte} {im : Image} (ha : Admitted s h 0x0103)
    (hidle : s.runActive = false) (him : mfind s.host.images n.toNat = some im) :
    exec (.unloadImage h n) s =
      .next (State.ok { s.admitted h with host := { (s.admitted h).host with images := merase s.host.images n.toNat } } h
        0x0103 []) := by
  have hidle' : (s.admitted h).runActive = false := by
    rw [State.runActive, (s.admitted_sameWork h).run]
    exact hidle
  change execUnloadImage h n s = _
  rw [execUnloadImage, admit_admitted ha]
  simp only [hidle', Bool.false_eq_true, if_false, s.admitted_images h, him]

/-- VERIFY_IMAGE answers ACCEPTED and then what the loader's checks find. -/
theorem exec_verifyImage {s : State} {h : Hdr} {x : LoadBody} {body : Option ImageBody} (ha : Admitted s h 0x0102)
    (hhandle : x.handle.toNat ≤ 15) (hbase : x.placeBase = 0) (hlimit : x.placeLimit = 0) :
    exec (.verifyImage h x body) s =
      (match ((s.admitted h).reply h 0x0102 stAccepted false []).loadChecks x.handle.toNat x.imageAddr.toNat h.jobId body with
       | .failed step status =>
         .next (((s.admitted h).reply h 0x0102 stAccepted false []).loadFailed h 0x0102 x.imageAddr.toNat step status)
       | .checked _ _ _ => .next (((s.admitted h).reply h 0x0102 stAccepted false []).ok h 0x0102 [])) := by
  change execVerifyImage h x body s = _
  rw [execVerifyImage, admit_admitted ha]
  simp only [hbase, hlimit, ne_eq, not_true_eq_false, or_self, if_false, if_neg (Nat.not_lt.mpr hhandle)] <;> rfl

/-- LOAD_IMAGE outside a run answers ACCEPTED and then installs what the loader's checks find. -/
theorem exec_loadImage {s : State} {h : Hdr} {x : LoadBody} {body : Option ImageBody} (ha : Admitted s h 0x0101)
    (hhandle : x.handle.toNat ≤ 15) (hidle : s.runActive = false) :
    exec (.loadImage h x body) s =
      (match ((s.admitted h).reply h 0x0101 stAccepted false []).loadChecks x.handle.toNat x.imageAddr.toNat h.jobId body with
       | .failed step status =>
         .next (((s.admitted h).reply h 0x0101 stAccepted false []).loadFailed h 0x0101 x.imageAddr.toNat step status)
       | .checked lt tiles b => .next (((s.admitted h).reply h 0x0101 stAccepted false []).installImage h x lt tiles b)) := by
  have hidle' : (s.admitted h).runActive = false := by
    rw [State.runActive, (s.admitted_sameWork h).run]
    exact hidle
  change execLoadImage h x body s = _
  rw [execLoadImage, admit_admitted ha]
  simp only [hidle', Bool.false_eq_true, if_false, if_neg (Nat.not_lt.mpr hhandle)] <;> rfl

/-- The image that a container gives. -/
def State.imageOf (s : State) (h : Hdr) (x : LoadBody) (lt : BitVec 16) (tiles : List TileNo) (b : ImageBody)
    (bases : List Nat) : Image :=
  let head := s.readHbm x.imageAddr.toNat 512
  let hd := headerOf head
  { jobId := h.jobId, ltId := lt, flags := BitVec.ofNat 16 hd.flags, eciVersion := BitVec.ofNat 16 hd.eci, tiles := tiles,
    imageDigest := hd.imageDigest, eciDigest := hd.eciDigest, signerKey := hd.signerKey, signatureVerified := s.sec.enforce,
    head := head, placeBase := x.placeBase.toNat, sectionBases := bases, body := b }

/-- The state with a container's sections in memory and its image in its handle. -/
def State.imageIn (s : State) (h : Hdr) (x : LoadBody) (lt : BitVec 16) (tiles : List TileNo) (b : ImageBody)
    (bases : List Nat) : State :=
  let s1 := s.writeSections (b.sections.zip bases)
  { s1 with host := { s1.host with images := mset s1.host.images x.handle.toNat (s.imageOf h x lt tiles b bases) } }

/-- A container that passes steps 8 and 9 is installed, with the reply of its sections' sizes. -/
theorem State.installImage_installs {s : State} {h : Hdr} {x : LoadBody} {lt : BitVec 16} {tiles : List TileNo}
    {b : ImageBody} {bases : List Nat} (hbases : s.placeSections x.placeLimit.toNat x.placeBase.toNat b.sections = some bases)
    (hstep8 : s.step8 (headerOf (s.readHbm x.imageAddr.toNat 512)) b tiles = true)
    (hfits : (b.sections.zip bases).all (fun e => s.stacksFit e.1 e.2) = true) :
    ∃ body, s.installImage h x lt tiles b = (s.imageIn h x lt tiles b bases).ok h 0x0101 body := by
  simp only [State.installImage, hbases, hstep8, hfits, Bool.and_self, if_true]
  exact ⟨_, rfl⟩

/-- A container that fails step 8 is refused with it. -/
theorem State.installImage_fails {s : State} {h : Hdr} {x : LoadBody} {lt : BitVec 16} {tiles : List TileNo} {b : ImageBody}
    (hstep8 : s.step8 (headerOf (s.readHbm x.imageAddr.toNat 512)) b tiles = false) :
    s.installImage h x lt tiles b = s.loadFailed h 0x0101 x.imageAddr.toNat 8 stRejected := by
  unfold State.installImage
  cases s.placeSections x.placeLimit.toNat x.placeBase.toNat b.sections with
  | none => rfl
  | some bases => simp [hstep8]

/-- The sections of an image go to memory alone. -/
theorem Only.sectionsWritten (s : State) (l : List (SectionDecl × Nat)) : Only [.hbm] s (s.writeSections l) :=
  (Only.refl _ s).writeSections l

/-- Settles O7: each command acts on the state in which it is admitted, which keeps images, memory and run; the loader's own
steps are the cases of `loadChecks`. -/
theorem imagesLoad : Obligations.ImagesLoad := by
  unfold Obligations.ImagesLoad
  refine ⟨⟨fun s h ha => ?list, fun s h n im ha hidle him => ?unload,
    fun s u h x body ha hhandle hbase hlimit hu => ?verify, fun s u h x body ha hhandle hidle hu => ?load⟩,
    fun s handle addr job body => ⟨s.loadChecks_badForm handle job body, s.loadChecks_denied handle job body,
      fun step st => State.loadChecks_step⟩⟩
  case list =>
    change execListImages h s = _
    rw [execListImages, admit_admitted ha, s.admitted_images h]
  case unload =>
    have hreply (t : State) : Only [.replies] t (t.ok h 0x0103 []) := (Only.refl _ t).ok h 0x0103 []
    have hadmit := s.admitted_sameWork h
    exact ⟨_, exec_unloadImage ha hidle him, (hreply _).images, (hreply _).mem.trans hadmit.mem,
      (hreply _).tiles.trans hadmit.tiles, (hreply _).run.trans hadmit.run⟩
  case verify =>
    subst hu
    rw [exec_verifyImage ha hhandle hbase hlimit]
    refine ⟨fun lt tiles b hchecks => ?_, fun n st hchecks => ?_⟩ <;> simp only [hchecks]
  case load =>
    have hall := Only.admittedReply s h 0x0101 stAccepted false []
    have himages : u.host.images = s.host.images := by
      rw [hu, ((Only.refl [.replies] _).reply h 0x0101 stAccepted false []).images, s.admitted_images h]
    rw [← hu] at hall
    rw [exec_loadImage ha hhandle hidle, ← hu]
    refine ⟨fun n st hchecks => by simp only [hchecks],
      fun lt tiles b hchecks => ⟨fun bases hbases hstep8 hfits => ?_, fun hstep8 => ?_⟩⟩
    · obtain ⟨reply, hinstall⟩ := State.installImage_installs (h := h) (lt := lt) hbases hstep8 hfits
      have hreply := (Only.refl [.replies] (u.imageIn h x lt tiles b bases)).ok h 0x0101 reply
      have hsections := Only.sectionsWritten u (b.sections.zip bases)
      have hput : (u.imageIn h x lt tiles b bases).host.images =
          mset s.host.images x.handle.toNat (u.imageOf h x lt tiles b bases) := by
        rw [← himages, ← hsections.images]
        rfl
      refine ⟨_, u.imageOf h x lt tiles b bases, by simp only [hchecks, hinstall], ?_, rfl, rfl, rfl, rfl, rfl, hreply.mem,
        fun k hk => ?_, (hreply.run.trans hsections.run).trans hall.run, (hreply.tiles.trans hsections.tiles).trans hall.tiles⟩
      · rw [hreply.images, hput, mfind_mset_same]
      · rw [hreply.images, hput, mfind_mset_other _ _ _ _ hk]
    · simp only [hchecks, State.installImage_fails hstep8]

end Sys2Proof.Machine
end

section
/-! PROOFS. The host's DMA, the aperture and the layout of memory (O8). -/

namespace Sys2Proof.Machine

set_option Elab.async false

/-! ### DMA -/

theorem exec_dmaStart {s : State} {h : Hdr} {b : DmaBody} (ha : Admitted s h 0x0201) (hchannel : b.channel.toNat ≤ 15)
    (hdir : b.dir.toNat ≤ 1) (hfits : dmaFits b = true) (hfree : mfind s.host.dmaRunning b.channel.toNat = none) :
    exec (.dmaStart h b) s =
      (let s1 := (s.admitted h).reply h 0x0201 stAccepted false []
       .next { s1 with host := { s1.host with
         dmaRunning := mset s1.host.dmaRunning b.channel.toNat { hdr := h, body := b } } }) := by
  have hfree' : mfind (s.admitted h).host.dmaRunning b.channel.toNat = none := by rw [(s.admitted_dma h).1, hfree]
  have hreply := ((Only.refl [.replies] (s.admitted h)).reply h 0x0201 stAccepted false []).dma
  have hfree'' : mfind ((s.admitted h).reply h 0x0201 stAccepted false []).host.dmaRunning b.channel.toNat = none := by
    rw [hreply.1, hfree']
  change execDmaStart h b s = _
  rw [execDmaStart, admit_admitted ha]
  simp only [if_neg (Nat.not_lt.mpr hchannel), if_neg (Nat.not_lt.mpr hdir), hfits, hfree', hfree'', Option.isSome_none,
    Bool.false_eq_true, Bool.true_eq_false, false_and, if_false]

/-- A stopped transfer leaves the channels as they are. -/
theorem State.stopDma_dma (s : State) (d : Dma) :
    (s.stopDma d).host.dmaRunning = s.host.dmaRunning ∧ (s.stopDma d).host.dmaQueue = s.host.dmaQueue := by
  unfold State.stopDma
  extract_lets n moved s1 a s2
  have hs1 : s1.host.dmaRunning = s.host.dmaRunning ∧ s1.host.dmaQueue = s.host.dmaQueue :=
    ((Only.refl [.freeCtr] s).drawn 1).dma
  have hs2 : s2.host.dmaRunning = s1.host.dmaRunning ∧ s2.host.dmaQueue = s1.host.dmaQueue := by
    unfold s2
    split
    · exact (((Only.refl [.hbm, .stackMap, .freeCtr] s1).hbmPut _ _ _).drawn _).dma
    · exact ⟨rfl, rfl⟩
  have hreply := ((Only.refl [.replies] s2).reply d.hdr 0x0201 stClosed true (leBytes 8 moved)).dma
  exact ⟨hreply.1.trans (hs2.1.trans hs1.1), hreply.2.trans (hs2.2.trans hs1.2)⟩

/-- DMA_ABORT empties its channel and its queue, and replies to what it discards. -/
theorem exec_dmaAbort {s : State} {h : Hdr} {c : Byte} {d : Dma} (ha : Admitted s h 0x0202) (hchannel : c.toNat ≤ 15)
    (hd : mfind s.host.dmaRunning c.toNat = some d) :
    ∃ t u, exec (.dmaAbort h c) s = .next t ∧ Only [.replies] u t ∧
      Only [.sessions, .replies, .host, .hbm, .stackMap, .freeCtr] s u ∧
      u.host.dmaRunning = merase s.host.dmaRunning c.toNat ∧
      u.host.dmaQueue = s.host.dmaQueue.filter (fun e => e.1 != c.toNat) := by
  have hadmit := s.admitted_dma h
  have hd' : mfind (s.admitted h).host.dmaRunning c.toNat = some d := by rw [hadmit.1, hd]
  have hstop := (s.admitted h).stopDma_dma d
  have hall : Only [.sessions, .replies, .host, .hbm, .stackMap, .freeCtr] s ((s.admitted h).stopDma d) :=
    ((Only.refl _ s).admitted h).stopDma d
  change ∃ t u, execDmaAbort h c s = _ ∧ _
  rw [execDmaAbort, admit_admitted ha]
  simp only [if_neg (Nat.not_lt.mpr hchannel), hd']
  refine ⟨_, _, rfl, ((Only.refl _ _).discardDmas _).ok _ _ _, ?_, ?_, ?_⟩
  · exact hall.put (.inr rfl) (.inr rfl) (.inr rfl) (.inr rfl) (.inr rfl) (.inr rfl) (.inr rfl) (.inr rfl) (.inr rfl)
      (.inr rfl) (.inr rfl) (.inr rfl) (.inr rfl) (.inr rfl) (.inr rfl) (.inl (by decide)) (.inr rfl) (.inr rfl) (.inr rfl)
      (.inr rfl) (.inr rfl) (.inr rfl) (.inr rfl) (.inr rfl) (.inr rfl) (.inr rfl) (.inr rfl) (.inr rfl) (.inr rfl)
  · exact congrArg (fun m => merase m c.toNat) (hstop.1.trans hadmit.1)
  · exact congrArg (fun l => l.filter (fun e => e.1 != c.toNat)) (hstop.2.trans hadmit.2)

theorem exec_dmaStatus {s : State} {h : Hdr} {c : Byte} (ha : Admitted s h 0x0203) (hchannel : c.toNat ≤ 15)
    (hfree : mfind s.host.dmaRunning c.toNat = none) :
    exec (.dmaStatus h c) s = .next (((s.admitted h).drawn 1).ok h 0x0203
      (leBytes 1 (s.host.queued c.toNat) ++ zeros 7 ++ leBytes 8 0)) := by
  have hadmit := s.admitted_dma h
  have hqueued : (s.admitted h).host.queued c.toNat = s.host.queued c.toNat := by
    rw [HostState.queued, hadmit.2, HostState.queued]
  change execDmaStatus h c s = _
  rw [execDmaStatus, admit_admitted ha]
  simp only [if_neg (Nat.not_lt.mpr hchannel), hadmit.1, hfree, hqueued]

theorem exec_apertureMove {s : State} {h : Hdr} {base : DWord} (ha : Admitted s h 0x0204)
    (haligned : base.toNat % 2 ^ 30 = 0) (hfits : base.toNat + 2 ^ 36 ≤ hbmSize) :
    exec (.apertureMove h base) s =
      .next (State.ok { s.admitted h with host := { (s.admitted h).host with apertureBase := base.toNat } } h 0x0204 []) := by
  have hno : ¬ (base.toNat % 2 ^ 30 ≠ 0 ∨ hbmSize < base.toNat + 2 ^ 36) := by
    rintro (hm | hm)
    · exact hm haligned
    · exact absurd hfits (Nat.not_le.mpr hm)
  change execApertureMove h base s = _
  rw [execApertureMove, admit_admitted ha]
  simp only [if_neg hno]

/-! ### The layout of memory -/

/-- Zeroing bands: a byte of one reads 0 and the band waits for its zeroing; every other byte is as before. -/
theorem zeroBands_hbm (l : List Nat) (s : State) (a : Nat) :
    readByte (l.foldl State.zeroBand s).mem.hbm a = if a / 2 ^ 35 ∈ l then 0 else readByte s.mem.hbm a := by
  induction l generalizing s with
  | nil => rfl
  | cons b l ih =>
    rw [List.foldl_cons, ih]
    have hone : readByte (s.zeroBand b).mem.hbm a = if a / 2 ^ 35 = b then 0 else readByte s.mem.hbm a := by
      change readByte (zeroRange s.mem.hbm (b * 2 ^ 35) (2 ^ 35)) a = _
      rw [readByte_zeroRange]
      refine if_congr ?_ rfl rfl
      omega
    rw [hone]
    generalize a / 2 ^ 35 = c
    by_cases hl : c ∈ l
    · rw [if_pos hl, if_pos (List.mem_cons_of_mem b hl)]
    · simp only [hl, List.mem_cons, or_false, if_false]

theorem zeroBand_zeroing (s : State) (b c : Nat) (h : c = b ∨ c ∈ s.mem.zeroing) : c ∈ (s.zeroBand b).mem.zeroing := by
  change c ∈ (if b ∈ s.mem.zeroing then s.mem.zeroing else s.mem.zeroing ++ [b])
  split
  case isTrue hb => exact h.elim (fun he => he ▸ hb) id
  case isFalse => simpa [or_comm] using h

theorem zeroBands_zeroing (l : List Nat) (s : State) (c : Nat) (h : c ∈ l ∨ c ∈ s.mem.zeroing) :
    c ∈ (l.foldl State.zeroBand s).mem.zeroing := by
  induction l generalizing s with
  | nil => simpa using h
  | cons b l ih =>
    refine ih _ ?_
    rcases h with h | h
    · rcases List.mem_cons.mp h with rfl | h
      · exact .inr (zeroBand_zeroing s _ _ (.inl rfl))
      · exact .inl h
    · exact .inr (zeroBand_zeroing s _ _ (.inr h))

theorem zeroBands_bands (l : List Nat) (s : State) :
    (l.foldl State.zeroBand s).mem.bands = s.mem.bands ∧ (l.foldl State.zeroBand s).blocks = s.blocks := by
  induction l generalizing s with
  | nil => exact ⟨rfl, rfl⟩
  | cons b l ih => exact ih _

/-- The bands that take a new mode or class. -/
theorem mem_changedBands (s : State) (first : Nat) (bs : Bytes) (k : Nat) :
    k ∈ s.changedBands first bs ↔
      ∃ i b, bs[i]? = some b ∧ k = first + i ∧ mget 0 s.mem.bands (first + i) ≠ b.setWidth 3 := by
  unfold State.changedBands
  simp only [List.mem_map, List.mem_filter, Prod.exists, List.mem_zipIdx_iff_getElem?, bne_iff_ne]
  constructor
  · rintro ⟨b, i, ⟨hb, hne⟩, rfl⟩
    exact ⟨i, b, hb, rfl, hne⟩
  · rintro ⟨i, b, hb, rfl, hne⟩
    exact ⟨b, i, ⟨hb, hne⟩, rfl⟩

/-- A configured table of bands: each key of the list holds its value, and every other key what it held. -/
theorem bandTable_get (f : Nat → BitVec 3) (l : List Nat) (m : SMap (BitVec 3)) (hm : mwf 0 m = true) :
    mwf 0 (l.foldl (fun m i => mput 0 m i (f i)) m) = true ∧
    ∀ k, mget 0 (l.foldl (fun m i => mput 0 m i (f i)) m) k = if k ∈ l then f k else mget 0 m k := by
  induction l generalizing m with
  | nil => exact ⟨hm, fun _ => rfl⟩
  | cons i l ih =>
    obtain ⟨hwf, hget⟩ := ih (mput 0 m i (f i)) (mwf_mput 0 m i (f i) hm)
    refine ⟨hwf, fun k => ?_⟩
    rw [List.foldl_cons, hget]
    by_cases hk : k = i
    · subst hk
      rw [mget_mput_same _ _ _ _ hm, ite_self, if_pos List.mem_cons_self]
    · simp only [List.mem_cons, hk, false_or, mget_mput_other _ _ _ _ _ hk]

/-- A band table that is configured at an HMC block takes effect at every band. -/
theorem State.fwCfg_bands (s : State) (k off : Nat) (bs : Bytes) (hk : k < 32) :
    (s.fwCfg (blkHmc k) off bs).mem.bands =
      (List.range 80).foldl (fun m i => mput 0 m i ((readByte (writeBytes (s.block (blkHmc k)).cfg off bs) (0x100 + i)).setWidth 3))
        s.mem.bands := by
  have hmgp : ¬ blkHmc k = blkMgp := by unfold blkHmc blkMgp; omega
  have hhmc : 64 ≤ blkHmc k ∧ blkHmc k < 96 := by unfold blkHmc; omega
  unfold State.fwCfg State.applyCfg
  simp only [if_neg hmgp, if_pos hhmc, State.modBlock_same, State.modBlock_mem]

/-- Firmware's write of a block's configuration leaves every other block. -/
theorem State.fwCfg_block_other (s : State) (b off j : Nat) (bs : Bytes) (hj : j ≠ b) :
    (s.fwCfg b off bs).block j = s.block j := by
  have hblocks (t : State) : (t.applyCfg b).blocks = t.blocks := ((Only.refl [.tiles, .mem, .mgp] t).applyCfg b).blocks
  have hmod := fun f => State.modBlock_other s b j f hj
  unfold State.fwCfg
  exact (congrArg (fun m => (mfind m j).getD (Block.resetOf j)) (hblocks _)).trans (hmod _)

theorem State.fwCfg_zeroing (s : State) (b off : Nat) (bs : Bytes) : (s.fwCfg b off bs).mem.zeroing = s.mem.zeroing := by
  unfold State.fwCfg State.applyCfg
  split
  · rfl
  · split
    · rfl
    · split
      · split <;> rfl
      · rfl

theorem State.fwBands_zeroing (s : State) (first : Nat) (bs : Bytes) : (s.fwBands first bs).mem.zeroing = s.mem.zeroing := by
  unfold State.fwBands
  generalize List.range 32 = l
  induction l generalizing s with
  | nil => rfl
  | cons k l ih => exact (ih _).trans (s.fwCfg_zeroing _ _ _)

/-- Writing the band table into the blocks before the last keeps the last one's configuration and a canonical table. -/
theorem fwBands_before (n : Nat) (hn : n ≤ 32) (off : Nat) (bs : Bytes) (s : State) (hwf : mwf 0 s.mem.bands = true) :
    mwf 0 ((List.range n).foldl (fun s k => s.fwCfg (blkHmc k) off bs) s).mem.bands = true ∧
    ∀ j, blkHmc n ≤ j → ((List.range n).foldl (fun s k => s.fwCfg (blkHmc k) off bs) s).block j = s.block j := by
  induction n with
  | zero => exact ⟨hwf, fun _ _ => rfl⟩
  | succ n ih =>
    obtain ⟨hbands, hblock⟩ := ih (by omega)
    rw [List.range_succ, List.foldl_concat]
    generalize (List.range n).foldl (fun s k => s.fwCfg (blkHmc k) off bs) s = t at *
    refine ⟨?_, fun j hj => ?_⟩
    · rw [t.fwCfg_bands n off bs (by omega)]
      exact (bandTable_get _ _ _ hbands).1
    · have hj' : blkHmc n < j := by
        unfold blkHmc at hj ⊢
        omega
      rw [t.fwCfg_block_other _ _ _ _ hj'.ne', hblock j hj'.le]

/-- The band table that firmware writes is the module's (R324). -/
theorem State.fwBands_get {s : State} {first i : Nat} {bs : Bytes} {b : Byte} (hwf : mwf 0 s.mem.bands = true)
    (hcfg : memWf (s.block (blkHmc 31)).cfg = true) (hi : bs[i]? = some b) (hlt : first + i < 80) :
    mget 0 (s.fwBands first bs).mem.bands (first + i) = b.setWidth 3 := by
  obtain ⟨hbands, hblock⟩ := fwBands_before 31 (by omega) (0x100 + first) bs s hwf
  unfold State.fwBands
  rw [show List.range 32 = List.range 31 ++ [31] from List.range_succ, List.foldl_concat]
  generalize (List.range 31).foldl (fun s k => s.fwCfg (blkHmc k) (0x100 + first) bs) s = t at *
  rw [t.fwCfg_bands 31 _ bs (by omega), (bandTable_get _ _ _ hbands).2, if_pos (List.mem_range.mpr hlt),
    hblock _ (Nat.le_refl _), ← Nat.add_assoc, readByte_writeBytes_inside _ _ _ _ _ hcfg hi]

/-- The codes of modes and classes. -/
def bandCodes (bands : List (Byte × Byte)) : Bytes := bands.map (fun b => BitVec.ofNat 8 (b.1.toNat + 4 * b.2.toNat))

theorem bandCodes_get {bands : List (Byte × Byte)} {i : Nat} {b : Byte × Byte} (hi : bands[i]? = some b) :
    (bandCodes bands)[i]? = some (BitVec.ofNat 8 (b.1.toNat + 4 * b.2.toNat)) := by
  simp [bandCodes, hi]

theorem bandCode_setWidth (n : Nat) : (BitVec.ofNat 8 n).setWidth 3 = BitVec.ofNat 3 n := by
  apply BitVec.eq_of_toNat_eq
  simp only [BitVec.toNat_setWidth, BitVec.toNat_ofNat]
  omega

/-- MEMORY_LAYOUT with nothing to refuse zeroes the bands that change and writes the table. -/
theorem exec_memoryLayout {s : State} {h : Hdr} {first count : Byte} {bands : List (Byte × Byte)} (ha : Admitted s h 0x0205)
    (hlength : bands.length = count.toNat) (hpos : 0 < count.toNat) (hfits : first.toNat + count.toNat ≤ 80)
    (hbands : ∀ b ∈ bands, b.1.toNat ≤ 2 ∧ b.2.toNat ≤ 1) (hidle : s.runActive = false) :
    exec (.memoryLayout h first count bands) s =
      .next (((((s.admitted h).changedBands first.toNat (bandCodes bands)).foldl State.zeroBand (s.admitted h)).fwBands
        first.toNat (bandCodes bands)).ok h 0x0205 []) := by
  have hno : ¬ (count = 0 ∨ 80 < first.toNat + count.toNat) := by
    rintro (hc | hc)
    · simp [hc] at hpos
    · omega
  have hany : bands.any (fun b => decide (2 < b.1.toNat ∨ 1 < b.2.toNat)) = false := by
    rw [List.any_eq_false]
    intro b hb
    have hle := hbands b hb
    simp only [decide_eq_true_eq]
    omega
  change execMemoryLayout h first count bands s = _
  rw [execMemoryLayout, admit_admitted ha]
  simp only [hlength, ne_eq, not_true_eq_false, if_false, if_neg hno, hany, Bool.false_eq_true, State.admitted_runActive,
    hidle, bandCodes]

/-- Settles O8. -/
theorem memoryCommandsComplete : Obligations.MemoryCommandsComplete := by
  unfold Obligations.MemoryCommandsComplete
  refine ⟨⟨fun s h b ha hchannel hdir hfits hfree => ?start, fun s c data d hd hdir hzero hnet => ?toMemory,
    fun s c list d hd hdir hlist hzero hnet hpoison => ?toHost, fun s h c d ha hchannel hd hrising => ?abort,
    fun s h c ha hchannel hfree => exec_dmaStatus ha hchannel hfree, fun s h base ha haligned hfits => ?move,
    fun s o n hpos hfits hzero hnet hpoison => ?load, fun s o bs hne hfits hzero hnet => ?store, fun s b => ?zeroed⟩,
    fun s h first count bands ha hlength hpos hfits hbands hidle => ?layout⟩
  case start =>
    have hall := Only.admittedReply s h 0x0201 stAccepted false []
    have hdma := ((Only.refl [.replies] (s.admitted h)).reply h 0x0201 stAccepted false []).dma
    have hadmit := s.admitted_dma h
    exact ⟨_, exec_dmaStart ha hchannel hdir hfits hfree,
      congrArg (fun m => mset m b.channel.toNat ⟨h, b⟩) (hdma.1.trans hadmit.1), hdma.2.trans hadmit.2, hall.mem, hall.tiles⟩
  case toMemory =>
    change execDmaComplete c data s = _
    simp only [execDmaComplete, hd, hdir, hzero, hnet, Bool.or_self, Bool.false_eq_true, if_false, if_true]
  case toHost =>
    change execDmaComplete c list s = _
    have hdir' : ¬ d.body.dir = 0 := by simp [hdir]
    simp only [execDmaComplete, hd, if_neg hdir', hzero, hnet, hpoison, hlist, Bool.or_self, Bool.false_eq_true, if_false]
  case abort =>
    obtain ⟨t, u, hexec, hreply, hall, hrunning, hqueue⟩ := exec_dmaAbort ha hchannel hd
    refine ⟨t, hexec, ?_, hreply.dma.2.trans hqueue, hreply.tiles.trans hall.tiles, hreply.run.trans hall.run⟩
    rw [hreply.dma.1, hrunning, mfind_merase_same _ _ hrising]
  case move =>
    have hadmit := s.admitted_sameWork h
    have hreply (t : State) : Only [.replies] t (t.ok h 0x0204 []) := (Only.refl _ t).ok h 0x0204 []
    exact ⟨_, exec_apertureMove ha haligned hfits, (hreply _).apertureBase, (hreply _).mem.trans hadmit.mem,
      (hreply _).tiles.trans hadmit.tiles⟩
  case load =>
    have hin : ¬ (2 ^ 36 < o + n ∨ n = 0) := by omega
    change execApertureAccess (.load o n) s = _
    simp only [execApertureAccess, if_neg hin, hzero, hnet, Bool.or_self, Bool.false_eq_true, if_false, State.apertureLoad,
      hpoison]
    rfl
  case store =>
    have hin : ¬ (2 ^ 36 < o + bs.length ∨ bs = []) := by
      rintro (h | h)
      · omega
      · exact hne h
    change execApertureAccess (.store o bs) s = _
    simp only [execApertureAccess, if_neg hin, hzero, hnet, Bool.or_self, Bool.false_eq_true, if_false]
  case zeroed =>
    refine ⟨_, rfl, by simp, fun c hc => by simp [hc], rfl⟩
  case layout =>
    have hadmit := (s.admitted_sameWork h).mem
    generalize ha' : s.admitted h = a at *
    have hexec := exec_memoryLayout ha hlength hpos hfits hbands hidle
    rw [ha'] at hexec
    have hlen : (bandCodes bands).length = count.toNat := by simp [bandCodes, hlength]
    generalize hl : a.changedBands first.toNat (bandCodes bands) = l at hexec
    have hreply : Only [.tiles, .mem, .blocks, .mgp, .replies] (l.foldl State.zeroBand a)
        (((l.foldl State.zeroBand a).fwBands first.toNat (bandCodes bands)).ok h 0x0205 []) :=
      ((Only.refl _ _).fwBands _ _).ok h 0x0205 []
    have hhbm (x : Nat) := (congrArg (fun m => readByte m x) hreply.hbm).trans (zeroBands_hbm l a x)
    refine ⟨_, hexec, fun k hk hout x hx => ?_, fun i hi b hb hne => ⟨?_, fun x hx => ?_⟩, fun hwf hcfg i b hb => ?_⟩
    · have hnot : x / 2 ^ 35 ∉ l := by
        rw [← hl, mem_changedBands]
        rintro ⟨i, b, hb, hki, -⟩
        have hilt := (List.getElem?_eq_some_iff.mp hb).1
        omega
      rw [hhbm, if_neg hnot, hadmit]
    · have hin : first.toNat + i ∈ l := by
        rw [← hl, mem_changedBands]
        exact ⟨i, _, bandCodes_get hb, rfl, by rwa [bandCode_setWidth, hadmit]⟩
      have hmem := ((Only.refl [.replies] ((l.foldl State.zeroBand a).fwBands first.toNat (bandCodes bands))).ok h 0x0205 []).mem
      rw [hmem, State.fwBands_zeroing]
      exact zeroBands_zeroing l a _ (.inl hin)
    · have hin : first.toNat + i ∈ l := by
        rw [← hl, mem_changedBands]
        exact ⟨i, _, bandCodes_get hb, rfl, by rwa [bandCode_setWidth, hadmit]⟩
      rw [hhbm, hx, if_pos hin]
    · have hmem := ((Only.refl [.replies] ((l.foldl State.zeroBand a).fwBands first.toNat (bandCodes bands))).ok h 0x0205 []).mem
      have hilt := (List.getElem?_eq_some_iff.mp (bandCodes_get hb)).1
      obtain ⟨hbase, hblocks⟩ := zeroBands_bands l a
      have hblock : (l.foldl State.zeroBand a).block (blkHmc 31) = s.block (blkHmc 31) := by
        have hb0 : a.blocks = s.blocks := ha' ▸ ((Only.refl [.sessions, .replies, .host] s).admitted h).blocks
        rw [State.block, hblocks, hb0, State.block]
      rw [hmem, State.fwBands_get (by rw [hbase, hadmit]; exact hwf) (by rw [hblock]; exact hcfg 31 (by omega))
        (bandCodes_get hb) (by omega), bandCode_setWidth]

end Sys2Proof.Machine
end

section
/-! PROOFS. Runs: their start, their end, steps of bundles, and the job's configuration (O9). -/

namespace Sys2Proof.Machine

set_option Elab.async false

/-- RUN with an image of the job in its handle and no reason to refuse starts the run. -/
theorem exec_run {s : State} {h : Hdr} {b : RunBody} {ps : List PatchEntry} {im : Image} (ha : Admitted s h 0x0301)
    (hpatches : ps.length ≤ 252) (hfree : s.runBusy = false) (hcal : s.mgp.calValid = true)
    (him : mfind s.host.images (b.flags.toNat / 16 % 16) = some im) (hallowed : (s.admitted h).runDenied h b im ps = false)
    (hrelaxed : im.flags.getLsbD 1 = true → b.flags.getLsbD 0 = true) :
    exec (.run h b ps) s = .next (((s.admitted h).startRun h b im ps).reply h 0x0301 stAccepted false []) := by
  have hall := Only.admitParts s h
  have hfree' : (s.admitted h).runBusy = false := by
    rw [State.runBusy, hall.runActive, hall.clock, hall.power, hall.mgp]
    exact hfree
  have hmode : (im.flags.getLsbD 1 && !b.flags.getLsbD 0) = false := by
    cases hflag : im.flags.getLsbD 1
    · rfl
    · simp [hrelaxed hflag]
  change execRun h b ps s = _
  rw [execRun, admit_admitted ha]
  simp only [if_neg (Nat.not_lt.mpr hpatches), hfree', hall.mgp, hcal, s.admitted_images h, him, hallowed, hmode,
    Bool.false_eq_true, Bool.true_eq_false, if_false]

/-- A step is set on each tile of the mask, and on no other tile. -/
theorem stepTiles_tile (n : Word) (l : List Nat) (s : State) (k : Nat) :
    (l.foldl (fun s t => s.modTile t (fun x => { x with stepping := some n })) s).tile k =
      if k ∈ l then { s.tile k with stepping := some n } else s.tile k := by
  induction l generalizing s with
  | nil => rfl
  | cons j l ih =>
    rw [List.foldl_cons, ih]
    by_cases hk : k = j
    · subst hk
      simp only [State.modTile_same, List.mem_cons, true_or, if_true, ite_self]
    · simp only [State.modTile_other s j k _ hk, List.mem_cons, hk, false_or]

theorem exec_step {s : State} {h : Hdr} {mask : BitVec 128} {n : Word} (ha : Admitted s h 0x0303) (hpos : n ≠ 0)
    (hle : n.toNat ≤ 1048576) (hhalted : ∀ t ∈ maskTiles mask, (s.tile t).halted = true) :
    exec (.step h mask n) s =
      .next (((maskTiles mask).foldl (fun s t => s.modTile t (fun x => { x with stepping := some n })) (s.admitted h)).ok h
        0x0303 []) := by
  have hno : ¬ (n = 0 ∨ 1048576 < n.toNat) := fun hn => hn.elim hpos (fun hlt => by omega)
  have hall : (maskTiles mask).any (fun t => !((s.admitted h).tile t).halted) = false := by
    rw [List.any_eq_false]
    intro t ht
    simp [(Only.admitParts s h).tile, hhalted t ht]
  change execStep h mask n s = _
  rw [execStep, admit_admitted ha]
  simp only [if_neg hno, hall, Bool.false_eq_true, if_false]

/-- The job that JOB_CONFIG leaves. -/
def Job.configured (j : Job) (checkT closure lead : Byte) : Job :=
  { j with checkT := if checkT = 0 then 12 else checkT.toNat, closureContinue := closure == 1,
           lead := if lead = 0 then 4 else lead.toNat }

theorem exec_jobConfig {s : State} {h : Hdr} {a b c : Byte} (ha : Admitted s h 0x0304) (hcheck : a.toNat ≤ 30)
    (hclosure : b.toNat ≤ 1) (hlead : c.toNat ≤ 64) (hfree : s.runActive = false ∨ s.run.jobId ≠ h.jobId) :
    exec (.jobConfig h a b c) s =
      .next (((s.admitted h).setJob h.jobId ((s.jobOf h.jobId).configured a b c)).ok h 0x0304 []) := by
  have hall := Only.admitParts s h
  have hfree' : (s.runActive && s.run.jobId == h.jobId) = false := by
    rcases hfree with hidle | hjob
    · simp [hidle]
    · simp [hjob]
  change execJobConfig h a b c s = _
  rw [execJobConfig, admit_admitted ha]
  simp only [if_neg (Nat.not_lt.mpr hcheck), if_neg (Nat.not_lt.mpr hclosure), if_neg (Nat.not_lt.mpr hlead),
    hall.runActive, hall.run, hall.jobOf, hfree', Bool.false_eq_true, if_false, Job.configured]

theorem exec_runStatus {s : State} {h : Hdr} (ha : Admitted s h 0x0305) :
    exec (.runStatus h) s = .next ((s.admitted h).ok h 0x0305 (leBytes 1 s.runCode ++ zeros 3 ++
      leBytes 4 (if s.runActive then s.currentStep.toNat else 0) ++ leBytes 8 s.clock.meridian.toNat)) := by
  have hall := Only.admitParts s h
  have hcode : (s.admitted h).runCode = s.runCode := by rw [State.runCode, hall.pair, hall.run, State.runCode]
  have hstep : (s.admitted h).currentStep = s.currentStep := by rw [State.currentStep, hall.run, State.currentStep]
  change execRunStatus h s = _
  rw [execRunStatus, admit_admitted ha]
  simp only [hcode, hstep, hall.runActive, hall.clock]

/-- A run ends for a cause that holds. -/
theorem exec_runEnd_stepLimit {s : State} (hactive : s.runActive = true) (hlimit : s.run.stepLimit ≠ 0)
    (hreached : s.run.stepLimit.toNat ≤ s.run.steps.length) :
    exec (.runEnd .stepLimit) s = .next (s.endRun .stepLimit) := by
  have hlimit' : (s.run.stepLimit != 0) = true := bne_iff_ne.mpr hlimit
  change execRunEnd .stepLimit s = _
  simp only [execRunEnd, hactive, hlimit', hreached, decide_true, Bool.and_self, and_self, if_true]

theorem exec_runEnd_complete {s : State} (hrunning : s.run.state = .running)
    (hdone : ∀ k ∈ s.imageTiles, (s.tile k).blocked = [] ∧ (s.tile k).faulted = false) :
    exec (.runEnd .complete) s = .next (s.endRun .complete) := by
  have hactive : s.runActive = true := by simp [State.runActive, hrunning]
  have hall : s.imageTiles.all (fun t => (s.tile t).blocked.isEmpty && !(s.tile t).faulted) = true := by
    rw [List.all_eq_true]
    intro k hk
    simp [hdone k hk]
  change execRunEnd .complete s = _
  simp only [execRunEnd, hactive, hrunning, hall, beq_self_eq_true, Bool.and_self, and_self, if_true]

/-- Settles O9: each command acts on the state in which it is admitted, which keeps the tiles, the run and the jobs. -/
theorem runCommandsComplete : Obligations.RunCommandsComplete := by
  unfold Obligations.RunCommandsComplete
  refine ⟨⟨fun s h b ps im => exec_run, fun s h ha => ?stop, State.endRun_runActive⟩,
    fun s h mask n ha hpos hle hhalted => ?step, fun s k hk => ?stepped, fun s h a b c ha h1 h2 h3 hfree => ?config,
    fun s h => exec_runStatus, fun s => exec_runEnd_stepLimit, fun s hactive => ?runStop,
    fun s hactive hfaults => ?faultStop, fun s => exec_runEnd_complete⟩
  case stop =>
    change execStop h s = _
    rw [execStop, admit_admitted ha]
  case step =>
    have hadmit := Only.admitParts s h
    have hsteps : Only [.tiles, .replies] (s.admitted h)
        (((maskTiles mask).foldl (fun s t => s.modTile t (fun x => { x with stepping := some n })) (s.admitted h)).ok h 0x0303
          []) :=
      (Only.foldl (fun t ht => ht.modTile t _) _ (Only.refl _ _)).ok h 0x0303 []
    have htile (k : Nat) := (((Only.refl [.replies] _).ok h 0x0303 []).tile k).trans
      (stepTiles_tile n (maskTiles mask) (s.admitted h) k)
    refine ⟨_, exec_step ha hpos hle hhalted, fun k hk => ?_, fun k hk => ?_, hsteps.mem.trans hadmit.mem,
      hsteps.run.trans hadmit.run⟩
    · rw [htile, if_pos hk]
    · rw [htile, if_neg hk, hadmit.tile]
  case stepped =>
    change execStepBundlesDone k s = _
    rw [execStepBundlesDone, if_pos hk]
  case config =>
    have hadmit := Only.admitParts s h
    have hset : Only [.jobs, .replies] (s.admitted h)
        (((s.admitted h).setJob h.jobId ((s.jobOf h.jobId).configured a b c)).ok h 0x0304 []) :=
      ((Only.refl _ _).setJob _ _).ok h 0x0304 []
    have hjob := ((Only.refl [.replies] ((s.admitted h).setJob h.jobId ((s.jobOf h.jobId).configured a b c))).ok h
      0x0304 []).jobOf h.jobId
    have hput : ((s.admitted h).setJob h.jobId ((s.jobOf h.jobId).configured a b c)).jobOf h.jobId =
        (s.jobOf h.jobId).configured a b c := by
      simp [State.setJob, State.jobOf]
    rw [hput] at hjob
    exact ⟨_, exec_jobConfig ha h1 h2 h3 hfree, congrArg Job.checkT hjob, congrArg Job.closureContinue hjob,
      congrArg Job.lead hjob, (congrArg Job.seed hjob).trans rfl, hset.run.trans hadmit.run, hset.tiles.trans hadmit.tiles,
      hset.mem.trans hadmit.mem⟩
  case runStop =>
    change execRunEnd .stop s = _
    simp [execRunEnd, hactive]
  case faultStop =>
    change execFaultStop s = _
    simp [execFaultStop, hactive, hfaults]

end Sys2Proof.Machine
end

section
/-! PROOFS. What a run's start puts into the tiles of its image (O10). -/

namespace Sys2Proof.Machine

set_option Elab.async false

/-- What Table 06.3 and R203 say of a tile at the start of a run. -/
def Tile.core (t : Tile) : Option Nat × Regs × List LoopFrame × List Blocked × Bool × DWord :=
  (t.logical, t.regs, t.loops, t.blocked, t.faulted, t.held)

/-- The declared endpoints leave it. -/
theorem setupRecv_core (s : State) (im : Image) (l : Nat) (x : Tile) (c : ChanDecl) :
    (State.setupRecv s im l x c).core = x.core := by
  unfold State.setupRecv
  split
  · split <;> rfl
  · rfl

theorem setupSend_core (im : Image) (l : Nat) (x : Tile) (c : ChanDecl) : (setupSend im l x c).core = x.core := by
  unfold setupSend
  split
  · split <;> rfl
  · rfl

/-- A fold of updates that leave it leaves it. -/
theorem foldl_core {α : Type} {f : Tile → α → Tile} (hf : ∀ x c, (f x c).core = x.core) (l : List α) (x : Tile) :
    (l.foldl f x).core = x.core := by
  induction l generalizing x with
  | nil => rfl
  | cons c l ih => exact (ih _).trans (hf x c)

theorem startTile_core (s : State) (im : Image) (first : Word) (ps : List PatchEntry) (l : Nat) :
    (s.startTile im first ps l).core = (some l, s.initialRegs im l first ps, [], [], false, 0) := by
  unfold State.startTile
  extract_lets old b regs watches reset array arrayOld base x
  have hx : x.core = base.core :=
    (foldl_core (setupSend_core im l) _ _).trans (foldl_core (setupRecv_core s im l) _ _)
  exact hx

/-! ### The tiles of an image -/

/-- The tiles of an image without repetition are distinct. -/
theorem imageTile_ne {im : Image} (hnodup : im.tiles.Nodup) {l j : Nat} (hl : l < im.tiles.length) (hj : j < im.tiles.length)
    (hne : l ≠ j) : (imageTile im l).val ≠ (imageTile im j).val := by
  intro heq
  have htiles : im.tiles[l] = im.tiles[j] := by
    apply Fin.ext
    simpa [imageTile, hl, hj] using heq
  exact hne ((hnodup.getElem_inj_iff).mp htiles)

theorem startTiles_tile_other {im : Image} (hnodup : im.tiles.Nodup) {l : Nat} (hl : l < im.tiles.length) (first : Word)
    (ps : List PatchEntry) (r : List Nat) (hr : ∀ j ∈ r, j < im.tiles.length) (hout : l ∉ r) (s : State) :
    (s.startTiles im first ps r).tile (imageTile im l).val = s.tile (imageTile im l).val := by
  induction r generalizing s with
  | nil => rfl
  | cons j r ih =>
    obtain ⟨hlj, hout⟩ := not_or.mp (fun h => hout (List.mem_cons.mpr h))
    rw [State.startTiles, ih (fun i hi => hr i (List.mem_cons_of_mem j hi)) hout,
      State.setTile_other _ _ _ _ (imageTile_ne hnodup hl (hr j List.mem_cons_self) hlj)]

theorem initialRegs_setTile (s : State) (im : Image) (l k : Nat) (x : Tile) (first : Word) (ps : List PatchEntry) :
    (s.setTile k x).initialRegs im l first ps = s.initialRegs im l first ps := rfl

/-- Each tile of the image starts with its own number. -/
theorem startTiles_core {im : Image} (hnodup : im.tiles.Nodup) {l : Nat} (hl : l < im.tiles.length) (first : Word)
    (ps : List PatchEntry) (r : List Nat) (hr : ∀ j ∈ r, j < im.tiles.length) (hrn : r.Nodup) (hin : l ∈ r) (s : State) :
    ((s.startTiles im first ps r).tile (imageTile im l).val).core =
      (some l, s.initialRegs im l first ps, [], [], false, 0) := by
  induction r generalizing s with
  | nil => cases hin
  | cons j r ih =>
    obtain ⟨hjr, hrn⟩ := List.nodup_cons.mp hrn
    have hr' : ∀ i ∈ r, i < im.tiles.length := fun i hi => hr i (List.mem_cons_of_mem j hi)
    rw [State.startTiles]
    by_cases hlj : l = j
    · subst hlj
      rw [startTiles_tile_other hnodup hl first ps r hr' hjr, State.setTile_same, startTile_core]
    · rw [ih hr' hrn ((List.mem_cons.mp hin).resolve_left hlj), initialRegs_setTile]

/-- The routes that a tile's send endpoints take leave it. -/
theorem bindAll_core (r : List Nat) (s : State) (k : Nat) : ((s.bindAll r).tile k).core = (s.tile k).core := by
  induction r generalizing s with
  | nil => rfl
  | cons t r ih =>
    rw [State.bindAll, ih, State.bindTile]
    by_cases hk : k = t
    · subst hk
      rw [State.modTile_same]
      rfl
    · rw [State.modTile_other s t k _ hk]

theorem configTiles_moduleId (s : State) (im : Image) (l : List Nat) : (s.configTiles im l).moduleIdNat = s.moduleIdNat := by
  have h : Only [.tiles, .mem, .blocks, .mgp] s (s.configTiles im l) := (Only.refl _ s).configTiles im l
  rw [State.moduleIdNat, h.domain, State.moduleIdNat]

/-- A run's start leaves each tile of the image as Table 06.3 says. -/
theorem startRun_core (s : State) (h : Hdr) (b : RunBody) (im : Image) (ps : List PatchEntry) {l : Nat}
    (hnodup : im.tiles.Nodup) (hl : l < im.tiles.length) :
    ((s.startRun h b im ps).tile (imageTile im l).val).core =
      (some l, s.initialRegs im l b.firstStep ps, [], [], false, 0) := by
  unfold State.startRun
  extract_lets s1 runReset run counters tiles1 net1 domain1 pair1 s2 s3
  have hid : s2.moduleIdNat = s.moduleIdNat := configTiles_moduleId s im s.enabledTiles
  have hregs : s2.initialRegs im l b.firstStep ps = s.initialRegs im l b.firstStep ps := by
    rw [State.initialRegs, hid, State.initialRegs]
  have hs3 : (s3.tile (imageTile im l).val).core = (some l, s.initialRegs im l b.firstStep ps, [], [], false, 0) := by
    have hrest : Only [.mem, .stackMap, .run] (s2.startTiles im b.firstStep ps (List.range im.tiles.length)) s3 :=
      ((Only.refl _ _).startEngines im b.firstStep).assignParcels
    rw [hrest.tile, startTiles_core hnodup hl b.firstStep ps _ (fun j hj => List.mem_range.mp hj) List.nodup_range
      (List.mem_range.mpr hl), hregs]
  have hend (t : State) : Only [.blocks, .ports, .held] t (t.setRunEn true).sendTileTable :=
    ((Only.refl _ t).setRunEn true).sendTileTable
  rw [(hend _).tile, bindAll_core, hs3]

/-! ### The registers -/

/-- Patching the P registers leaves the other ones. -/
theorem Regs.setPs_others (l : List (Nat × DWord)) (r : Regs) :
    (r.setPs l).g = r.g ∧ (r.setPs l).v = r.v ∧ (r.setPs l).m = r.m ∧ (r.setPs l).l = r.l := by
  induction l generalizing r with
  | nil => exact ⟨rfl, rfl, rfl, rfl⟩
  | cons e l ih => exact ih (r.setP e.1 e.2)

/-- The registers that a run's tiles start with. -/
theorem initialRegs_get (s : State) (im : Image) (l : Nat) (first : Word) (ps : List PatchEntry) :
    let r := s.initialRegs im l first ps
    r.getG 0 = BitVec.ofNat 64 l ∧ r.getG 1 = BitVec.ofNat 64 im.tiles.length ∧ r.getG 2 = BitVec.ofNat 64 s.moduleIdNat ∧
    r.getG 3 = first.setWidth 64 ∧ (∀ g, 4 ≤ g → r.getG g = 0) ∧ (∀ k, r.getL k = 0) ∧ (∀ k n, r.getV k n = 0) ∧
    r.getM 0 = BitVec.allOnes 256 ∧ (∀ k, k ≠ 0 → r.getM k = 0) := by
  intro r
  obtain ⟨hg, hv, hm, hl⟩ := Regs.setPs_others (initialP im l ps)
    ((((((Regs.zero).setG 0 (BitVec.ofNat 64 l)).setG 1 (BitVec.ofNat 64 im.tiles.length)).setG 2
      (BitVec.ofNat 64 s.moduleIdNat)).setG 3 (first.setWidth 64)).setM 0 (BitVec.allOnes 256))
  have hrg : r.g = _ := hg
  have hrv : r.v = _ := hv
  have hrm : r.m = _ := hm
  have hrl : r.l = _ := hl
  unfold Regs.getG Regs.getL Regs.getV Regs.getM
  rw [hrg, hrv, hrm, hrl]
  refine ⟨rfl, rfl, rfl, rfl, fun g hg => ?_, fun _ => rfl, fun _ _ => rfl, rfl, fun k hk => ?_⟩
  · change Regs.getG (((((Regs.zero).setG 0 _).setG 1 _).setG 2 _).setG 3 _) g = 0
    rw [Regs.getG_setG_other _ _ _ _ (by omega), Regs.getG_setG_other _ _ _ _ (by omega),
      Regs.getG_setG_other _ _ _ _ (by omega), Regs.getG_setG_other _ _ _ _ (by omega)]
    rfl
  · exact Regs.getM_setM_other Regs.zero 0 k (BitVec.allOnes 256) hk

/-- Settles O10. -/
theorem runStartsTilesAsTable06_3 : Obligations.RunStartsTilesAsTable06_3 := by
  unfold Obligations.RunStartsTilesAsTable06_3
  intro s h b im ps l hnodup hl t
  have hcore : t.core = _ := startRun_core s h b im ps hnodup hl
  simp only [Tile.core, Prod.mk.injEq] at hcore
  obtain ⟨hlogical, hregs, hloops, hblocked, hfaulted, hheld⟩ := hcore
  obtain ⟨h0, h1, h2, h3, hg, hl', hv, hm0, hm⟩ := initialRegs_get s im l b.firstStep ps
  rw [← hregs] at h0 h1 h2 h3 hg hl' hv hm0 hm
  exact ⟨hlogical, h0, h1, h2, h3, hg, hl', hv, hm0, hm, hloops, hblocked, hfaulted, hheld⟩

end Sys2Proof.Machine
end

section
/-! PROOFS. The other commands of the pair and the domain, and LINK_STATUS (O12). -/

namespace Sys2Proof.Machine

set_option Elab.async false

/-- The domain that SET_DOMAIN leaves. -/
def DomainState.configured (x : DomainState) (b : DomainBody) : DomainState :=
  { x with version := b.version.setWidth 4, witnessChain := b.paths.getLsbD 0, witnessHost := b.paths.getLsbD 1,
           witnessId := b.witnessId, witnessKey := b.witnessKey }

/-- SET_DOMAIN outside a run takes the domain's values; the chain ports settle their versions again. -/
theorem exec_setDomain {s : State} {h : Hdr} {b : DomainBody} (ha : Admitted s h 0x0402)
    (hversion : b.version = 1 ∨ b.version = 2) (hpaths : b.paths.toNat ≤ 3) (hidle : s.runActive = false) :
    ∃ t, exec (.setDomain h b) s = .next t ∧
      Only [.ports, .replies, .log] { s.admitted h with domain := s.domain.configured b } t := by
  have hno : ¬ (b.version ≠ 1 ∧ b.version ≠ 2) := by
    rintro ⟨h1, h2⟩
    exact hversion.elim h1 h2
  have hdomain := (Only.admitParts s h).domain
  change ∃ t, execSetDomain h b s = _ ∧ _
  rw [execSetDomain, admit_admitted ha]
  simp only [if_neg hno, if_neg (Nat.not_lt.mpr hpaths), State.admitted_runActive, hidle, Bool.false_eq_true, if_false,
    hdomain, DomainState.configured]
  exact ⟨_, rfl, (Only.foldl (fun p hp => (hp.settlePort p).pumpPort p) _ (Only.refl _ _)).ok h 0x0402 []⟩

theorem exec_setPairMode {s : State} {h : Hdr} {mode : Byte} {m : PairMode} (ha : Admitted s h 0x0403)
    (hmode : modeOf mode = some m) (hidle : s.runActive = false) :
    exec (.setPairMode h mode) s =
      .next (State.ok { s.admitted h with pair := { s.pair with mode := m, role := roleAfter m s.pair.role } } h 0x0403 []) := by
  change execSetPairMode h mode s = _
  rw [execSetPairMode, admit_admitted ha]
  simp only [hmode, State.admitted_runActive, hidle, Bool.false_eq_true, if_false, (Only.admitParts s h).pair]

theorem exec_withdrawChange {s : State} {h : Hdr} {e : Word} {c : Change} (ha : Admitted s h 0x0405)
    (hchange : s.domain.change = some c) (hepoch : c.membership.epoch = e) :
    exec (.withdrawChange h e) s =
      .next (State.ok { s.admitted h with domain := { s.domain with change := none, transferReports := [], heldRelease := none } }
        h 0x0405 []) := by
  have hdomain := (Only.admitParts s h).domain
  change execWithdrawChange h e s = _
  rw [execWithdrawChange, admit_admitted ha]
  simp only [hdomain, hchange, if_pos hepoch]

theorem exec_portReset {s : State} {h : Hdr} {b : Byte} {p : PortNo} (ha : Admitted s h 0x0407) (hport : portOf b = some p)
    (hidle : s.runActive = false) :
    exec (.portReset h b) s = .next (((s.admitted h).modPort p.val
      (fun x => { x with state := .training, upperHalf := false, failed := 0 })).ok h 0x0407 []) := by
  change execPortReset h b s = _
  rw [execPortReset, admit_admitted ha]
  simp only [hport, State.admitted_runActive, hidle, Bool.false_eq_true, if_false]

theorem exec_linkStatus {s : State} {h : Hdr} (ha : Admitted s h 0x0409) :
    exec (.linkStatus h) s =
      .next ((s.admitted h).ok h 0x0409 ((List.range 20).flatMap (fun p => (s.port p).statusBytes))) := by
  have hport (p : Nat) : (s.admitted h).port p = s.port p := by
    rw [State.port, (Only.admitParts s h).domain, State.port]
  change execLinkStatus h s = _
  rw [execLinkStatus, admit_admitted ha]
  simp only [hport]

/-- A fenced module stays fenced, and solo mode leaves every other one solo (R455). -/
theorem roleAfter_fenced (m : PairMode) : roleAfter m .fenced = .fenced := by cases m <;> rfl

theorem roleAfter_solo {r : Role} (hr : r ≠ .fenced) : roleAfter .solo r = .solo := by
  cases r
  case fenced => exact absurd rfl hr
  all_goals rfl

/-- Settles O12: each command acts on the state in which it is admitted, and its reply changes the replies alone. -/
theorem pairAndDomainRowsComplete : Obligations.PairAndDomainRowsComplete := by
  unfold Obligations.PairAndDomainRowsComplete
  refine ⟨fun s h b ha hversion hpaths hidle => ?setDomain, fun s h mode m ha hmode hidle => ?setPairMode,
    fun s h e c ha hchange hepoch => ?withdraw, fun s h r ha hwitness => ?lease, fun s h b p => exec_portReset,
    fun s h ha => ?quarantine, fun s h => exec_linkStatus⟩
  case setDomain =>
    have hadmit := Only.admitParts s h
    obtain ⟨t, hexec, hports⟩ := exec_setDomain ha hversion hpaths hidle
    have hrest := hports.domainRest
    have h1 := congrArg DomainState.version hrest
    have h2 := congrArg DomainState.witnessChain hrest
    have h3 := congrArg DomainState.witnessHost hrest
    have h4 := congrArg DomainState.witnessId hrest
    have h5 := congrArg DomainState.witnessKey hrest
    have h6 := congrArg DomainState.moduleId hrest
    have h7 := congrArg DomainState.membership hrest
    exact ⟨t, hexec, h1, h2, h3, h4, h5, h6, h7, hports.tiles.trans hadmit.tiles, hports.mem.trans hadmit.mem,
      hports.run.trans hadmit.run⟩
  case setPairMode =>
    have hadmit := Only.admitParts s h
    have hreply (t : State) := Only.okReply t h 0x0403 []
    refine ⟨_, exec_setPairMode ha hmode hidle, congrArg PairState.mode (hreply _).pair, fun hfenced => ?_, fun hsolo hr => ?_,
      (hreply _).domain.trans hadmit.domain, (hreply _).tiles.trans hadmit.tiles, (hreply _).mem.trans hadmit.mem,
      (hreply _).run.trans hadmit.run⟩
    · rw [(hreply _).pair, hfenced, roleAfter_fenced]
    · rw [(hreply _).pair, hsolo, roleAfter_solo hr]
  case withdraw =>
    have hadmit := Only.admitParts s h
    have hreply (t : State) := Only.okReply t h 0x0405 []
    exact ⟨_, exec_withdrawChange ha hchange hepoch, congrArg DomainState.change (hreply _).domain,
      (congrArg DomainState.membership (hreply _).domain).trans rfl, (hreply _).tiles.trans hadmit.tiles,
      (hreply _).mem.trans hadmit.mem, (hreply _).run.trans hadmit.run, (hreply _).pair.trans hadmit.pair⟩
  case lease =>
    change execLeaseDeliver h r s = _
    rw [execLeaseDeliver, admit_admitted ha]
    simp only [(Only.admitParts s h).domain, hwitness, if_true]
  case quarantine =>
    have hadmit := Only.admitParts s h
    have hreply (t : State) := Only.okReply t h 0x0408 []
    have hexec : exec (.quarantineClear h) s =
        .next (State.ok { s.admitted h with pair := { s.pair with quarantined := false } } h 0x0408 []) := by
      change execQuarantineClear h s = _
      rw [execQuarantineClear, admit_admitted ha]
      simp only [hadmit.pair]
    exact ⟨_, hexec, (hreply _).pair, (hreply _).domain.trans hadmit.domain, (hreply _).tiles.trans hadmit.tiles,
      (hreply _).mem.trans hadmit.mem, (hreply _).run.trans hadmit.run⟩

end Sys2Proof.Machine
end

section
/-! PROOFS. The announcement of memberships (O13). -/

namespace Sys2Proof.Machine

set_option Elab.async false

/-! ### What the checks of an announcement read -/

theorem readHbm_congr {s t : State} (h : t.mem = s.mem) (a n : Nat) : t.readHbm a n = s.readHbm a n := by
  rw [State.readHbm, h, State.readHbm]

theorem tableEntries_congr {s t : State} (h : t.mem = s.mem) (a n : Nat) : t.tableEntries a n = s.tableEntries a n := by
  induction n generalizing a with
  | zero => rfl
  | succ n ih => simp only [State.tableEntries, readHbm_congr h, ih]

theorem memberTable_congr {s t : State} (h : t.mem = s.mem) (a : Nat) : t.memberTable a = s.memberTable a := by
  simp only [State.memberTable, readHbm_congr h, tableEntries_congr h]

/-- The checks read memory, the domain, the run, the pair, the jobs and the images, which admission leaves. -/
structure State.SameTables (s t : State) : Prop where
  memberTable (a : Nat) : t.memberTable a = s.memberTable a
  moduleIdNat : t.moduleIdNat = s.moduleIdNat
  outside (m : MemberTable) : t.outside m = s.outside m
  stateLost (m : MemberTable) : t.stateLost m = s.stateLost m
  hasPlan : t.hasPlan = s.hasPlan
  lowestOpenStep : t.lowestOpenStep = s.lowestOpenStep
  currentStep : t.currentStep = s.currentStep
  jobOf (id : BitVec 16) : t.jobOf id = s.jobOf id

theorem State.admitted_sameTables (s : State) (h : Hdr) : s.SameTables (s.admitted h) := by
  have hall := Only.admitParts s h
  have himages := s.admitted_images h
  have hjob := hall.jobOf
  have htable := memberTable_congr hall.mem
  obtain ⟨hmem, hdomain, hrun, hpair⟩ :
      (s.admitted h).mem = s.mem ∧ (s.admitted h).domain = s.domain ∧ (s.admitted h).run = s.run ∧
        (s.admitted h).pair = s.pair := ⟨hall.mem, hall.domain, hall.run, hall.pair⟩
  refine ⟨htable, ?_, fun m => ?_, fun m => ?_, ?_, ?_, ?_, fun id => hjob id⟩
  · simp only [State.moduleIdNat, hdomain]
  · simp only [State.outside, State.moduleIdNat, State.members, hdomain]
  · simp only [State.stateLost, State.members, State.moduleIdNat, State.runImage, hdomain, hrun, hpair, himages]
  · simp only [State.hasPlan, hmem]
  · simp only [State.lowestOpenStep, State.lastStep, hmem, hrun]
  · simp only [State.currentStep, hrun]

/-! ### The announcements -/

theorem exec_announceInitialMembership {s : State} {h : Hdr} {b : AnnounceBody} {t0 : MemberTable} (ha : Admitted s h 0x0404)
    (hidle : s.runActive = false) (htable : s.memberTable b.tableAddr.toNat = some t0)
    (hmember : t0.members.contains s.moduleIdNat = true) :
    ∃ t, exec (.announceInitialMembership h b) s = .next t ∧
      Only [.tiles, .replies] (((s.admitted h).admitEpoch t0).adoptMembership (announced b t0) t0.epochs) t := by
  have hsame := s.admitted_sameTables h
  change ∃ t, execAnnounceInitialMembership h b s = _ ∧ _
  rw [execAnnounceInitialMembership, admit_admitted ha]
  simp only [State.admitted_runActive, hidle, hsame.memberTable, htable, hsame.moduleIdNat, hmember, Bool.false_eq_true,
    Bool.true_eq_false, if_false]
  exact ⟨_, rfl, ((Only.refl _ _).bindAll _).ok h 0x0404 []⟩

theorem exec_announcePlannedChange {s : State} {h : Hdr} {b : AnnounceBody} {t0 : MemberTable} (ha : Admitted s h 0x0404)
    (htable : s.memberTable b.tableAddr.toNat = some t0) (hinside : s.outside t0 = false)
    (hlead : s.runActive = true → s.currentStep.toNat + (s.jobOf s.run.jobId).lead ≤ b.tE.toNat) :
    exec (.announcePlannedChange h b) s = .next (((s.admitted h).announceChange b t0 false).ok h 0x0404 []) := by
  have hsame := s.admitted_sameTables h
  have hrun := (Only.admitParts s h).run
  have hno : ¬ (s.runActive = true ∧ b.tE.toNat < s.currentStep.toNat + (s.jobOf s.run.jobId).lead) := by
    rintro ⟨hactive, hlate⟩
    exact absurd (hlead hactive) (Nat.not_le.mpr hlate)
  change execAnnouncePlannedChange h b s = _
  rw [execAnnouncePlannedChange, admit_admitted ha]
  simp only [hsame.memberTable, htable, hsame.outside, hinside, State.admitted_runActive, hsame.currentStep, hrun, hsame.jobOf,
    if_neg hno, Bool.false_eq_true, if_false]

theorem exec_announcePlannedChange_late {s : State} {h : Hdr} {b : AnnounceBody} {t0 : MemberTable}
    (ha : Admitted s h 0x0404) (htable : s.memberTable b.tableAddr.toNat = some t0) (hinside : s.outside t0 = false)
    (hactive : s.runActive = true) (hlate : b.tE.toNat < s.currentStep.toNat + (s.jobOf s.run.jobId).lead) :
    exec (.announcePlannedChange h b) s = .next ((s.admitted h).fail h 0x0404 stDenied 8 0 b.tE.toNat) := by
  have hsame := s.admitted_sameTables h
  have hrun := (Only.admitParts s h).run
  change execAnnouncePlannedChange h b s = _
  rw [execAnnouncePlannedChange, admit_admitted ha]
  simp only [hsame.memberTable, htable, hsame.outside, hinside, State.admitted_runActive, hactive, hsame.currentStep, hrun,
    hsame.jobOf, hlate, and_self, Bool.false_eq_true, if_false, if_true]

theorem exec_announceForcedChange {s : State} {h : Hdr} {b : AnnounceBody} {t0 : MemberTable} (ha : Admitted s h 0x0404)
    (htable : s.memberTable b.tableAddr.toNat = some t0) (hinside : s.outside t0 = false) (hstate : s.stateLost t0 = false)
    (hstep : s.hasPlan = true → b.tE.toNat ≤ s.lowestOpenStep) :
    exec (.announceForcedChange h b) s = .next (((s.admitted h).announceChange b t0 true).ok h 0x0404 []) := by
  have hsame := s.admitted_sameTables h
  have hno : ¬ (s.hasPlan = true ∧ s.lowestOpenStep < b.tE.toNat) := by
    rintro ⟨hplan, hlate⟩
    exact absurd (hstep hplan) (Nat.not_le.mpr hlate)
  change execAnnounceForcedChange h b s = _
  rw [execAnnounceForcedChange, admit_admitted ha]
  simp only [hsame.memberTable, htable, hsame.outside, hinside, hsame.hasPlan, hsame.lowestOpenStep, if_neg hno,
    hsame.stateLost, hstate, Bool.false_eq_true, if_false]

/-- The change that an announcement holds. -/
def changeOf (b : AnnounceBody) (t : MemberTable) (forced : Bool) : Change :=
  { membership := announced b t, epochs := t.epochs, tE := b.tE, forced := forced, transferred := false }

/-- A change that is held leaves the membership in force, the tiles, the run and the memory. -/
theorem announceChange_holds (s : State) (h : Hdr) (b : AnnounceBody) (t0 : MemberTable) (forced : Bool) :
    let t := ((s.admitted h).announceChange b t0 forced).ok h 0x0404 []
    t.domain.change = some (changeOf b t0 forced) ∧ t.domain.membership = s.domain.membership ∧ t.tiles = s.tiles ∧
      t.run = s.run ∧ t.mem = s.mem := by
  intro t
  have hadmit := Only.admitParts s h
  have hreply : Only [.replies] ((s.admitted h).announceChange b t0 forced) t := Only.okReply _ h 0x0404 []
  have hepoch : Only [.pair] (s.admitted h) ((s.admitted h).admitEpoch t0) := (Only.refl _ _).admitEpoch t0
  have hchange : Only [.domain, .pair] (s.admitted h) ((s.admitted h).announceChange b t0 forced) :=
    (Only.refl _ _).announceChange b t0 forced
  refine ⟨congrArg DomainState.change hreply.domain, (congrArg DomainState.membership hreply.domain).trans ?_,
    hreply.tiles.trans (hchange.tiles.trans hadmit.tiles), hreply.run.trans (hchange.run.trans hadmit.run),
    hreply.mem.trans (hchange.mem.trans hadmit.mem)⟩
  have hkept := congrArg DomainState.membership (hepoch.domain.trans hadmit.domain)
  exact hkept

/-- Settles O13. -/
theorem announcementsHold : Obligations.AnnouncementsHold := by
  unfold Obligations.AnnouncementsHold
  refine ⟨⟨fun s h b t0 ha hidle htable hmember => ?initial, fun s h b t0 ha htable hinside hlead => ?planned,
    fun s h b t0 ha htable hinside hstate hstep => ?forced⟩, fun s h b t0 => exec_announcePlannedChange_late⟩
  case initial =>
    have hadmit := Only.admitParts s h
    obtain ⟨t, hexec, hreply⟩ := exec_announceInitialMembership ha hidle htable hmember
    have hadopt : Only [.domain, .pair] (s.admitted h)
        (((s.admitted h).admitEpoch t0).adoptMembership (announced b t0) t0.epochs) :=
      ((Only.refl _ _).admitEpoch t0).adoptMembership _ _
    exact ⟨t, hexec, congrArg DomainState.membership hreply.domain, congrArg DomainState.change hreply.domain,
      hreply.run.trans (hadopt.run.trans hadmit.run), hreply.mem.trans (hadopt.mem.trans hadmit.mem)⟩
  case planned =>
    obtain ⟨hchange, hmembership, htiles, hrun, hmem⟩ := announceChange_holds s h b t0 false
    exact ⟨_, changeOf b t0 false, exec_announcePlannedChange ha htable hinside hlead, hchange, rfl, rfl, rfl, rfl,
      hmembership, htiles, hrun, hmem⟩
  case forced =>
    obtain ⟨hchange, hmembership, htiles, hrun, hmem⟩ := announceChange_holds s h b t0 true
    exact ⟨_, changeOf b t0 true, exec_announceForcedChange ha htable hinside hstate hstep, hchange, rfl, rfl, rfl,
      hmembership, htiles, hrun, hmem⟩

end Sys2Proof.Machine
end

section
/-! PROOFS. Halting, resuming and reading tiles (O15). -/

namespace Sys2Proof.Machine

set_option Elab.async false

/-- Halting or resuming tiles touches each enabled tile of the list, and no other one. -/
theorem setHalteds_tile (on : Bool) (l : List Nat) (s : State) (k : Nat) :
    (l.foldl (fun s t => s.setHalted t on) s).tile k =
      if k ∈ l ∧ s.enabled k = true then { s.tile k with halted := on, stepping := none } else s.tile k := by
  induction l generalizing s with
  | nil => simp
  | cons j l ih =>
    have hfuses : (s.setHalted j on).enabled k = s.enabled k := by
      unfold State.setHalted
      split <;> rfl
    rw [List.foldl_cons, ih, hfuses]
    by_cases hk : k = j
    · subst hk
      by_cases hen : s.enabled k = true
      · simp [State.setHalted, hen]
      · simp [State.setHalted, hen]
    · have hother : (s.setHalted j on).tile k = s.tile k := by
        unfold State.setHalted
        split
        · exact State.modTile_other s j k _ hk
        · rfl
      simp only [hother, List.mem_cons, hk, false_or]

/-- What the two commands leave of the tiles, the memory and the run. -/
theorem setHalteds_completes (s : State) (h : Hdr) (op : BitVec 16) (mask : BitVec 128) (on : Bool) :
    let t := ((maskTiles mask).foldl (fun s t => s.setHalted t on) (s.admitted h)).ok h op []
    (∀ k, k ∈ maskTiles mask → s.enabled k = true → (t.tile k).halted = on ∧ (t.tile k).regs = (s.tile k).regs) ∧
    (∀ k, k ∉ maskTiles mask → t.tile k = s.tile k) ∧ t.mem = s.mem ∧ t.run = s.run := by
  intro t
  have hadmit := Only.admitParts s h
  have hhalts : Only [.tiles, .replies] (s.admitted h) t :=
    (Only.foldl (fun t ht => ht.setHalted t on) _ (Only.refl _ _)).ok h op []
  have htile (k : Nat) := ((Only.okReply _ h op []).tile k).trans (setHalteds_tile on (maskTiles mask) (s.admitted h) k)
  have hen (k : Nat) : (s.admitted h).enabled k = s.enabled k :=
    congrArg (fun f : Fuses => f.enabled.getLsbD k) hadmit.fuses
  refine ⟨fun k hk hke => ?_, fun k hk => ?_, hhalts.mem.trans hadmit.mem, hhalts.run.trans hadmit.run⟩
  · have htk : t.tile k = _ := htile k
    rw [htk, if_pos ⟨hk, (hen k).trans hke⟩]
    exact ⟨rfl, (congrArg Tile.regs (hadmit.tile k) :)⟩
  · exact (htile k).trans ((if_neg (fun hin => hk hin.1)).trans (hadmit.tile k))

/-- A sync object is read of the tiles and the barrier counters. -/
theorem syncRead_congr {s t : State} (htiles : t.tiles = s.tiles) (hnet : t.net = s.net) (k n : Nat) (o : SyncObject) :
    t.syncRead k n o = s.syncRead k n o := by
  cases o <;> simp only [State.syncRead, State.tile, State.counter, htiles, hnet]

/-- Settles O15. -/
theorem haltAndReadComplete : Obligations.HaltAndReadComplete := by
  unfold Obligations.HaltAndReadComplete
  refine ⟨fun s h mask ha => ?halt, fun s h mask ha => ?resume, fun s h o t n ha hnamed hbound => ?sync,
    fun s h t set index bs ha hnamed hhalted hbytes => ?state⟩
  case halt =>
    refine ⟨_, ?_, setHalteds_completes s h 0x0701 mask true⟩
    change execHaltTiles h mask s = _
    rw [execHaltTiles, admit_admitted ha]
  case resume =>
    refine ⟨_, ?_, setHalteds_completes s h 0x0702 mask false⟩
    change execResumeTiles h mask s = _
    rw [execResumeTiles, admit_admitted ha]
  case sync =>
    have hadmit := Only.admitParts s h
    change execReadSync h o t n s = _
    rw [execReadSync, admit_admitted ha]
    simp only [tileNamed_admitted, hnamed, Bool.true_eq_false, if_false, if_neg (Nat.not_lt.mpr hbound),
      syncRead_congr hadmit.tiles hadmit.net]
  case state =>
    change execReadTileState h t set index s = _
    rw [execReadTileState, admit_admitted ha]
    simp only [tileNamed_admitted, hnamed, (Only.admitParts s h).tile, hhalted, hbytes, Bool.not_true, Bool.true_eq_false,
      Bool.false_eq_true, if_false]

end Sys2Proof.Machine
end

section
/-! PROOFS. The telemetry reads and SUBSCRIBE (O17). -/

namespace Sys2Proof.Machine

set_option Elab.async false

/-- A telemetry set is read of parts that admission leaves. -/
theorem telemetry_admitted (s : State) (h : Hdr) (b : Nat) : (s.admitted h).telemetry b = s.telemetry b := by
  have hall := Only.admitParts s h
  obtain ⟨hmgp, hfuses, hdomain, hmem, hclock⟩ :
      (s.admitted h).mgp = s.mgp ∧ (s.admitted h).fuses = s.fuses ∧ (s.admitted h).domain = s.domain ∧
        (s.admitted h).mem = s.mem ∧ (s.admitted h).clock = s.clock :=
    ⟨hall.mgp, hall.fuses, hall.domain, hall.mem, hall.clock⟩
  have htile := hall.tile
  unfold State.telemetry State.enabledTiles State.enabled State.port State.stack
  simp only [hmgp, hfuses, hdomain, hmem, htile]
  split <;> simp only [funext fun k => show (s.admitted h).linkBytes k = s.linkBytes k by
    simp only [State.linkBytes, hmem, hclock]]

/-- SUBSCRIBE sets the mask of its path's session. -/
theorem exec_subscribe {s : State} {h : Hdr} (m : DWord) (ha : Admitted s h 0x0808) :
    ∃ t q, exec (.subscribe h m) s = .next t ∧ t.session h.path = some q ∧ q.mask = m ∧ Only admitParts s t := by
  obtain ⟨-, -, q, hq, -⟩ := id ha
  have hq' := State.admitted_session_same hq
  change ∃ t q, execSubscribe h m s = _ ∧ _
  rw [execSubscribe, admit_admitted ha]
  simp only [hq']
  refine ⟨_, _, rfl, ((Only.okReply _ h 0x0808 []).session _).trans (State.setSession_session_same _ _ _), rfl, ?_⟩
  exact ((Only.admitParts s h).setSession _ _).ok h 0x0808 []

/-- Settles O17: what is read is of parts that admission leaves, and the reply is the read's only effect. -/
theorem telemetryReadsComplete : Obligations.TelemetryReadsComplete := by
  unfold Obligations.TelemetryReadsComplete
  intro s h o
  have hall := Only.admitParts s h
  refine ⟨fun b bs ha hbs => ?telemetry, fun n bs ha hbs => ?record, fun a b ha hab => ?events, fun ha => ?faults,
    fun ha => ?routines, fun t ha hnamed => ?checks, fun t ha hnamed hone => ?flags, fun m ha => ?subscribe⟩
  case telemetry =>
    change execReadTelemetry h b o s = _
    rw [execReadTelemetry, admit_admitted ha]
    simp only [telemetry_admitted, hbs, chunkOf]
  case record =>
    change execReadRecord h n o s = _
    rw [execReadRecord, admit_admitted ha]
    simp only [hall.jobOf, hbs, chunkOf]
  case events =>
    change execReadEventLog h a b o s = _
    rw [execReadEventLog, admit_admitted ha]
    simp only [if_neg (BitVec.not_lt.mpr hab), hall.mgp, chunkOf]
  case faults =>
    change execReadFaults h o s = _
    rw [execReadFaults, admit_admitted ha]
    simp only [State.orderedFaults, hall.run, chunkOf]
  case routines =>
    change execReadRoutines h o s = _
    rw [execReadRoutines, admit_admitted ha]
    simp only [State.directory, hall.routines, hall.sec, chunkOf]
  case checks =>
    change execReadCheckHist h t s = _
    rw [execReadCheckHist, admit_admitted ha]
    simp only [tileNamed_admitted, hnamed, Bool.true_eq_false, if_false, hall.tile]
  case flags =>
    change execReadFlags h t s = _
    rw [execReadFlags, admit_admitted ha]
    simp only [if_neg hone, tileNamed_admitted, hnamed, Bool.true_eq_false, if_false, hall.tile, Tile.flagBits]
  case subscribe =>
    obtain ⟨t, q, hexec, hq, hmask, hsub⟩ := exec_subscribe m ha
    exact ⟨t, q, hexec, hq, hmask, hsub.tiles, hsub.mem, hsub.run, hsub.mgp⟩

end Sys2Proof.Machine
end

section
/-! PROOFS. A posted write that ends a run (O18). -/

namespace Sys2Proof.Machine

set_option Elab.async false

/-- A first difference of CFG_CRC and an armed monument at a block of the run, whose configuration has an upset, ends an
active run: the update or tile of the block no longer computes what the run was given (R554, R566). -/
theorem compareCrc_ends_run {s : State} {b : Nat} (harm : (s.block b).monArm = true) (hdiffer : (s.block b).crc ≠ (s.block b).monument)
    (hfirst : (s.block b).drifted = false) (hupset : (s.block b).cfg ≠ (s.block b).copy) (hb : isRunBlock b = true)
    (hactive : s.runActive = true) : (s.compareCrc b).runActive = false := by
  have hends : ∀ t : State, (t.block b).cfg = (s.block b).cfg → (t.block b).copy = (s.block b).copy → t.runActive = true →
      (t.driftPolicy b).runActive = false := by
    intro t hcfg hcopy hrun
    have hne : ¬ (t.block b).cfg = (t.block b).copy := by rw [hcfg, hcopy]; exact hupset
    simp only [State.driftPolicy, if_neg hne, hb, hrun, if_true, State.raiseHw]
    exact State.endRun_runActive _ _
  simp only [State.compareCrc, harm, Bool.not_true, Bool.false_eq_true, if_false, if_neg hdiffer, hfirst]
  have hevent (t : State) (e : Event) (source : BitVec 16) (payload : Bytes) : Only [.replies, .log] t (t.event e source payload) :=
    (Only.refl _ t).event e source payload
  have hblock (t : State) (e : Event) (source : BitVec 16) (payload : Bytes) : (t.event e source payload).block b = t.block b :=
    congrArg (fun m => (mfind m b).getD (Block.resetOf b)) (hevent t e source payload).blocks
  refine hends _ ?_ ?_ ?_
  · rw [hblock, State.modBlock_same]
  · rw [hblock, State.modBlock_same]
  · rw [(hevent _ _ _ _).runActive]
    exact hactive

/-- A register without reserved fields takes any value. -/
theorem breaksReserved_of_no_mask (s : State) {b off : Nat} (hmask : reservedMask b off = 0) (v : Word) :
    s.breaksReserved b off v = false := by
  simp [State.breaksReserved, State.reservedRead, hmask]

/-- A write of MONUMENT compares it with the CRC (R554). -/
theorem applyReg_monument (s : State) (b : Nat) (v : Word) (hmask : reservedMask b 0x10 = 0) :
    s.applyReg b 0x10 v = .next ((s.modBlock b (fun x => { x with monument := v })).compareCrc b) := by
  simp [State.applyReg, breaksReserved_of_no_mask s hmask]

/-- The MONUMENT of the first HBM controller. -/
def monumentAddr : Nat := 0x200010

/-- A run is active; the first HBM controller's configuration has an upset, its monument is armed and agrees with its CRC, and a
write of 1 to the monument waits. -/
def upsetState : State :=
  { State.reset with
    run := { RunRec.reset with state := .running }
    power := { State.reset.power with inReset := false }
    blocks := [(64, { Block.reset with
      monArm := true, crc := 0, monument := 0, drifted := false, cfg := [(0x100, 1)], copy := [],
      posted := some { addr := monumentAddr, value := 1, eight := false, byteEnable := 0xF } })] }

/-- Refutes O18: a posted write does not always leave the run. In `upsetState` the write that waits is the monument's; applied, it
differs from the CRC for the first time, firmware finds the upset, and the run ends. -/
theorem not_registerWritesComplete : ¬ Obligations.RegisterWritesComplete := by
  unfold Obligations.RegisterWritesComplete
  intro hall
  obtain ⟨hexec, hkeeps⟩ := (hall.1 upsetState monumentAddr 64 0x10 0 (by decide) (by decide) rfl rfl (by decide)).2.2 _ rfl rfl
  obtain ⟨t, ht, hrun, -⟩ := hkeeps (breaksReserved_of_no_mask _ (by decide) _)
  rw [hexec] at ht
  have hwrite : (upsetState.modBlock 64 (fun x => { x with posted := none })).applyReg 64 0x10 1 =
      .next (((upsetState.modBlock 64 (fun x => { x with posted := none })).modBlock 64
        (fun x => { x with monument := 1 })).compareCrc 64) :=
    applyReg_monument _ 64 1 (by decide)
  have hended := compareCrc_ends_run (b := 64)
    (s := (upsetState.modBlock 64 (fun x => { x with posted := none })).modBlock 64 (fun x => { x with monument := 1 }))
    rfl (by decide) rfl (by decide) rfl rfl
  have hidle : t.runActive = false := by
    rw [Host.Outcome.next.inj (ht.symm.trans hwrite)]
    exact hended
  rw [State.runActive, hrun] at hidle
  exact absurd hidle (by decide)

end Sys2Proof.Machine
end

section
/-! PROOFS. What changes one tile alone, and what the issue of a bundle leaves of its tile. -/

namespace Sys2Proof.Machine

set_option Elab.async false

theorem OnlyTile.refl (s : State) (k : Nat) : OnlyTile s s k := ⟨rfl, fun _ _ => rfl⟩

theorem OnlyTile.trans {s t u : State} {k : Nat} (h : OnlyTile s t k) (g : OnlyTile t u k) : OnlyTile s u k := by
  obtain ⟨hst, hother⟩ := h
  obtain ⟨htu, gother⟩ := g
  refine ⟨?_, fun j hj => (gother j hj).trans (hother j hj)⟩
  rw [htu, hst]

theorem OnlyTile.setTile (s : State) (k : Nat) (x : Tile) : OnlyTile s (s.setTile k x) k :=
  ⟨rfl, fun j hj => State.setTile_other s k j x hj⟩

theorem OnlyTile.modTile (s : State) (k : Nat) (f : Tile → Tile) : OnlyTile s (s.modTile k f) k :=
  OnlyTile.setTile s k _

/-- The issue of a bundle changes its tile alone. -/
theorem OnlyTile.begun (s : State) (i : Iss) (slot : Byte) : OnlyTile s (begun s i slot) i.tile.val :=
  OnlyTile.modTile s _ _

@[simp] theorem begun_runCycle (s : State) (i : Iss) (slot : Byte) : (begun s i slot).runCycle = s.runCycle := rfl

/-- The same of an operation whose form is checked. -/
theorem issue_of_issues {s : State} {i : Iss} {slot : Byte} {wf : Bool} (h : Issues s i slot) (hwf : wf = true)
    (f : State → Res) : issue i slot wf s f = f (begun s i slot) := by
  rw [hwf]
  exact issueOn_issues h f

/-- An operation under the codes, where they find nothing. -/
theorem eccGuard_issues {s : State} {i : Iss} {slot : Byte} {own : List WaitPoint} (h : IssuesOn s i slot own)
    (f : State → Res) : eccGuard i f s = f s :=
  eccGuard_none i f s h.2.1

end Sys2Proof.Machine
end

section
/-! PROOFS. The operations of the matrix slot become pending (O20). -/

namespace Sys2Proof.Machine

set_option Elab.async false

/-- An engine after an update of one. -/
@[simp] theorem ArrayState.engine_setEngine_same (a : ArrayState) (k : ArrayEngine) (e : EngineState) :
    (a.setEngine k e).engine k = e := by
  cases k <;> rfl

theorem ArrayState.engine_setEngine_other (a : ArrayState) {k j : ArrayEngine} (e : EngineState) (h : j ≠ k) :
    (a.setEngine k e).engine j = a.engine j := by
  cases k <;> cases j <;> trivial

@[simp] theorem ArrayState.setEngine_stores (a : ArrayState) (k : ArrayEngine) (e : EngineState) :
    (a.setEngine k e).weights = a.weights ∧ (a.setEngine k e).acc = a.acc ∧ (a.setEngine k e).accLate = a.accLate := by
  cases k <;> exact ⟨rfl, rfl, rfl⟩

/-- The count of operations issued is no part of an engine. -/
theorem ArrayState.engine_issued (a : ArrayState) (n : Nat) (k : ArrayEngine) :
    ArrayState.engine { a with issued := n } k = a.engine k := by
  cases k <;> rfl

/-- What pending operations that start leave of a tile: everything but its array, and of that the weights and the accumulators. -/
structure Tile.SameStores (x y : Tile) : Prop where
  tile : y = { x with array := y.array }
  weights : y.array.weights = x.array.weights
  acc : y.array.acc = x.array.acc
  accLate : y.array.accLate = x.array.accLate

theorem Tile.SameStores.trans {x y z : Tile} (h : x.SameStores y) (g : y.SameStores z) : x.SameStores z := by
  refine ⟨?_, g.weights.trans h.weights, g.acc.trans h.acc, g.accLate.trans h.accLate⟩
  rw [g.tile, h.tile]

theorem Tile.startPending_sameStores (t : Tile) (now : DWord) (k : ArrayEngine) : t.SameStores (t.startPending now k) := by
  have honStart (op : ArrayOp) : (t.array.onStart op).weights = t.array.weights ∧ (t.array.onStart op).acc = t.array.acc ∧
      (t.array.onStart op).accLate = t.array.accLate := by
    cases op <;> exact ⟨rfl, rfl, rfl⟩
  unfold Tile.startPending
  split
  case h_1 n b op hop =>
    dsimp only
    split
    case isTrue =>
      obtain ⟨h1, h2, h3⟩ := honStart op
      exact ⟨rfl, by simp [h1], by simp [h2], by simp [h3]⟩
    case isFalse => exact ⟨rfl, rfl, rfl, rfl⟩
  case h_2 => exact ⟨rfl, rfl, rfl, rfl⟩

theorem Tile.startAll_sameStores (t : Tile) (now : DWord) : t.SameStores (t.startAll now) := by
  unfold Tile.startAll
  generalize arrayEngines = l
  induction l generalizing t with
  | nil => exact ⟨rfl, rfl, rfl, rfl⟩
  | cons k l ih => exact (t.startPending_sameStores now k).trans (ih _)

/-- What an operation of the array does: it becomes the pending operation of its engine, and stops the model where the engine
holds one (Table 04.6, Table 06.11). -/
theorem arrayIssue_pends {s : State} {i : Iss} (c : Instr) (op : ArrayOp)
    (hexec : exec c s = arrayIssue i op (begun s i slotMatrix)) :
    let x := (s.tile i.tile.val).begunAt s i slotMatrix
    let y := x.startAll s.runCycle
    ((y.array.engine op.engine).pending = none → ∃ t, exec c s = .next t ∧ OnlyTile s t i.tile.val ∧
      let z := t.tile i.tile.val
      z.array.engine op.engine = { y.array.engine op.engine with pending := some (y.array.issued, i.bundle, op) } ∧
      (∀ e, e ≠ op.engine → z.array.engine e = y.array.engine e) ∧ z.array.issued = y.array.issued + 1 ∧
      z.array.weights = x.array.weights ∧ z.array.acc = x.array.acc ∧ z.array.accLate = x.array.accLate ∧
      z.regs = x.regs ∧ z.scratch = x.scratch ∧ z.flags = x.flags ∧ z.sems = x.sems ∧ z.late = x.late) ∧
    ((y.array.engine op.engine).pending.isSome = true → exec c s = .fault .engineHoldsPending) := by
  intro x y
  have hsame : x.SameStores y := x.startAll_sameStores s.runCycle
  refine ⟨fun hfree => ?pends, fun hfull => ?stops⟩
  case pends =>
    have hno : ¬ (y.array.engine op.engine).pending.isSome = true := by simp [hfree]
    rw [hexec]
    simp only [arrayIssue, begun_tile, begun_runCycle]
    rw [if_neg hno]
    refine ⟨_, rfl, (OnlyTile.begun s i slotMatrix).trans (OnlyTile.setTile _ _ _), ?_⟩
    simp only [State.setTile_same]
    refine ⟨?_, fun e he => ?_, rfl, ?_, ?_, ?_, ?_, ?_, ?_, ?_, ?_⟩
    · rw [ArrayState.engine_issued, ArrayState.engine_setEngine_same]
    · rw [ArrayState.engine_issued, ArrayState.engine_setEngine_other _ _ he]
    · exact (ArrayState.setEngine_stores _ _ _).1.trans hsame.weights
    · exact (ArrayState.setEngine_stores _ _ _).2.1.trans hsame.acc
    · exact (ArrayState.setEngine_stores _ _ _).2.2.trans hsame.accLate
    · exact (congrArg Tile.regs hsame.tile :)
    · exact (congrArg Tile.scratch hsame.tile :)
    · exact (congrArg Tile.flags hsame.tile :)
    · exact (congrArg Tile.sems hsame.tile :)
    · exact (congrArg Tile.late hsame.tile :)
  case stops =>
    rw [hexec]
    simp only [arrayIssue, begun_tile, begun_runCycle]
    rw [if_pos hfull]

/-- Settles O20: each operation of the matrix slot is `arrayIssue` of the parameters sampled from the registers of its bundle. -/
theorem arrayOperationsIssue : Obligations.ArrayOperationsIssue := by
  unfold Obligations.ArrayOperationsIssue
  intro s i hissues x y r pends
  have hguard (f : State → Res) : eccGuard i f s = f s := eccGuard_issues hissues f
  have hsamp : ((begun s i slotMatrix).tile i.tile.val).samp = r := by rw [begun_tile]
  have hpends (c : Instr) (op : ArrayOp) (hexec : exec c s = arrayIssue i op (begun s i slotMatrix)) : pends c op :=
    arrayIssue_pends c op hexec
  refine ⟨fun m hm => hpends _ _ ?setMode, fun l => hpends _ _ ?load, fun f hf => hpends _ _ ?feed,
    fun a => hpends _ _ ?finish, fun d hd => hpends _ _ ?drain⟩
  case setMode => exact (hguard (opSetMode i m)).trans (issue_of_issues hissues hm _)
  case load => exact (hguard (opLoadWeights i l)).trans ((issue_of_issues hissues rfl _).trans (by rw [hsamp]))
  case feed => exact (hguard (opFeed i f)).trans ((issue_of_issues hissues hf _).trans (by rw [hsamp]))
  case finish => exact (hguard (opFinishTree i a)).trans ((issue_of_issues hissues rfl _).trans (by rw [hsamp]))
  case drain => exact (hguard (opDrain i d)).trans ((issue_of_issues hissues hd _).trans (by rw [hsamp]))

end Sys2Proof.Machine
end

section
/-! PROOFS. The rows of the array in their cc (O21). -/

namespace Sys2Proof.Machine

set_option Elab.async false

/-! ### Writes of many cells -/

/-- Writes to other keys leave what a key holds. -/
theorem mget_cells_other {α β : Type} (d : β) (key : α → Nat) (val : α → β) (l : List α) (m : SMap β) (k : Nat)
    (h : ∀ c ∈ l, key c ≠ k) : mget d (l.foldl (fun m c => mset m (key c) (val c)) m) k = mget d m k := by
  induction l generalizing m with
  | nil => rfl
  | cons c l ih =>
    rw [List.foldl_cons, ih _ (fun e he => h e (List.mem_cons_of_mem c he)),
      mget_mset_other _ _ _ _ _ (h c List.mem_cons_self).symm]

/-- Where all writes to a key bring the same value, and there is one, the key holds it. -/
theorem mget_cells {α β : Type} (d : β) (key : α → Nat) (val : α → β) (l : List α) (m : SMap β) (k : Nat) (v : β)
    (hval : ∀ c ∈ l, key c = k → val c = v) (hin : ∃ c ∈ l, key c = k) :
    mget d (l.foldl (fun m c => mset m (key c) (val c)) m) k = v := by
  induction l generalizing m with
  | nil => simp at hin
  | cons c l ih =>
    have hval' : ∀ e ∈ l, key e = k → val e = v := fun e he => hval e (List.mem_cons_of_mem c he)
    rw [List.foldl_cons]
    by_cases hl : ∃ e ∈ l, key e = k
    · exact ih _ hval' hl
    · obtain ⟨e, he, hek⟩ := hin
      have hec : e = c := (List.mem_cons.mp he).resolve_right (fun hel => hl ⟨e, hel, hek⟩)
      subst hec
      rw [mget_cells_other d key val l _ k (fun x hx hxk => hl ⟨x, hx, hxk⟩), hek, mget_mset_same,
        hval e List.mem_cons_self hek]

/-! ### What a row that enters leaves -/

/-- Where nothing is open a write of the accumulate stage has its own values. -/
theorem openWrite_closed (a : ArrayState) (r : ArrayRun) (w : AccWrite) (h : a.isOpen = false) : a.openWrite r w = w := by
  have hopened (k : Nat) (v : Word) : a.opened r k v = v := by simp [ArrayState.opened, h]
  simp [ArrayState.openWrite, hopened]

/-- Where nothing is on its way a cell is found as it stands. -/
theorem accLatest_settled (a : ArrayState) (h : a.accLate = []) (cell : Nat) : a.accLatest cell = a.accAt cell := by
  simp [ArrayState.accLatest, h]

/-- What one write on its way does to a store: nothing before its cc, and then its cells. -/
theorem settle_one (a : ArrayState) (w : AccWrite) (h : a.accLate = [w]) (n : Nat) :
    (a.settle n).acc = if w.ready ≤ n then w.cells.foldl (fun m c => mset m c.1 c.2) a.acc else a.acc := by
  simp only [ArrayState.settle, h, List.filter_cons, List.filter_nil, decide_eq_true_eq]
  split <;> rfl

/-! ### Standard mode -/

/-- The cells of a row, one for each column. -/
theorem accCell_inj {row c d : Nat} (h : accCell row c = accCell row d) : c = d := by
  unfold accCell at h
  omega

/-- The write of a row in standard mode under flat accumulation (R126, R150). -/
theorem feedRow_standard (a : ArrayState) (seq : Nat) (g : Word) (row : RowData) (now q base chunk : Nat) (overwrite : Bool)
    (hmode : a.mode ≠ .extended) (hflat : a.accum = .flat) (hsettled : a.accLate = []) :
    a.feedRow seq g row now q base chunk overwrite 0 =
      { ready := now + 12, fed := some seq,
        cells := (List.range 256).map (fun col => (accCell (base + q) col,
          if overwrite then a.partialSum g row col else addW (a.accAt (accCell (base + q) col)) (a.partialSum g row col))) } := by
  have hcells (col : Nat) : a.feedCells g row q base chunk overwrite 0 col = [(accCell (base + q) col,
      if overwrite then a.partialSum g row col else addW (a.accAt (accCell (base + q) col)) (a.partialSum g row col))] := by
    simp only [ArrayState.feedCells, if_neg hmode, ArrayState.accumulate, hflat, accLatest_settled a hsettled]
  have hlatency : a.rowLatency chunk 0 = 12 := by simp [ArrayState.rowLatency, hflat, hmode]
  simp only [ArrayState.feedRow, hlatency, funext hcells, List.map_eq_flatMap]

/-- A row of a feed in standard mode is readable 12 cc after it enters, and not before (R126, R127, R150). -/
theorem enterRow_readable (a : ArrayState) (r : ArrayRun) (now base chunk col : Nat) (overwrite : Bool) (row : RowData)
    (hmode : a.mode ≠ .extended) (hflat : a.accum = .flat) (hsettled : a.accLate = []) (hopen : a.isOpen = false)
    (hcol : col < 256) :
    let b := a.enterRow r now base chunk overwrite 0 row
    let cell := accCell (base + r.row) col
    (∀ n, n < now + 12 → (b.settle n).accAt cell = a.accAt cell) ∧
    (b.settle (now + 12)).accAt cell =
      (if overwrite then a.partialSum r.g row col else addW (a.accAt cell) (a.partialSum r.g row col)) := by
  intro b cell
  have hlate : b.accLate = [a.feedRow r.seq r.g row now r.row base chunk overwrite 0] := by
    change a.accLate ++ [a.openWrite r _] = _
    rw [hsettled, List.nil_append, openWrite_closed a r _ hopen]
  rw [feedRow_standard a r.seq r.g row now r.row base chunk overwrite hmode hflat hsettled] at hlate
  have hacc := settle_one b _ hlate
  refine ⟨fun n hn => ?before, ?after⟩
  case before =>
    have hno : ¬ now + 12 ≤ n := by omega
    rw [ArrayState.accAt, hacc, if_neg hno]
    rfl
  case after =>
    rw [ArrayState.accAt, hacc, if_pos (Nat.le_refl _)]
    refine mget_cells 0 Prod.fst Prod.snd _ _ cell _ (fun c hc hkey => ?_) ⟨_, List.mem_map_of_mem (List.mem_range.mpr hcol), rfl⟩
    obtain ⟨col', -, rfl⟩ := List.mem_map.mp hc
    rw [accCell_inj hkey]

/-! ### Loads -/

/-- The cells that a weight row writes lie in it (R135). -/
theorem weightCells_row (a : ArrayState) (r : ArrayRun) (addr stride : Nat) (diagonal : Bool) (q : Nat) (hq : q < 256)
    (c : Nat × Word) (hc : c ∈ a.weightCells r addr stride diagonal q) : c.1 / 256 = q := by
  unfold ArrayState.weightCells at hc
  cases diagonal with
  | true =>
    simp only [if_true, List.mem_singleton] at hc
    subst hc
    dsimp only
    omega
  | false =>
    simp only [Bool.false_eq_true, if_false, List.mem_map, Prod.exists, List.mem_zipIdx_iff_getElem?] at hc
    obtain ⟨e, i, hi, rfl⟩ := hc
    have hlt : i < 256 := by
      have hlen := (List.getElem?_eq_some_iff.mp hi).1
      simpa [rowElems] using hlen
    dsimp only
    omega

/-- A row of a load changes its own weight row alone. -/
theorem loadRow_other (a : ArrayState) (r : ArrayRun) (now addr stride scaleAddr k row col : Nat) (diagonal : Bool)
    (region : Fin 64) (hrun : a.loader.running = some r) (hop : r.op = .load addr stride scaleAddr k diagonal region)
    (hrow : row ≠ r.row) (hcol : col < 256) :
    (a.loadRow now).weight row col = a.weight row col ∧ (a.loadRow now).acc = a.acc ∧ (a.loadRow now).accLate = a.accLate := by
  simp only [ArrayState.loadRow, hrun, hop]
  split
  case isFalse => exact ⟨rfl, rfl, rfl⟩
  case isTrue =>
    refine ⟨?_, rfl, rfl⟩
    unfold ArrayState.weight
    dsimp only
    rw [mget_cells_other]
    intro c hc hkey
    split at hc
    case isFalse => cases hc
    case isTrue hon =>
      have hq : r.row < 256 := by
        simp only [decide_eq_true_eq] at hon
        omega
      have hcrow := weightCells_row a r addr stride diagonal r.row hq c hc
      omega

/-! ### Drains -/

/-- The bytes of a number depend on as much of it as they hold. -/
theorem leBytes_mod (n v : Nat) : leBytes n (v % 256 ^ n) = leBytes n v := by
  induction n generalizing v with
  | zero => rfl
  | succ n ih =>
    have hbyte : BitVec.ofNat 8 (v % 256 ^ (n + 1)) = BitVec.ofNat 8 v := by
      apply BitVec.eq_of_toNat_eq
      simp only [BitVec.toNat_ofNat]
      exact Nat.mod_mod_of_dvd _ (dvd_pow_self 256 (Nat.succ_ne_zero n))
    have hrest : v % 256 ^ (n + 1) / 256 = v / 256 % 256 ^ n := by
      rw [pow_succ, Nat.mul_comm, Nat.mod_mul_right_div_self]
    rw [leBytes, leBytes, hbyte, hrest, ih]

/-- The code of a cell as the drain passes it on has the bytes of the code that was narrowed. -/
theorem leBytes_drained {f : Fmt} (hf : drainFmt f = true) (c : Nat) :
    leBytes (fmtBits f / 8) ((BitVec.ofNat 32 c).toNat % 2 ^ fmtBits f) = leBytes (fmtBits f / 8) c := by
  have hbits : fmtBits f = 32 ∨ fmtBits f = 16 := by
    cases f <;> simp [drainFmt] at hf <;> simp [fmtBits]
  have hmod : (BitVec.ofNat 32 c).toNat % 2 ^ fmtBits f = c % 256 ^ (fmtBits f / 8) := by
    rw [BitVec.toNat_ofNat]
    rcases hbits with hbits | hbits <;> rw [hbits] <;> omega
  rw [hmod, leBytes_mod]

/-- A row that is drained into the scratchpad (R154, R155). -/
theorem drainCycle_scratch (s : State) (k : TileNo) (r : ArrayRun) (base rows addr now : Nat) (f : Fmt) (region : Fin 64)
    (hrun : (s.tile k.val).array.drainEngine.running = some r) (hop : r.op = .drain base rows f (.scratch addr region))
    (hrow : r.row < rows) (hdue : r.due < 2 * (now + 1)) (hopen : (s.tile k.val).array.isOpen = false)
    (hf : drainFmt f = true) :
    ∃ l, ((s.drainCycle k now).tile k.val).late = (s.tile k.val).late ++ [l] ∧ l.ready = now + 1 ∧
      l.eff = .scratch [(addr + r.row * (32 * fmtBits f), rowOut f ((s.tile k.val).array.drainRow (base + r.row) f))] ∧
      ((s.drainCycle k now).tile k.val).array.acc = (s.tile k.val).array.acc ∧
      ((s.drainCycle k now).tile k.val).array.accLate = (s.tile k.val).array.accLate := by
  have hcodes (l : List Nat) : rowOut f (l.zipIdx.map (fun c =>
      ((s.tile k.val).array.opened r c.2 (BitVec.ofNat 32 c.1)).toNat % 2 ^ fmtBits f)) = rowOut f l := by
    have hopened (n : Nat) (w : Word) : (s.tile k.val).array.opened r n w = w := by simp [ArrayState.opened, hopen]
    simp only [rowOut, hopened, List.flatMap_map, leBytes_drained hf]
    calc l.zipIdx.flatMap (fun c => leBytes (fmtBits f / 8) c.1)
        = (l.zipIdx.map Prod.fst).flatMap (fun c => leBytes (fmtBits f / 8) c) := (List.flatMap_map ..).symm
      _ = l.flatMap (fun c => leBytes (fmtBits f / 8) c) := by rw [List.zipIdx_map_fst]
  simp only [State.drainCycle, hrun, hop, if_pos (And.intro hrow hdue), State.setTile_same]
  exact ⟨_, rfl, rfl, congrArg (fun bytes => LateEff.scratch [(addr + r.row * (32 * fmtBits f), bytes)]) (hcodes _), rfl, rfl⟩

/-! ### Extended mode -/

/-- A 64-bit word is its upper and its lower half. -/
theorem append_halves (w : BitVec 64) : (w >>> 32).setWidth 32 ++ w.setWidth 32 = w := by
  apply BitVec.eq_of_toNat_eq
  have hw := w.isLt
  have hlow : (w.setWidth 32).toNat < 2 ^ 32 := (w.setWidth 32).isLt
  rw [BitVec.toNat_append, ← Nat.shiftLeft_add_eq_or_of_lt hlow, BitVec.toNat_setWidth, BitVec.toNat_setWidth,
    BitVec.toNat_ushiftRight, Nat.shiftLeft_eq, Nat.shiftRight_eq_div_pow]
  omega

/-- The cells of wide entries are distinct. -/
theorem wideCell_inj {q c d : Nat} (h : wideCell q c = wideCell q d) : c = d := by
  unfold wideCell at h
  omega

theorem wideCell_ne {q c d : Nat} : wideCell q c ≠ wideCell q d + 1 := by
  unfold wideCell
  omega

/-- The write of pass 1 of a row in extended mode (R133). -/
theorem feedRow_pass1 (a : ArrayState) (seq : Nat) (g : Word) (row : RowData) (now q base chunk : Nat) (overwrite : Bool)
    (hmode : a.mode = .extended) :
    a.feedRow seq g row now q base chunk overwrite 1 =
      { ready := now + 36, fed := some seq,
        cells := (List.range 256).flatMap (fun col =>
          [(wideCell q col, (f64Add (a.wideAt q col) (a.wideSum row 1 col)).setWidth 32),
           (wideCell q col + 1, ((f64Add (a.wideAt q col) (a.wideSum row 1 col)) >>> 32).setWidth 32)]) } := by
  have hlatency : a.rowLatency chunk 1 = 36 := by
    unfold ArrayState.rowLatency
    cases a.accum <;> simp [hmode]
  have hcells (col : Nat) : a.feedCells g row q base chunk overwrite 1 col =
      [(wideCell q col, (f64Add (a.wideAt q col) (a.wideSum row 1 col)).setWidth 32),
       (wideCell q col + 1, ((f64Add (a.wideAt q col) (a.wideSum row 1 col)) >>> 32).setWidth 32)] := by
    simp [ArrayState.feedCells, hmode]
  simp only [ArrayState.feedRow, hlatency, funext hcells]

theorem rowLatency_pass0 (a : ArrayState) (chunk : Nat) (hmode : a.mode = .extended) : a.rowLatency chunk 0 = 36 := by
  unfold ArrayState.rowLatency
  cases a.accum <;> simp [hmode]

/-- A pass that enters less than 36 cc after the previous one of its row finds what stood before both (R133). -/
theorem wideAt_of_early_pass (a : ArrayState) (r0 r1 : ArrayRun) (now d base chunk col : Nat) (overwrite : Bool)
    (row : RowData) (hmode : a.mode = .extended) (hsettled : a.accLate = []) (hopen : a.isOpen = false)
    (hrow : r1.row = r0.row) (hd : d < 36) (hcol : col < 256) :
    let b := (a.enterRow r0 now base chunk overwrite 0 row).enterRow r1 (now + d) base chunk overwrite 1 row
    (b.settle (now + 72)).wideAt r0.row col = f64Add (a.wideAt r0.row col) (a.wideSum row 1 col) := by
  generalize hc : a.enterRow r0 now base chunk overwrite 0 row = c
  intro b
  have hcmode : c.mode = .extended := by rw [← hc]; exact hmode
  have hcopen : c.isOpen = false := by rw [← hc]; exact hopen
  have hwide : c.wideAt r0.row = a.wideAt r0.row := by rw [← hc]; rfl
  have hsum : c.wideSum row 1 = a.wideSum row 1 := by rw [← hc]; rfl
  have hclate : c.accLate = [a.feedRow r0.seq r0.g row now r0.row base chunk overwrite 0] := by
    rw [← hc]
    change a.accLate ++ [a.openWrite r0 _] = _
    rw [hsettled, List.nil_append, openWrite_closed a r0 _ hopen]
  have hblate : b.accLate = [a.feedRow r0.seq r0.g row now r0.row base chunk overwrite 0,
      c.feedRow r1.seq r1.g row (now + d) r1.row base chunk overwrite 1] := by
    change c.accLate ++ [c.openWrite r1 _] = _
    rw [hclate, openWrite_closed c r1 _ hcopen]
    rfl
  generalize hw : f64Add (a.wideAt r0.row col) (a.wideSum row 1 col) = w
  rw [feedRow_pass1 c _ _ _ _ _ _ _ _ hcmode, hrow, hwide, hsum] at hblate
  have hready0 : (a.feedRow r0.seq r0.g row now r0.row base chunk overwrite 0).ready ≤ now + 72 := by
    simp only [ArrayState.feedRow, rowLatency_pass0 a chunk hmode]
    omega
  have hacc : ∃ m, (b.settle (now + 72)).acc = ((List.range 256).flatMap (fun col =>
      [(wideCell r0.row col, (f64Add (a.wideAt r0.row col) (a.wideSum row 1 col)).setWidth 32),
       (wideCell r0.row col + 1, ((f64Add (a.wideAt r0.row col) (a.wideSum row 1 col)) >>> 32).setWidth 32)])).foldl
        (fun m c => mset m c.1 c.2) m := by
    refine ⟨(a.feedRow r0.seq r0.g row now r0.row base chunk overwrite 0).cells.foldl (fun m c => mset m c.1 c.2) b.acc, ?_⟩
    have hready1 : now + d + 36 ≤ now + 72 := by omega
    simp only [ArrayState.settle, hblate, List.filter_cons, List.filter_nil, decide_eq_true hready0, decide_eq_true hready1,
      if_true, List.foldl_cons, List.foldl_nil]
  obtain ⟨m, hacc⟩ := hacc
  have hlow : (b.settle (now + 72)).accAt (wideCell r0.row col) = w.setWidth 32 := by
    rw [ArrayState.accAt, hacc]
    refine mget_cells 0 Prod.fst Prod.snd _ m _ _ (fun e he hkey => ?_) ?_
    · obtain ⟨col', -, he⟩ := List.mem_flatMap.mp he
      rcases List.mem_cons.mp he with rfl | he
      · rw [wideCell_inj hkey, hw]
      · rcases List.mem_singleton.mp he with rfl
        exact absurd hkey.symm wideCell_ne
    · exact ⟨_, List.mem_flatMap.mpr ⟨col, List.mem_range.mpr hcol, List.mem_cons_self⟩, rfl⟩
  have hhigh : (b.settle (now + 72)).accAt (wideCell r0.row col + 1) = (w >>> 32).setWidth 32 := by
    rw [ArrayState.accAt, hacc]
    refine mget_cells 0 Prod.fst Prod.snd _ m _ _ (fun e he hkey => ?_) ?_
    · obtain ⟨col', -, he⟩ := List.mem_flatMap.mp he
      rcases List.mem_cons.mp he with rfl | he
      · exact absurd hkey wideCell_ne
      · rcases List.mem_singleton.mp he with rfl
        rw [wideCell_inj (Nat.succ.inj hkey), hw]
    · exact ⟨_, List.mem_flatMap.mpr ⟨col, List.mem_range.mpr hcol, List.mem_cons_of_mem _ (List.mem_singleton_self _)⟩, rfl⟩
  rw [ArrayState.wideAt, hlow, hhigh]
  exact append_halves w

/-- Settles O21. -/
theorem arrayRowsMove : Obligations.ArrayRowsMove := by
  unfold Obligations.ArrayRowsMove
  refine ⟨fun a r now base chunk col overwrite row hmode hflat hsettled hopen hcol =>
      enterRow_readable a r now base chunk col overwrite row hmode hflat hsettled hopen hcol,
    fun a r now addr stride scaleAddr k row col diagonal region => loadRow_other a r now addr stride scaleAddr k row col diagonal region,
    fun s k r base rows addr now f region hrun hop hrow hdue hopen hf =>
      drainCycle_scratch s k r base rows addr now f region hrun hop hrow hdue hopen hf,
    fun a r0 r1 now d base chunk col overwrite row => wideAt_of_early_pass a r0 r1 now d base chunk col overwrite row,
    fun a g row col hmode hcol hmxi hmxw hi hw => ?diagonal, fun a row col lo n k hk hpad => ?padding⟩
  case diagonal =>
    simp [ArrayState.partialSum, ArrayState.applyG, hmode, hmxi, hmxw, hi, hw, hcol]
  case padding =>
    simp [ArrayState.leaves, List.getD_eq_getElem?_getD, hk, hpad]

end Sys2Proof.Machine
end

section
/-! PROOFS. Pending array operations start, and a freeze cc counts once (O22). -/

namespace Sys2Proof.Machine

set_option Elab.async false

/-! ### PENDING_ARRAY_OP_START -/

/-- Where Table 04.7 lets the pending operation of an engine start, it runs from its first row, and nothing is pending. -/
theorem Tile.startPending_running {t : Tile} {now : DWord} {k : ArrayEngine} {n : Nat} {b : Word} {op : ArrayOp}
    (hpending : (t.array.engine k).pending = some (n, b, op)) (hmay : t.array.mayStart k n = true) :
    (t.startPending now k).array.engine k = { running := some (t.newRun now n b op), pending := none, block := none } := by
  simp [Tile.startPending, hpending, hmay]

/-- PENDING_ARRAY_OP_START of a tile that computes starts the pending operation of the engine. -/
theorem exec_pendingArrayOpStart {s : State} {k : TileNo} (e : ArrayEngine) (hc : s.computes k = true) :
    exec (.pendingArrayOpStart k e) s = .next (s.modTile k.val (fun t => t.startPending s.runCycle e)) := by
  change execPendingArrayOpStart k e s = _
  rw [execPendingArrayOpStart, if_pos hc]

/-! ### ARRAY_FREEZE -/

/-- The freeze cc of a tile is counted once. -/
theorem Tile.countFreeze_due {t : Tile} (h : t.freezeNow = .due) :
    t.countFreeze = { t with freezeNow := .counted, freeze := t.freeze + 1 } := if_pos h

theorem Tile.countFreeze_countFreeze (t : Tile) : t.countFreeze.countFreeze = t.countFreeze := by
  by_cases h : t.freezeNow = .due
  · rw [Tile.countFreeze_due h]
    rfl
  · have hkept : t.countFreeze = t := if_neg h
    rw [hkept, hkept]

theorem exec_arrayFreeze {s : State} {k : TileNo} (hrun : s.runActive = true) (hlogical : (s.tile k.val).logical.isSome = true) :
    exec (.arrayFreeze k) s = .next (s.modTile k.val Tile.countFreeze) := by
  change execArrayFreeze k s = _
  rw [execArrayFreeze, if_pos ⟨hrun, hlogical⟩]

theorem Tile.countFreeze_logical (t : Tile) : t.countFreeze.logical = t.logical := by
  unfold Tile.countFreeze
  split <;> rfl

/-! ### The end of a freeze cc -/

/-- No lines, no upsets met. -/
@[simp] theorem meetUpsets_nil_tile (s : State) (k : TileNo) : (s.meetUpsets k.val []).tile k.val = s.tile k.val := by
  unfold State.meetUpsets
  split
  · rfl
  · simp

/-- Without fills and copies nothing ends. -/
theorem endFills_tile_of_nil {s : State} {k : TileNo} (h : (s.tile k.val).fillRuns = []) :
    (s.endFills k).tile k.val = s.tile k.val := by
  unfold State.endFills State.allFillsEnd
  simp only [h, List.flatMap_nil, List.foldl_nil, State.modTile_same, meetUpsets_nil_tile, List.filter_nil]
  rw [← h]

/-- The end of a freeze cc counts it where no row did, and the compute side keeps its state. -/
theorem Tile.frozenCycle_keeps (x : Tile) :
    let y := x.frozenCycle
    y.freeze = (if x.freezeNow = .due then x.freeze + 1 else x.freeze) ∧ y.regs = x.regs ∧ y.scratch = x.scratch ∧
    y.array.acc = x.array.acc ∧ y.array.weights = x.array.weights ∧ y.vector.running = x.vector.running ∧
    y.array.drained = x.array.drained ∧ y.cur = x.cur ∧ y.nextBundle = x.nextBundle ∧ y.stall = x.stall ∧ y.held = x.held ∧
    y.fillRuns = x.fillRuns := by
  by_cases h : x.freezeNow = .due
  · simp [Tile.frozenCycle, Tile.countFreeze, Tile.shift, h]
  · simp [Tile.frozenCycle, Tile.countFreeze, Tile.shift, h]

/-- Settles O22. -/
theorem arrayOperationsStart : Obligations.ArrayOperationsStart := by
  unfold Obligations.ArrayOperationsStart
  refine ⟨fun s k e n b op hc hpending hmay => ?start, fun s k hrun hlogical hdue => ?freeze, fun s k hfreeze hfills => ?cycle⟩
  case start =>
    have hsame : (s.tile k.val).SameStores ((s.tile k.val).startPending s.runCycle e) := Tile.startPending_sameStores _ _ _
    refine ⟨_, exec_pendingArrayOpStart e hc, OnlyTile.modTile _ _ _, ?_⟩
    rw [State.modTile_same, Tile.startPending_running hpending hmay]
    exact ⟨rfl, ⟨_, rfl, rfl, rfl, rfl, rfl⟩, hsame.acc, hsame.weights, (congrArg Tile.regs hsame.tile :),
      (congrArg Tile.scratch hsame.tile :)⟩
  case freeze =>
    have hlogical' : ((s.modTile k.val Tile.countFreeze).tile k.val).logical.isSome = true := by
      rw [State.modTile_same, Tile.countFreeze_logical, hlogical]
    refine ⟨_, exec_arrayFreeze hrun hlogical, OnlyTile.modTile _ _ _, ?_, _, exec_arrayFreeze hrun hlogical', ?_⟩
    · rw [State.modTile_same, Tile.countFreeze_due hdue]
    · rw [State.modTile_same, State.modTile_same, Tile.countFreeze_countFreeze]
  case cycle =>
    intro x y
    obtain ⟨h1, h2, h3, h4, h5, h6, h7, h8, h9, h10, h11, hkept⟩ := x.frozenCycle_keeps
    have hend : ((s.modTile k.val Tile.frozenCycle).endFills k).tile k.val = x.frozenCycle := by
      rw [endFills_tile_of_nil] <;> rw [State.modTile_same]
      exact hkept.trans hfills
    have hy : y = Tile.turn { x.frozenCycle with
        holdFull := if s.holdBlocked k then satInc x.frozenCycle.holdFull else x.frozenCycle.holdFull,
        postSends := x.frozenCycle.postSends.map (fun p => { p with ready := x.frozenCycle.postDone p }) }
        (s.runCycle.toNat + 1) := by
      simp only [y, State.cycleTile, if_neg hfreeze, State.modTile_same, hend]
    rw [hy]
    exact ⟨h1, h2, h3, h4, h5, h6, h7, h8, h9, h10, h11⟩

end Sys2Proof.Machine
end

section
/-! PROOFS. Passes of the vector engine (O23). -/

namespace Sys2Proof.Machine

set_option Elab.async false

/-! ### The start of a pending operation -/

/-- The start of the vector engine's pending operation changes the engine of its tile and marks of the run alone. -/
theorem State.startVec_keeps (s : State) (k : TileNo) :
    (∀ j, j ≠ k.val → (s.startVec k).tile j = s.tile j) ∧ (s.startVec k).mem = s.mem ∧ (s.startVec k).net = s.net ∧
      ∃ v, (s.startVec k).tile k.val = { s.tile k.val with vector := v } := by
  have hset (v : VectorState) (t : State) (ht : t.tiles = (s.setTile k.val { s.tile k.val with vector := v }).tiles)
      (hmem : t.mem = s.mem) (hnet : t.net = s.net) : (∀ j, j ≠ k.val → t.tile j = s.tile j) ∧ t.mem = s.mem ∧ t.net = s.net ∧
      ∃ v, t.tile k.val = { s.tile k.val with vector := v } := by
    have htile (j : Nat) : t.tile j = (s.setTile k.val { s.tile k.val with vector := v }).tile j := by
      simp only [State.tile, ht]
    exact ⟨fun j hj => (htile j).trans (State.setTile_other s _ _ _ hj), hmem, hnet,
      v, (htile k.val).trans (State.setTile_same s _ _)⟩
  unfold State.startVec
  dsimp only
  split
  case h_1 v hrun hpend =>
    split
    case h_1 => exact hset _ _ rfl rfl rfl
    case h_2 => exact hset _ _ rfl rfl rfl
  case h_2 => exact ⟨fun _ _ => rfl, rfl, rfl, (s.tile k.val).vector, rfl⟩

theorem State.startVec_tile (s : State) (k : TileNo) :
    (s.startVec k).tile k.val = { s.tile k.val with vector := ((s.startVec k).tile k.val).vector } := by
  obtain ⟨-, -, -, v, hv⟩ := s.startVec_keeps k
  rw [hv]

/-- An operation of the vector engine becomes its pending one, behind those that start in this cc. -/
theorem vecIssue_pends (i : Iss) (op : VecOp) (s : State)
    (hfree : ((s.startVec i.tile).tile i.tile.val).vector.pending = none) :
    let y := (s.startVec i.tile).tile i.tile.val
    ∃ t v, vecIssue i op s = .next t ∧ (∀ j, j ≠ i.tile.val → t.tile j = s.tile j) ∧ t.mem = s.mem ∧ t.net = s.net ∧
      t.tile i.tile.val = { s.tile i.tile.val with vector := { y.vector with pending := some v, waitingRed := none } } ∧
      v.bundle = i.bundle ∧ v.op = op ∧ v.vec = 0 ∧ v.cyc = 0 := by
  intro y
  have hfree' : y.vector.pending = none := hfree
  obtain ⟨hother, hmem, hnet, -⟩ := s.startVec_keeps i.tile
  have hexec : ∃ v : VecRun, v.bundle = i.bundle ∧ v.op = op ∧ v.vec = 0 ∧ v.cyc = 0 ∧ vecIssue i op s =
      .next ((s.startVec i.tile).setTile i.tile.val { y with vector := { y.vector with pending := some v, waitingRed := none } }) := by
    refine ⟨_, ?_, ?_, ?_, ?_, if_neg (by simp [hfree])⟩ <;> rfl
  obtain ⟨v, hbundle, hop, hvec, hcyc, hnext⟩ := hexec
  refine ⟨_, v, hnext, fun j hj => ?_, hmem, hnet, ?_, hbundle, hop, hvec, hcyc⟩
  · exact (State.setTile_other _ _ _ _ hj).trans (hother j hj)
  · rw [State.setTile_same]
    simp only [y]
    rw [s.startVec_tile i.tile]

theorem vecIssue_stops (i : Iss) (op : VecOp) (s : State)
    (hfull : ((s.startVec i.tile).tile i.tile.val).vector.pending.isSome = true) :
    vecIssue i op s = .fault .engineHoldsPending := by
  unfold vecIssue
  exact if_pos hfull

/-! ### Masks of results -/

/-- The tail mask has no lane from the tail on (R177). -/
theorem tailMask_tail {lanes k : Nat} (h : lanes ≤ k) : (tailMask lanes).getLsbD k = false := by
  unfold tailMask
  split
  case isTrue hall => exact BitVec.getLsbD_of_ge _ _ (hall.trans h)
  case isFalse =>
    rw [BitVec.getLsbD_ofNat, Nat.testBit_two_pow_sub_one]
    simp [Nat.not_lt.mpr h]

/-- The bytes of a result stream lie in lanes that are written (R174). -/
theorem resultRuns_active {addr size : Nat} {act : BitVec 256} {codes : List Nat} (hsize : 0 < size) (hcodes : codes.length = 256)
    {r : Nat × Bytes} (hr : r ∈ resultRuns addr size act codes) {m : Nat} (hlow : r.1 ≤ m) (hhigh : m < r.1 + r.2.length) :
    act.getLsbD ((m - addr) / size) = true := by
  unfold resultRuns at hr
  split at hr
  case isTrue hall =>
    rw [List.mem_singleton] at hr
    subst hr
    have hlen : (codes.flatMap (leBytes size)).length = 256 * size := by
      rw [List.length_flatMap, List.map_congr_left (fun c _ => Laws.leBytes_length size c), List.map_const', List.sum_replicate,
        hcodes, smul_eq_mul]
    have hlane : (m - addr) / size < 256 := by
      rw [Nat.div_lt_iff_lt_mul hsize]
      simp only [hlen] at hhigh
      omega
    rw [hall, BitVec.getLsbD_allOnes, decide_eq_true hlane]
  case isFalse =>
    obtain ⟨⟨c, i⟩, hin, rfl⟩ := List.mem_map.mp hr
    have hi : act.getLsbD i = true := (List.mem_filter.mp hin).2
    simp only [Laws.leBytes_length] at hlow hhigh
    have hlane : (m - addr) / size = i := by
      rw [Nat.div_eq_iff hsize]
      constructor <;> rw [Nat.mul_comm] <;> omega
    rw [hlane, hi]

/-! ### The end of a vector -/

/-- The results of a vector of a pass without a check shot are on their way at its latency (R170). -/
theorem vectorDone_lates (t : Tile) (s : State) (v : VecRun) (p : Pass) (regs : Regs) (now : Nat) (hcheck : p.check = none) :
    (t.vectorDone s v p regs now).late = t.late ++ vectorLates s t v p (now - v.cyc)
      (runVector v.bundle v.serial p v.seen regs (t.array.drained.headD []) (regs.srcN p.n) v.vec) := by
  simp [Tile.vectorDone, checkLate, hcheck]

/-- Settles O23. -/
theorem vectorPassesComplete : Obligations.VectorPassesComplete := by
  unfold Obligations.VectorPassesComplete
  refine ⟨fun s i p hissues hshape => ?issue, fun s k v p regs hc => ?start,
    fun t s v p regs now hcheck => ?done, fun addr size act codes hsize hcodes r hr m => resultRuns_active hsize hcodes hr,
    fun lanes k => tailMask_tail⟩
  case issue =>
    intro x y named
    have hexec : exec (.vectorPass i p) s =
        (if !named then .fault .positionGivesNoOutput
         else if !passRange p (x.samp.srcN p.n) then .fault .vRangePassesV63
         else vecIssue i (.pass p x.samp) (begun s i slotVector)) := by
      change execVectorPass i p s = _
      rw [execVectorPass, eccGuard_issues hissues, opVectorPass, issue_of_issues hissues hshape, begun_tile]
      simp only [named, Bool.not_and]
      rfl
    refine ⟨fun hnamed => ?_, fun hnamed hrange => ?_, fun hnamed hrange hfull => ?_, fun hnamed hrange hfree => ?_⟩
    · simp only [hexec, hnamed, Bool.not_false, if_true]
    · simp only [hexec, hnamed, hrange, Bool.not_true, Bool.not_false, Bool.false_eq_true, if_true, if_false]
    · simp only [hexec, hnamed, hrange, Bool.not_true, Bool.false_eq_true, if_false]
      exact vecIssue_stops _ _ _ hfull
    · simp only [hexec, hnamed, hrange, Bool.not_true, Bool.false_eq_true, if_false]
      obtain ⟨t, v, hnext, hother, hmem, hnet, htile, hbundle, hop, hvec, hcyc⟩ :=
        vecIssue_pends i (.pass p x.samp) (begun s i slotVector) hfree
      obtain ⟨-, hbegun⟩ := OnlyTile.begun s i slotVector
      rw [begun_tile] at htile
      refine ⟨t, v, hnext, fun j hj => (hother j hj).trans (hbegun j hj), hmem, hnet, ?_⟩
      rw [htile]
      exact ⟨rfl, hbundle, hop, hvec, hcyc, rfl, rfl, rfl, rfl, rfl, rfl, rfl⟩
  case start =>
    intro x hrun hpend hop
    change execPendingPassStart k s = _
    rw [execPendingPassStart, if_pos hc]
    simp only [State.startVec, x, hrun, hpend, hop]
  case done =>
    intro u o
    have hlate : u.late = t.late ++ vectorLates s t v p (now - v.cyc) o := vectorDone_lates t s v p regs now hcheck
    refine ⟨rfl, rfl, ?_, ?_⟩
    · rw [hlate, List.take_left]
    · rw [hlate, List.drop_left]
      simp only [vectorLates, List.map_map, Function.comp_def]

end Sys2Proof.Machine
end

section
/-! PROOFS. Reductions and combines (O24). -/

namespace Sys2Proof.Machine

set_option Elab.async false

/-- REDUCTION is the attachment of the reduction, with the registers sampled, in the state in which its bundle has issued. -/
theorem exec_reduction {s : State} {i : Iss} {r : Reduction} (h : Issues s i slotReduction) (hshape : redShape r = true) :
    let x := (s.tile i.tile.val).begunAt s i slotReduction
    let put (v : VectorState) : Res := .next ((begun s i slotReduction).setTile i.tile.val { x with vector := v })
    exec (.reduction i r) s =
      (match passOf i.bundle x.vector.pending, passOf i.bundle x.vector.running with
       | some p, _ =>
         if redNames r p then put { x.vector with pending := x.vector.pending.map (·.attach r x.samp) }
         else .fault .positionGivesNoOutput
       | none, some p =>
         if redNames r p then put { x.vector with running := x.vector.running.map (·.attach r x.samp) }
         else .fault .positionGivesNoOutput
       | none, none => put { x.vector with waitingRed := some (i.bundle, r, x.samp) }) := by
  intro x put
  change execReduction i r s = _
  rw [execReduction, eccGuard_issues h, opReduction, issue_of_issues h hshape, begun_tile] <;> rfl

/-- COMBINE is the issue of its operation to the vector engine, where its results fit. -/
theorem exec_combine {s : State} {i : Iss} {c : CombineArg} (h : Issues s i slotVector) (hshape : combineShape c = true)
    (hrange : combineRange ((s.tile i.tile.val).begunAt s i slotVector) c = true) :
    exec (.combine i c) s =
      vecIssue i (.combine c ((s.tile i.tile.val).begunAt s i slotVector).samp) (begun s i slotVector) := by
  change execCombine i c s = _
  rw [execCombine, eccGuard_issues h, opCombine, issue_of_issues h hshape, begun_tile]
  simp only [hrange, Bool.not_true, Bool.false_eq_true, if_false]

/-- Settles O24. -/
theorem reductionsAndCombines : Obligations.ReductionsAndCombines := by
  unfold Obligations.ReductionsAndCombines
  refine ⟨fun s i r hissues hshape => ?attach, fun s k hc => ?results, fun s i c hissues hshape => ?combine,
    fun t v c regs now j hfinal => ?lates⟩
  case attach =>
    intro x y put
    have hexec := exec_reduction hissues hshape
    refine ⟨fun hpend hrun => ?waits, fun v p hpend hpass => ⟨fun hnames => ?pending, fun hnames => ?stops⟩,
      fun v p hnone hrun hpass hnames => ?running⟩
    case waits => simpa only [x, y, put, hpend, hrun] using hexec
    case pending =>
      rw [hpend] at hpass
      simpa only [x, y, put, hpass, hnames, hpend, if_true, Option.map_some] using hexec
    case stops => simpa only [x, y, hpass, hnames, Bool.false_eq_true, if_false] using hexec
    case running =>
      rw [hrun] at hpass
      simpa only [x, y, put, hnone, hpass, hnames, hrun, if_true, Option.map_some] using hexec
  case results =>
    have hexec : exec (.reductionSegmentResult k) s = .next (s.modTile k.val (fun t => t.redResults s.runCycle.toNat)) := by
      change execReductionSegmentResult k s = _
      rw [execReductionSegmentResult, if_pos hc]
    refine ⟨_, hexec, OnlyTile.modTile _ _ _, ?_⟩
    rw [State.modTile_same]
    exact ⟨rfl, rfl, rfl, rfl⟩
  case combine =>
    intro x y hrange hfree
    obtain ⟨t, v, hnext, hother, hmem, -, htile, hbundle, hop, hvec, -⟩ :=
      vecIssue_pends i (.combine c x.samp) (begun s i slotVector) hfree
    obtain ⟨-, hbegun⟩ := OnlyTile.begun s i slotVector
    rw [begun_tile] at htile
    refine ⟨t, v, (exec_combine hissues hshape hrange).trans hnext, fun j hj => (hother j hj).trans (hbegun j hj), hmem, ?_⟩
    rw [htile]
    exact ⟨rfl, hbundle, hop, hvec, rfl, rfl, rfl, rfl⟩
  case lates =>
    intro r slot
    simp [combineLates, hfinal, r, slot]

end Sys2Proof.Machine
end

section
/-! PROOFS. Exact combines and sums (O25). -/

namespace Sys2Proof.Machine

set_option Elab.async false

/-- Integer max is the greater of the two numbers. -/
theorem intMax_signed {w : Nat} (x y : BitVec w) : intMax false x y = if x.toInt < y.toInt then y else x := by
  simp [intMax, intCond, BitVec.slt]

theorem intMax_right_comm {w : Nat} (x y z : BitVec w) :
    intMax false (intMax false x y) z = intMax false (intMax false x z) y := by
  apply BitVec.eq_of_toInt_eq
  simp only [intMax_signed]
  grind

/-- The order of two messages does not matter to an exact combine (R97, R294). -/
theorem combineStep_right_comm {op : CombineOp} (h : op ≠ .addFp32) (x y z : Word) :
    (combineStep op (combineStep op x y).1 z).1 = (combineStep op (combineStep op x z).1 y).1 := by
  cases op with
  | addInt => exact add_right_comm x y z
  | maxInt => exact intMax_right_comm x y z
  | orWord =>
    change x ||| y ||| z = x ||| z ||| y
    rw [BitVec.or_assoc, BitVec.or_comm y z, ← BitVec.or_assoc]
  | addFp32 => exact absurd rfl h

/-- The value of a combined element is the fold of the values of its steps. -/
theorem combineElem_value (r : RecvEp) (slot : Nat) (ms : List (Nat → Word)) (e : Nat) :
    (combineElem r slot ms e).1 = ms.foldl (fun acc m => (combineStep r.op acc (m e)).1) (r.slotElem slot e) := by
  unfold combineElem
  exact (List.foldl_hom Prod.fst (fun _ _ => rfl)).symm

/-! ### Lanes that are not active (Table 05.7) -/

/-- The least number changes no maximum. -/
theorem max_idle {x : RedVal} (h : -(2 ^ 31) ≤ x.bits.toInt ∧ x.bits.toInt < 2 ^ 31) :
    (redCombine .max true (redIdle .max true) x).bits = x.bits ∧ (redCombine .max true x (redIdle .max true)).bits = x.bits := by
  have hidle : (redIdle .max true).bits.toInt = -(2 ^ 31) := by decide
  constructor
  · change (if (redIdle .max true).bits.slt x.bits then x else redIdle .max true).bits = x.bits
    split
    case isTrue => rfl
    case isFalse hnot =>
      rw [BitVec.slt_iff_toInt_lt, hidle] at hnot
      exact BitVec.eq_of_toInt_eq (by omega)
  · change (if x.bits.slt (redIdle .max true).bits then redIdle .max true else x).bits = x.bits
    split
    case isTrue hlt =>
      rw [BitVec.slt_iff_toInt_lt, hidle] at hlt
      omega
    case isFalse => rfl

/-- The greatest number changes no minimum. -/
theorem min_idle {x : RedVal} (h : -(2 ^ 31) ≤ x.bits.toInt ∧ x.bits.toInt < 2 ^ 31) :
    (redCombine .min true (redIdle .min true) x).bits = x.bits ∧ (redCombine .min true x (redIdle .min true)).bits = x.bits := by
  have hidle : (redIdle .min true).bits.toInt = 2 ^ 31 - 1 := by decide
  constructor
  · change (if x.bits.slt (redIdle .min true).bits then x else redIdle .min true).bits = x.bits
    split
    case isTrue => rfl
    case isFalse hnot =>
      rw [BitVec.slt_iff_toInt_lt, hidle] at hnot
      exact BitVec.eq_of_toInt_eq (by omega)
  · change (if (redIdle .min true).bits.slt x.bits then redIdle .min true else x).bits = x.bits
    split
    case isTrue hlt =>
      rw [BitVec.slt_iff_toInt_lt, hidle] at hlt
      omega
    case isFalse => rfl

/-- An argmax passes over lanes that are not active. -/
theorem argmax_idle {x : RedVal} (h : x.live = true) :
    (redCombine .argmax true (redIdle .argmax true) x).bits = x.bits ∧
      (redCombine .argmax true x (redIdle .argmax true)).bits = x.bits := by
  constructor
  · change (argmaxI (redIdle .argmax true) x).bits = x.bits
    simp [argmaxI, h, redIdle]
  · change (argmaxI x (redIdle .argmax true)).bits = x.bits
    simp [argmaxI, redIdle]

/-! ### 64-bit sums -/

/-- A sum inside the range is the true one. -/
theorem sum64_toInt {x y : RedVal}
    (h : -(2 ^ 63) ≤ x.bits.toInt + y.bits.toInt ∧ x.bits.toInt + y.bits.toInt < 2 ^ 63) :
    (sum64 x y).bits.toInt = x.bits.toInt + y.bits.toInt := by
  change (x.bits + y.bits).toInt = _
  rw [BitVec.toInt_add]
  exact Int.bmod_eq_of_le (by omega) (by omega)

theorem sum64_flags_in {x y : RedVal}
    (h : -(2 ^ 63) ≤ x.bits.toInt + y.bits.toInt ∧ x.bits.toInt + y.bits.toInt < 2 ^ 63) :
    (sum64 x y).flags = x.flags ||| y.flags := by
  have hin : ¬ (x.bits.toInt + y.bits.toInt < -(2 ^ 63) ∨ 2 ^ 63 ≤ x.bits.toInt + y.bits.toInt) := by omega
  unfold sum64
  simp only [if_neg hin]
  exact BitVec.or_zero

/-- A sum outside the range sets the overflow flag. -/
theorem sum64_flags_out {x y : RedVal}
    (h : ¬ (-(2 ^ 63) ≤ x.bits.toInt + y.bits.toInt ∧ x.bits.toInt + y.bits.toInt < 2 ^ 63)) :
    (sum64 x y).flags = x.flags ||| y.flags ||| fIntOverflow := by
  have hout : x.bits.toInt + y.bits.toInt < -(2 ^ 63) ∨ 2 ^ 63 ≤ x.bits.toInt + y.bits.toInt := by omega
  unfold sum64
  simp only [if_pos hout]

/-- Settles O25. -/
theorem exactSums : Obligations.ExactSums := by
  unfold Obligations.ExactSums
  refine ⟨fun r slot e ms ns hop hperm => ?perm, fun op isInt x hop hint hval hflags hlive => ?idle,
    fun x y => ⟨rfl, fun hin => ⟨sum64_toInt hin, sum64_flags_in hin⟩, sum64_flags_out⟩⟩
  case perm =>
    have : RightCommutative (fun (acc : Word) (m : Nat → Word) => (combineStep r.op acc (m e)).1) :=
      ⟨fun acc m n => combineStep_right_comm hop acc (m e) (n e)⟩
    rw [combineElem_value, combineElem_value, hperm.foldl_eq]
  case idle =>
    subst hint
    rcases hop with rfl | rfl | rfl
    · exact max_idle hval
    · exact min_idle hval
    · exact argmax_idle hlive

end Sys2Proof.Machine
end

section
/-! PROOFS. Results become readable (O26). -/

namespace Sys2Proof.Machine

set_option Elab.async false

/-! ### Tiles that change in their receive endpoints alone -/

/-- Of every tile the receive endpoints alone change. -/
def OnlyRecvs (s t : State) : Prop := ∀ j, t.tile j = { s.tile j with recvs := (t.tile j).recvs }

theorem OnlyRecvs.of_tile_eq {s t : State} (h : ∀ j, t.tile j = s.tile j) : OnlyRecvs s t := by
  intro j
  rw [h j]

theorem OnlyRecvs.refl (s : State) : OnlyRecvs s s := OnlyRecvs.of_tile_eq (fun _ => rfl)

theorem OnlyRecvs.trans {s t u : State} (h : OnlyRecvs s t) (g : OnlyRecvs t u) : OnlyRecvs s u := by
  intro j
  rw [g j, h j]

theorem OnlyRecvs.of_only {P : List Part} {s t : State} (h : Only P s t) (hTiles : .tiles ∉ P := by decide) : OnlyRecvs s t :=
  OnlyRecvs.of_tile_eq (fun j => h.tile j hTiles)

theorem OnlyRecvs.modRecv (s : State) (k e : Nat) (f : Tile → RecvEp) : OnlyRecvs s (s.modTile k (fun x => x.setRecv e (f x))) := by
  intro j
  by_cases hj : j = k
  · subst hj
    rw [State.modTile_same]
    rfl
  · rw [State.modTile_other _ _ _ _ hj]

theorem creditBack_onlyRecvs (s : State) (o : MsgOrigin) : OnlyRecvs s (s.creditBack o) :=
  OnlyRecvs.of_only (P := [.net, .ports, .held]) ((Only.refl _ s).creditBack o)

/-- The judgement of a message changes the tags and the count of its endpoint. -/
theorem judgeOne_onlyRecvs (s : State) (t : TileNo) (e : Nat) (m : Msg) : OnlyRecvs s (s.judgeOne t e m).1 := by
  have hcount := (OnlyRecvs.modRecv s t.val e (fun x => { x.recv e with filterDiscards := (x.recv e).filterDiscards + 1 })).trans
    (creditBack_onlyRecvs _ m.origin)
  unfold State.judgeOne
  dsimp only
  split
  case h_1 => exact OnlyRecvs.refl s
  case h_2 f hf =>
    split
    case h_1 => exact OnlyRecvs.modRecv s t.val e _
    case h_2 => exact OnlyRecvs.refl s
    case h_3 => exact hcount
    case h_4 => exact hcount
    case h_5 => exact hcount.trans (OnlyRecvs.of_only (P := [.replies, .log]) ((Only.refl _ _).event _ _ _))
    case h_6 => exact hcount.trans (OnlyRecvs.of_only (P := [.replies, .log]) ((Only.refl _ _).event _ _ _))

theorem rejudge_onlyRecvs (t : TileNo) (e slot : Nat) (l : List Msg) (s : State) : OnlyRecvs s (s.rejudge t e slot l) := by
  induction l generalizing s with
  | nil => exact OnlyRecvs.refl s
  | cons m rest ih =>
    have hput (u : State) (m : Msg) := OnlyRecvs.modRecv u t.val e (fun x => { x.recv e with msgs := (x.recv e).msgs ++ [m] })
    have hjudge := judgeOne_onlyRecvs s t e m
    unfold State.rejudge
    dsimp only
    split
    case isTrue =>
      split
      case h_1 s' m' heq =>
        rw [heq] at hjudge
        exact (hjudge.trans (hput s' m')).trans (ih _)
      case h_2 s' heq =>
        rw [heq] at hjudge
        exact hjudge.trans (ih _)
    case isFalse => exact (hput s m).trans (ih _)

/-- The end of a FINAL combine changes receive endpoints alone. -/
theorem endSlot_onlyRecvs (s : State) (t : TileNo) (ep : Fin 64) (slot : Nat) : OnlyRecvs s (s.endSlot t ep slot) := by
  have hnote := OnlyRecvs.of_only (P := [.run]) ((Only.refl _ s).noteOwnFlags ((s.tile t.val).recv ep.val) slot)
  unfold State.endSlot
  dsimp only
  split
  case isTrue =>
    exact ((hnote.trans (OnlyRecvs.modRecv _ t.val ep.val _)).trans (OnlyRecvs.modRecv _ t.val ep.val _)).trans
      (rejudge_onlyRecvs t ep.val slot _ _)
  case isFalse => exact hnote.trans (OnlyRecvs.modRecv _ t.val ep.val _)

/-! ### A result that becomes readable -/

theorem writeScratch_foldl_late (runs : List (Nat × Bytes)) (x : Tile) :
    (runs.foldl (fun x r => x.writeScratch r.1 r.2) x).late = x.late := by
  induction runs generalizing x with
  | nil => rfl
  | cons r runs ih => exact (ih _).trans rfl

theorem checkShot_late (s : State) (t : Nat) (r : Regs) (c : CheckShot) (j : Nat) :
    ((s.checkShot t r c).tile j).late = (s.tile j).late := by
  unfold State.checkShot
  extract_lets x outs refs q bin hits y s1
  have hy : (s1.tile j).late = (s.tile j).late := by
    change ((s.setTile t y).tile j).late = _
    by_cases hj : j = t
    · subst hj
      rw [State.setTile_same]
    · rw [State.setTile_other _ _ _ _ hj]
  split
  case isTrue =>
    rw [((Only.refl [.replies, .log] s1).event _ _ _).tile j]
    exact hy
  case isFalse => exact hy

/-- A result that becomes readable puts none on its way. -/
theorem applyLate_late (s : State) (t : TileNo) (l : Late) : ((s.applyLate t l).tile t.val).late = (s.tile t.val).late := by
  have hdrawn : ((if l.isOpen then s.drawn l.eff.size else s).tile t.val) = s.tile t.val := by
    split <;> rfl
  unfold State.applyLate
  extract_lets e s1
  have hs1 : s1.tile t.val = s.tile t.val := hdrawn
  clear_value e s1
  rw [← hs1]
  cases e with
  | scratch => rw [State.modTile_same, writeScratch_foldl_late]
  | slotEnd ep slot => rw [endSlot_onlyRecvs s1 t ep slot t.val]
  | check => rw [checkShot_late]
  | bits | slot | scalar | p | v | m =>
    rw [State.modTile_same]
    rfl

/-- The results that are due, of a list of one. -/
theorem dueLates_single {x : Tile} {l : Late} (hlate : x.late = [l]) (horder : l.order < 3) (now : Nat) :
    x.dueLates now = if l.ready ≤ now + 1 then [l] else [] := by
  have hcases : l.order = 0 ∨ l.order = 1 ∨ l.order = 2 := by omega
  have hrange : List.range 3 = [0, 1, 2] := rfl
  by_cases hready : l.ready ≤ now + 1 <;> rcases hcases with h | h | h <;> simp [Tile.dueLates, hlate, hrange, h, hready]

/-- Settles O26. -/
theorem resultsBecomeReadable : Obligations.ResultsBecomeReadable := by
  unfold Obligations.ResultsBecomeReadable
  refine ⟨fun s k now l hlate hopen horder => ⟨fun hearly => ?early, fun hdue => ⟨?gone, ?scalar, ?scratch⟩⟩,
    fun s k now g x y v w hlate hxopen hyopen hx hy hxorder hyorder hxeff hyeff => ?order⟩
  case early =>
    have hno : ¬ l.ready ≤ now + 1 := by omega
    unfold State.settleLates
    rw [dueLates_single hlate horder, if_neg hno, List.foldl_nil, State.modTile_same]
    exact ⟨by simp [hlate, hearly], rfl, rfl⟩
  case gone =>
    have hno : ¬ now + 1 < l.ready := by omega
    unfold State.settleLates
    rw [dueLates_single hlate horder, if_pos hdue, List.foldl_cons, List.foldl_nil, applyLate_late, State.modTile_same]
    simp [hlate, hno]
  case scalar =>
    intro d v heff
    unfold State.settleLates
    rw [dueLates_single hlate horder, if_pos hdue, List.foldl_cons, List.foldl_nil]
    simp [State.applyLate, hopen, heff, Tile.modRegs, LateEff.onRegs]
  case scratch =>
    intro a bs heff hfits
    unfold State.settleLates
    rw [dueLates_single hlate horder, if_pos hdue, List.foldl_cons, List.foldl_nil]
    have htake : bs.take (scratchBytes - a) = bs := List.take_of_length_le (by omega)
    simp [State.applyLate, hopen, heff, Tile.writeScratch, htake]
  case order =>
    have hrange : List.range 3 = [0, 1, 2] := rfl
    have hlates : (s.tile k.val).dueLates now = [y, x] := by
      simp [Tile.dueLates, hlate, hrange, hxorder, hyorder, hx, hy]
    unfold State.settleLates
    rw [hlates, List.foldl_cons, List.foldl_cons, List.foldl_nil]
    simp [State.applyLate, hxopen, hyopen, hxeff, hyeff, Tile.modRegs, LateEff.onRegs, Regs.setScalar, Regs.getG, Regs.setG,
      mget_mset_same]

end Sys2Proof.Machine
end

section
/-! PROOFS. The operations of the scalar slot on registers (O27). -/

namespace Sys2Proof.Machine

set_option Elab.async false

/-! ### Values -/

/-- Shifts by 64 and more, and by less. -/
theorem shift_values (a b : DWord) :
    (64 ≤ b.toNat → aluValue .shl a b = 0 ∧ aluValue .shr a b = 0 ∧
      aluValue .sar a b = (if a.msb then BitVec.allOnes 64 else 0)) ∧
    (b.toNat < 64 → aluValue .shl a b = a <<< b.toNat ∧ aluValue .shr a b = a >>> b.toNat ∧
      aluValue .sar a b = a.sshiftRight b.toNat) := by
  refine ⟨fun h => ⟨?_, ?_, ?_⟩, fun h => ⟨?_, ?_, ?_⟩⟩ <;>
    simp [aluValue, shiftLeft, shiftRight, shiftArith, h, Nat.not_le.mpr]

/-- A compare writes 1 or 0. -/
theorem cmp_values (c : Cond) (u : Bool) (a b : DWord) : aluValue (.cmp c u) a b = 0 ∨ aluValue (.cmp c u) a b = 1 := by
  change (if intCond c u 64 a b then (1 : DWord) else 0) = 0 ∨ (if intCond c u 64 a b then (1 : DWord) else 0) = 1
  split
  · exact Or.inr rfl
  · exact Or.inl rfl

theorem umax_value (a b : DWord) : (aluValue (.max true) a b).toNat = max a.toNat b.toNat := by
  change (if a.ult b then b else a).toNat = _
  rw [BitVec.ult_eq_decide]
  by_cases h : a.toNat < b.toNat
  · simp [h, Nat.le_of_lt h]
  · simp [h, Nat.le_of_not_lt h]

theorem smin_value (a b : DWord) : (aluValue (.min false) a b).toInt = min a.toInt b.toInt := by
  change (if b.slt a then b else a).toInt = _
  rw [BitVec.slt_eq_decide]
  by_cases h : b.toInt < a.toInt
  · simp [h, Int.le_of_lt h]
  · simp [h, Int.not_lt.mp h]

/-! ### Masks -/

/-- A whole mask goes to its register. -/
theorem onRegs_mask (reg : Nat) (w : BitVec 256) (g : Regs) :
    (LateEff.m reg w (BitVec.allOnes 256)).onRegs g = g.setM reg w := by
  simp only [LateEff.onRegs, BitVec.and_allOnes, BitVec.not_allOnes, BitVec.and_zero, BitVec.or_zero]

/-- 64 bits go to their group of a mask register, and leave its other groups. -/
theorem onRegs_maskGroup (reg k : Nat) (v : DWord) (g : Regs) :
    (LateEff.m reg (maskGroup 0 k v) (maskGroup 0 k (BitVec.allOnes 64))).onRegs g =
      g.setM reg (maskGroup (g.getM reg) k v) := by
  have hgroup : (maskGroup 0 k v &&& maskGroup 0 k (BitVec.allOnes 64)) |||
      (g.getM reg &&& ~~~ maskGroup 0 k (BitVec.allOnes 64)) = maskGroup (g.getM reg) k v := by
    ext j hj
    simp only [maskGroup, BitVec.getElem_or, BitVec.getElem_and, BitVec.getElem_not,
      BitVec.getElem_shiftLeft, BitVec.getElem_setWidth, BitVec.getLsbD_allOnes]
    by_cases hlow : j < 64 * k
    · simp [hlow]
    · by_cases hin : j - 64 * k < 64
      · simp [hlow, hin]
      · simp [hlow, hin, BitVec.getLsbD_of_ge v (j - 64 * k) (Nat.le_of_not_lt hin)]
  exact congrArg (g.setM reg) hgroup

/-! ### Commands -/

/-- What an operation of the scalar slot leaves of its tile: registers, and one result on its way. -/
theorem scalar_ends {s : State} {i : Iss} {c : Instr} (f : Regs → Regs) (n : Nat) (e : LateEff)
    (hexec : exec c s = .next ((begun s i slotScalar).modTile i.tile.val
      (fun t => (t.modRegs f).scalarLate s.runCycle.toNat n i.bundle e))) :
    let x := (s.tile i.tile.val).begunAt s i slotScalar
    ∃ t, exec c s = .next t ∧ OnlyTile s t i.tile.val ∧ (t.tile i.tile.val).regs = f x.regs ∧
      (t.tile i.tile.val).late = x.late ++ [{
        ready := s.runCycle.toNat + n, order := 2, slot := slotScalar, bundle := i.bundle, eff := e, uses := [],
        isOpen := false }] ∧
      (t.tile i.tile.val).scratch = x.scratch ∧ (t.tile i.tile.val).flags = x.flags ∧
      (t.tile i.tile.val).array = x.array ∧ (t.tile i.tile.val).vector = x.vector ∧ (t.tile i.tile.val).sems = x.sems ∧
      (t.tile i.tile.val).sends = x.sends ∧ (t.tile i.tile.val).recvs = x.recvs ∧ (t.tile i.tile.val).descs = x.descs := by
  intro x
  refine ⟨_, hexec, (OnlyTile.begun s i slotScalar).trans (OnlyTile.modTile _ _ _), ?_⟩
  rw [State.modTile_same, begun_tile]
  exact ⟨rfl, rfl, rfl, rfl, rfl, rfl, rfl, rfl, rfl, rfl⟩

/-- SCALAR_OP writes its result at once and puts it on its way for the next bundle. -/
theorem exec_scalarOp {s : State} {i : Iss} (h : Issues s i slotScalar) (op : ScalarOp) (f : Regs → Regs)
    (hf : (scalarResult op ((s.tile i.tile.val).begunAt s i slotScalar).samp).onRegs
      ((s.tile i.tile.val).begunAt s i slotScalar).regs = f ((s.tile i.tile.val).begunAt s i slotScalar).regs) :
    exec (.scalarOp i op) s = .next ((begun s i slotScalar).modTile i.tile.val (fun t => (t.modRegs f).scalarLate
      s.runCycle.toNat 1 i.bundle (scalarResult op ((s.tile i.tile.val).begunAt s i slotScalar).samp))) := by
  change execScalarOp i op s = _
  rw [execScalarOp, eccGuard_issues h, opScalarOp, issue_of_issues h rfl]
  simp only [State.modTile, begun_tile, begun_runCycle, Tile.scalarNow, Tile.modRegs, hf]

/-- An operation of the scalar slot whose result comes later than the next bundle. -/
theorem exec_scalarMultiply {s : State} {i : Iss} (h : Issues s i slotScalar) (d : ScalarDst) (a b : ScalarSrc) :
    let r := ((s.tile i.tile.val).begunAt s i slotScalar).samp
    exec (.scalarMultiply i d a b) s = .next ((begun s i slotScalar).modTile i.tile.val (fun t =>
      (t.modRegs (fun g => g)).scalarLate s.runCycle.toNat 3 i.bundle (.scalar d (r.scalar a * r.scalar b)))) := by
  intro r
  change execScalarMultiply i d a b s = _
  rw [execScalarMultiply, eccGuard_issues h, opScalarMultiply, issue_of_issues h rfl]
  simp only [State.modTile, begun_tile, begun_runCycle, Tile.modRegs, r]

theorem exec_readLoopIndex {s : State} {i : Iss} (h : Issues s i slotScalar) (d : ScalarDst) (level : Fin 4) :
    let v : DWord := (((s.tile i.tile.val).begunAt s i slotScalar).loopIndex level.val).setWidth 64
    exec (.readLoopIndex i d level) s = .next ((begun s i slotScalar).modTile i.tile.val (fun t =>
      (t.modRegs (fun g => g.setScalar d v)).scalarLate s.runCycle.toNat 1 i.bundle (.scalar d v))) := by
  intro v
  change execReadLoopIndex i d level s = _
  rw [execReadLoopIndex, eccGuard_issues h, opReadLoopIndex, issue_of_issues h rfl]
  simp only [State.modTile, begun_tile, begun_runCycle, Tile.scalarNow, Tile.modRegs, LateEff.onRegs, v]

theorem exec_laneInsert {s : State} {i : Iss} (h : Issues s i slotScalar) (v : VReg) (lane : Fin 256) (g : GReg) :
    let r := ((s.tile i.tile.val).begunAt s i slotScalar).samp
    exec (.laneInsertExtract i (.insert v lane g)) s = .next ((begun s i slotScalar).modTile i.tile.val (fun t =>
      (t.modRegs (fun g => g)).scalarLate s.runCycle.toNat 2 i.bundle (.v v.val lane.val [((r.getG g.val).setWidth 32, true)]))) := by
  intro r
  change execLaneInsertExtract i _ s = _
  rw [execLaneInsertExtract, eccGuard_issues h, opLaneInsertExtract, issue_of_issues h rfl]
  simp only [State.modTile, begun_tile, begun_runCycle, Tile.modRegs, r]

theorem exec_laneExtract {s : State} {i : Iss} (h : Issues s i slotScalar) (g : GReg) (v : VReg) (lane : Fin 256) :
    let r := ((s.tile i.tile.val).begunAt s i slotScalar).samp
    exec (.laneInsertExtract i (.extract g v lane)) s = .next ((begun s i slotScalar).modTile i.tile.val (fun t =>
      (t.modRegs (fun g => g)).scalarLate s.runCycle.toNat 2 i.bundle (.scalar (.g g) ((r.getV v.val lane.val).setWidth 64)))) := by
  intro r
  change execLaneInsertExtract i _ s = _
  rw [execLaneInsertExtract, eccGuard_issues h, opLaneInsertExtract, issue_of_issues h rfl]
  simp only [State.modTile, begun_tile, begun_runCycle, Tile.modRegs, r]

/-- Settles O27. -/
theorem scalarOperationsComplete : Obligations.ScalarOperationsComplete := by
  unfold Obligations.ScalarOperationsComplete
  refine ⟨fun s i hissues => ?commands, fun a b => ?values⟩
  case commands =>
    intro x r ends put
    have hput (op : ScalarOp) (f : Regs → Regs) (hf : (scalarResult op r).onRegs x.regs = f x.regs) : put op f :=
      scalar_ends f 1 _ (exec_scalarOp hissues op f hf)
    have hmask (op : ScalarOp) (reg : Nat) (w : BitVec 256) (hresult : scalarResult op r = .m reg w (BitVec.allOnes 256)) :
        put op (fun g => g.setM reg w) := hput op (fun g => g.setM reg w) (by rw [hresult, onRegs_mask])
    exact ⟨fun f d a b => hput _ _ rfl, fun d a => hput _ _ rfl, fun d a b c => hput _ _ rfl, fun d a => hput _ _ rfl,
      fun d => hmask (.maskSet d) _ _ rfl, fun d => hmask (.maskClear d) _ _ rfl, fun d a => hmask (.maskNot d a) _ _ rfl,
      fun d a => hmask (.maskCopy d a) _ _ rfl, fun f d a b => hmask (.mask f d a b) _ _ rfl,
      fun d g k => hput (.maskFromG d g k) (fun h => h.setM d.val (maskGroup (h.getM d.val) k.val (r.getG g.val)))
        (onRegs_maskGroup d.val k.val (r.getG g.val) x.regs),
      fun d a b => scalar_ends (fun g => g) 3 _ (exec_scalarMultiply hissues d a b),
      fun d level => scalar_ends _ 1 _ (exec_readLoopIndex hissues d level),
      fun v lane g => scalar_ends (fun g => g) 2 _ (exec_laneInsert hissues v lane g),
      fun g v lane => scalar_ends (fun g => g) 2 _ (exec_laneExtract hissues g v lane)⟩
  case values =>
    obtain ⟨hlong, hshort⟩ := shift_values a b
    exact ⟨hlong, hshort, umax_value a b, smin_value a b, fun c u => cmp_values c u a b⟩

end Sys2Proof.Machine
end

section
/-! PROOFS. Loads and stores of the scalar slot (O28). -/

namespace Sys2Proof.Machine

set_option Elab.async false

@[simp] theorem readBytes_length (m : Memory) (a n : Nat) : (readBytes m a n).length = n := by
  induction n generalizing a with
  | zero => rfl
  | succ n ih => simp [readBytes, ih]

theorem readBytes_drop (m : Memory) (a n off : Nat) : (readBytes m a n).drop off = readBytes m (a + off) (n - off) := by
  induction off generalizing a n with
  | zero => rfl
  | succ off ih =>
    cases n with
    | zero => simp [readBytes]
    | succ n => simp [readBytes, ih, Nat.add_assoc, Nat.add_comm 1 off]

theorem readBytes_take (m : Memory) (a : Nat) {n k : Nat} (h : k ≤ n) : (readBytes m a n).take k = readBytes m a k := by
  induction k generalizing a n with
  | zero => rfl
  | succ k ih =>
    cases n with
    | zero => omega
    | succ n => simp [readBytes, ih (a + 1) (Nat.le_of_succ_le_succ h)]

/-- Bytes within bytes that were read. -/
theorem slice_readBytes (m : Memory) (a n off k : Nat) (h : off + k ≤ n) :
    slice (readBytes m a n) off k = readBytes m (a + off) k := by
  have hk : k ≤ n - off := by omega
  simp [slice, readBytes_drop, readBytes_take m (a + off) hk, zeros]

/-- What an access of the scalar slot leaves of its tile: the access, and one result on its way. -/
theorem access_leaves {s : State} {i : Iss} {c : Instr} (drawn n : Nat) (e : LateEff) (u : RangeUse)
    (hexec : exec c s = .next (((begun s i slotScalar).modTile i.tile.val
      (fun t => (t.addUse u).scalarLate s.runCycle.toNat n i.bundle e)).drawn drawn)) :
    let x := (s.tile i.tile.val).begunAt s i slotScalar
    ∃ t, exec c s = .next t ∧ OnlyTile s t i.tile.val ∧ (t.tile i.tile.val).regs = x.regs ∧
      (t.tile i.tile.val).scratch = x.scratch ∧ (t.tile i.tile.val).flags = x.flags ∧
      (t.tile i.tile.val).plan = x.plan ++ [u] ∧
      (t.tile i.tile.val).late = x.late ++ [{
        ready := s.runCycle.toNat + n, order := 2, slot := slotScalar, bundle := i.bundle, eff := e, uses := [],
        isOpen := false }] := by
  intro x
  have hx : ((begun s i slotScalar).tile i.tile.val) = x := begun_tile _ _ _
  obtain ⟨heq, hother⟩ := (OnlyTile.begun s i slotScalar).trans (OnlyTile.modTile (begun s i slotScalar) i.tile.val
    (fun t => (t.addUse u).scalarLate s.runCycle.toNat n i.bundle e))
  refine ⟨_, hexec, ⟨?_, hother⟩, ?_⟩
  · rw [State.drawn, heq]
  · have htile (t : State) : (t.drawn drawn).tile i.tile.val = t.tile i.tile.val := rfl
    rw [htile, State.modTile_same, hx]
    exact ⟨rfl, rfl, rfl, rfl, rfl⟩

/-- SCALAR_LOAD where its bundle issues. -/
theorem exec_scalarLoad {s : State} {i : Iss} (h : Issues s i slotScalar) (d : ScalarDst) (addr : ScalarSrc) (region : Fin 64) :
    let x := (s.tile i.tile.val).begunAt s i slotScalar
    let a := (x.samp.scalar addr).toNat
    let v : DWord := if a % 8 = 0 then BitVec.ofNat 64 (leNat (readBytes x.scratch a 8)) else Config.freeDWord s.freeCtr
    exec (.scalarLoad i d addr region) s = .next (((begun s i slotScalar).modTile i.tile.val (fun t =>
      (t.addUse (alignedUse s.runCycle.toNat i.bundle region.val a 8 false)).scalarLate s.runCycle.toNat
        (x.loadLatency region.val) i.bundle (.scalar d v))).drawn 1) := by
  intro x a v
  change execScalarLoad i d addr region s = _
  rw [execScalarLoad, eccGuard_issues h, opScalarLoad, issue_of_issues h rfl]
  simp only [State.modTile, begun_tile, begun_runCycle, x, a, v]
  rfl

theorem exec_scalarStore {s : State} {i : Iss} (h : Issues s i slotScalar) (v addr : ScalarSrc) (region : Fin 64) :
    let x := (s.tile i.tile.val).begunAt s i slotScalar
    let a := (x.samp.scalar addr).toNat
    exec (.scalarStore i v addr region) s = .next (((begun s i slotScalar).modTile i.tile.val (fun t =>
      (t.addUse (alignedUse s.runCycle.toNat i.bundle region.val a 8 true)).scalarLate s.runCycle.toNat 2 i.bundle
        (.scratch (storeRuns a (x.samp.scalar v) s.freeCtr)))).drawn 64) := by
  intro x a
  change execScalarStore i v addr region s = _
  rw [execScalarStore, eccGuard_issues h, opScalarStore, issue_of_issues h rfl]
  simp only [State.modTile, begun_tile, begun_runCycle, x, a]
  rfl

theorem exec_pBlockLoad {s : State} {i : Iss} (h : Issues s i slotScalar) (first : PReg) (addr : ScalarSrc) (region : Fin 64)
    (hfirst : first.val % 8 = 0) :
    let x := (s.tile i.tile.val).begunAt s i slotScalar
    let a := (x.samp.scalar addr).toNat
    let bs := if a % 64 = 0 then readBytes x.scratch a 64 else freeBytes s.freeCtr 64
    exec (.pBlockLoad i first addr region) s = .next (((begun s i slotScalar).modTile i.tile.val (fun t =>
      (t.addUse (alignedUse s.runCycle.toNat i.bundle region.val a 64 false)).scalarLate s.runCycle.toNat
        (x.loadLatency region.val) i.bundle
        (.p first.val ((List.range 8).map (fun k => BitVec.ofNat 64 (leNat (slice bs (8 * k) 8))))))).drawn 64) := by
  intro x a bs
  change execPBlockLoad i first addr region s = _
  rw [execPBlockLoad, eccGuard_issues h, opPBlockLoad, issue_of_issues h (by simp [hfirst])]
  simp only [State.modTile, begun_tile, begun_runCycle, x, a, bs]
  rfl

/-- Settles O28. -/
theorem scalarMemoryComplete : Obligations.ScalarMemoryComplete := by
  unfold Obligations.ScalarMemoryComplete
  intro s i hissues
  dsimp only
  refine ⟨fun d addr region => ⟨fun haligned => ?aligned, fun hmis => ?misaligned⟩, fun v addr region haligned => ?store,
    fun first addr region hfirst haligned => ?block⟩
  case aligned =>
    have hleaves := access_leaves 1 _ _ _ (exec_scalarLoad hissues d addr region)
    simp only [alignedUse, if_pos haligned] at hleaves
    exact hleaves
  case misaligned =>
    have hleaves := access_leaves 1 _ _ _ (exec_scalarLoad hissues d addr region)
    simp only [alignedUse, if_neg hmis] at hleaves
    exact hleaves
  case store =>
    have hleaves := access_leaves 64 _ _ _ (exec_scalarStore hissues v addr region)
    simp only [alignedUse, storeRuns, if_pos haligned] at hleaves
    exact hleaves
  case block =>
    have hwords (m : Memory) (a : Nat) :
        (List.range 8).map (fun k => (BitVec.ofNat 64 (leNat (slice (readBytes m a 64) (8 * k) 8)) : DWord)) =
          (List.range 8).map (fun k => BitVec.ofNat 64 (leNat (readBytes m (a + 8 * k) 8))) := by
      refine List.map_congr_left (fun k hk => ?_)
      have hlt := List.mem_range.mp hk
      rw [slice_readBytes m a 64 (8 * k) 8 (by omega)]
    have hleaves := access_leaves 64 _ _ _ (exec_pBlockLoad hissues first addr region hfirst)
    simp only [alignedUse, if_pos haligned, hwords] at hleaves
    exact hleaves

end Sys2Proof.Machine
end

section
/-! PROOFS. Hardware loops (O29). -/

namespace Sys2Proof.Machine

set_option Elab.async false

/-- LOOP_START where its bundle issues: a fifth level stops the model, a count of 0 skips the body, another one begins it. -/
theorem exec_loopStart {s : State} {i : Iss} {last : Word} (l : LReg) (h : Issues s i slotScalar) (hlast : i.bundle < last) :
    let x := (s.tile i.tile.val).begunAt s i slotScalar
    let n := x.samp.getL l.val
    exec (.loopStart i l last) s =
      (if 4 ≤ x.loops.length then .fault .nestingTooDeep
       else if n = 0 then .next ((begun s i slotScalar).setTile i.tile.val (x.resolve last))
       else .next ((begun s i slotScalar).setTile i.tile.val
         { x with loops := { first := i.bundle + 1, last := last, count := n, index := 0 } :: x.loops })) := by
  intro x n
  change execLoopStart i l last s = _
  rw [execLoopStart, eccGuard_issues h, opLoopStart, issue_of_issues h (decide_eq_true hlast), begun_tile]

/-- Settles O29. -/
theorem loopsComplete : Obligations.LoopsComplete := by
  unfold Obligations.LoopsComplete
  refine ⟨fun s i l last hissues hlast => ?start, fun b f rest => ⟨fun hne => ?_, fun hlast hmore => ?_, fun hlast hdone => ?_, rfl⟩,
    fun s k f rest hrun => ?bodyEnd⟩
  case start =>
    intro x n
    rw [exec_loopStart l hissues hlast]
    refine ⟨fun hroom hzero => ?_, fun hroom hcount => ?_, fun hfull => if_pos hfull⟩
    · rw [if_neg (Nat.not_le.mpr hroom), if_pos hzero]
      rfl
    · rw [if_neg (Nat.not_le.mpr hroom), if_neg hcount]
  case bodyEnd =>
    intro t hcur hloops hissued hresolved
    change execLoopBodyEnd k s = _
    simp only [execLoopBodyEnd, t, hcur, hloops, hrun, and_self, if_true, Tile.endBundle, hissued, hresolved, Tile.resolve]
  · rw [endLoops, if_neg hne]
  · rw [endLoops, if_pos hlast, if_pos hmore]
  · rw [endLoops, if_pos hlast, if_neg hdone]

end Sys2Proof.Machine
end

section
/-! PROOFS. Resident routines and the lines of the instruction store (O30, O31). -/

namespace Sys2Proof.Machine

set_option Elab.async false

/-! ### Routines -/

/-- Where the codes find nothing in a bundle that issues, they find nothing in the routine either. -/
theorem routineGuard_issues {s : State} {i : Iss} {slot : Byte} (h : Issues s i slot) (id : BitVec 16) (f : State → Res) :
    routineGuard i id f s = f s := by
  have hguard : eccGuard i f s = f s := eccGuard_issues h f
  obtain ⟨-, hnone, -⟩ := h
  unfold routineGuard
  simp only [hnone, hguard, ite_self]

/-- ROUTINE_CALL where its bundle issues: the conditions of a call, in order. -/
theorem exec_routineCall {s : State} {i : Iss} {id : BitVec 16} {r : Routine} (h : Issues s i slotScalar)
    (hr : s.routineOf id = some r) :
    let x := (s.tile i.tile.val).begunAt s i slotScalar
    let p := routineParams x.samp
    exec (.routineCall i id) s =
      (if x.slotsIn.any (fun k => decide (k.toNat ≤ 2)) then .fault .encodingOutsideSet
       else if 2 < x.loops.length then .fault .nestingTooDeep
       else if routineEnginesBusy x r then .fault .routineEngineBusy
       else if !routineInRange r p then .fault .routineParameterRange
       else .next ((begun s i slotScalar).setTile i.tile.val { x with routine := some {
         id := id, params := p, call := s.runCycle.toNat, cycles := (begun s i slotScalar).routineCycles r p } })) := by
  intro x p
  have hroutine : (begun s i slotScalar).routineOf id = some r := hr
  change execRoutineCall i id s = _
  rw [execRoutineCall, routineGuard_issues h, opRoutineCall, issue_of_issues h (by rw [hr]; rfl)]
  simp only [hroutine, begun_tile, begun_runCycle]
  rfl

/-- Writes that leave a G register, one by one. -/
theorem getG_foldl {α : Type} (g : Nat) (f : Regs → α → Regs) (l : List α) (r : Regs)
    (h : ∀ r a, (f r a).getG g = r.getG g) : (l.foldl f r).getG g = r.getG g := by
  induction l generalizing r with
  | nil => rfl
  | cons a l ih => rw [List.foldl_cons, ih, h]

/-- Writes that leave a mask register, one by one. -/
theorem getM_foldl {α : Type} (k : Nat) (f : Regs → α → Regs) (l : List α) (r : Regs)
    (h : ∀ r a, (f r a).getM k = r.getM k) : (l.foldl f r).getM k = r.getM k := by
  induction l generalizing r with
  | nil => rfl
  | cons a l ih => rw [List.foldl_cons, ih, h]

/-- A routine leaves the G registers below its parameters. -/
theorem getG_routineRegs (r : Regs) (id : BitVec 16) (p : List DWord) (m : Memory) {g : Nat} (hg : g < 20) :
    (routineRegs r id p m).getG g = r.getG g := by
  unfold routineRegs
  dsimp only
  rw [getG_foldl, getG_foldl, getG_foldl]
  · exact fun r k => Regs.getG_setG_other _ _ _ _ (by omega)
  · exact fun r k => rfl
  · exact fun r k => rfl

/-- A routine leaves the masks below M12. -/
theorem getM_routineRegs (r : Regs) (id : BitVec 16) (p : List DWord) (m : Memory) {k : Nat} (hk : k < 12) :
    (routineRegs r id p m).getM k = r.getM k := by
  unfold routineRegs
  dsimp only
  rw [getM_foldl, getM_foldl, getM_foldl]
  · exact fun r j => rfl
  · exact fun r j => rfl
  · exact fun r j => Regs.getM_setM_other _ _ _ _ (by omega)

/-- Settles O30. -/
theorem routinesAndMissesComplete : Obligations.RoutinesAndMissesComplete := by
  unfold Obligations.RoutinesAndMissesComplete
  refine ⟨fun s i id r hissues hr => ?call, fun s k q hroutine hrun hcycles => ?returns, fun s k line hheld => ?fill⟩
  case call =>
    intro x p hslots
    rw [exec_routineCall hissues hr]
    refine ⟨fun hloops hfree hrange => ?_, fun hloops => ?_, fun hloops hbusy => ?_, fun hloops hfree hrange => ?_⟩
    · have hloops' : ¬ 2 < x.loops.length := by omega
      simp only [x, p, hslots, hloops', hfree, hrange, Bool.not_true, Bool.false_eq_true, if_false]
    · simp only [x, hslots, hloops, Bool.false_eq_true, if_false, if_true]
    · have hloops' : ¬ 2 < x.loops.length := by omega
      simp only [x, hslots, hloops', hbusy, Bool.false_eq_true, if_false, if_true]
    · have hloops' : ¬ 2 < x.loops.length := by omega
      simp only [x, p, hslots, hloops', hfree, hrange, Bool.not_false, Bool.false_eq_true, if_false, if_true]
  case returns =>
    intro x out
    have hexec : exec (.routineReturn k) s = .next (s.routineReturn k.val) := by
      change execRoutineReturn k s = _
      rw [execRoutineReturn, if_pos hrun]
    obtain ⟨l, hl⟩ : ∃ l : Late, l =
        { ready := s.runCycle.toNat + 1, order := 0, slot := slotVector, bundle := routineBundle q.id 0,
          eff := .scratch out.writes, uses := [], isOpen := x.faulted } := ⟨_, rfl⟩
    obtain ⟨regs, hregs⟩ : ∃ r : Regs, r = routineRegs x.regs q.id q.params x.scratch := ⟨_, rfl⟩
    have hreturn : s.routineReturn k.val = s.setTile k.val ({ x with
        regs := regs, routine := none, cur := none, issuedAt := some s.runCycle,
        flags := x.flags ||| out.flags }.addLate l) := by
      unfold State.routineReturn
      simp only [hroutine, if_pos hcycles, x, out, hl, hregs]
    rw [hreturn] at hexec
    refine ⟨_, l, hexec, OnlyTile.setTile _ _ _, ?_⟩
    rw [State.setTile_same]
    dsimp only [Tile.addLate]
    exact ⟨rfl, rfl, rfl, rfl, by rw [hl], by rw [hl], fun g hg => by rw [hregs, getG_routineRegs _ _ _ _ hg],
      fun m hm => by rw [hregs, getM_routineRegs _ _ _ _ hm], rfl⟩
  case fill =>
    have hexec : exec (.istoreMissFill k line) s = .next (s.setTile k.val { s.tile k.val with
        istore := mset (s.tile k.val).istore (line % 2048) line, istoreHeld := none }) := by
      change execIstoreMissFill k line s = _
      exact if_pos hheld
    refine ⟨_, hexec, OnlyTile.setTile _ _ _, ?_⟩
    rw [State.setTile_same]
    exact ⟨rfl, mfind_mset_same _ _ _, fun n hn => mfind_mset_other _ _ _ _ hn, rfl, rfl⟩

/-! ### Where a bundle may not issue -/

/-- SCALAR_OP of a bundle that may not issue does nothing. -/
theorem exec_scalarOp_idle {s : State} {i : Iss} (op : ScalarOp) (h : mayIssue s i = false) :
    exec (.scalarOp i op) s = .next s := by
  change eccGuard i (opScalarOp i op) s = _
  simp [eccGuard, h, opScalarOp, issue, issueOn]

/-- SCALAR_OP of a bundle whose line is absent does not act. -/
theorem exec_scalarOp_miss {s : State} {i : Iss} (op : ScalarOp) (hmay : mayIssue s i = true) (hfirst : inBundle s i = false)
    (hmiss : storeHolds (s.tile i.tile.val) i.bundle = false) : exec (.scalarOp i op) s = .next (missLine s i) := by
  change eccGuard i (opScalarOp i op) s = _
  simp [eccGuard, hmay, hmiss, opScalarOp, issue, issueOn, hfirst]

/-- Settles O31. -/
theorem nothingIssuesWhereTheTileMayNot : Obligations.NothingIssuesWhereTheTileMayNot := by
  unfold Obligations.NothingIssuesWhereTheTileMayNot
  intro s i op t
  refine ⟨exec_scalarOp_idle op, fun hdisabled => ?disabled, fun hfirst hstop => ?stopped,
    fun hmay hfirst hmiss => ⟨exec_scalarOp_miss op hmay hfirst hmiss, fun hrelaxed => ?relaxed, fun hstrict => ?strict⟩⟩
  case disabled => simp [mayIssue, hdisabled]
  case stopped =>
    have hbegin : mayBegin s i = false := by
      simp only [t] at hstop
      rcases hstop with h | h | h | h | h <;> simp [mayBegin, h]
    simp [mayIssue, hfirst, hbegin]
  case relaxed =>
    have hline : missLine s i = { (s.modTile i.tile.val (fun t => { t with istoreHeld := some (Config.bundleLine i.bundle) })) with
        run := { s.run with missOccurred := true } } := if_pos hrelaxed
    have htile : (missLine s i).tile i.tile.val = { s.tile i.tile.val with istoreHeld := some (Config.bundleLine i.bundle) } := by
      rw [hline]
      exact (State.modTile_same s i.tile.val (fun t => { t with istoreHeld := some (Config.bundleLine i.bundle) }) :)
    exact ⟨by rw [htile], by rw [hline]⟩
  case strict =>
    have hparts : s.run.state = .running ∧ (s.tile i.tile.val).faulted = false := by
      simp only [mayIssue, hfirst, mayBegin, Bool.false_or, Bool.and_eq_true, beq_iff_eq, Bool.not_eq_true'] at hmay
      exact ⟨hmay.1.1.1, hmay.2.1.1.1.1.1.1⟩
    obtain ⟨hstate, hclear⟩ := hparts
    have hactive : s.runActive = true := by simp [State.runActive, hstate]
    have hline : missLine s i = s.contractFault i.tile.val cfIstoreMiss slotNone i.bundle
        (BitVec.ofNat 64 (Config.bundleLine i.bundle)) (BitVec.ofNat 64 (Config.bundleLine i.bundle % 2048)) := by
      simp [missLine, hstrict]
    rw [hline]
    exact (s.contractFault_records i.tile.val _ _ _ _ _ hactive hclear).1

end Sys2Proof.Machine
end

section
/-! PROOFS. The stream slot: descriptors and queued work (O32, O33). -/

namespace Sys2Proof.Machine

set_option Elab.async false

/-! ### Contract faults -/

/-- The record of a contract fault that a tile raises now (Table 06.10). -/
def State.contractRecord (s : State) (t : Nat) (code : BitVec 16) (slot : Byte) (bundle : Word) (offending detail : DWord) :
    FaultRec :=
  { tile := BitVec.ofNat 16 t, code := code, slot := slot, more := false, inRoutine := (s.tile t).routine.isSome,
    bundle := bundle, runCycle := s.runCycle, meridian := s.clock.meridian, offending := offending, detail := detail }

/-- The first contract fault of a tile in a run stops the tile and adds its record. -/
theorem State.contractFault_first {s : State} {t : Nat} (code : BitVec 16) (slot : Byte) (bundle : Word)
    (offending detail : DWord) (hrun : s.runActive = true) (hclear : (s.tile t).faulted = false) :
    s.contractFault t code slot bundle offending detail =
      { s.modTile t (fun x => { x with faulted := true }) with
        run := { s.run with faults := s.run.faults ++ [s.contractRecord t code slot bundle offending detail] } } := by
  simp only [State.contractFault, State.raiseContract, hrun, hclear, if_true, Bool.false_eq_true, if_false,
    State.contractRecord]

/-! ### Descriptors -/

/-- A failed check of a descriptor stops the tile with one record, which names the descriptor and the code (Table 07.6). -/
theorem descFault_records {s : State} {i : Iss} (d : Fin 32) (code : Nat) (hrun : s.runActive = true)
    (hclear : (s.tile i.tile.val).faulted = false) :
    ((s.descFault i d code).tile i.tile.val).faulted = true ∧
    ∃ f, (s.descFault i d code).run.faults = s.run.faults ++ [f] ∧ f.code = 8 ∧ f.detail = BitVec.ofNat 64 code ∧
      f.offending = BitVec.ofNat 64 d.val ∧ f.slot = slotStream ∧ f.bundle = i.bundle ∧ f.runCycle = s.runCycle := by
  unfold State.descFault State.streamFault
  rw [State.contractFault_first _ _ _ _ _ hrun hclear]
  refine ⟨?_, _, rfl, rfl, rfl, rfl, rfl, rfl, rfl⟩
  rw [State.drawn_tile, State.modTile_same]
  change ((s.modTile i.tile.val (fun x => { x with faulted := true })).tile i.tile.val).faulted = true
  rw [State.modTile_same]

/-- SETUP, where its bundle issues. -/
theorem exec_setup {s : State} {i : Iss} (d : Fin 32) {a : SetupArg} (h : Issues s i slotStream) (hcounts : a.counts.length ≤ 5)
    (hstrides : a.strides.length ≤ 5) :
    let x := (s.tile i.tile.val).begunAt s i slotStream
    exec (.setup i d a) s =
      (if (x.desc d.val).running then .next ((begun s i slotStream).descFault i d 7)
       else .next ((begun s i slotStream).setTile i.tile.val
         (x.setDesc d.val (setupDesc (x.desc d.val) x.samp a i.bundle)))) := by
  intro x
  change execSetup i d a s = _
  rw [execSetup, eccGuard_issues h, opSetup, issue_of_issues h (by simp [hcounts, hstrides]), begun_tile]

/-- START, where its bundle issues. -/
theorem exec_start {s : State} {i : Iss} (d : Fin 32) (h : Issues s i slotStream) :
    let x := (s.tile i.tile.val).begunAt s i slotStream
    let c := x.desc d.val
    let base := if c.dir = 2 then c.remoteBase else c.hbmBase
    exec (.start i d) s =
      (if !c.isSetup then .next ((begun s i slotStream).descFault i d 11)
       else match descCode (begun s i slotStream) x c base, c.running with
         | some code, _ => .next ((begun s i slotStream).descFault i d code)
         | none, true => .next ((begun s i slotStream).descFault i d 7)
         | none, false => .next ((begun s i slotStream).setTile i.tile.val (x.setDesc d.val
             { (c.beginPass s.runCycle.toNat base s.runCycle i.bundle false) with ringPos := 0 }))) := by
  intro x c base
  change execStart i d s = _
  rw [execStart, eccGuard_issues h, opStart, issue_of_issues h rfl, begun_tile] <;> rfl

/-- REARM, where its bundle issues. -/
theorem exec_rearm {s : State} {i : Iss} (d : Fin 32) (b : Src) (last : Bool) (h : Issues s i slotStream) :
    let x := (s.tile i.tile.val).begunAt s i slotStream
    let c := x.desc d.val
    let base := x.samp.srcN b
    let put (y : Descriptor) : Res := .next ((begun s i slotStream).setTile i.tile.val (x.setDesc d.val y))
    exec (.rearm i d b last) s =
      (if !c.isSetup then .next ((begun s i slotStream).descFault i d 11)
       else match descCode (begun s i slotStream) x c base with
         | some code => .next ((begun s i slotStream).descFault i d code)
         | none =>
           if !c.persistent then .next ((begun s i slotStream).descFault i d 7)
           else if c.turned s.runCycle.toNat then
             put { (c.beginPass s.runCycle.toNat base s.runCycle i.bundle last) with overrun := true }
           else if c.running then
             put { c with shadow := some (base, last, s.runCycle, i.bundle), overrun := c.overrun || c.shadow.isSome }
           else put (c.beginPass s.runCycle.toNat base s.runCycle i.bundle last)) := by
  intro x c base put
  change execRearm i d b last s = _
  rw [execRearm, eccGuard_issues h, opRearm, issue_of_issues h rfl, begun_tile] <;> rfl

/-- Settles O32. -/
theorem descriptorsAreSetUp : Obligations.DescriptorsAreSetUp := by
  unfold Obligations.DescriptorsAreSetUp
  intro s i d hissues x s1 c put now base faults
  have hfaults (e : Instr) (code : Nat) (hclear : x.faulted = false) (hexec : exec e s = .next (s1.descFault i d code)) :
      faults e (BitVec.ofNat 64 code) := by
    have hclear' : (s1.tile i.tile.val).faulted = false := by
      simp only [s1, begun_tile]
      exact hclear
    obtain ⟨hfaulted, f, hrecords, hcode, hdetail, hoffending, hslot, hbundle, hcycle⟩ :=
      descFault_records d code ((begun_runActive s i slotStream).trans hissues.runActive) hclear'
    exact ⟨_, f, hexec, hfaulted, hrecords, hcode, hdetail, hoffending, hslot, hbundle, hcycle⟩
  have hstart := exec_start d hissues
  refine ⟨fun a hcounts hstrides => ⟨fun hrest => ?setup, fun hclear hruns => ?setupRuns⟩,
    fun hset hrest hok => ?start, fun hclear hset hruns hok => ?startRuns, fun hclear hunset => ?startUnset,
    fun b last => ⟨fun hclear hunset => ?rearmUnset, fun hset hpersistent hok hturned => ⟨fun hrest => ?rearm, fun hruns => ?shadow⟩⟩⟩
  case setup => exact (exec_setup d hissues hcounts hstrides).trans (if_neg (by simp [x, c] at hrest; simp [hrest]))
  case setupRuns => exact hfaults _ 7 hclear ((exec_setup d hissues hcounts hstrides).trans (if_pos hruns))
  case start => simpa only [x, c, s1, base, put, hset, hrest, hok, Bool.not_true, Bool.false_eq_true, if_false] using hstart
  case startRuns =>
    refine hfaults _ 7 hclear ?_
    simpa only [x, c, s1, base, hset, hruns, hok, Bool.not_true, Bool.false_eq_true, if_false] using hstart
  case startUnset =>
    refine hfaults _ 11 hclear ?_
    simpa only [x, c, s1, hunset, Bool.not_false, if_true] using hstart
  case rearmUnset =>
    refine hfaults _ 11 hclear ?_
    simpa only [x, c, s1, hunset, Bool.not_false, if_true] using exec_rearm d b last hissues
  case rearm =>
    have hrearm := exec_rearm d b last hissues
    simpa only [x, c, s1, put, now, hset, hok, hpersistent, hturned, hrest, Bool.not_true, Bool.false_eq_true, if_false] using hrearm
  case shadow =>
    have hrearm := exec_rearm d b last hissues
    simpa only [x, c, s1, put, now, hset, hok, hpersistent, hturned, hruns, Bool.not_true, Bool.false_eq_true, if_false, if_true]
      using hrearm

/-- Settles O33. -/
theorem streamSlotCompletes : Obligations.StreamSlotCompletes := by
  unfold Obligations.StreamSlotCompletes
  intro s i hissues x r now put
  have hx : (begun s i slotStream).tile i.tile.val = x := begun_tile s i slotStream
  refine ⟨fun compute hfree => ?phase, fun a hrange hphase => ?fill, fun a hsource htarget hphase hapart => ?copy,
    fun a hform hone hmany => ?prefetch, fun w a hok => ?windowOpen, fun w => ?windowClose, fun d seg ep g hg => ?postSend⟩
  case phase =>
    change execPhase i compute s = _
    rw [execPhase, eccGuard_issues hissues, opPhase, issue_of_issues hissues rfl, hx]
    refine if_neg ?_
    rcases hfree with hfree | hfree
    · simp [hfree]
    · have hruns : x.fillRuns = [] := hfree
      simp [hruns]
  case fill =>
    change execFill i a s = _
    rw [execFill, eccGuard_issues hissues, opFill, issue_of_issues hissues rfl, hx]
    exact if_pos (by simp [hrange, hphase, r])
  case copy =>
    change execCopy i a s = _
    rw [execCopy, eccGuard_issues hissues, opCopy, issue_of_issues hissues rfl, hx]
    exact if_pos (by simpa [hsource, htarget, hphase, r] using hapart)
  case prefetch =>
    intro lines
    have hcount : prefetchCount r a.count (begun s i slotStream).freeCtr = r.srcN a.count := if_pos ⟨hone, hmany⟩
    obtain ⟨y, hy⟩ : ∃ y : Tile, y = { x with prefetches := x.prefetches ++
      [{ lines := lines, sem := a.sem, bundle := i.bundle, needBy := r.src a.needBy }] } := ⟨_, rfl⟩
    obtain ⟨reqs, hreqs⟩ : ∃ l, l = lines.map ((begun s i slotStream).codeRequest i.tile (r.src a.needBy)) := ⟨_, rfl⟩
    have hexec : ∃ t, exec (.codePrefetch i a) s = .next t ∧ t.tiles = (put y).tiles ∧
        t.mem = { s.mem with net := s.mem.net ++ reqs } ∧ t.run = s.run := by
      change ∃ t, execCodePrefetch i a s = .next t ∧ _
      rw [execCodePrefetch, eccGuard_issues hissues, opCodePrefetch, issue_of_issues hissues hform, hx]
      dsimp only
      rw [hcount, ← hy, ← hreqs]
      exact ⟨_, rfl, rfl, rfl, rfl⟩
    obtain ⟨t, hnext, htiles, hmem, hrun⟩ := hexec
    obtain ⟨-, hother⟩ := (OnlyTile.begun s i slotStream).trans (OnlyTile.setTile (begun s i slotStream) i.tile.val y)
    have htile (j : Nat) : t.tile j = (put y).tile j := by
      simp only [State.tile, htiles]
    have hself : t.tile i.tile.val = y := (htile _).trans (State.setTile_same _ _ _)
    refine ⟨t, hnext, ?_, ?_, ?_, ?_, by rw [hmem], hrun, fun j hj => (htile j).trans (hother j hj)⟩
    · rw [hself, hy]
    · rw [hmem, List.map_append, hreqs, List.map_map]
      rfl
    · rw [hself, hy]
    · rw [hself, hy]
  case windowOpen =>
    change execWindowOpen i w a s = _
    rw [execWindowOpen, eccGuard_issues hissues, opWindowOpen, issue_of_issues hissues rfl, hx]
    exact if_pos hok
  case windowClose =>
    change execWindowClose i w s = _
    rw [execWindowClose, eccGuard_issues hissues, opWindowClose, issue_of_issues hissues rfl, hx]
  case postSend =>
    change execPostSend i d seg ep g s = _
    rw [execPostSend, eccGuard_issues hissues, opPostSend, issue_of_issues hissues (decide_eq_true hg), hx]

end Sys2Proof.Machine
end

section
/-! PROOFS. Work of the stream engine that ends (O34). -/

namespace Sys2Proof.Machine

set_option Elab.async false

/-! ### Semaphores -/

/-- An addition that a semaphore can hold. -/
theorem semAdd_fits {s : State} {t k n : Nat} (slot : Byte) (bundle : Word) (h : ((s.tile t).sem k).toNat + n ≤ 65535) :
    s.semAdd t k n slot bundle = s.modTile t (fun x => x.setSem k (BitVec.ofNat 16 (((s.tile t).sem k).toNat + n))) :=
  if_pos h

@[simp] theorem Tile.sem_setSem (x : Tile) (k : Nat) (v : BitVec 16) : (x.setSem k v).sem k = v := by
  simp [Tile.sem, Tile.setSem, mget_mset_same]

/-- The count of a semaphore that can hold an addition. -/
theorem toNat_semSum {c n : Nat} (h : c + n ≤ 65535) : (BitVec.ofNat 16 (c + n)).toNat = c + n := by
  rw [BitVec.toNat_ofNat]
  omega

/-! ### Fills -/

/-- The data of a fill has its length. -/
theorem fillData_length {x : Tile} {f : FillRun} (hsource : f.source = none) (hlen : f.length % 8 = 0) :
    (fillData x f).length = f.length := by
  have hwords : f.length / 8 * 8 = f.length := by omega
  simp [fillData, hsource, Laws.leBytes_length, List.length_flatMap, hwords]

/-- Without lines to read nothing is met: of the state the tile alone is written, with what it holds. -/
theorem meetUpsets_nil (s : State) (k : TileNo) : (s.meetUpsets k.val []).mem = s.mem ∧ (s.meetUpsets k.val []).run = s.run ∧
    (s.meetUpsets k.val []).host = s.host ∧ (s.meetUpsets k.val []).runCycle = s.runCycle := by
  unfold State.meetUpsets
  split
  · exact ⟨rfl, rfl, rfl, rfl⟩
  · exact ⟨rfl, rfl, rfl, rfl⟩

/-- A fill at the head of the engine's list ends in its last cc. -/
theorem fillEnds_head {s : State} {k : Nat} {f : FillRun} {rest : List FillRun} (hruns : (s.tile k).fillRuns = f :: rest)
    (hdone : f.done = false) (hends : f.ends ≤ s.runCycle.toNat) :
    s.fillEnds k = (s.setTile k { s.tile k with fillRuns := { f with done := true } :: rest }).endFill k f := by
  simp [State.fillEnds, hruns, hdone, hends, List.findIdx_cons]

/-- FILL_COPY_DONE of a fill at the head of the engine's list reads nothing. -/
theorem exec_fillCopyDone {s : State} {k : TileNo} {f : FillRun} {rest : List FillRun} (hrun : s.runActive = true)
    (hruns : (s.tile k.val).fillRuns = f :: rest) (hdone : f.done = false) (hends : f.ends ≤ s.runCycle.toNat)
    (hsource : f.source = none) : exec (.fillCopyDone k) s = .next ((s.meetUpsets k.val []).fillEnds k.val) := by
  have hfirst : (s.tile k.val).fillRuns.find? (fun f => !f.done && decide (f.ends ≤ s.runCycle.toNat)) = some f := by
    rw [hruns]
    simp [hdone, hends]
  have hactive : (s.meetUpsets k.val []).runActive = true := by
    rw [State.runActive, (meetUpsets_nil s k).2.1]
    exact hrun
  change execFillCopyDone k s = _
  rw [execFillCopyDone, opFillCopyDone, hfirst]
  simp only [Option.bind_some, hsource, Option.map_none, Option.getD_none, hrun, if_true, hactive]

/-! ### Prefetches -/

/-- A line that the first prefetch of a tile waits for. -/
theorem prefetched_head {s : State} {k line : Nat} {needBy : DWord} {p : Prefetch} {rest : List Prefetch}
    (hpre : (s.tile k).prefetches = p :: rest) (hneed : p.needBy = needBy) (hwaits : p.lines.contains line = true) :
    s.prefetched k line needBy =
      (if (p.lines.erase line).isEmpty then
         (s.setTile k { s.tile k with prefetches := rest }).semAdd k p.sem.val 1 slotNone p.bundle
       else s.setTile k { s.tile k with prefetches := { p with lines := p.lines.erase line } :: rest }) := by
  have hfirst : (p.needBy == needBy && p.lines.contains line) = true := by
    rw [hneed, hwaits, beq_self_eq_true, Bool.and_self]
  simp only [State.prefetched, hpre, List.find?_cons, hfirst, List.findIdx_cons, cond_true, List.eraseIdx_cons_zero,
    List.set_cons_zero]

/-- Settles O34. -/
theorem streamWorkEnds : Obligations.StreamWorkEnds := by
  unfold Obligations.StreamWorkEnds
  intro s k hrun x
  refine ⟨fun f rest hruns hdone hends hsource hfits hlen hsem => ?fill,
    fun n line needBy p rest hfirst hpre hneed hwaits hsem => ?line, fun p hready => ?post⟩
  case fill =>
    obtain ⟨u, hu⟩ : ∃ u, u = s.meetUpsets k.val [] := ⟨_, rfl⟩
    obtain ⟨hmem, hrunU, hhost, hcycle⟩ := meetUpsets_nil s k
    rw [← hu] at hmem hrunU hhost hcycle
    have htile : u.tile k.val = x := by rw [hu, meetUpsets_nil_tile]
    have hexec := exec_fillCopyDone hrun hruns hdone hends hsource
    rw [← hu] at hexec
    have hruns' : (u.tile k.val).fillRuns = f :: rest := by rw [htile, hruns]
    rw [fillEnds_head hruns' hdone (by rw [hcycle]; exact hends), State.endFill] at hexec
    obtain ⟨v, hv⟩ : ∃ v, v = (u.setTile k.val { u.tile k.val with fillRuns := { f with done := true } :: rest }).modTile k.val
        (fun x => x.writeScratch f.addr (fillData x f)) := ⟨_, rfl⟩
    have hvtile : v.tile k.val = { x with fillRuns := { f with done := true } :: rest }.writeScratch f.addr (fillData x f) := by
      rw [hv, State.modTile_same, State.setTile_same, htile]
      simp only [fillData, hsource]
    have hvsem : (v.tile k.val).sem f.sem.val = x.sem f.sem.val := by
      rw [hvtile]
      rfl
    have hroom : ((v.tile k.val).sem f.sem.val).toNat + 1 ≤ 65535 := by rw [hvsem]; omega
    rw [← hv, semAdd_fits _ _ hroom, hvsem] at hexec
    refine ⟨_, hexec, ?_⟩
    rw [State.modTile_same, hvtile]
    have htake : (fillData x f).take (scratchBytes - f.addr) = fillData x f := by
      refine List.take_of_length_le ?_
      rw [fillData_length hsource hlen]
      omega
    refine ⟨rfl, congrArg (writeBytes x.scratch f.addr) htake, ?_, rfl, ?_, ?_, ?_⟩
    · rw [Tile.sem_setSem, toNat_semSum]
      omega
    · rw [← hmem, hv]
      rfl
    · rw [← hrunU, hv]
      rfl
    · rw [← hhost, hv]
      rfl
  case line =>
    obtain ⟨y, hy⟩ : ∃ y : Tile, y = { x with
      codeIn := x.codeIn.eraseIdx n, istore := mset x.istore (line % 2048) line,
      istoreHeld := if x.istoreHeld = some line then none else x.istoreHeld } := ⟨_, rfl⟩
    have hexec : exec (.prefetchLineArrival k) s = .next ((s.setTile k.val y).prefetched k.val line needBy) := by
      change execPrefetchLineArrival k s = _
      simp only [execPrefetchLineArrival]
      rw [show firstKeyed (fun e : Nat × DWord => tileKey (some e.2) k.val 32 0 (256 * e.1)) (s.tile k.val).codeIn =
        some (n, line, needBy) from hfirst]
      simp only [hrun, if_true, hy, x]
    have hpre' : ((s.setTile k.val y).tile k.val).prefetches = p :: rest := by
      rw [State.setTile_same, hy]
      exact hpre
    rw [prefetched_head hpre' hneed hwaits, State.setTile_same] at hexec
    by_cases hlast : p.lines.erase line = []
    · have hempty : (p.lines.erase line).isEmpty = true := by rw [hlast]; rfl
      have hroom : ((((s.setTile k.val y).setTile k.val { y with prefetches := rest }).tile k.val).sem p.sem.val).toNat + 1 ≤
          65535 := by
        rw [State.setTile_same, hy]
        exact hsem hlast
      rw [if_pos hempty, semAdd_fits _ _ hroom] at hexec
      refine ⟨_, hexec, ?_⟩
      rw [State.modTile_same, State.setTile_same]
      have hsem' : (y.sem p.sem.val) = x.sem p.sem.val := by rw [hy]; rfl
      refine ⟨by rw [hy]; rfl, by rw [hy]; rfl, fun hmore => absurd hlast hmore, fun _ => ⟨rfl, ?_⟩, by rw [hy]; rfl, rfl, rfl⟩
      rw [Tile.sem_setSem, toNat_semSum]
      · exact congrArg (fun v => v.toNat + 1) hsem'
      · rw [State.setTile_same] at hroom
        exact hroom
    · have hmore : ¬ (p.lines.erase line).isEmpty = true := by rwa [List.isEmpty_iff]
      rw [if_neg hmore] at hexec
      refine ⟨_, hexec, ?_⟩
      rw [State.setTile_same]
      exact ⟨by rw [hy], by rw [hy], fun _ => ⟨rfl, by rw [hy]⟩, fun hnone => absurd hnone hlast, by rw [hy], rfl, rfl⟩
  case post =>
    change execPostSendDispatch k s = _
    simp only [execPostSendDispatch]
    rw [show (s.tile k.val).postSends[(s.tile k.val).postSends.findIdx (s.tile k.val).postReady]? = some p from hready]
    simp only [hrun, if_true, x]

end Sys2Proof.Machine
end

section
/-! PROOFS. Transfers, inbound data, windows and refusals (O35). -/

namespace Sys2Proof.Machine

set_option Elab.async false

/-! ### Semaphores and descriptors of a tile -/

theorem Tile.sem_setSem_other (x : Tile) {k n : Nat} (v : BitVec 16) (h : n ≠ k) : (x.setSem k v).sem n = x.sem n := by
  simp [Tile.sem, Tile.setSem, mget_mset_other _ _ k n v h]

@[simp] theorem Tile.desc_setDesc (x : Tile) (d : Nat) (c : Descriptor) : (x.setDesc d c).desc d = c := by
  simp [Tile.desc, Tile.setDesc, mget_mset_same]

/-- READY_TAKE of a descriptor that waits for its semaphore. -/
theorem exec_readyTake {s : State} {k : TileNo} {d : Fin 32} (hrun : s.runActive = true)
    (hclear : (s.tile k.val).faulted = false) (hruns : ((s.tile k.val).desc d.val).running = true)
    (hopens : ((s.tile k.val).desc d.val).opens ≤ s.runCycle.toNat) (hneeds : ((s.tile k.val).desc d.val).needsReady = true)
    (hsem : (s.tile k.val).sem ((s.tile k.val).desc d.val).readySem ≠ 0) :
    let x := s.tile k.val
    let c := x.desc d.val
    exec (.readyTake k d) s = .next (s.setTile k.val
      ((x.setDesc d.val { c with readyTaken := true, block := none }).setSem c.readySem (x.sem c.readySem - 1))) := by
  intro x c
  change execReadyTake k d s = _
  exact if_pos ⟨hrun, hclear, hruns, hopens, hneeds, hsem⟩

/-! ### Transfers -/

/-- A tile without upsets meets none. -/
theorem meetUpsets_none {s : State} {t : Nat} (lines : List Nat) (h : (s.tile t).upsets = []) : s.meetUpsets t lines = s := by
  unfold State.meetUpsets
  rw [h]
  rfl

/-- What TRANSFER_ISSUE does of a tile without upsets that may issue. -/
theorem exec_transferIssue {s : State} {k : TileNo} {n : Fin 32} {d : Descriptor} {tag : Fin 256}
    (hupsets : (s.tile k.val).upsets = []) (hissuable : s.issuable k = some (n, d, tag)) :
    exec (.transferIssue k) s = .next ((s.modTile k.val (fun t =>
      { (t.setDesc n.val (d.advance s.runCycle.toNat d.nextLen)) with
        tags := mset t.tags tag.val (s.nextTransfer n d), transferAt := some s.runCycle.toNat })).sendTransfer k tag d
          (s.nextTransfer n d)) := by
  change execTransferIssue k s = _
  rw [execTransferIssue, meetUpsets_none _ hupsets, opTransferIssue, hissuable]
  rfl

/-- A tile that has issued a transfer in this cc issues none. -/
theorem exec_transferIssue_idle {s : State} {k : TileNo} (hupsets : (s.tile k.val).upsets = [])
    (hissued : (s.tile k.val).transferAt = some s.runCycle.toNat) : exec (.transferIssue k) s = .next s := by
  have hnone : s.issuable k = none := by
    refine if_neg ?_
    rw [hissued]
    simp
  change execTransferIssue k s = _
  rw [execTransferIssue, meetUpsets_none _ hupsets, opTransferIssue, hnone]

/-- What a transfer puts on a network changes no tile. -/
theorem sendTransfer_tile (s : State) (k : TileNo) (tag : Fin 256) (d : Descriptor) (tr : Transfer) (j : Nat) :
    (s.sendTransfer k tag d tr).tile j = s.tile j := by
  unfold State.sendTransfer
  dsimp only
  split <;> rfl

theorem sendTransfer_keeps (s : State) (k : TileNo) (tag : Fin 256) (d : Descriptor) (tr : Transfer) :
    (s.sendTransfer k tag d tr).mem.hbm = s.mem.hbm ∧ (s.sendTransfer k tag d tr).runCycle = s.runCycle := by
  unfold State.sendTransfer
  dsimp only
  split <;> exact ⟨rfl, rfl⟩

/-- A transfer into the scratchpad asks for its bytes. -/
theorem sendTransfer_read {s : State} {d : Descriptor} (k : TileNo) (tag : Fin 256) (tr : Transfer) (h : d.dir = 0) :
    (s.sendTransfer k tag d tr).mem.net = s.mem.net ++ [{
      who := .tile k tag, isWrite := false, addr := tr.hbmAddr, len := tr.len, data := [], deadline := some tr.deadline,
      remote := none, poison := none }] := by
  simp only [State.sendTransfer, h]

/-- A transfer out of the scratchpad carries its bytes. -/
theorem sendTransfer_write {s : State} {d : Descriptor} (k : TileNo) (tag : Fin 256) (tr : Transfer) (h : d.dir = 1) :
    (s.sendTransfer k tag d tr).mem.net = s.mem.net ++ [{
      who := .tile k tag, isWrite := true, addr := tr.hbmAddr, len := tr.len,
      data := readBytes (s.tile k.val).scratch tr.localAddr tr.len, deadline := some tr.deadline,
      remote := none, poison := none }] := by
  simp only [State.sendTransfer, h]

/-- TRANSFER_COMPLETE of a done transfer that completes no segment. -/
theorem exec_transferComplete {s : State} {k : TileNo} {tag : Fin 256} {tr : Transfer}
    (htag : mfind (s.tile k.val).tags tag.val = some tr) (hdone : tr.done = true)
    (hnone : (((s.tile k.val).desc tr.desc.val).complete tr).2.2 = 0) :
    exec (.transferComplete k tag) s = .next (s.setTile k.val
      { ((s.tile k.val).setDesc tr.desc.val (((s.tile k.val).desc tr.desc.val).complete tr).1) with
        tags := merase (s.tile k.val).tags tag.val }) := by
  change execTransferComplete k tag s = _
  simp only [execTransferComplete, htag, hdone, if_true, if_pos hnone]

/-! ### Inbound data -/

/-- Read data that lands is written, and its transfer is done. -/
theorem landInbound_read (s : State) (k : TileNo) (tag : Fin 256) {a : Nat} {data : Bytes} (dl : Option DWord)
    (hfits : a + data.length ≤ scratchBytes) :
    OnlyTile s (s.landInbound k (.read tag a data dl)) k.val ∧
    ((s.landInbound k (.read tag a data dl)).tile k.val).holdArea = (s.tile k.val).holdArea ∧
    ((s.landInbound k (.read tag a data dl)).tile k.val).scratch = writeBytes (s.tile k.val).scratch a data ∧
    ((s.landInbound k (.read tag a data dl)).tile k.val).regs = (s.tile k.val).regs := by
  have hmark (y : Tile) : (y.markDone tag).holdArea = y.holdArea ∧ (y.markDone tag).scratch = y.scratch ∧
      (y.markDone tag).regs = y.regs := by
    unfold Tile.markDone
    split <;> exact ⟨rfl, rfl, rfl⟩
  have htake : data.take (scratchBytes - a) = data := List.take_of_length_le (by omega)
  unfold State.landInbound
  refine ⟨OnlyTile.trans (OnlyTile.modTile s k.val _) (OnlyTile.modTile _ k.val _), ?_⟩
  simp only [ State.modTile_same, hmark, Tile.writeScratch, htake, and_self]

/-- REMOTE_WRITE_JUDGED of the first remote write that can reach the tile: it leaves the network, and is taken or refused. -/
theorem exec_remoteWriteJudged {s : State} {k w : TileNo} {tag : Fin 256} {a : Nat} {data : Bytes} {dl : Option DWord}
    (hfirst : s.net.remotes.find? (fun e => e.1 == k && (s.tile k.val).takesRemote e.2) =
      some (k, Inbound.remote w tag a data dl)) :
    ∃ net : NetState, net.refusals = s.net.refusals ∧ exec (.remoteWriteJudged k) s =
      .next (if (s.tile k.val).accepts w a data.length then
        ({ s with net := net }).modTile k.val (fun t => { t with inbound := t.inbound ++ [Inbound.remote w tag a data dl] })
      else
        ({ s with net := { net with refusals := net.refusals ++ [(w, tag, k.val, a)] } }).modTile k.val
          (fun t => { t with refusals := satInc t.refusals })) := by
  let n := s.net.remotes.findIdx (fun e => e.1 == k && (s.tile k.val).takesRemote e.2)
  refine ⟨{ s.net with remotes := s.net.remotes.eraseIdx n }, rfl, ?_⟩
  change execRemoteWriteJudged k s = _
  simp only [execRemoteWriteJudged, hfirst]
  split <;> rfl

/-- Settles O35. -/
theorem transfersComplete : Obligations.TransfersComplete := by
  unfold Obligations.TransfersComplete
  refine ⟨⟨fun s k d hrun hclear => ?ready, fun s k n d tag hrun hlogical hclear hupsets hat hdesc htag => ?issue,
      fun s k tag tr htag hdone hnone => ?complete⟩,
    fun s k n x hnext => ⟨fun hempty hland => ?lands, fun hheld => ?enters⟩,
    fun s k tag a data dl rest hheld hland hfits => ?held,
    fun s k w tag a data dl hfirst => ⟨fun haccepts => ?accepted, fun hrefuses => ?refused⟩,
    fun s w tag dest a tr hrun hclear hfirst htag => ?violation⟩
  case ready =>
    intro x c hruns hopens hneeds hsem
    refine ⟨_, exec_readyTake hrun hclear hruns hopens hneeds hsem, ?_⟩
    rw [State.setTile_same]
    exact ⟨congrArg Descriptor.readyTaken (Tile.desc_setDesc x d.val _), Tile.sem_setSem _ _ _,
      fun n hn => Tile.sem_setSem_other _ _ hn, rfl, rfl, rfl⟩
  case issue =>
    have hissuable : s.issuable k = some (n, d, tag) := by
      simp [State.issuable, hrun, hlogical, hclear, hat, hdesc, htag]
    have hexec := exec_transferIssue hupsets hissuable
    obtain ⟨u, hu⟩ : ∃ u, u = s.modTile k.val (fun t =>
      { (t.setDesc n.val (d.advance s.runCycle.toNat d.nextLen)) with
        tags := mset t.tags tag.val (s.nextTransfer n d), transferAt := some s.runCycle.toNat }) := ⟨_, rfl⟩
    rw [← hu] at hexec
    obtain ⟨hhbm, hcycle⟩ := sendTransfer_keeps u k tag d (s.nextTransfer n d)
    have htile (j : Nat) := sendTransfer_tile u k tag d (s.nextTransfer n d) j
    refine ⟨_, s.nextTransfer n d, hexec, ?_, rfl, rfl, rfl, ?_, ?_, fun v hv => ?_, fun hdir => ?_, fun hdir => ?_, ?_, ?_, ?_,
      fun j hj => ?_⟩
    · rw [htile, hu, State.modTile_same, mfind_mset_same]
    · rw [htile, hu, State.modTile_same]
      exact Tile.desc_setDesc _ _ _
    · rw [htile, hu, State.modTile_same]
    · have hidle := exec_transferIssue_idle (s := u.sendTransfer k tag d (s.nextTransfer n d)) (k := k)
        (by rw [htile, hu, State.modTile_same]; exact hupsets)
        (by rw [htile, hcycle, hu, State.modTile_same]; rfl)
      exact (Host.Outcome.next.inj (hidle.symm.trans hv)).symm
    · rw [sendTransfer_read _ _ _ hdir, hu]
      rfl
    · have hlocal : (s.nextTransfer n d).localAddr = d.ringBase + d.ringPos := by
        simp [State.nextTransfer, Descriptor.usesScratch, hdir]
      have hscratch : (u.tile k.val).scratch = (s.tile k.val).scratch := by
        rw [hu, State.modTile_same]
        rfl
      rw [sendTransfer_write _ _ _ hdir, hlocal, hscratch, hu]
      rfl
    · rw [htile, hu, State.modTile_same]
      rfl
    · rw [htile, hu, State.modTile_same]
      rfl
    · rw [hhbm, hu]
      rfl
    · rw [htile, hu, State.modTile_other _ _ _ _ hj]
  case complete =>
    refine ⟨_, exec_transferComplete htag hdone hnone, OnlyTile.setTile _ _ _, ?_⟩
    rw [State.setTile_same]
    exact ⟨rfl, fun n hn => mfind_merase_other _ _ _ hn, Tile.desc_setDesc _ _ _, rfl, rfl⟩
  case lands =>
    change execInboundDataArrival k s = _
    simp only [execInboundDataArrival, hnext]
    exact if_pos (by simp [hempty, hland])
  case enters =>
    change execInboundDataArrival k s = _
    simp only [execInboundDataArrival, hnext]
    refine if_neg ?_
    rcases hheld with hheld | hland
    · simp [hheld]
    · simp [hland]
  case held =>
    have hexec : exec (.holdAreaWrite k) s =
        .next ((s.setTile k.val { s.tile k.val with holdArea := rest }).landInbound k (.read tag a data dl)) := by
      change execHoldAreaWrite k s = _
      simp only [execHoldAreaWrite, hheld]
      exact if_pos hland
    obtain ⟨honly, hholdArea, hscratch, hregs⟩ :=
      landInbound_read (s.setTile k.val { s.tile k.val with holdArea := rest }) k tag dl hfits
    rw [State.setTile_same] at hholdArea hscratch hregs
    exact ⟨_, hexec, (OnlyTile.setTile _ _ _).trans honly, hholdArea, hscratch, hregs⟩
  case accepted =>
    obtain ⟨net, -, hexec⟩ := exec_remoteWriteJudged hfirst
    rw [if_pos haccepts] at hexec
    refine ⟨_, hexec, OnlyTile.modTile { s with net := net } k.val _, ?_⟩
    rw [State.modTile_same]
    exact ⟨rfl, rfl⟩
  case refused =>
    obtain ⟨net, hrefusals, hexec⟩ := exec_remoteWriteJudged hfirst
    rw [if_neg (by simp [hrefuses])] at hexec
    refine ⟨_, hexec, congrArg (· ++ [(w, tag, k.val, a)]) hrefusals, ?_⟩
    rw [State.modTile_same]
    exact ⟨rfl, rfl, rfl⟩
  case violation =>
    obtain ⟨u, hu⟩ : ∃ u : State, u = { s with net := { s.net with
      refusals := s.net.refusals.eraseIdx (s.net.refusals.findIdx (fun e => e.1 == w)) } } := ⟨_, rfl⟩
    have hexec : exec (.windowViolation w) s = .next (u.contractFault w.val cfWindowViolation slotStream tr.bundle
        (BitVec.ofNat 64 a) (BitVec.ofNat 64 (dest + 65536 * tr.desc.val))) := by
      change execWindowViolation w s = _
      simp only [execWindowViolation, hfirst, htag, hu]
    have hactive : u.runActive = true := by rw [hu]; exact hrun
    have hrecord := State.contractFault_first (s := u) (t := w.val) cfWindowViolation slotStream tr.bundle
      (BitVec.ofNat 64 a) (BitVec.ofNat 64 (dest + 65536 * tr.desc.val)) hactive (by rw [hu]; exact hclear)
    rw [hrecord] at hexec
    refine ⟨_, _, hexec, ?_, by rw [hu], rfl, rfl, rfl, rfl, rfl, rfl⟩
    exact congrArg Tile.faulted (State.modTile_same u w.val (fun x => { x with faulted := true }))

end Sys2Proof.Machine
end

section
/-! PROOFS. A message carries the cc of its send (O36). -/

namespace Sys2Proof.Machine

set_option Elab.async false

/-- A send on an open channel within the module puts one message on its way, which carries the cc of its send. -/
theorem sendData_message {s : State} {t : TileNo} {e : Fin 64} {o : TileNo} {oe : Fin 64} (slot : Option DWord) (data : Bytes)
    (slotNo : Byte) (bundle : Word) (hdeclared : ((s.tile t.val).send e.val).declared = true)
    (hopen : ((s.tile t.val).send e.val).closed = false) (hdest : ((s.tile t.val).send e.val).dest = .tile o oe) :
    ∃ m : FlightMsg, (s.sendData t e slot data slotNo bundle).1.net.msgs = s.net.msgs ++ [m] ∧
      m.msg.cycle = s.runCycle.toNat := by
  simp only [State.sendData, hdeclared, hopen, hdest, Bool.not_true, Bool.false_eq_true, if_false]
  exact ⟨_, rfl, rfl⟩

/-- SEND_G, where its bundle issues, sends the bytes of its four registers. -/
theorem exec_sendG {s : State} {i : Iss} {a : SendArg} {g : GReg}
    (h : IssuesOn s i slotChannel [{ wp := a.wp, on := .credit a.ep }]) (hg : g.val % 4 = 0) :
    exec (.sendG i a g) s =
      sendIssue i a (gBytes ((s.tile i.tile.val).begunAt s i slotChannel).samp g.val) (begun s i slotChannel) := by
  change execSendG i a g s = _
  rw [execSendG, eccGuard_issues h, opSendG, issueWait, decide_eq_true hg, issueOn_issues h, begun_tile]

/-- Cycle 1 of a run: tile 0 issues its bundle 0 in this cc, and its send endpoint 0 is an open channel to tile 1. -/
def sendingState : State :=
  { State.reset with
    run := { RunRec.reset with state := .running, c0 := BitVec.allOnes 64 }
    tiles := [(0, { Tile.reset with
      logical := some 0, cur := some 0, issuedAt := some 1,
      sends := [(0, { SendEp.reset with declared := true, credit := 1, dest := .tile 1 0, destTile := 1 })] })] }

/-- Bundle 0 of tile 0, which has passed the wait point of its send. -/
def sendingBundle : Iss := { tile := 0, bundle := 0, waits := [{ wp := 0, on := .credit 0 }] }

/-- Refutes O36: the message of a send carries the cc of its run in which it was sent, which is 1 in `sendingState`, not 0. -/
theorem not_sendsAndClosedChannels : ¬ Obligations.SendsAndClosedChannels := by
  unfold Obligations.SendsAndClosedChannels
  intro hall
  let a : SendArg := { ep := 0, status := none, slot := none, wp := 0 }
  have hissues : IssuesOn sendingState sendingBundle slotChannel [{ wp := a.wp, on := .credit a.ep }] := by
    refine ⟨by decide, rfl, by decide, ?_⟩
    rw [if_pos (by decide)]
    exact ⟨by decide, by decide, by decide⟩
  obtain ⟨t, hexec, hmsgs, -⟩ := (hall sendingState sendingBundle a hissues).1 1 0 (by decide) (by decide) (by decide) |>.1 0 rfl
  obtain ⟨m, hsent, hcycle⟩ := sendData_message (s := begun sendingState sendingBundle slotChannel) (t := 0) (e := 0) (o := 1)
    (oe := 0) (a.slot.map (fun g => (((begun sendingState sendingBundle slotChannel).tile 0).samp).getG g.val))
    (gBytes ((sendingState.tile 0).begunAt sendingState sendingBundle slotChannel).samp 0) slotChannel 0
    (by decide) (by decide) (by decide)
  have hmsgs' : t.net.msgs = sendingState.net.msgs ++ [m] := by
    rw [← Host.Outcome.next.inj ((exec_sendG hissues rfl).symm.trans hexec)]
    exact hsent
  have hzero : m.msg.cycle = 0 := by
    rw [List.singleton_inj.mp (List.append_cancel_left (hmsgs'.symm.trans hmsgs))]
  rw [hcycle] at hzero
  exact absurd hzero (by decide)

end Sys2Proof.Machine
end

section
/-! PROOFS. Wait points that hold a bundle, and receives (O37, O38). -/

namespace Sys2Proof.Machine

set_option Elab.async false

/-! ### Holds -/

/-- An operation whose bundle is held at its wait points only holds its tile. -/
theorem issueWait_waits {s : State} {i : Iss} {w : WaitPoint} (h : Waits s i [w]) (slot : Byte) {wf : Bool} (hwf : wf = true)
    {wp : Fin 1024} {on : WaitOn} (hw : w = { wp := wp, on := on }) (f : State → Res) :
    eccGuard i (fun s => issueWait i slot wf wp on s f) s = .next (s.holdAt i (bundleWaits i [w])) := by
  obtain ⟨-, hnone, -⟩ := id h
  rw [eccGuard_none i _ s hnone, issueWait, hwf, ← hw, issueOn_waits h]

/-- A bundle that is held has a hold of its own. -/
theorem holdAt_blocked {s : State} {i : Iss} {own : List WaitPoint} (h : Waits s i own) :
    ∃ b, b ∈ ((s.holdAt i (bundleWaits i own)).tile i.tile.val).blocked ∧ b.bundle = i.bundle := by
  obtain ⟨-, -, -, -, -, hunmet⟩ := h
  obtain ⟨w, hw, hwait⟩ := List.all_eq_false.mp hunmet
  simp only [State.holdAt, State.modTile_same, List.mem_append, List.mem_map]
  cases hold : (s.tile i.tile.val).holdOf i.bundle w with
  | none => exact ⟨_, Or.inr ⟨w, List.mem_filter.mpr ⟨hw, by rw [hold]; rfl⟩, rfl⟩, rfl⟩
  | some b =>
    have hbundle := List.find?_some hold
    simp only [Bool.and_eq_true, beq_iff_eq] at hbundle
    exact ⟨_, Or.inl ⟨b, List.mem_of_find?_eq_some hold, rfl⟩, hbundle.2⟩

/-- Settles O37. -/
theorem waitsHoldAndWake : Obligations.WaitsHoldAndWake := by
  unfold Obligations.WaitsHoldAndWake
  refine ⟨fun s i w hwaits => ?holds, fun t b hgated => ⟨fun hasleep => ?_, fun hwaking => ?_, ?_⟩, fun b hfree => ?_⟩
  case holds =>
    intro held
    have hheld : (held.tile i.tile.val).regs = (s.tile i.tile.val).regs ∧ (held.tile i.tile.val).sems = (s.tile i.tile.val).sems ∧
        (held.tile i.tile.val).recvs = (s.tile i.tile.val).recvs ∧ (held.tile i.tile.val).sends = (s.tile i.tile.val).sends := by
      simp only [held, State.holdAt, State.modTile_same, and_self]
    have hon {wp : Fin 1024} {on : WaitOn} (hw : w.on = on) (hwp : w.wp = wp) : w = { wp := wp, on := on } := by
      rw [← hw, ← hwp]
    exact ⟨fun a g hg hw => issueWait_waits hwaits _ (decide_eq_true hg) hw _,
      fun a v n hw => issueWait_waits hwaits _ rfl hw _,
      fun ep g hg hw => issueWait_waits hwaits _ (decide_eq_true hg) (hon hw rfl) _,
      fun ep v n hw => issueWait_waits hwaits _ rfl (hon hw rfl) _,
      fun ep hw => issueWait_waits hwaits _ rfl (hon hw rfl) _,
      fun ep slot k hlow hhigh hw => issueWait_waits hwaits _ (decide_eq_true ⟨hlow, hhigh⟩) (hon hw rfl) _,
      fun k v take hw => issueWait_waits hwaits _ rfl (hon hw rfl) _,
      fun h hw => issueWait_waits hwaits _ rfl (hon hw rfl) _,
      fun b hw => issueWait_waits hwaits _ rfl (hon hw rfl) _,
      OnlyTile.modTile _ _ _, holdAt_blocked hwaits, hheld⟩
  · simp [Blocked.next, hgated, hasleep]
  · simp [Blocked.next, hgated, hwaking]
  · simp [Blocked.stalls, hgated]
  · simp [Blocked.stalls, hfree]

/-! ### Receives -/

@[simp] theorem Tile.recv_setRecv (x : Tile) (e : Nat) (r : RecvEp) : (x.setRecv e r).recv e = r := by
  simp [Tile.recv, Tile.setRecv, mget_mset_same]

theorem Tile.recv_setRecv_other (x : Tile) {e n : Nat} (r : RecvEp) (h : n ≠ e) : (x.setRecv e r).recv n = x.recv n := by
  simp [Tile.recv, Tile.setRecv, mget_mset_other _ _ e n r h]

/-- Results of the channel slot that go on their way together. -/
theorem channelLate_foldl (now latency : Nat) (b : Word) (es : List LateEff) (t : Tile) :
    es.foldl (fun t e => t.channelLate now latency b e) t = { t with late := t.late ++ es.map (fun e =>
      ({ ready := now + latency, order := 2, slot := slotChannel, bundle := b, eff := e, uses := [], isOpen := false } : Late)) } := by
  induction es generalizing t with
  | nil => simp
  | cons e es ih =>
    rw [List.foldl_cons, ih]
    simp [Tile.channelLate, Tile.addLate]

/-- A freed buffer of a message from a tile gives a credit to that tile. -/
theorem creditBack_keeps (s : State) (m : MsgOrigin) :
    (∀ j, (s.creditBack m).tile j = s.tile j) ∧ (s.creditBack m).mem = s.mem ∧ (s.creditBack m).run = s.run := by
  have honly : Only [.net, .ports, .held] s (s.creditBack m) := (Only.refl _ s).creditBack m
  exact ⟨fun j => honly.tile j, honly.mem, honly.run⟩

/-- What a receive leaves: the head message is consumed, and its registers are on their way. -/
theorem recvIssue_takes {s : State} {i : Iss} {ep : Fin 64} {m : Msg} {rest : List Msg} {slot : Byte} (f : Bytes → List LateEff)
    (hmsgs : (((s.tile i.tile.val).begunAt s i slot).recv ep.val).msgs = m :: rest) {c : Instr}
    (hexec : exec c s = recvIssue i ep (begun s i slot) f) :
    let x := (s.tile i.tile.val).begunAt s i slot
    ∃ t, exec c s = .next t ∧ (t.tile i.tile.val).recv ep.val = { x.recv ep.val with msgs := rest } ∧
      (∀ n, n ≠ ep.val → (t.tile i.tile.val).recv n = x.recv n) ∧
      (t.tile i.tile.val).late = x.late ++ (f m.data).map (fun e =>
        ({ ready := s.runCycle.toNat + 2, order := 2, slot := slotChannel, bundle := i.bundle, eff := e, uses := [],
           isOpen := false } : Late)) ∧
      (t.tile i.tile.val).regs = x.regs ∧ (t.tile i.tile.val).scratch = x.scratch ∧
      (∀ (o : TileNo) (oe : Fin 64), m.origin = .tile o oe →
        t.net.credits = s.net.credits ++ [{ tile := o, ep := oe, sentBy := (0xFF, 0) }]) ∧
      t.mem = s.mem ∧ t.run = s.run ∧ ∀ j, j ≠ i.tile.val → t.tile j = s.tile j := by
  intro x
  simp only [recvIssue, begun_tile, hmsgs, begun_runCycle, channelLate_foldl] at hexec
  obtain ⟨y, hy⟩ : ∃ y, y = { x.setRecv ep.val { x.recv ep.val with msgs := rest } with
      late := x.late ++ (f m.data).map (fun e =>
        ({ ready := s.runCycle.toNat + 2, order := 2, slot := slotChannel, bundle := i.bundle, eff := e, uses := [],
           isOpen := false } : Late)) } := ⟨_, rfl⟩
  obtain ⟨u, hu⟩ : ∃ u, u = (begun s i slot).setTile i.tile.val y := ⟨_, rfl⟩
  have hexec' : exec c s = .next (u.creditBack m.origin) := by
    rw [hexec, hu, hy]
    rfl
  obtain ⟨htile, hmem, hrun⟩ := creditBack_keeps u m.origin
  have hself : (u.creditBack m.origin).tile i.tile.val = y := by rw [htile, hu, State.setTile_same]
  obtain ⟨-, hother⟩ := (OnlyTile.begun s i slot).trans (OnlyTile.setTile (begun s i slot) i.tile.val y)
  refine ⟨_, hexec', ?_, fun n hn => ?_, ?_, ?_, ?_, fun o oe horigin => ?_, ?_, ?_, fun j hj => ?_⟩
  · rw [hself, hy]
    exact Tile.recv_setRecv _ _ _
  · rw [hself, hy]
    exact Tile.recv_setRecv_other _ _ hn
  · rw [hself, hy]
  · rw [hself, hy]
    rfl
  · rw [hself, hy]
    rfl
  · rw [horigin, hu]
    rfl
  · rw [hmem, hu]
    rfl
  · rw [hrun, hu]
    rfl
  · rw [htile, hu]
    exact hother j hj

/-! ### Bytes in V registers -/

theorem writeLanes_keeps (r : Regs) (reg lane : Nat) (vals : List (Word × Bool)) :
    (r.writeLanes reg lane vals).g = r.g ∧ (r.writeLanes reg lane vals).m = r.m := by
  induction vals generalizing r lane with
  | nil => exact ⟨rfl, rfl⟩
  | cons v vals ih =>
    obtain ⟨w, on⟩ := v
    rw [Regs.writeLanes]
    obtain ⟨hg, hm⟩ := ih (if on then r.setV reg lane w else r) (lane + 1)
    rw [hg, hm]
    split <;> exact ⟨rfl, rfl⟩

theorem getV_setV (r : Regs) (reg lane : Nat) (w : Word) : (r.setV reg lane w).getV reg lane = w := by
  simp [Regs.getV, Regs.setV, mget_mset_same]

theorem getV_setV_other (r : Regs) {reg lane j n : Nat} (w : Word) (h : j * 256 + n ≠ reg * 256 + lane) :
    (r.setV reg lane w).getV j n = r.getV j n := by
  simp [Regs.getV, Regs.setV, mget_mset_other _ _ _ _ w h]

/-- Lanes outside a run of lanes keep their content. -/
theorem getV_writeLanes_outside (r : Regs) (reg lane j n : Nat) (vals : List (Word × Bool))
    (h : ∀ k, k < vals.length → j * 256 + n ≠ reg * 256 + (lane + k)) : (r.writeLanes reg lane vals).getV j n = r.getV j n := by
  induction vals generalizing r lane with
  | nil => rfl
  | cons v vals ih =>
    obtain ⟨w, on⟩ := v
    rw [Regs.writeLanes, ih]
    · split
      · exact getV_setV_other r w (by simpa using h 0 (by simp))
      · rfl
    · intro k hk
      have hnext := h (k + 1) (by simpa using hk)
      rwa [Nat.add_assoc, Nat.add_comm 1 k]

/-- Lanes that are written, one after the other from a first one. -/
theorem getV_writeLanes (r : Regs) (reg lane k : Nat) (ws : List Word) {w : Word} (h : ws[k]? = some w) :
    (r.writeLanes reg lane (ws.map (fun w => (w, true)))).getV reg (lane + k) = w := by
  induction ws generalizing r lane k with
  | nil => simp at h
  | cons v ws ih =>
    rw [List.map_cons, Regs.writeLanes, if_pos rfl]
    cases k with
    | zero =>
      simp only [List.getElem?_cons_zero, Option.some.injEq] at h
      subst h
      rw [getV_writeLanes_outside _ _ _ _ _ _ (fun j hj => by omega)]
      exact getV_setV r reg lane v
    | succ k =>
      rw [List.getElem?_cons_succ] at h
      have hword := ih (r.setV reg lane v) (lane + 1) k h
      rwa [Nat.add_assoc, Nat.add_comm 1 k] at hword

theorem laneWords_length (bs : Bytes) (n : Nat) : (laneWords bs n).length = n := by
  induction n generalizing bs with
  | zero => rfl
  | succ n ih => rw [laneWords, List.length_cons, ih]

/-- A word of a byte list. -/
theorem laneWords_getElem? (bs : Bytes) {n k : Nat} (h : k < n) :
    (laneWords bs n)[k]? = some (BitVec.ofNat 32 (leNat ((bs.drop (4 * k)).take 4))) := by
  induction n generalizing bs k with
  | zero => omega
  | succ n ih =>
    cases k with
    | zero => rfl
    | succ k =>
      have hoff : 4 + 4 * k = 4 * (k + 1) := by omega
      rw [laneWords, List.getElem?_cons_succ, ih _ (Nat.lt_of_succ_lt_succ h), List.drop_drop, hoff]

/-- A slice is the bytes from its offset on, zeros beyond the list. -/
theorem slice_eq_map (bs : Bytes) (o n : Nat) : slice bs o n = (List.range n).map (fun i => bs.getD (o + i) 0) := by
  refine List.ext_getElem ?_ (fun i h1 h2 => ?_)
  · simp [slice, Laws.zeros_length]
  · simp only [slice, zeros, List.getElem_append, List.getElem_map, List.getElem_range, List.getD_eq_getElem?_getD]
    split
    case isTrue hin =>
      simp only [List.length_take, List.length_drop, lt_min_iff] at hin
      rw [List.getElem?_eq_getElem (by omega)]
      simp
    case isFalse hout =>
      simp only [List.length_take, List.length_drop, List.length_map, List.length_range, lt_min_iff] at hout h2
      rw [List.getElem?_eq_none (by omega)]
      simp

/-- Bytes within a slice. -/
theorem slice_slice (bs : Bytes) {o n off k : Nat} (h : off + k ≤ n) :
    ((slice bs o n).drop off).take k = slice bs (o + off) k := by
  rw [slice_eq_map, slice_eq_map]
  refine List.ext_getElem ?_ (fun i h1 h2 => ?_)
  · simp
    omega
  · simp [Nat.add_assoc]

theorem leNat_lt (bs : Bytes) : leNat bs < 256 ^ bs.length := by
  induction bs with
  | nil => simp [leNat]
  | cons b bs ih =>
    have hb := b.isLt
    rw [leNat, List.length_cons, pow_succ]
    omega

/-- The results of RECV_V, one register after the other. -/
theorem recvV_getElem? {v n k : Nat} {bs : Bytes} {e : LateEff} (h : (recvV v n bs)[k]? = some e) :
    e = .v (v + k) 0 ((laneWords (slice bs (1024 * k) 1024) 256).map (fun w => (w, true))) := by
  obtain ⟨hk, he⟩ := List.getElem?_eq_some_iff.mp h
  rw [← he]
  simp [recvV]

/-- What a result of RECV_V writes: its register, 4 B to a lane. -/
theorem recvV_onRegs {v n k : Nat} {bs : Bytes} {e : LateEff} (r : Regs) (h : (recvV v n bs)[k]? = some e) :
    (∀ j lane, j ≠ v + k → lane < 256 → (e.onRegs r).getV j lane = r.getV j lane) ∧
    (∀ lane, lane < 256 → ((e.onRegs r).getV (v + k) lane).toNat = leNat (slice bs (1024 * k + 4 * lane) 4)) ∧
    (e.onRegs r).g = r.g ∧ (e.onRegs r).m = r.m := by
  rw [recvV_getElem? h]
  refine ⟨fun j lane hj hlane => ?_, fun lane hlane => ?_, ?_⟩
  · refine getV_writeLanes_outside _ _ _ _ _ _ (fun i hi => ?_)
    rw [List.length_map, laneWords_length] at hi
    omega
  · have hword := getV_writeLanes r (v + k) 0 lane _ (laneWords_getElem? (slice bs (1024 * k) 1024) hlane)
    rw [Nat.zero_add] at hword
    have hbytes := slice_slice bs (o := 1024 * k) (n := 1024) (off := 4 * lane) (k := 4) (by omega)
    have hlt : leNat (slice bs (1024 * k + 4 * lane) 4) < 2 ^ 32 := by
      have hbound := leNat_lt (slice bs (1024 * k + 4 * lane) 4)
      rwa [show (slice bs (1024 * k + 4 * lane) 4).length = 4 by simp [slice_eq_map], show 256 ^ 4 = 2 ^ 32 by rfl] at hbound
    change ((r.writeLanes (v + k) 0 _).getV (v + k) lane).toNat = _
    rw [hword, hbytes, BitVec.toNat_ofNat, Nat.mod_eq_of_lt hlt]
  · exact writeLanes_keeps _ _ _ _

/-- Settles O38. -/
theorem receivesFillRegisters : Obligations.ReceivesFillRegisters := by
  unfold Obligations.ReceivesFillRegisters
  refine ⟨fun s i ep wp m rest hissues => ?receives, fun s i ep slot k wp hlow hhigh hissues => ?arrived,
    fun v n bs k e r => recvV_onRegs r⟩
  case receives =>
    intro x r hmsgs takes
    refine ⟨fun g hg => recvIssue_takes (recvG g) hmsgs ?_, fun v n hrange => recvIssue_takes (recvV v.val (n.val + 1)) hmsgs ?_,
      recvIssue_takes (fun _ => []) hmsgs ?_⟩
    · change execRecvG i ep g wp s = _
      rw [execRecvG, eccGuard_issues hissues, opRecvG, issueWait, decide_eq_true hg, issueOn_issues hissues]
    · change execRecvV i ep v n wp s = _
      rw [execRecvV, eccGuard_issues hissues, opRecvV, issueWait, issueOn_issues hissues]
      exact if_neg (by omega)
    · change execRecvDrop i ep wp s = _
      rw [execRecvDrop, eccGuard_issues hissues, opRecvDrop, issueWait, issueOn_issues hissues]
  case arrived =>
    change execWaitArrived i ep slot k wp s = _
    rw [execWaitArrived, eccGuard_issues hissues, opWaitArrived, issueWait, decide_eq_true ⟨hlow, hhigh⟩, issueOn_issues hissues]

end Sys2Proof.Machine
end

section
/-! PROOFS. Endpoints, and arrivals at a tile (O39). -/

namespace Sys2Proof.Machine

set_option Elab.async false

/-! ### The order of keys -/

/-- Keys are compared as lists are. -/
theorem keyLess_iff_lt (a b : FlowKey) : keyLess a b = true ↔ a < b := by
  induction a generalizing b with
  | nil =>
    cases b with
    | nil => simp [keyLess]
    | cons y b => simp [keyLess]
  | cons x a ih =>
    cases b with
    | nil => simp [keyLess]
    | cons y b => simp [keyLess, List.cons_lt_cons_iff, ih]

theorem keyLess_false_iff_le (a b : FlowKey) : keyLess a b = false ↔ b ≤ a := by
  rw [← not_lt, ← keyLess_iff_lt, Bool.not_eq_true]

/-- The item that goes first is one of the items, at its place, and none goes before it. -/
theorem firstKeyed_spec {α : Type} (key : α → FlowKey) {l : List α} {k : Nat} {y : α} (h : firstKeyed key l = some (k, y)) :
    l[k]? = some y ∧ ∀ x ∈ l, keyLess (key x) (key y) = false := by
  induction l generalizing k y with
  | nil => simp [firstKeyed] at h
  | cons x rest ih =>
    unfold firstKeyed at h
    split at h
    case h_1 j z hrest =>
      obtain ⟨hplace, hfirst⟩ := ih hrest
      split at h
      case isTrue hless =>
        simp only [Option.some.injEq, Prod.mk.injEq] at h
        obtain ⟨rfl, rfl⟩ := h
        refine ⟨by simpa using hplace, fun w hw => ?_⟩
        rcases List.mem_cons.mp hw with rfl | hw
        · rw [keyLess_false_iff_le]
          exact le_of_lt ((keyLess_iff_lt _ _).mp hless)
        · exact hfirst w hw
      case isFalse hnot =>
        simp only [Option.some.injEq, Prod.mk.injEq] at h
        obtain ⟨rfl, rfl⟩ := h
        refine ⟨rfl, fun w hw => ?_⟩
        rcases List.mem_cons.mp hw with rfl | hw
        · rw [keyLess_false_iff_le]
        · rw [Bool.not_eq_true, keyLess_false_iff_le] at hnot
          rw [keyLess_false_iff_le]
          exact hnot.trans ((keyLess_false_iff_le _ _).mp (hfirst w hw))
    case h_2 hnone =>
      simp only [Option.some.injEq, Prod.mk.injEq] at h
      obtain ⟨rfl, rfl⟩ := h
      refine ⟨rfl, fun w hw => ?_⟩
      have hempty : rest = [] := by
        cases rest with
        | nil => rfl
        | cons z rest =>
          unfold firstKeyed at hnone
          split at hnone
          case h_1 => split at hnone <;> cases hnone
          case h_2 => cases hnone
      subst hempty
      rw [List.mem_singleton.mp hw, keyLess_false_iff_le]

/-- The next message to an endpoint: it is in flight to it, and none to the same endpoint goes before it. -/
theorem nextMessage_spec {s : State} {k : TileNo} {ep : Fin 64} {n : Nat} {m : FlightMsg} (h : s.nextMessage k ep = some (n, m)) :
    s.net.msgs[n]? = some m ∧ m.dest = k ∧ m.ep = ep ∧
      ∀ q ∈ s.net.msgs, q.dest = k → q.ep = ep → keyLess q.key m.key = false := by
  unfold State.nextMessage at h
  obtain ⟨⟨j, m', n'⟩, hfirst, heq⟩ := Option.map_eq_some_iff.mp h
  simp only [Prod.mk.injEq] at heq
  obtain ⟨rfl, rfl⟩ := heq
  obtain ⟨hplace, hnone⟩ := firstKeyed_spec _ hfirst
  obtain ⟨hin, hfor⟩ := List.mem_filter.mp (List.mem_of_getElem? hplace)
  simp only [Bool.and_eq_true, beq_iff_eq] at hfor
  refine ⟨List.mem_zipIdx_iff_getElem?.mp hin, hfor.1, hfor.2, fun q hq hdest hep => ?_⟩
  obtain ⟨i, hi⟩ := List.mem_iff_getElem?.mp hq
  exact hnone (q, i) (List.mem_filter.mpr ⟨List.mem_zipIdx_iff_getElem?.mpr hi, by simp [hdest, hep]⟩)

/-! ### Notices -/

/-- A notice for an endpoint leaves the list of its kind. -/
theorem length_eraseIdx_findIdx {α : Type} (p : α → Bool) {l : List α} (h : l.any p = true) :
    (l.eraseIdx (l.findIdx p)).length + 1 = l.length := by
  obtain ⟨x, hx, hp⟩ := List.any_eq_true.mp h
  exact List.length_eraseIdx_add_one (List.findIdx_lt_length_of_exists ⟨x, hx, hp⟩)

@[simp] theorem Tile.send_setSend (x : Tile) (e : Nat) (c : SendEp) : (x.setSend e c).send e = c := by
  simp [Tile.send, Tile.setSend, mget_mset_same]

/-! ### Messages -/

/-- A message of this cc enters behind those of earlier cc (R288). -/
theorem putMsg_of_earlier (m : Msg) (l : List Msg) (h : ∀ y ∈ l, y.cycle < m.cycle) : putMsg m l = l ++ [m] := by
  induction l with
  | nil => rfl
  | cons x l ih =>
    have hx := h x List.mem_cons_self
    have hno : ¬ (x.cycle = m.cycle ∧ keyLess m.origin.key x.origin.key = true) := by omega
    rw [putMsg, if_neg hno, ih (fun y hy => h y (List.mem_cons_of_mem x hy)), List.cons_append]

theorem creditBack_msgs (s : State) (o : MsgOrigin) : (s.creditBack o).net.msgs = s.net.msgs := by
  cases o with
  | tile t ep => rfl
  | port p m t ep =>
    have honly : Only [.ports, .held] s (s.creditBack (.port p m t ep)) := (Only.refl _ s).pendCredit p m t ep
    rw [honly.net]

theorem judgeOne_msgs (s : State) (t : TileNo) (e : Nat) (m : Msg) : (s.judgeOne t e m).1.net.msgs = s.net.msgs := by
  have hevent (u : State) (e : Event) (src : BitVec 16) (bs : Bytes) : (u.event e src bs).net = u.net :=
    ((Only.refl [.replies, .log] u).event e src bs).net
  unfold State.judgeOne
  dsimp only
  split
  case h_1 => rfl
  case h_2 f hf =>
    split
    case h_1 => rfl
    case h_2 => rfl
    case h_3 => exact creditBack_msgs _ _
    case h_4 => exact creditBack_msgs _ _
    case h_5 => rw [hevent, creditBack_msgs]; rfl
    case h_6 => rw [hevent, creditBack_msgs]; rfl

/-- An arrival puts no message on its way. -/
theorem arrive_msgs (s : State) (t : TileNo) (e : Nat) (m : Msg) : (s.arrive t e m).net.msgs = s.net.msgs := by
  unfold State.arrive
  split
  case isTrue =>
    unfold State.reportDiscard
    split <;> rfl
  case isFalse =>
    have hjudge := judgeOne_msgs s t e m
    unfold State.deliver
    dsimp only
    split
    case h_1 =>
      split
      case h_1 s' m' heq =>
        rw [heq] at hjudge
        exact hjudge
      case h_2 s' heq =>
        rw [heq] at hjudge
        exact hjudge
    case h_2 => rfl

/-- A message enters an open endpoint that does not filter. -/
theorem arrive_open {s : State} {t : TileNo} {e : Nat} (m : Msg) (hopen : ((s.tile t.val).recv e).closed = false)
    (hkind : ((s.tile t.val).recv e).kind ≠ .filtered) :
    ((s.arrive t e m).tile t.val).recv e = { (s.tile t.val).recv e with
      msgs := putMsg { m with cycle := s.runCycle.toNat } ((s.tile t.val).recv e).msgs } := by
  unfold State.arrive State.deliver
  rw [if_neg (by simp [hopen])]
  dsimp only
  split
  case h_1 hfiltered => exact absurd hfiltered hkind
  case h_2 =>
    rw [State.modTile_same, Tile.recv_setRecv]

/-- A message to a CLOSED endpoint is discarded and counted. -/
theorem arrive_closed {s : State} {t : TileNo} {e : Nat} (m : Msg) (hclosed : ((s.tile t.val).recv e).closed = true) :
    ((s.arrive t e m).tile t.val).recv e =
      { (s.tile t.val).recv e with discards := ((s.tile t.val).recv e).discards + 1 } := by
  unfold State.arrive
  rw [if_pos hclosed, ((Only.refl [.net] _).reportDiscard m).tile t.val, State.modTile_same, Tile.recv_setRecv]

/-! ### Settling -/

/-- EP_RESET and EP_OPEN of an endpoint. -/
theorem endpoint_commands {s : State} {i : Iss} (ep : Fin 64) (hissues : Issues s i slotChannel) :
    exec (.epReset i ep) s = .next ((begun s i slotChannel).resetRecv i.tile ep.val) ∧
    exec (.epOpen i ep) s = .next ((begun s i slotChannel).openRecv i.tile ep.val) := by
  constructor
  · change execEpReset i ep s = _
    rw [execEpReset, eccGuard_issues hissues, opEpReset, issue_of_issues hissues rfl]
  · change execEpOpen i ep s = _
    rw [execEpOpen, eccGuard_issues hissues, opEpOpen, issue_of_issues hissues rfl]

/-- What an issue leaves of the tile's registers, scratchpad and endpoints. -/
theorem begunAt_keeps (t : Tile) (s : State) (i : Iss) (slot : Byte) : (t.begunAt s i slot).regs = t.regs ∧
    (t.begunAt s i slot).scratch = t.scratch ∧ (t.begunAt s i slot).recvs = t.recvs ∧ (t.begunAt s i slot).sems = t.sems ∧
    (t.begunAt s i slot).watches = t.watches ∧ (t.begunAt s i slot).faulted = t.faulted := by
  unfold Tile.begunAt
  split <;> exact ⟨rfl, rfl, rfl, rfl, rfl, rfl⟩

/-- Settles O39. -/
theorem endpointsAndArrivals : Obligations.EndpointsAndArrivals := by
  unfold Obligations.EndpointsAndArrivals
  refine ⟨fun s i ep hissues => ?commands, fun s k ep => ⟨fun n m hnext => ?message, fun hany => ?credit, fun hany => ?closing,
    fun hany => ?opening, fun n hfind => ?report⟩⟩
  case commands =>
    intro r
    obtain ⟨hreset, hopen⟩ := endpoint_commands ep hissues
    obtain ⟨x, hx⟩ : ∃ x, x = (s.tile i.tile.val).begunAt s i slotChannel := ⟨_, rfl⟩
    have htile : (begun s i slotChannel).tile i.tile.val = x := by rw [begun_tile, hx]
    obtain ⟨hregs, hscratch, hrecvs, -⟩ := begunAt_keeps (s.tile i.tile.val) s i slotChannel
    rw [← hx] at hregs hscratch hrecvs
    have hrecv (n : Nat) : x.recv n = (s.tile i.tile.val).recv n := by rw [Tile.recv, hrecvs, Tile.recv]
    refine ⟨fun hdeclared => ?_, fun hdeclared hclosed => ?_, fun hnot => ?_⟩
    · obtain ⟨y, hy⟩ : ∃ y, y = (begun s i slotChannel).setTile i.tile.val (x.setRecv ep.val
        { r with discards := r.discards + r.msgs.length, msgs := [], closed := true, values := [], tags := [] }) := ⟨_, rfl⟩
      have hstate : (begun s i slotChannel).resetRecv i.tile ep.val = (y.reportAll r.msgs).closeAll i.tile ep.val r.senders := by
        unfold State.resetRecv
        rw [htile, hrecv]
        simp only [show ((s.tile i.tile.val).recv ep.val).declared = true from hdeclared, if_true, hy, r]
      have honly : Only [.net, .ports, .held] y ((y.reportAll r.msgs).closeAll i.tile ep.val r.senders) :=
        ((Only.refl _ y).reportAll r.msgs).closeAll i.tile ep.val r.senders
      rw [hstate] at hreset
      refine ⟨_, hreset, ?_⟩
      rw [honly.tile, hy, State.setTile_same]
      exact ⟨Tile.recv_setRecv _ _ _, fun n hn => (Tile.recv_setRecv_other _ _ hn).trans (hrecv n), hregs, hscratch⟩
    · obtain ⟨y, hy⟩ : ∃ y, y = (begun s i slotChannel).setTile i.tile.val (x.setRecv ep.val
        { r with msgs := [], closed := false, cseq := [] }) := ⟨_, rfl⟩
      have hstate : (begun s i slotChannel).openRecv i.tile ep.val = y.openAll i.tile ep.val r.senders := by
        unfold State.openRecv
        rw [htile, hrecv]
        simp only [show ((s.tile i.tile.val).recv ep.val).declared = true from hdeclared,
          show ((s.tile i.tile.val).recv ep.val).closed = true from hclosed, Bool.and_self, if_true, hy, r]
      have honly : Only [.net, .ports, .held] y (y.openAll i.tile ep.val r.senders) :=
        (Only.refl _ y).openAll i.tile ep.val r.senders
      rw [hstate] at hopen
      refine ⟨_, hopen, ?_⟩
      rw [honly.tile, hy, State.setTile_same]
      exact ⟨Tile.recv_setRecv _ _ _, hregs, hscratch⟩
    · have hstate : (begun s i slotChannel).openRecv i.tile ep.val = begun s i slotChannel := by
        unfold State.openRecv
        rw [htile, hrecv]
        refine if_neg ?_
        simp [show ((s.tile i.tile.val).recv ep.val).closed = false from hnot]
      rw [hopen, hstate]
  case message =>
    obtain ⟨hplace, hdest, hep, hfirst⟩ := nextMessage_spec hnext
    obtain ⟨u, hu⟩ : ∃ u : State, u = { s with net := { s.net with msgs := s.net.msgs.eraseIdx n } } := ⟨_, rfl⟩
    have hexec : exec (.messageArrival k ep) s = .next (u.arrive k ep.val m.msg) := by
      change execMessageArrival k ep s = _
      rw [execMessageArrival, hnext, hu]
    have hut : u.tile k.val = s.tile k.val := by rw [hu]; rfl
    have hcycle : u.runCycle = s.runCycle := by rw [hu]; rfl
    have hput (hnot : ((s.tile k.val).recv ep.val).closed = false) (hkind : ((s.tile k.val).recv ep.val).kind ≠ .filtered) :
        ((u.arrive k ep.val m.msg).tile k.val).recv ep.val = { (s.tile k.val).recv ep.val with
          msgs := putMsg { m.msg with cycle := s.runCycle.toNat } ((s.tile k.val).recv ep.val).msgs } := by
      rw [arrive_open m.msg (by rw [hut]; exact hnot) (by rw [hut]; exact hkind), hut, hcycle]
    refine ⟨_, hexec, hplace, hdest, hep, hfirst, ?_, hput, fun hnot hkind hearlier => ?_, fun hclosed => ?_⟩
    · rw [arrive_msgs, hu]
    · rw [hput hnot hkind]
      exact putMsg_of_earlier _ _ hearlier
    · rw [arrive_closed m.msg (by rw [hut]; exact hclosed), hut]
      exact ⟨rfl, rfl⟩
  case credit =>
    change ∃ t, execCreditArrival k ep s = .next t ∧ _
    rw [execCreditArrival, if_pos hany]
    refine ⟨_, rfl, ?_, length_eraseIdx_findIdx _ hany, rfl⟩
    rw [State.modTile_same, Tile.send_setSend]
    rfl
  case closing =>
    change ∃ t, execClosingNoticeArrival k ep s = .next t ∧ _
    rw [execClosingNoticeArrival, if_pos hany]
    refine ⟨_, rfl, ?_, length_eraseIdx_findIdx _ hany⟩
    rw [State.modTile_same, Tile.send_setSend]
    rfl
  case opening =>
    change ∃ t, execOpeningNoticeArrival k ep s = .next t ∧ _
    rw [execOpeningNoticeArrival, if_pos hany]
    refine ⟨_, rfl, ?_, length_eraseIdx_findIdx _ hany⟩
    rw [State.modTile_same, Tile.send_setSend]
    rfl
  case report =>
    have hany : s.net.discards.any (Notice.isFor k ep) = true :=
      List.any_eq_true.mpr ⟨n, List.mem_of_find?_eq_some hfind, List.find?_some hfind⟩
    obtain ⟨u, hu⟩ : ∃ u : State, u = { s with net := { s.net with
      discards := s.net.discards.eraseIdx (s.net.discards.findIdx (Notice.isFor k ep)) } } := ⟨_, rfl⟩
    have hlength : u.net.discards.length + 1 = s.net.discards.length := by
      rw [hu]
      exact length_eraseIdx_findIdx _ hany
    have hexec : exec (.discardReportArrival k ep) s =
        .next (if ((s.tile k.val).send ep.val).tolerant then u else u.closedFault k ep.val n.sentBy.1 n.sentBy.2) := by
      change execDiscardReportArrival k ep s = _
      simp only [execDiscardReportArrival, hfind, ← hu]
      split <;> rfl
    refine ⟨_, hexec, ?_, fun htolerant => ?_, fun hstrict hrun hclear => ?_⟩
    · split
      · exact hlength
      · rw [State.closedFault, State.contractFault_net]
        exact hlength
    · rw [if_pos htolerant, hu]
      exact ⟨rfl, rfl⟩
    · have hactive : u.runActive = true := by rw [hu]; exact hrun
      have hclear' : (u.tile k.val).faulted = false := by rw [hu]; exact hclear
      rw [if_neg (by simp [hstrict]), State.closedFault, State.contractFault_first _ _ _ _ _ hactive hclear']
      refine ⟨?_, _, by rw [hu], rfl, rfl⟩
      exact congrArg Tile.faulted (State.modTile_same u k.val (fun x => { x with faulted := true }))

end Sys2Proof.Machine
end

section
/-! PROOFS. Semaphores and watches (O40, O42). -/

namespace Sys2Proof.Machine

set_option Elab.async false

/-! ### Semaphores -/

/-- An addition that a semaphore cannot hold raises SEMAPHORE_OVERFLOW on the tile. -/
theorem semAdd_overflows {s : State} {t k n : Nat} (slot : Byte) (bundle : Word) (hrun : s.runActive = true)
    (hclear : (s.tile t).faulted = false) (hover : 65535 < ((s.tile t).sem k).toNat + n) :
    ((s.semAdd t k n slot bundle).tile t).faulted = true ∧
    ∃ f, (s.semAdd t k n slot bundle).run.faults = s.run.faults ++ [f] ∧ f.code = 5 ∧ f.offending = BitVec.ofNat 64 k ∧
      f.detail = ((s.tile t).sem k).setWidth 64 ∧ f.slot = slot ∧ f.bundle = bundle ∧ f.runCycle = s.runCycle := by
  unfold State.semAdd
  dsimp only
  rw [if_neg (by omega), State.contractFault_first _ _ _ _ _ hrun hclear]
  refine ⟨?_, _, rfl, rfl, rfl, rfl, rfl, rfl, rfl⟩
  rw [State.drawn_tile, State.modTile_same]
  change ((s.modTile t (fun x => { x with faulted := true })).tile t).faulted = true
  rw [State.modTile_same]

/-- WAIT with TAKE takes its value where it is there; a WAIT without takes nothing. -/
theorem exec_wait {s : State} {i : Iss} {k : Fin 64} {v : BitVec 16} {wp : Fin 1024} (take : Bool)
    (h : IssuesOn s i slotSync [{ wp := wp, on := if take then .take k v else .sem k v }]) :
    exec (.wait i k v take wp) s =
      (if take ∧ v ≤ ((s.tile i.tile.val).begunAt s i slotSync).sem k.val then
        .next ((begun s i slotSync).modTile i.tile.val (fun t => t.setSem k.val (t.sem k.val - v)))
       else .next (begun s i slotSync)) := by
  change execWait i k v take wp s = _
  rw [execWait, eccGuard_issues h, opWait, issueWait, issueOn_issues h, begun_tile]

/-- A wait for a count that is not there is not met. -/
theorem waitMet_take {x : Tile} {k : Fin 64} {v : BitVec 16} (wp : Fin 1024) (h : x.sem k.val < v) :
    x.waitMet { wp := wp, on := .take k v } = false := by
  have hno : ¬ v ≤ x.sem k.val := BitVec.not_le.mpr h
  simp [Tile.waitMet, takeHolds, waitCond, hno]

/-- Settles O40. -/
theorem semaphoreOverflowAndTakes : Obligations.SemaphoreOverflowAndTakes := by
  unfold Obligations.SemaphoreOverflowAndTakes
  refine ⟨fun s i k n hissues hn => ?signal, fun s k f rest hrun hclear hruns hdone hends hsource hfull => ?fill,
    fun s i k v wp => ⟨fun hissues hle => ?take, fun hissues => ?plain, waitMet_take wp⟩,
    fun s k d => ⟨fun hzero => ?idle, fun hrun hclear hruns hopens hneeds hsem => ?ready⟩⟩
  case signal =>
    intro c
    have hexec : exec (.signal i k n) s = .next ((begun s i slotSync).semAdd i.tile.val k.val n.toNat slotSync i.bundle) := by
      change execSignal i k n s = _
      rw [execSignal, eccGuard_issues hissues, opSignal, issue_of_issues hissues (by simpa using hn)]
    obtain ⟨hregs, -, -, hsems, -, hfaulted⟩ := begunAt_keeps (s.tile i.tile.val) s i slotSync
    have hsem (j : Nat) : ((begun s i slotSync).tile i.tile.val).sem j = (s.tile i.tile.val).sem j := by
      rw [begun_tile, Tile.sem, hsems, Tile.sem]
    refine ⟨fun hfits => ?_, fun hover hclear => ?_⟩
    · have hroom : (((begun s i slotSync).tile i.tile.val).sem k.val).toNat + n.toNat ≤ 65535 := by rw [hsem]; exact hfits
      rw [semAdd_fits _ _ hroom, hsem] at hexec
      refine ⟨_, hexec, ?_, fun j hj => ?_, rfl, ?_⟩
      · rw [State.modTile_same, Tile.sem_setSem, toNat_semSum hfits]
      · rw [State.modTile_same, Tile.sem_setSem_other _ _ hj, hsem]
      · rw [State.modTile_same, begun_tile]
        exact hregs
    · obtain ⟨hstop, g, hrecord, hcode, hoffending, hdetail, hslot, hbundle, hcycle⟩ :=
        semAdd_overflows (s := begun s i slotSync) (t := i.tile.val) (k := k.val) (n := n.toNat) slotSync i.bundle
          ((begun_runActive s i slotSync).trans hissues.runActive) (by rw [begun_tile, hfaulted, hclear]) (by rw [hsem]; exact hover)
      exact ⟨_, g, hexec, hstop, hrecord, hcode, hoffending, by rw [hdetail, hsem], hslot, hbundle, hcycle⟩
  case fill =>
    obtain ⟨u, hu⟩ : ∃ u, u = s.meetUpsets k.val [] := ⟨_, rfl⟩
    obtain ⟨-, hrunU, -, hcycle⟩ := meetUpsets_nil s k
    rw [← hu] at hrunU hcycle
    have htile : u.tile k.val = s.tile k.val := by rw [hu, meetUpsets_nil_tile]
    have hactive : u.runActive = true := by rw [State.runActive, hrunU]; exact hrun
    have hexec := exec_fillCopyDone hrun hruns hdone hends hsource
    rw [← hu, fillEnds_head (by rw [htile, hruns]) hdone (by rw [hcycle]; exact hends), State.endFill] at hexec
    obtain ⟨v, hv⟩ : ∃ v, v = (u.setTile k.val { u.tile k.val with fillRuns := { f with done := true } :: rest }).modTile k.val
        (fun x => x.writeScratch f.addr (fillData x f)) := ⟨_, rfl⟩
    have hvtile : (v.tile k.val).faulted = (s.tile k.val).faulted ∧ (v.tile k.val).sem f.sem.val = (s.tile k.val).sem f.sem.val := by
      rw [hv, State.modTile_same, State.setTile_same, htile]
      exact ⟨rfl, rfl⟩
    obtain ⟨hvfaulted, hvsem⟩ := hvtile
    have hvrun : v.run = s.run := by rw [hv, ← hrunU]; rfl
    rw [← hv] at hexec
    obtain ⟨hstop, g, hrecord, hcode, -, -, hslot, hbundle, -⟩ :=
      semAdd_overflows (s := v) (t := k.val) (k := f.sem.val) (n := 1) slotNone f.bundle
        (by rw [State.runActive, hvrun]; exact hrun) (by rw [hvfaulted, hclear]) (by rw [hvsem, hfull]; omega)
    exact ⟨_, g, hexec, hstop, by rw [hrecord, hvrun], hcode, hslot, hbundle⟩
  case take =>
    obtain ⟨hregs, -, -, hsems, -, -⟩ := begunAt_keeps (s.tile i.tile.val) s i slotSync
    have hsem (j : Nat) : ((s.tile i.tile.val).begunAt s i slotSync).sem j = (s.tile i.tile.val).sem j := by
      rw [Tile.sem, hsems, Tile.sem]
    have hexec := exec_wait true hissues
    rw [if_pos ⟨rfl, by rw [hsem]; exact hle⟩] at hexec
    refine ⟨_, hexec, ?_, fun j hj => ?_, rfl, ?_⟩
    · rw [State.modTile_same, Tile.sem_setSem, begun_tile, hsem]
    · rw [State.modTile_same, Tile.sem_setSem_other _ _ hj, begun_tile, hsem]
    · rw [State.modTile_same, begun_tile]
      exact hregs
  case plain => exact (exec_wait false hissues).trans (if_neg (by simp))
  case idle =>
    change execReadyTake k d s = _
    exact if_neg (fun hall => hall.2.2.2.2.2 hzero)
  case ready =>
    refine ⟨_, exec_readyTake hrun hclear hruns hopens hneeds hsem, ?_⟩
    rw [State.setTile_same]
    exact ⟨Tile.sem_setSem _ _ _, Tile.desc_setDesc _ _ _, rfl, rfl, rfl⟩

/-! ### Watches -/

@[simp] theorem Tile.watch_setWatch (x : Tile) (h : Nat) (w : WatchEntry) : (x.setWatch h w).watch h = w := by
  simp [Tile.watch, Tile.setWatch, mget_mset_same]

theorem mfind_map {α β : Type} (f : α → β) (m : SMap α) (k : Nat) :
    mfind (m.map (fun e => (e.1, f e.2))) k = (mfind m k).map f := by
  induction m with
  | nil => rfl
  | cons e m ih =>
    obtain ⟨j, v⟩ := e
    rw [List.map_cons, mfind, mfind, ih]
    split <;> rfl

/-- A tile after its watch entries have been judged. -/
def State.judgedTile (s : State) (x : Tile) : Tile :=
  { x with watches := x.watches.map (fun w => (w.1, if s.watchHits w.2 then { w.2 with armed := false } else w.2)) }

/-- The end of a cc changes a tile in its watch entries alone. -/
theorem judgeWatches_tile (s : State) (k : Nat) : s.judgeWatches.tile k = s.judgedTile (s.tile k) := by
  refine (congrArg (fun o : Option Tile => o.getD Tile.reset) (mfind_map s.judgedTile s.tiles k)).trans ?_
  rw [State.tile, mget]
  cases mfind s.tiles k <;> rfl

/-- WATCH_REG, where its bundle issues. -/
theorem exec_watchReg {s : State} {i : Iss} (h : Fin 32) (k : Fin 64) {v : BitVec 16} (hissues : Issues s i slotSync) (hv : v ≠ 0) :
    let x := (s.tile i.tile.val).begunAt s i slotSync
    let w := x.watch h.val
    let y := (begun s i slotSync).setTile i.tile.val (x.setWatch h.val { w with lastGen := w.lastGen + 1 })
    exec (.watchReg i h k v) s =
      .next { y with net := { s.net with watchRegs := s.net.watchRegs ++ [(i.tile, h, k, v, w.lastGen + 1)] } } := by
  intro x w y
  change execWatchReg i h k v s = _
  rw [execWatchReg, eccGuard_issues hissues, opWatchReg, issue_of_issues hissues (by simpa using hv), begun_tile]
  rfl

/-- Settles O42. -/
theorem watchesComplete : Obligations.WatchesComplete := by
  unfold Obligations.WatchesComplete
  refine ⟨fun s i h k v hissues hv => ?register, fun s q h k v g hfind => ?arrives,
    fun s q h x w hrun hx hw harmed hcount => ?fires, fun s k hquiet => ?quiet, fun s q h g hfind => ?fired,
    fun s i h wp hissues => ?wait⟩
  case register =>
    intro w
    obtain ⟨-, -, -, hsems, hwatches, -⟩ := begunAt_keeps (s.tile i.tile.val) s i slotSync
    have hwatch : ((s.tile i.tile.val).begunAt s i slotSync).watch h.val = w := by rw [Tile.watch, hwatches, ← Tile.watch]
    have hexec := exec_watchReg h k hissues hv
    dsimp only at hexec
    rw [hwatch] at hexec
    refine ⟨_, hexec, ?_, rfl, ?_⟩
    · exact (congrArg (fun t : Tile => t.watch h.val) (State.setTile_same (begun s i slotSync) i.tile.val _)).trans
        (Tile.watch_setWatch _ _ _)
    · exact (congrArg Tile.sems (State.setTile_same (begun s i slotSync) i.tile.val _)).trans hsems
  case arrives =>
    intro w
    change ∃ t, execWatchRegArrival q h s = .next t ∧ _
    simp only [execWatchRegArrival, hfind]
    refine ⟨_, rfl, ?_⟩
    rw [State.modTile_same, Tile.watch_setWatch]
    exact ⟨rfl, rfl, rfl, rfl, rfl, rfl⟩
  case fires =>
    have hhits : s.watchHits w = true := by simp [State.watchHits, harmed, hcount]
    rw [State.endWatches, if_pos hrun]
    refine List.mem_append_right _ (List.mem_flatMap.mpr ⟨(q.val, x), hx, ?_⟩)
    refine List.mem_map.mpr ⟨(h.val, w), List.mem_filter.mpr ⟨hw, hhits⟩, ?_⟩
    simp
  case quiet =>
    have hnone : (s.tile k).watches.map (fun w => (w.1, if s.watchHits w.2 then { w.2 with armed := false } else w.2)) =
        (s.tile k).watches := by
      refine (List.map_congr_left (fun e he => ?_)).trans (List.map_id _)
      have hmiss : s.watchHits e.2 = false := by
        by_cases harmed : e.2.armed = true
        · have hlt := hquiet e he harmed
          simp [State.watchHits, BitVec.not_le.mpr hlt]
        · simp [State.watchHits, harmed]
      simp [hmiss]
    rw [State.endWatches]
    split
    · rw [judgeWatches_tile, State.judgedTile, hnone]
    · rfl
  case fired =>
    intro w
    have hany : s.net.watchFires.any (fun e => e.1 == q && e.2.1 == h) = true :=
      List.any_eq_true.mpr ⟨(q, h, g), List.mem_of_find?_eq_some hfind, by simp⟩
    change ∃ t, execWatchFiredArrival q h s = .next t ∧ _
    simp only [execWatchFiredArrival, hfind]
    refine ⟨_, rfl, length_eraseIdx_findIdx _ hany, fun hnew => ?_, fun hold => ?_⟩
    · rw [State.modTile_same]
      have hnew' : g = ((s.tile q.val).watch h.val).lastGen := hnew
      exact (congrArg (fun t : Tile => t.watch h.val) (if_pos hnew')).trans (Tile.watch_setWatch _ _ _)
    · rw [State.modTile_same]
      exact if_neg hold
  case wait =>
    obtain ⟨hregs, -, -, -, hwatches, -⟩ := begunAt_keeps (s.tile i.tile.val) s i slotSync
    have hexec : exec (.watchWait i h wp) s = .next ((begun s i slotSync).modTile i.tile.val
        (fun t => t.setWatch h.val { t.watch h.val with fired := false })) := by
      change execWatchWait i h wp s = _
      rw [execWatchWait, eccGuard_issues hissues, opWatchWait, issueWait, issueOn_issues hissues]
    refine ⟨_, hexec, (OnlyTile.begun s i slotSync).trans (OnlyTile.modTile _ _ _), ?_, ?_⟩
    · rw [State.modTile_same, Tile.watch_setWatch, begun_tile, Tile.watch, hwatches, ← Tile.watch]
    · rw [State.modTile_same, begun_tile]
      exact hregs

end Sys2Proof.Machine
end

section
/-!
PROOFS. The counters and the releases of the barriers (R303; BarrierCountersComplete, O43).
-/

namespace Sys2Proof.Machine

set_option Elab.async false

theorem State.counter_setCounter (s : State) (level unit b : Nat) (c : BarrierCounter) :
    (s.setCounter level unit b c).counter level unit b = c :=
  mget_mset_same _ _ _ _

/-- The content of bank `n` mod 2 of a counter. -/
def BarrierCounter.bankOf (c : BarrierCounter) (bank : Nat) : Nat := if bank = 0 then c.bank0 else c.bank1

/-- A counter with another content in one bank. -/
def BarrierCounter.withBank (c : BarrierCounter) (bank v : Nat) : BarrierCounter :=
  if bank = 0 then { c with bank0 := v } else { c with bank1 := v }

theorem BarrierCounter.add_below {c : BarrierCounter} {bank n : Nat} (h : c.bankOf bank + n < c.expected) :
    c.add bank n = (c.withBank bank (c.bankOf bank + n), false) := by
  simp only [BarrierCounter.bankOf] at h
  simp [BarrierCounter.add, BarrierCounter.withBank, BarrierCounter.bankOf, Nat.not_le.mpr h]

theorem BarrierCounter.add_full {c : BarrierCounter} {bank n : Nat} (h : c.expected ≤ c.bankOf bank + n) :
    c.add bank n = (c.withBank bank 0, true) := by
  simp only [BarrierCounter.bankOf] at h
  simp [BarrierCounter.add, BarrierCounter.withBank, h]

theorem BarrierCounter.withBank_bankOf (c : BarrierCounter) (bank v : Nat) : (c.withBank bank v).bankOf bank = v := by
  by_cases h : bank = 0 <;> simp [BarrierCounter.withBank, BarrierCounter.bankOf, h]

theorem BarrierCounter.withBank_round (c : BarrierCounter) (bank v : Nat) : (c.withBank bank v).round = c.round := by
  by_cases h : bank = 0 <;> simp [BarrierCounter.withBank, h]

/-- An arrival at a counter of a cluster, below the expected number. -/
theorem counterArrive_below {s : State} {d : BarrierDecl} {unit bank n : Nat} {round : Word}
    (h : (s.counter 0 unit d.id.val).bankOf bank + n < (s.counter 0 unit d.id.val).expected) :
    s.counterArrive d .cluster unit bank n round = s.setCounter 0 unit d.id.val
      ((s.counter 0 unit d.id.val).withBank bank ((s.counter 0 unit d.id.val).bankOf bank + n)) := by
  rw [State.counterArrive, scopeLevel, BarrierCounter.add_below h]
  rfl

/-- The last arrival at a counter of a cluster below the barrier's scope: one arrival goes to the die. -/
theorem counterArrive_last {s : State} {d : BarrierDecl} {unit bank n : Nat} {round : Word} (hscope : d.scope ≠ .cluster)
    (h : (s.counter 0 unit d.id.val).expected ≤ (s.counter 0 unit d.id.val).bankOf bank + n) :
    let c := s.counter 0 unit d.id.val
    let u := s.setCounter 0 unit d.id.val { c.withBank bank 0 with round := (c.withBank bank 0).round + 1 }
    s.counterArrive d .cluster unit bank n round =
      { u with net := { u.net with barrierUp := u.net.barrierUp ++
          [{ barrier := d.id, level := .die, unit := unit / 4, round := round }] } } := by
  rw [State.counterArrive, scopeLevel, BarrierCounter.add_full h]
  exact if_neg hscope.symm

theorem setBarrier_r (x : Tile) (b : Nat) :
    ((x.setBarrier b { x.barrier b with r := (x.barrier b).r + 1 }).barrier b).r = (x.barrier b).r + 1 ∧
      ((x.setBarrier b { x.barrier b with r := (x.barrier b).r + 1 }).barrier b).a = (x.barrier b).a := by
  rw [Tile.setBarrier_barrier_same]
  exact ⟨rfl, rfl⟩

theorem releaseTiles_other (b k : Nat) (l : List Nat) : ∀ s : State, k ∉ l → (s.releaseTiles b l).tile k = s.tile k := by
  induction l with
  | nil => exact fun _ _ => rfl
  | cons q r ih =>
    intro s hk
    obtain ⟨hq, hr⟩ := not_or.mp (fun h => hk (List.mem_cons.mpr h))
    rw [State.releaseTiles, ih _ hr, State.modTile_other _ _ _ _ hq]

/-- A release reaches each of the tiles it names, once. -/
theorem releaseTiles_named (b k : Nat) (l : List Nat) : ∀ s : State, l.Nodup → k ∈ l →
    (s.releaseTiles b l).tile k =
      (s.tile k).setBarrier b { (s.tile k).barrier b with r := ((s.tile k).barrier b).r + 1 } := by
  induction l with
  | nil => exact fun _ _ hk => absurd hk List.not_mem_nil
  | cons q r ih =>
    intro s hnodup hk
    obtain ⟨hq, hr⟩ := List.nodup_cons.mp hnodup
    rw [State.releaseTiles]
    by_cases hkq : k = q
    · rw [hkq, releaseTiles_other b q r _ hq, State.modTile_same]
    · rw [ih _ hr (List.mem_of_ne_of_mem hkq hk), State.modTile_other _ _ _ _ hkq]

/-- Settles O43. -/
theorem barrierCountersComplete : Obligations.BarrierCountersComplete := by
  unfold Obligations.BarrierCountersComplete
  refine ⟨fun s b d m hdecl hid hfind hlevel hscope => ?counts, fun s b d m hdecl hfind hnodup => ?release⟩
  case counts =>
    intro c bank v
    obtain ⟨u, hu⟩ : ∃ u : State, u = { s with net :=
        { s.net with barrierUp := s.net.barrierUp.eraseIdx (s.net.barrierUp.findIdx (fun q => q.barrier == b)) } } := ⟨_, rfl⟩
    have hexec : exec (.barrierCounterArrival b) s = .next (u.counterArrive d .cluster m.unit bank 1 m.round) := by
      change execBarrierCounterArrival b s = _
      simp only [execBarrierCounterArrival, hfind, hdecl, hlevel, hu]
      rfl
    have hc : u.counter 0 m.unit d.id.val = c := by rw [hu, hid]; rfl
    have htiles : u.tiles = s.tiles := by rw [hu]
    refine ⟨_, hexec, ?_, fun hbelow => ?_, fun hlast => ?_⟩
    · by_cases h : c.bankOf bank + 1 < c.expected
      · rw [counterArrive_below (by rw [hc]; exact h)]
        exact htiles
      · rw [counterArrive_last hscope (by rw [hc]; exact Nat.not_lt.mp h)]
        exact htiles
    · rw [counterArrive_below (by rw [hc]; exact hbelow), hc, hid, State.counter_setCounter]
      rfl
    · rw [counterArrive_last hscope (by rw [hc]; exact hlast), hc, hid]
      have hcounter := State.counter_setCounter u 0 m.unit b.val
        { c.withBank bank 0 with round := (c.withBank bank 0).round + 1 }
      refine ⟨(congrArg (BarrierCounter.bankOf · bank) hcounter).trans (BarrierCounter.withBank_bankOf c bank 0),
        (congrArg BarrierCounter.round hcounter).trans
          (congrArg (· + 1) (BarrierCounter.withBank_round c bank 0)), ?_⟩
      exact List.mem_append_right _ (List.mem_singleton_self _)
  case release =>
    obtain ⟨u, hu⟩ : ∃ u : State, u = { s with net :=
        { s.net with barrierDown := s.net.barrierDown.eraseIdx (s.net.barrierDown.findIdx (fun q => q.barrier == b)) } } :=
      ⟨_, rfl⟩
    have hexec : exec (.barrierReleaseArrival b) s = .next (u.releaseTiles b.val (s.participants d)) := by
      change execBarrierReleaseArrival b s = _
      simp only [execBarrierReleaseArrival, hfind, hdecl, hu]
      rfl
    have htile : ∀ k, u.tile k = s.tile k := fun k => by rw [hu]; rfl
    refine ⟨_, hexec, fun k hk => ?_, fun k hk => ?_⟩
    · rw [releaseTiles_named _ _ _ _ hnodup hk, htile]
      exact setBarrier_r _ _
    · rw [releaseTiles_other _ _ _ _ hk, htile]

end Sys2Proof.Machine
end

section
/-!
PROOFS. HANG and HANG_REPORT, and the faults of the hardware (R25, R315 to R317, R571; HangsAndFaultsComplete, O44).
-/

namespace Sys2Proof.Machine

set_option Elab.async false

/-- No run is in progress once one has ended. -/
theorem State.endRun_state (s : State) (c : EndCause) : (s.endRun c).run.state = .idle := by
  have h := State.endRun_runActive s c
  rw [State.runActive] at h
  cases hstate : (s.endRun c).run.state
  case idle => rfl
  case running => rw [hstate] at h; exact absurd h (by decide)
  case suspended => rw [hstate] at h; exact absurd h (by decide)

/-- The end of a run adds no fault to its list. -/
theorem State.endRun_faults (s : State) (c : EndCause) : (s.endRun c).run.faults = s.run.faults :=
  ((Only.refl [.tiles, .net, .hbm, .stackMap, .mem, .ports, .domain, .held, .pair, .replies, .jobs, .run, .blocks, .log,
    .freeCtr] s).endRun c).faults

/-- The parts of the state that a hardware fault may change. -/
theorem Only.hwFault (s : State) (code source : BitVec 16) (offending detail : DWord) (payload : Bytes) :
    Only [.tiles, .net, .hbm, .stackMap, .mem, .ports, .domain, .held, .pair, .datum, .replies, .jobs, .faults, .run,
      .blocks, .log, .fwFault, .freeCtr] s (s.raiseHw code source offending detail payload) :=
  (Only.refl _ s).raiseHw code source offending detail payload

/-- A hardware fault ends the run, to whose faults it adds its record. -/
theorem raiseHw_ends (s : State) (code source : BitVec 16) (offending detail : DWord) (payload : Bytes) :
    let t := s.raiseHw code source offending detail payload
    t.run.state = .idle ∧
      (s.runActive = true → t.run.faults = s.run.faults ++ [s.hwRecord code source offending detail]) := by
  refine ⟨State.endRun_state _ _, fun hrun => ?_⟩
  rw [State.raiseHw, if_pos hrun]
  exact State.endRun_faults _ _

/-- A fault of a die-to-die link or a crossing asks for a datum pulse. -/
theorem raiseHw_datumReq (s : State) {code : BitVec 16} (source : BitVec 16) (offending detail : DWord) (payload : Bytes)
    (hcode : code = hwD2d ∨ code = hwCrossing) : (s.raiseHw code source offending detail payload).clock.datumReq = true := by
  have hkept := fun u : State => ((Only.refl [.tiles, .net, .hbm, .stackMap, .mem, .ports, .domain, .held, .pair, .replies,
    .jobs, .run, .blocks, .log, .freeCtr] u).endRun .fault).clock
  rw [State.raiseHw, hkept]
  obtain rfl | rfl := hcode
  · exact (Bool.or_eq_true _ _).mpr (.inl ((Bool.or_eq_true _ _).mpr (.inr (beq_self_eq_true hwD2d))))
  · exact (Bool.or_eq_true _ _).mpr (.inr (beq_self_eq_true hwCrossing))

/-- A unit whose HANG has been noted is not raised again in its blocking episode. -/
theorem markHung_hung {x : Tile} {u : HangUnit} {b : BlockedUnit} (h : (x.markHung u).blockedUnit u = some b) :
    b.time.hung = true := by
  cases u with
  | waitPoint wp =>
    obtain ⟨w, hw, rfl⟩ := Option.map_eq_some_iff.mp h
    have hwp := List.find?_some hw
    obtain ⟨w', -, rfl⟩ := List.mem_map.mp (List.mem_of_find?_eq_some hw)
    by_cases hsame : w'.wp = wp
    · simp [hsame]
    · simp [hsame] at hwp
  | feeder =>
    simp only [Tile.blockedUnit, Tile.markHung, Tile.frozenUnit] at h
    split at h
    case h_1 r b' _ hblock =>
      obtain ⟨b0, -, rfl⟩ := Option.map_eq_some_iff.mp hblock
      cases h
      rfl
    case h_2 => cases h
  | drain =>
    simp only [Tile.blockedUnit, Tile.markHung, Tile.frozenUnit] at h
    split at h
    case h_1 r b' _ hblock =>
      obtain ⟨b0, -, rfl⟩ := Option.map_eq_some_iff.mp hblock
      cases h
      rfl
    case h_2 => cases h
  | descriptor d =>
    rw [Tile.blockedUnit, Tile.markHung, Tile.desc_setDesc] at h
    obtain ⟨b', hb', rfl⟩ := Option.map_eq_some_iff.mp h
    obtain ⟨b0, -, rfl⟩ := Option.map_eq_some_iff.mp hb'
    rfl
  | postSend i =>
    obtain ⟨p, hp, h⟩ := Option.bind_eq_some_iff.mp h
    obtain ⟨b', hb', rfl⟩ := Option.map_eq_some_iff.mp h
    simp only [Tile.markHung, List.getElem?_map, List.getElem?_zipIdx, Option.map_map] at hp
    obtain ⟨p0, -, rfl⟩ := Option.map_eq_some_iff.mp hp
    simp only [Function.comp_apply, Nat.zero_add, if_true] at hb'
    obtain ⟨b0, -, rfl⟩ := Option.map_eq_some_iff.mp hb'
    rfl
  | transfer tag =>
    rw [Tile.blockedUnit, Tile.markHung] at h
    cases htag : mfind x.tags tag.val with
    | none => simp [htag] at h
    | some y =>
      simp only [htag, mfind_mset_same] at h
      split at h
      · cases h
      · cases h
        rfl

theorem markHung_keeps (x : Tile) (u : HangUnit) :
    (x.markHung u).regs = x.regs ∧ (x.markHung u).scratch = x.scratch ∧ (x.markHung u).sems = x.sems := by
  cases u with
  | transfer tag =>
    rw [Tile.markHung]
    cases mfind x.tags tag.val <;> exact ⟨rfl, rfl, rfl⟩
  | waitPoint wp => exact ⟨rfl, rfl, rfl⟩
  | feeder => exact ⟨rfl, rfl, rfl⟩
  | drain => exact ⟨rfl, rfl, rfl⟩
  | descriptor d => exact ⟨rfl, rfl, rfl⟩
  | postSend i => exact ⟨rfl, rfl, rfl⟩

/-- A unit that has been noted raises nothing. -/
theorem exec_hang_of_hung {s : State} {k : TileNo} {u : HangUnit}
    (h : ∀ b, (s.tile k.val).blockedUnit u = some b → b.time.hung = true) : exec (.hang k u) s = .next s := by
  change execHang k u s = _
  rw [execHang]
  cases hb : (s.tile k.val).blockedUnit u with
  | none => rfl
  | some b => exact if_neg (fun ⟨_, _, hfalse, _⟩ => absurd ((h b hb).symm.trans hfalse) (by decide))

/-- HANG and HANG_REPORT. -/
theorem hangsComplete : ∀ s : State,
    (∀ (k : TileNo) (u : HangUnit) (b : BlockedUnit), (s.tile k.val).blockedUnit u = some b →
      s.runActive = true → (s.tile k.val).faulted = false → b.time.hung = false →
      b.time.mt.toNat + s.run.hangLimit.toNat ≤ s.clock.meridian.toNat →
      ∃ t, exec (.hang k u) s = .next t ∧ t.run.hangs = s.run.hangs + 1 ∧
        t.run.hangAt = (if s.run.hangs = 0 then s.clock.meridian else s.run.hangAt) ∧
        t.mgp = (s.event evHang (srcTile k.val) (hangBytes k.val b s.clock.meridian)).mgp ∧ t.mem = s.mem ∧
        (∀ j, j ≠ k.val → t.tile j = s.tile j) ∧ (t.tile k.val).regs = (s.tile k.val).regs ∧
        (t.tile k.val).scratch = (s.tile k.val).scratch ∧ (t.tile k.val).sems = (s.tile k.val).sems ∧
        exec (.hang k u) t = .next t) := by
  intro s k u b hblocked hrun hfaulted hhung hlimit
  have hexec : ∃ t, exec (.hang k u) s = .next t ∧ t.run.hangs = s.run.hangs + 1 ∧
      t.run.hangAt = (if s.run.hangs = 0 then s.clock.meridian else s.run.hangAt) ∧
      t.mgp = (s.event evHang (srcTile k.val) (hangBytes k.val b s.clock.meridian)).mgp ∧ t.mem = s.mem ∧
      t.tiles = (s.modTile k.val (fun x => x.markHung u)).tiles := by
    change ∃ t, execHang k u s = .next t ∧ _
    simp only [execHang, hblocked]
    exact ⟨_, if_pos ⟨hrun, hfaulted, hhung, hlimit⟩, rfl, rfl, rfl, rfl, rfl⟩
  obtain ⟨t, hexec, hhangs, hat, hlog, hmem, htiles⟩ := hexec
  have htile : ∀ j, t.tile j = (s.modTile k.val (fun x => x.markHung u)).tile j :=
    fun j => congrArg (fun m => mget Tile.reset m j) htiles
  have hself : t.tile k.val = (s.tile k.val).markHung u := by rw [htile, State.modTile_same]
  obtain ⟨hregs, hscratch, hsems⟩ := markHung_keeps (s.tile k.val) u
  refine ⟨t, hexec, hhangs, hat, hlog, hmem, fun j hj => ?_, ?_, ?_, ?_, ?_⟩
  · rw [htile, State.modTile_other _ _ _ _ hj]
  · rw [hself, hregs]
  · rw [hself, hscratch]
  · rw [hself, hsems]
  · exact exec_hang_of_hung (fun b' hb' => markHung_hung (hself ▸ hb'))

/-- Settles O44. -/
theorem hangsAndFaultsComplete : Obligations.HangsAndFaultsComplete := by
  unfold Obligations.HangsAndFaultsComplete
  refine ⟨⟨fun s => hangsComplete s, fun s hrun hhangs hreported hdue => ?report⟩, fun s => ?hardware⟩
  case report =>
    change ∃ t, execHangReport s = .next t ∧ _
    rw [execHangReport, if_pos ⟨hrun, hhangs, hreported, hdue⟩]
    exact ⟨_, rfl, rfl, rfl, rfl, rfl⟩
  case hardware =>
    intro ends
    have hends : ∀ (t : State) (code source : BitVec 16) (off det : DWord) (payload : Bytes),
        t.run = (s.raiseHw code source off det payload).run → tileOfSource source = 0xFFFF → ends t code off det := by
      intro t code source off det payload ht hsource
      obtain ⟨hidle, hfaults⟩ := raiseHw_ends s code source off det payload
      refine ⟨(congrArg RunRec.state ht).trans hidle, fun hrun => ⟨s.hwRecord code source off det,
        (congrArg RunRec.faults ht).trans (hfaults hrun), rfl, hsource, rfl, ?_, rfl, rfl, rfl⟩⟩
      exact if_pos hrun
    refine ⟨fun l => ?flit, fun hclocks l => ?slip, fun hlocked => ?unlock, fun hclocks d m hfind => ?differs,
      fun hagree => ?agrees, fun l => ?retry⟩
    case flit =>
      exact ⟨_, rfl, hends _ _ _ _ _ _ rfl (by decide), raiseHw_datumReq _ _ _ _ _ (.inl rfl)⟩
    case slip =>
      change ∃ t, execCrossingSlip l s = .next t ∧ _
      rw [execCrossingSlip, if_pos hclocks]
      exact ⟨_, rfl, hends _ _ _ _ _ _ rfl (by decide), raiseHw_datumReq _ _ _ _ _ (.inr rfl)⟩
    case unlock =>
      change ∃ t, execRootUnlock s = .next t ∧ _
      rw [execRootUnlock, if_pos hlocked]
      refine ⟨_, rfl, hends _ _ _ _ _ _ rfl (by decide), rfl, rfl, rfl, ?_⟩
      have hclock := Only.hwFault s hwRoot srcClk 0 0 [] .clock (by decide)
      exact (congrArg ClockState.meridian hclock :)
    case differs =>
      change ∃ t, execMeridianCompare s = .next t ∧ _
      simp only [execMeridianCompare, hfind]
      exact ⟨_, if_pos hclocks, hends _ _ _ _ _ _ rfl (by decide)⟩
    case agrees =>
      have hnone : s.clock.copies.find? (fun e => e.2 != s.clock.meridian) = none :=
        List.find?_eq_none.mpr (fun e he => by simp [hagree e he])
      change execMeridianCompare s = _
      simp only [execMeridianCompare, hnone]
    case retry => exact ⟨_, rfl, rfl, mget_mset_same _ _ _ _⟩

end Sys2Proof.Machine
end

section
/-!
PROOFS. Requests at a memory controller: writes, intake, read returns and gated reads (R330, R331, R339 to R343, R354,
R365, R367; MemoryTrafficCompletes, O45).
-/

namespace Sys2Proof.Machine

set_option Elab.async false

theorem State.stack_modStack (s : State) (k : Nat) (f : Stack → Stack) : (s.modStack k f).stack k = f (s.stack k) :=
  mget_mset_same _ _ _ _

theorem State.stack_modStack_other (s : State) {k j : Nat} (f : Stack → Stack) (h : j ≠ k) :
    (s.modStack k f).stack j = s.stack j :=
  mget_mset_other _ _ _ _ _ h

/-! Writes. -/

/-- A piece of a write reaches HBM whole, or not at all. -/
theorem putPiece_hbm (s : State) (a : Nat) (bs : Bytes) (dl : Option DWord) :
    (s.putPiece a bs dl).mem.hbm = s.mem.hbm ∨ (s.putPiece a bs dl).mem.hbm = writeBytes s.mem.hbm a bs := by
  rw [State.putPiece]
  dsimp only
  split
  · exact .inr rfl
  · split
    · exact .inl rfl
    · split <;> exact .inr rfl

/-- Where no update plan is loaded a write keeps the stacks and stores every byte. -/
theorem putPiece_of_noPlan {s : State} (a : Nat) (bs : Bytes) (dl : Option DWord) (h : ∀ k, (s.stack k).plan = none) :
    s.putPiece a bs dl = s.writeHbm a bs := by
  rw [State.putPiece]
  simp only [h]

theorem putPieces_outside (dl : Option DWord) (b : Nat) : ∀ (fuel : Nat) (s : State) (a : Nat) (bs : Bytes),
    b < a ∨ a + bs.length ≤ b → readByte (s.putPieces dl fuel a bs).mem.hbm b = readByte s.mem.hbm b := by
  intro fuel
  induction fuel with
  | zero => exact fun _ _ _ _ => rfl
  | succ fuel ih =>
    intro s a bs hout
    rw [State.putPieces]
    split
    · rfl
    · have htake : b < a ∨ a + (bs.take (64 - a % 64)).length ≤ b := by rw [List.length_take]; omega
      have hdrop : b < a + (64 - a % 64) ∨ a + (64 - a % 64) + (bs.drop (64 - a % 64)).length ≤ b ∨
          bs.length ≤ 64 - a % 64 := by rw [List.length_drop]; omega
      have hpiece : readByte (s.putPiece a (bs.take (64 - a % 64)) dl).mem.hbm b = readByte s.mem.hbm b := by
        obtain h | h := putPiece_hbm s a (bs.take (64 - a % 64)) dl
        · rw [h]
        · rw [h, readByte_writeBytes_outside _ _ _ _ htake]
      obtain hbelow | habove | hshort := hdrop
      · exact (ih _ _ _ (.inl hbelow)).trans hpiece
      · exact (ih _ _ _ (.inr habove)).trans hpiece
      · dsimp only
        rw [List.drop_eq_nil_of_le hshort]
        cases fuel <;> exact hpiece

theorem putPieces_memWf (dl : Option DWord) : ∀ (fuel : Nat) (s : State) (a : Nat) (bs : Bytes),
    memWf s.mem.hbm = true → memWf (s.putPieces dl fuel a bs).mem.hbm = true := by
  intro fuel
  induction fuel with
  | zero => exact fun _ _ _ h => h
  | succ fuel ih =>
    intro s a bs hwf
    rw [State.putPieces]
    split
    · exact hwf
    · refine ih _ _ _ ?_
      obtain h | h := putPiece_hbm s a (bs.take (64 - a % 64)) dl
      · rw [h]
        exact hwf
      · rw [h]
        exact memWf_writeBytes _ _ _ hwf

theorem writeBytes_append (bs : Bytes) : ∀ (m : Memory) (a : Nat) (cs : Bytes),
    writeBytes m a (bs ++ cs) = writeBytes (writeBytes m a bs) (a + bs.length) cs := by
  induction bs with
  | nil => exact fun _ _ _ => rfl
  | cons b bs ih =>
    intro m a cs
    rw [List.cons_append, writeBytes, ih, writeBytes, List.length_cons, Nat.add_comm bs.length 1, Nat.add_assoc]

theorem putPieces_of_noPlan (dl : Option DWord) : ∀ (fuel : Nat) (s : State) (a : Nat) (bs : Bytes),
    bs.length < fuel → (∀ k, (s.stack k).plan = none) →
      (s.putPieces dl fuel a bs).mem.hbm = writeBytes s.mem.hbm a bs := by
  intro fuel
  induction fuel with
  | zero => exact fun _ _ _ h => absurd h (Nat.not_lt_zero _)
  | succ fuel ih =>
    intro s a bs hfuel hplan
    rw [State.putPieces]
    split
    case isTrue hempty => rw [List.isEmpty_iff.mp hempty]; rfl
    case isFalse hsome =>
      have hpos : 0 < bs.length := List.length_pos_iff.mpr (fun h => hsome (List.isEmpty_iff.mpr h))
      obtain ⟨n, hn⟩ : ∃ n, n = 64 - a % 64 := ⟨_, rfl⟩
      have hn0 : 0 < n := by omega
      dsimp only
      rw [← hn, putPiece_of_noPlan a (bs.take n) dl hplan,
        ih (s.writeHbm a (bs.take n)) (a + n) (bs.drop n) (by rw [List.length_drop]; omega) hplan]
      change writeBytes (writeBytes s.mem.hbm a (bs.take n)) (a + n) (bs.drop n) = _
      by_cases hshort : bs.length ≤ n
      · rw [List.drop_eq_nil_of_le hshort, List.take_of_length_le hshort]
        rfl
      · have hlen : (bs.take n).length = n := by rw [List.length_take]; omega
        have happend := writeBytes_append (bs.take n) s.mem.hbm a (bs.drop n)
        rw [hlen, List.take_append_drop] at happend
        exact happend.symm

/-- The listed codewords that a write overwrites are cleared in the stacks alone. -/
theorem clearPoison_hbm (a n : Nat) (l : List Nat) : ∀ s : State, (s.clearPoison a n l).mem.hbm = s.mem.hbm :=
  fun s => ((Only.refl [.stackMap] s).clearPoison a n l).hbm

theorem hbmPut_keeps (s : State) (a : Nat) (bs : Bytes) (dl : Option DWord) :
    Only [.hbm, .stackMap] s (s.hbmPut a bs dl) := (Only.refl _ s).hbmPut a bs dl

/-- Writes to HBM. -/
theorem hbmPut_writes (s : State) (a : Nat) (bs : Bytes) (dl : Option DWord) :
    (∀ b, (b < a ∨ a + bs.length ≤ b) → readByte (s.hbmPut a bs dl).mem.hbm b = readByte s.mem.hbm b) ∧
      (memWf s.mem.hbm = true → memWf (s.hbmPut a bs dl).mem.hbm = true) ∧
      ((∀ k, (s.stack k).plan = none) → (s.hbmPut a bs dl).mem.hbm = writeBytes s.mem.hbm a bs) := by
  rw [State.hbmPut, clearPoison_hbm]
  exact ⟨fun b hb => putPieces_outside dl b _ s a bs hb, putPieces_memWf dl _ s a bs,
    putPieces_of_noPlan dl _ s a bs (Nat.lt_succ_self _)⟩

/-- The acknowledgement of a write changes a tile's tags alone. -/
theorem ackWrite_keeps (s : State) (r : HbmReq) : (s.ackWrite r).mem = s.mem ∧ (s.ackWrite r).run = s.run ∧
    ∀ j, ((s.ackWrite r).tile j).regs = (s.tile j).regs ∧ ((s.ackWrite r).tile j).scratch = (s.tile j).scratch := by
  rw [State.ackWrite]
  split
  case h_1 q tag _ =>
    refine ⟨rfl, rfl, fun j => ?_⟩
    by_cases hj : j = q.val
    · rw [hj, State.modTile_same, Tile.markDone]
      split <;> exact ⟨rfl, rfl⟩
    · rw [State.modTile_other _ _ _ _ hj]
      exact ⟨rfl, rfl⟩
  case h_2 => exact ⟨rfl, rfl, fun _ => ⟨rfl, rfl⟩⟩

/-! Intake. -/

theorem intake_full {s : State} {k n : Nat} {r : HbmReq} (h : (s.stack k).hasRoom r = false) : s.intake k n r = s := by
  rw [State.intake, if_pos h]

theorem intake_write {s : State} {k n : Nat} {r : HbmReq} (hroom : (s.stack k).hasRoom r = true) (hwrite : r.isWrite = true) :
    s.intake k n r = ((s.dropNet n).hbmPut r.addr r.data r.deadline).ackWrite r := by
  simp [State.intake, hroom, hwrite]

theorem intake_read {s : State} {k n : Nat} {r : HbmReq} (hroom : (s.stack k).hasRoom r = true) (hread : r.isWrite = false)
    (hplain : s.isGateRead r = false) : s.intake k n r =
      (s.dropNet n).modStack k (fun x => { x with intake := x.intake ++ [s.entered r] }) := by
  simp [State.intake, hroom, hread, hplain]

theorem intake_gated {s : State} {k n : Nat} {r : HbmReq} (hroom : (s.stack k).hasRoom r = true)
    (hgate : s.isGateRead r = true) : s.intake k n r =
      ((s.dropNet n).modStack k (fun x => { x with heldGates := x.heldGates ++ [{ req := s.entered r, got := [] }] })).judgeGates
        k := by
  have hread : r.isWrite = false := by
    simp only [State.isGateRead, Bool.and_eq_true, Bool.not_eq_true'] at hgate
    exact hgate.1
  simp [State.intake, hroom, hread, hgate]

theorem exec_intake {s : State} {k : StackNo} {n : Nat} {r : HbmReq} (h : s.firstNet (s.mayEnter k.val) = some (n, r)) :
    exec (.hbmRequestIntake k) s = .next (s.intake k.val n r) := by
  change execHbmRequestIntake k s = _
  simp only [execHbmRequestIntake, h]

/-! Gated reads. -/

/-- A stack that holds no gated read judges none. -/
theorem judgeGates_empty {s : State} {k : Nat} {plan : UpdatePlan} (hplan : (s.stack k).plan = some plan)
    (hheld : (s.stack k).heldGates = []) : s.judgeGates k = s.modStack k (fun x => { x with heldGates := [] }) := by
  simp only [State.judgeGates, hplan, hheld, State.judgeHeld]

/-- A held read of one gate line, whose gate has not completed the line's step, stays held as it was. -/
theorem judgeGates_waits {s : State} {k l g j : Nat} {plan : UpdatePlan} {q : GateRead}
    (hplan : (s.stack k).plan = some plan) (hheld : (s.stack k).heldGates = [q]) (hgot : q.got = [])
    (hlines : gateLines plan (s.stackAddr q.req.addr) q.req.len = [l]) (hgate : gateLineOf plan l = some (g, j))
    (hvalue : (s.stack k).gateValue plan g j = none) :
    Only [.stackMap] s (s.judgeGates k) ∧ (s.judgeGates k).stack k = s.stack k ∧
      ∀ a, (s.judgeGates k).stackAddr a = s.stackAddr a := by
  obtain ⟨u, hu⟩ : ∃ u, u = s.modStack k (fun x => { x with heldGates := [] }) := ⟨_, rfl⟩
  have hlines' : gateLines plan (u.stackAddr q.req.addr) q.req.len = [l] := by rw [hu]; exact hlines
  have hstack : u.stack k = { s.stack k with heldGates := [] } := by rw [hu, State.stack_modStack]
  have hvalue' : (u.stack k).gateValue plan g j = none := by rw [hstack]; exact hvalue
  have hjudged : s.judgeGates k = u.modStack k (fun x => { x with heldGates := x.heldGates ++ [q] }) := by
    simp only [State.judgeGates, hplan, hheld, ← hu, State.judgeHeld, hlines', State.captureLines, hgot, mfind, hgate, hvalue']
    obtain ⟨req, got⟩ := q
    cases hgot
    rfl
  have honly : Only [.stackMap] s u := hu ▸ (Only.refl _ s).modStack k _
  rw [hjudged]
  refine ⟨honly.modStack k _, ?_, fun a => by rw [hu]; rfl⟩
  rw [State.stack_modStack, hstack]
  obtain ⟨x, hx⟩ : ∃ x, x = s.stack k := ⟨_, rfl⟩
  rw [← hx] at hheld ⊢
  cases x
  cases hheld
  rfl

/-- A held read of one gate line, whose gate has completed the line's step, returns with the gate's value. -/
theorem judgeGates_returns {s : State} {k l g j : Nat} {plan : UpdatePlan} {q : GateRead} {v : DWord}
    (hplan : (s.stack k).plan = some plan) (hheld : (s.stack k).heldGates = [q]) (hgot : q.got = [])
    (hpoison : q.req.poison = none) (hlines : gateLines plan (s.stackAddr q.req.addr) q.req.len = [l])
    (hgate : gateLineOf plan l = some (g, j)) (hvalue : (s.stack k).gateValue plan g j = some v) :
    ∃ u : State, s.judgeGates k = u.returnData q.req (s.readWith plan q.req [(l, v)]) ∧ Only [.stackMap] s u ∧
      (u.stack k).plan = some plan ∧ (u.stack k).heldGates = [] := by
  obtain ⟨u, hu⟩ : ∃ u, u = s.modStack k (fun x => { x with heldGates := [] }) := ⟨_, rfl⟩
  have hlines' : gateLines plan (u.stackAddr q.req.addr) q.req.len = [l] := by rw [hu]; exact hlines
  have hstack : u.stack k = { s.stack k with heldGates := [] } := by rw [hu, State.stack_modStack]
  have hvalue' : (u.stack k).gateValue plan g j = some v := by rw [hstack]; exact hvalue
  have honly : Only [.stackMap] s u := hu ▸ (Only.refl _ s).modStack k _
  obtain ⟨w, hw⟩ : ∃ w, w = if (gateEntries plan g).isEmpty then
      u.modStack k (fun x => { x with gateIgnored := satInc x.gateIgnored }) else u := ⟨_, rfl⟩
  have hreturn : s.judgeGates k = w.returnData q.req (w.readWith plan q.req [(l, v)]) := by
    simp only [State.judgeGates, hplan, hheld, ← hu, State.judgeHeld, hlines', State.captureLines, hgot, mfind, hgate, hvalue',
      ← hw, mset, hpoison]
    simp
  refine ⟨w, hreturn.trans ?_, ?_, ?_, ?_⟩
  · rw [hw, hu]
    split <;> rfl
  · rw [hw]
    split
    · exact honly.modStack k _
    · exact honly
  · rw [hw]
    split
    · rw [State.stack_modStack, hstack]; exact hplan
    · rw [hstack]; exact hplan
  · rw [hw]
    split
    · rw [State.stack_modStack, hstack]
    · rw [hstack]

/-! The returns of reads. -/

theorem returnData_tile {s : State} {r : HbmReq} {q : TileNo} {tag : Fin 256} (data : Bytes) (hwho : r.who = .tile q tag)
    (hremote : r.remote = none) : s.returnData r data = s.modTile q.val (fun x => { x with inbound := x.inbound ++
      [.read tag (((mfind (s.tile q.val).tags tag.val).map (·.localAddr)).getD 0) data r.deadline] }) := by
  simp only [State.returnData, hwho, hremote]

/-- A codeword in error ends the run with HBM's fault. -/
theorem raiseHbm_ends (s : State) (k cw : Nat) (hrun : s.runActive = true) : (s.raiseHbm k cw).run.state = .idle ∧
    ∃ f, (s.raiseHbm k cw).run.faults = s.run.faults ++ [f] ∧ f.code = 0x0104 := by
  obtain ⟨hidle, hfaults⟩ := raiseHw_ends s hwHbm (srcOf 6 k) (BitVec.ofNat 64 cw)
    (BitVec.ofNat 64 (k + 256 * (cw / 2 ^ 30) + 65536 * (if s.bandClassW (cw / 2 ^ 30) then 1 else 0))) []
  exact ⟨hidle, _, hfaults hrun, rfl⟩

/-- A read whose codeword cannot be corrected ends the run, whether it met it on its entry or on its return. -/
theorem exec_readReturn_uncorrectable {s : State} {k : StackNo} {n : Nat} {r : HbmReq}
    (h : s.firstRead (s.stack k.val).intake = some (n, r)) (hwho : r.who ≠ .aperture) (w : Fin 8) :
    ∃ (u : State) (k' cw : Nat), exec (.hbmReadReturn k (.uncorrectable w)) s = .next (u.raiseHbm k' cw) ∧ u.run = s.run := by
  change ∃ u k' cw, execHbmReadReturn k (.uncorrectable w) s = _ ∧ _
  simp only [execHbmReadReturn, h]
  cases r.poison with
  | some p => exact ⟨_, p.1, p.2, if_neg hwho, rfl⟩
  | none => exact ⟨_, k.val, s.faultWord (s.stackAddr r.addr) w, if_neg hwho, rfl⟩

/-- Settles O45. -/
theorem memoryTrafficCompletes : Obligations.MemoryTrafficCompletes := by
  unfold Obligations.MemoryTrafficCompletes
  refine ⟨fun s a bs dl => ?writes, fun s k n r hfirst => ⟨fun hfull => ?full, fun hwrite hroom => ?enters,
    fun hread hplain hroom => ?queued⟩, fun s k n r hfirst => ⟨fun q tag hpoison hwho hremote => ?returns,
    fun hwho w => ?uncorrectable⟩, fun s k n r q tag plan l g j hfirst hgated hroom hwho hremote hplan hheld hpoison hlines hgate =>
    ?gated⟩
  case writes =>
    intro t
    obtain ⟨hout, hwf, hall⟩ := hbmPut_writes s a bs dl
    have hkeeps := hbmPut_keeps s a bs dl
    exact ⟨hout, hwf, hall, hkeeps.tiles, hkeeps.run, hkeeps.host⟩
  case full => rw [exec_intake hfirst, intake_full hfull]
  case enters =>
    obtain ⟨u, hu⟩ : ∃ u, u = (s.dropNet n).hbmPut r.addr r.data r.deadline := ⟨_, rfl⟩
    have hkeeps : Only [.hbm, .stackMap] (s.dropNet n) u := hu ▸ hbmPut_keeps _ _ _ _
    obtain ⟨hmem, hrun, hregs⟩ := ackWrite_keeps u r
    rw [exec_intake hfirst, intake_write hroom hwrite, ← hu]
    refine ⟨_, rfl, ?_, ?_, ?_, fun j => ?_⟩
    · rw [hmem]; exact hkeeps.memNet
    · rw [hmem]
    · rw [hrun]; exact hkeeps.run
    · have htile : u.tile j = s.tile j := hkeeps.tile j
      rw [← htile]
      exact hregs j
  case queued =>
    rw [exec_intake hfirst, intake_read hroom hread hplain]
    refine ⟨_, rfl, rfl, ?_, rfl, rfl⟩
    rw [State.stack_modStack]
    rfl
  case returns =>
    change ∃ t, execHbmReadReturn k .none s = .next t ∧ _
    simp only [execHbmReadReturn, hfirst, hpoison]
    rw [returnData_tile _ hwho hremote]
    refine ⟨_, rfl, ?_, ?_, rfl, fun j hj => State.modTile_other _ _ _ _ hj⟩
    · rw [State.modTile_same]
      rfl
    · exact (congrArg Stack.intake (State.stack_modStack s k.val
        (fun y => { y with intake := y.intake.eraseIdx n }) :) :)
  case uncorrectable =>
    obtain ⟨u, k', cw, hexec, hu⟩ := exec_readReturn_uncorrectable hfirst hwho w
    refine ⟨_, hexec, fun hrun => ?_⟩
    have hends := raiseHbm_ends u k' cw (by rw [State.runActive, hu]; exact hrun)
    rwa [hu] at hends
  case gated =>
    obtain ⟨u, hu⟩ : ∃ u, u = (s.dropNet n).modStack k.val
        (fun x => { x with heldGates := x.heldGates ++ [{ req := s.entered r, got := [] }] }) := ⟨_, rfl⟩
    have hexec : exec (.gatedRead k) s = .next ((u.judgeGates k.val).judgeGates k.val) := by
      change execGatedRead k s = _
      simp only [execGatedRead, hfirst, hgated, if_true, intake_gated hroom hgated, ← hu]
    have hstack : u.stack k.val = { s.stack k.val with heldGates := [{ req := s.entered r, got := [] }] } := by
      rw [hu, State.stack_modStack, show (s.dropNet n).stack k.val = s.stack k.val from rfl, hheld]
      rfl
    have hplan' : (u.stack k.val).plan = some plan := by rw [hstack]; exact hplan
    have hheld' : (u.stack k.val).heldGates = [{ req := s.entered r, got := [] }] := by rw [hstack]
    have hlines' : gateLines plan (u.stackAddr r.addr) r.len = [l] := by rw [hu]; exact hlines
    have hvalue' : (u.stack k.val).gateValue plan g j = (s.stack k.val).gateValue plan g j := by rw [hstack]; rfl
    have hnet : u.mem.net = s.mem.net.eraseIdx n := by rw [hu]; rfl
    have htile : u.tile q.val = s.tile q.val := by rw [hu]; rfl
    cases hvalue : (s.stack k.val).gateValue plan g j with
    | none =>
      obtain ⟨honly, hstack1, haddr1⟩ := judgeGates_waits hplan' hheld' rfl hlines' hgate (hvalue'.trans hvalue)
      generalize u.judgeGates k.val = w at hexec honly hstack1 haddr1
      obtain ⟨honly2, hstack2, -⟩ := judgeGates_waits (hstack1 ▸ hplan') (hstack1 ▸ hheld') rfl ((haddr1 _).symm ▸ hlines') hgate
        (hstack1 ▸ hvalue'.trans hvalue)
      refine ⟨_, hexec, (honly.trans honly2).memNet.trans hnet, fun _ => ⟨?_, ?_⟩, fun v hv => (by cases hv)⟩
      · rw [hstack2, hstack1, hheld']
      · exact (honly.trans honly2).tiles.trans (by rw [hu]; rfl)
    | some v =>
      obtain ⟨w, hw, honly, hwplan, hwheld⟩ :=
        judgeGates_returns hplan' hheld' rfl hpoison hlines' hgate (hvalue'.trans hvalue)
      obtain ⟨x, hx⟩ : ∃ x, x = u.readWith plan (s.entered r) [(l, v)] := ⟨_, rfl⟩
      have hdata : x = s.readWith plan (s.entered r) [(l, v)] := by rw [hx, hu]; rfl
      rw [hw, ← hx, returnData_tile x (r := s.entered r) hwho hremote] at hexec
      obtain ⟨a, ha⟩ : ∃ a, a = ((mfind (w.tile q.val).tags tag.val).map (·.localAddr)).getD 0 := ⟨_, rfl⟩
      rw [← ha] at hexec
      obtain ⟨y, hy⟩ : ∃ y, y = w.modTile q.val (fun e => { e with inbound := e.inbound ++ [.read tag a x r.deadline] }) :=
        ⟨_, rfl⟩
      have hexec' : exec (.gatedRead k) s = .next (y.judgeGates k.val) := by rw [hy]; exact hexec
      have hystack : y.stack k.val = w.stack k.val := by rw [hy]; rfl
      rw [judgeGates_empty (hystack.symm ▸ hwplan) (hystack.symm ▸ hwheld)] at hexec'
      refine ⟨_, hexec', ?_, fun h => (by cases h), fun v' hv' => ?_⟩
      · change y.mem.net = _
        rw [hy]
        exact honly.memNet.trans hnet
      · cases hv'
        refine ⟨?_, a, ?_⟩
        · rw [State.stack_modStack]
        · change (y.tile q.val).inbound = _
          rw [hy, State.modTile_same, ← hdata, ← htile, ← honly.tile q.val]

end Sys2Proof.Machine
end

section
/-!
PROOFS. The upkeep of a stack: refresh, tracking, patrol scrub and temperature (R331 to R338, R564; StackUpkeepCompletes,
O46). Before the first datum pulse the controller keeps refresh windows of its own, without a slot (the model's choice, log
entry 117).
-/

namespace Sys2Proof.Machine

set_option Elab.async false

theorem State.stack_setStack (s : State) (k : Nat) (x : Stack) : (s.setStack k x).stack k = x := mget_mset_same _ _ _ _

theorem State.event_stack (s : State) (e : Event) (source : BitVec 16) (payload : Bytes) (k : Nat) :
    (s.event e source payload).stack k = s.stack k := rfl

/-- The next refresh of a channel, in its slot. -/
theorem exec_refresh_inSlot {s : State} {k : StackNo} {c : Fin 32} {y : Stack} {j : Nat}
    (hy : y = (s.stack k.val).turnWindow k.val s.clock.meridian.toNat) (hj : j = mget 0 y.refreshIndex c.val)
    (hruns : s.clock.meridianRuns = true) (hlast : j < 327680)
    (hslot : refreshSlot y.fastRefresh c.val j * 4 ≤ (windowAt y.fastRefresh k.val s.clock.meridian.toNat).2) :
    exec (.refresh k c) s = .next (s.setStack k.val (y.refreshOn c.val j)) := by
  change execRefresh k c s = _
  subst hj
  rw [execRefresh, ← hy]
  rw [if_neg (not_not_intro hruns), if_pos ⟨hlast, hslot⟩]

theorem exec_refresh_free {s : State} {k : StackNo} {c : Fin 32} (hruns : s.clock.meridianRuns = false) :
    exec (.refresh k c) s = .next (s.modStack k.val (fun y => y.freeRefresh c.val)) := by
  change execRefresh k c s = _
  rw [execRefresh]
  rw [if_pos (by simp [hruns])]

theorem freeRefresh_counts (x : Stack) (c : Nat) : (x.freeRefresh c).refreshCount = x.refreshCount + 1 ∧
    mget 0 (x.freeRefresh c).refreshIndex c =
      (if mget 0 x.refreshIndex c < 327680 then mget 0 x.refreshIndex c + 1 else 1) := by
  rw [Stack.freeRefresh]
  dsimp only
  split
  · exact ⟨rfl, mget_mset_same _ _ _ _⟩
  · exact ⟨rfl, mget_mset_same _ _ _ _⟩

theorem scrubOn_keeps (x : Stack) (n : Nat) : (x.scrubOn n).poison = x.poison ∧ (x.scrubOn n).uncorr = x.uncorr := by
  rw [Stack.scrubOn]
  dsimp only
  split <;> exact ⟨rfl, rfl⟩

theorem scrubOn_within {x : Stack} {n : Nat} (h : x.scrubAddr + n < stackBytes) :
    x.scrubOn n = { x with scrubAddr := x.scrubAddr + n } := if_pos h

theorem scrubOn_ends {x : Stack} {n : Nat} (h : stackBytes ≤ x.scrubAddr + n) :
    x.scrubOn n = { x with
      scrubAddr := 0, scrubCorrected := 0
      scrubFast := if 64 < x.scrubCorrected then true else if x.scrubCorrected = 0 then false else x.scrubFast } :=
  if_neg (Nat.not_lt.mpr h)

/-- An uncorrectable codeword is counted, and listed where it is new and the list has room. -/
theorem listPoison_stack (s : State) (k cw : Nat) :
    ((s.listPoison k cw).stack k).uncorr = satInc (s.stack k).uncorr ∧
      ((s.listPoison k cw).stack k).poison = (if (s.stack k).poison.contains cw then (s.stack k).poison
        else if (s.stack k).poison.length < 256 then (s.stack k).poison ++ [cw] else (s.stack k).poison) ∧
      (s.listPoison k cw).mem.hbm = s.mem.hbm := by
  obtain ⟨u, hu⟩ : ∃ u, u = (s.modStack k (fun x => { x with uncorr := satInc x.uncorr })).event evScrubUncorrectable
      (srcOf 6 k) (leBytes 1 k ++ leBytes 8 cw) := ⟨_, rfl⟩
  have hstack : u.stack k = { s.stack k with uncorr := satInc (s.stack k).uncorr } := by
    rw [hu, State.event_stack, State.stack_modStack]
  have hhbm : u.mem.hbm = s.mem.hbm := by rw [hu]; rfl
  rw [State.listPoison, ← hu]
  split
  · rw [hstack]; exact ⟨rfl, rfl, hhbm⟩
  · split
    · rw [State.stack_modStack, hstack]; exact ⟨rfl, rfl, hhbm⟩
    · rw [State.event_stack, hstack]; exact ⟨rfl, rfl, hhbm⟩

/-- Settles O46. -/
theorem stackUpkeepCompletes : Obligations.StackUpkeepCompletes := by
  unfold Obligations.StackUpkeepCompletes
  intro s k x
  refine ⟨fun c => ?slot, fun c hruns => ?free, fun c hdue => ?tracks, ⟨?scrubs, fun w => ?lists⟩, fun temp => ?temperature⟩
  case slot =>
    intro y j hruns hlast hslot
    rw [exec_refresh_inSlot (y := y) (j := j) rfl rfl hruns hlast hslot]
    refine ⟨_, rfl, ?_, ?_, rfl, rfl⟩
    · rw [State.stack_setStack]; rfl
    · rw [State.stack_setStack]; exact mget_mset_same _ _ _ _
  case free =>
    obtain ⟨hcount, hindex⟩ := freeRefresh_counts x c.val
    rw [exec_refresh_free hruns]
    refine ⟨_, rfl, ?_, ?_, rfl, rfl⟩
    · rw [State.stack_modStack]; exact hcount
    · rw [State.stack_modStack]; exact hindex
  case tracks =>
    have hstack := State.stack_setStack s k.val
      { x with tracking := mset x.tracking c.val (s.clock.meridian.toNat / mtPerMs + 1) }
    have hms : mget 0 ((s.setStack k.val
        { x with tracking := mset x.tracking c.val (s.clock.meridian.toNat / mtPerMs + 1) }).stack k.val).tracking c.val =
        s.clock.meridian.toNat / mtPerMs + 1 := by
      rw [hstack]
      exact mget_mset_same _ _ _ _
    refine ⟨_, if_pos hdue, hms, ?_⟩
    exact if_neg (fun h => absurd (hms ▸ h) (Nat.lt_irrefl _))
  case scrubs =>
    obtain ⟨n, hn⟩ : ∃ n, n = if s.bandClassW (x.scrubAddr / 2 ^ 30) then 1024 else 64 := ⟨_, rfl⟩
    rw [← hn]
    have hexec : exec (.patrolScrub k .none) s =
        .next ((s.modStack k.val (fun x => { x with scrubWriteBack := none })).modStack k.val (fun x => x.scrubOn n)) := by
      rw [hn]
      rfl
    obtain ⟨y, hy⟩ : ∃ y : Stack, y = { x with scrubWriteBack := none } := ⟨_, rfl⟩
    obtain ⟨u, hu⟩ : ∃ u, u = s.modStack k.val (fun x => { x with scrubWriteBack := none }) := ⟨_, rfl⟩
    have hstack : u.stack k.val = y := by rw [hu, hy, State.stack_modStack]
    rw [← hu] at hexec
    refine ⟨_, hexec, by rw [hu]; rfl, ?_, fun hwithin => ?_, fun hends => ?_⟩
    · rw [State.stack_modStack, hstack, (scrubOn_keeps y n).1, hy]
    · rw [State.stack_modStack, hstack, scrubOn_within (x := y) (by rw [hy]; exact hwithin), hy]
      exact ⟨rfl, rfl⟩
    · rw [State.stack_modStack, hstack, scrubOn_ends (x := y) (by rw [hy]; exact hends), hy]
      refine ⟨rfl, rfl, fun hmany => if_pos hmany, fun hnone => ?_⟩
      change (if 64 < x.scrubCorrected then true else if x.scrubCorrected = 0 then false else x.scrubFast) = false
      rw [hnone]
      rfl
  case lists =>
    intro cw
    obtain ⟨u, hu⟩ : ∃ u, u = s.modStack k.val (fun x => { x with scrubWriteBack := none }) := ⟨_, rfl⟩
    have hstack : u.stack k.val = { x with scrubWriteBack := none } := by rw [hu, State.stack_modStack]
    obtain ⟨huncorr, hpoison, hhbm⟩ := listPoison_stack u k.val cw
    rw [hstack] at huncorr hpoison
    have hexec : exec (.patrolScrub k (.uncorrectable w)) s = .next ((u.listPoison k.val cw).modStack k.val
        (fun y => y.scrubOn (if s.bandClassW (x.scrubAddr / 2 ^ 30) then 1024 else 64))) := by
      rw [hu]
      rfl
    refine ⟨_, hexec, ?_, ?_, hhbm.trans (by rw [hu]; rfl)⟩
    · rw [State.stack_modStack, (scrubOn_keeps _ _).2]; exact huncorr
    · rw [State.stack_modStack, (scrubOn_keeps _ _).1]; exact hpoison
  case temperature =>
    refine ⟨_, rfl, ?_, ?_, rfl⟩
    · exact congrArg Stack.temp (State.stack_modStack s k.val _)
    · exact congrArg Stack.fastNext (State.stack_modStack s k.val _)

end Sys2Proof.Machine
end

section
/-!
PROOFS. Marks, passes, records and steps of the update engines (R354 to R356, R363, R372, R374, R568;
UpdateEnginesComplete, O47).
-/

namespace Sys2Proof.Machine

set_option Elab.async false

theorem Only.stack {P : List Part} {s t : State} (h : Only P s t) (k : Nat) (hp : .stackMap ∉ P := by decide) :
    t.stack k = s.stack k := congrArg (fun m => mget Stack.reset m k) (h .stackMap hp)

theorem Stack.entry_setEntries (x : Stack) (plan : UpdatePlan) (i : Nat) (st : EntryState) :
    ({ x with entries := mset x.entries i st } : Stack).entry plan i = st := mget_mset_same _ _ _ _

/-! Marks. -/

/-- A mark of an older step, or of a running one. -/
theorem actMark_ignored {s : State} {k i : Nat} {plan : UpdatePlan} {m : Mark} {later : List Mark} {e : PlanEntry}
    (hentry : markEntry plan m.line = some (i, e))
    (hold : m.value.toNat < ((s.stack k).entry plan i).t ∨
      (m.value.toNat = ((s.stack k).entry plan i).t ∧ ((s.stack k).entry plan i).running = true)) :
    s.actMark k plan m later = s.modStack k (fun x => { x with marksIgnored := satInc x.marksIgnored }) := by
  simp only [State.actMark, hentry]
  exact if_pos hold

/-- A mark ahead of its entry. -/
theorem actMark_skew {s : State} {k i : Nat} {plan : UpdatePlan} {m : Mark} {later : List Mark} {e : PlanEntry}
    (hentry : markEntry plan m.line = some (i, e)) (hahead : ((s.stack k).entry plan i).t < m.value.toNat) :
    s.actMark k plan m later =
      s.raiseHw hwStepSkew (srcOf 7 k) m.value (BitVec.ofNat 64 (k + 2 ^ 16 * i + 2 ^ 32 * m.line)) [] := by
  have hnew : ¬ (m.value.toNat < ((s.stack k).entry plan i).t ∨
      (m.value.toNat = ((s.stack k).entry plan i).t ∧ ((s.stack k).entry plan i).running = true)) := by omega
  simp only [State.actMark, hentry]
  rw [if_neg hnew, if_pos hahead]

/-- The deadline of the pass that a mark starts (R374). -/
def passDeadline (e : PlanEntry) (m : Mark) : Option DWord :=
  if e.needOffset = 0xFFFFFFFF then none else m.deadline.map (fun d => d + e.needOffset.setWidth 64)

/-- A mark of the step that its entry waits for: the last one starts the pass. -/
theorem actMark_current {s : State} {k i : Nat} {plan : UpdatePlan} {m : Mark} {later : List Mark} {e : PlanEntry}
    (hentry : markEntry plan m.line = some (i, e)) (hstep : m.value.toNat = ((s.stack k).entry plan i).t)
    (hidle : ((s.stack k).entry plan i).running = false) :
    s.actMark k plan m later =
      if s.allMarked k plan e ((s.stack k).entry plan i).t later then
        s.modStack k (fun x => { x with
          entries := mset x.entries i { (s.stack k).entry plan i with running := true, deadline := passDeadline e m } })
      else s := by
  have hnew : ¬ (m.value.toNat < ((s.stack k).entry plan i).t ∨
      (m.value.toNat = ((s.stack k).entry plan i).t ∧ ((s.stack k).entry plan i).running = true)) := by
    rw [hidle, hstep]
    simp
  simp only [State.actMark, hentry]
  rw [if_neg hnew, if_neg (by omega)]
  rfl

theorem exec_markWrite {s : State} {k : StackNo} {m : Mark} {rest : List Mark} {plan : UpdatePlan}
    (hmarks : (s.stack k.val).marks = m :: rest) (hplan : (s.stack k.val).plan = some plan)
    (hacts : s.markWaits m.value = false) (hrun : s.runActive = true) : exec (.markWrite k) s =
      .next ((s.modStack k.val (fun x => { x with marks := rest })).actMark k.val plan m rest) := by
  change execMarkWrite k s = _
  simp only [execMarkWrite, hmarks, hplan, hacts]
  exact (if_neg (by decide)).trans (if_pos hrun)

/-! Passes. -/

/-- What the gates of a stack depend on: its plan, its entries and the reads that it holds. -/
def Stack.gates (x : Stack) : Option UpdatePlan × SMap EntryState × List GateRead := (x.plan, x.entries, x.heldGates)

theorem entryRefresh_gates (s : State) (k : Nat) (e : PlanEntry) (p : UpdateProgram) (t : Nat) :
    ((s.entryRefresh k e p t).stack k).gates = (s.stack k).gates := by
  rw [State.entryRefresh]
  split
  case h_1 => rfl
  case h_2 r _ =>
    split
    case h_1 x inv _ _ =>
      split
      · obtain ⟨q, hq⟩ : ∃ q, q = s.refreshBlocks k x inv r (e.elemCount / (r.order * r.order)) := ⟨_, rfl⟩
        have hkept : Only [.hbm] s q.1 := hq ▸ (Only.refl _ s).refreshBlocks k x inv r _
        rw [← hq]
        exact (congrArg Stack.gates (State.stack_modStack q.1 k _)).trans (congrArg Stack.gates (hkept.stack k) :)
      · rfl
    case h_2 => rfl

/-- A pass's body leaves the plan, the entries and the held reads of its stack. -/
theorem passBody_gates (s : State) (k : Nat) (e : PlanEntry) (t : Nat) :
    ((s.passBody k e t).stack k).gates = (s.stack k).gates := by
  rw [State.passBody]
  refine (congrArg Stack.gates (State.stack_modStack _ k _)).trans ?_
  change Stack.gates (State.stack (if t = 0 then s else _) k) = _
  split
  · rfl
  · rw [entryRefresh_gates]
    obtain ⟨u, hu⟩ : ∃ u, u = s.writeStackRuns k (s.passWrites k e t).1 := ⟨_, rfl⟩
    have hkept : Only [.hbm] s u := hu ▸ (Only.refl _ s).writeStackRuns k _
    rw [← hu]
    exact (congrArg Stack.gates (State.stack_modStack u k _)).trans (congrArg Stack.gates (hkept.stack k) :)

/-- An entry after its pass: it waits for the next step (R363). -/
def EntryState.passed (st : EntryState) : EntryState :=
  { running := false, t := st.t + 1, completed := some st.t, deadline := none }

/-- A running pass that completes. -/
theorem completePass_of_running {s : State} {k i : Nat} {plan : UpdatePlan} {e : PlanEntry}
    (hplan : (s.stack k).plan = some plan) (he : plan.entries[i]? = some e)
    (hrunning : ((s.stack k).entry plan i).running = true) :
    s.completePass k i = (s.passBody k e ((s.stack k).entry plan i).t).modStack k
      (fun x => { x with entries := mset x.entries i ((s.stack k).entry plan i).passed }) := by
  simp only [State.completePass, hplan, he, hrunning, if_true]
  rfl

/-- What judging the held reads of a stack leaves, where none met an error: the entries, HBM, the run and every tile's
registers. -/
structure GatesJudged (k : Nat) (s t : State) : Prop where
  entries : (t.stack k).entries = (s.stack k).entries
  hbm : t.mem.hbm = s.mem.hbm
  run : t.run = s.run
  regs : ∀ j, (t.tile j).regs = (s.tile j).regs

theorem GatesJudged.trans {k : Nat} {s t u : State} (h : GatesJudged k s t) (h' : GatesJudged k t u) : GatesJudged k s u :=
  ⟨h'.entries.trans h.entries, h'.hbm.trans h.hbm, h'.run.trans h.run, fun j => (h'.regs j).trans (h.regs j)⟩

theorem GatesJudged.modStack (s : State) (k : Nat) (f : Stack → Stack) (hf : (f (s.stack k)).entries = (s.stack k).entries) :
    GatesJudged k s (s.modStack k f) :=
  ⟨(congrArg Stack.entries (State.stack_modStack s k f)).trans hf, rfl, rfl, fun _ => rfl⟩

theorem GatesJudged.modTile (s : State) (k j : Nat) (f : Tile → Tile) (hf : (f (s.tile j)).regs = (s.tile j).regs) :
    GatesJudged k s (s.modTile j f) := by
  refine ⟨rfl, rfl, rfl, fun i => ?_⟩
  by_cases hi : i = j
  · rw [hi, State.modTile_same, hf]
  · rw [State.modTile_other _ _ _ _ hi]

theorem returnData_judged (s : State) (k : Nat) (r : HbmReq) (data : Bytes) : GatesJudged k s (s.returnData r data) := by
  obtain ⟨who, w, a, n, d, deadline, remote, p⟩ := r
  cases who with
  | tile q tag =>
    cases remote with
    | some x => exact ⟨rfl, rfl, rfl, fun _ => rfl⟩
    | none =>
      rw [returnData_tile data rfl rfl]
      exact GatesJudged.modTile s k q.val _ rfl
  | code q line =>
    exact GatesJudged.modTile s k q.val (fun x => { x with codeIn := x.codeIn ++ [(line, deadline.getD 0)] }) rfl
  | dma c => exact ⟨rfl, rfl, rfl, fun _ => rfl⟩
  | aperture => exact ⟨rfl, rfl, rfl, fun _ => rfl⟩
  | update => exact ⟨rfl, rfl, rfl, fun _ => rfl⟩

theorem captureLines_judged (k : Nat) (plan : UpdatePlan) (l : List Nat) : ∀ (s : State) (got : SMap DWord),
    GatesJudged k s (s.captureLines k plan l got).1 := by
  induction l with
  | nil => exact fun s _ => ⟨rfl, rfl, rfl, fun _ => rfl⟩
  | cons x r ih =>
    intro s got
    rw [State.captureLines]
    split
    case h_1 g j _ _ =>
      split
      · dsimp only
        refine GatesJudged.trans ?_ (ih _ _)
        split
        · exact GatesJudged.modStack s k _ rfl
        · exact ⟨rfl, rfl, rfl, fun _ => rfl⟩
      · exact ih _ _
    case h_2 => exact ih _ _

theorem judgeHeld_judged (k : Nat) (plan : UpdatePlan) (l : List GateRead) (hclean : ∀ g ∈ l, g.req.poison = none) :
    ∀ s : State, GatesJudged k s (s.judgeHeld k plan l) := by
  induction l with
  | nil => exact fun s => ⟨rfl, rfl, rfl, fun _ => rfl⟩
  | cons g r ih =>
    intro s
    have hnone : g.req.poison = none := hclean g List.mem_cons_self
    have hcaptured := captureLines_judged k plan (gateLines plan (s.stackAddr g.req.addr) g.req.len) s g.got
    rw [State.judgeHeld]
    generalize s.captureLines k plan (gateLines plan (s.stackAddr g.req.addr) g.req.len) g.got = p at hcaptured
    obtain ⟨u, got⟩ := p
    dsimp only at hcaptured ⊢
    refine GatesJudged.trans (hcaptured.trans ?_) (ih (fun q hq => hclean q (List.mem_cons_of_mem _ hq)) _)
    split
    · rw [hnone]
      exact returnData_judged u k _ _
    · exact GatesJudged.modStack u k _ rfl

theorem judgeGates_judged {s : State} {k : Nat} (hclean : ∀ g ∈ (s.stack k).heldGates, g.req.poison = none) :
    GatesJudged k s (s.judgeGates k) := by
  rw [State.judgeGates]
  split
  · exact ⟨rfl, rfl, rfl, fun _ => rfl⟩
  · exact (GatesJudged.modStack s k _ rfl).trans (judgeHeld_judged k _ _ hclean _)

/-! Steps. -/

theorem addStep_keeps (s : State) (t : Nat) : Only [.tiles, .replies, .run, .log] s (s.addStep t) := (Only.refl _ s).addStep t

/-- A step that is formed gets its entry in the run's record. -/
theorem addStep_run (s : State) (t : Nat) : (s.addStep t).run =
    { s.run with steps := s.run.steps ++ [s.mkStepEntry t], heldMark := s.heldTotal } :=
  ((Only.refl [.tiles, .replies, .log]
    { s with run := { s.run with steps := s.run.steps ++ [s.mkStepEntry t], heldMark := s.heldTotal } }).flushChecks
      s.imageTiles).run

theorem Only.pairMode {P : List Part} {s t : State} (h : Only P s t) (hp : .pair ∉ P := by decide) :
    t.pair.mode = s.pair.mode ∧ t.pair.ownDigests = s.pair.ownDigests := by
  have hrest := h .pair hp
  exact ⟨(congrArg PairState.mode hrest :), (congrArg PairState.ownDigests hrest :)⟩

/-- In solo mode a step is reported to the record module alone. -/
theorem reportStep_solo {s : State} {t : Nat} (hsolo : s.pair.mode = .solo) : Only [.ports, .held] s (s.reportStep t) := by
  have hkept : Only [.ports, .held] s (if s.isRecordModule t then s else s.sendFingerprints t) := by
    split
    · exact Only.refl _ s
    · exact (Only.refl _ s).sendFingerprints t
  rw [State.reportStep]
  generalize (if s.isRecordModule t then s else s.sendFingerprints t) = u at hkept
  rw [State.sendClosure, if_pos (hkept.pairMode.1.trans hsolo)]
  exact hkept

theorem compareClosure_of_none {s : State} {t : Nat} (h : mfind s.pair.ownDigests t = none) : s.compareClosure t = s := by
  simp only [State.compareClosure, State.takeClosure, h]

/-- Settles O47. -/
theorem updateEnginesComplete : Obligations.UpdateEnginesComplete := by
  unfold Obligations.UpdateEnginesComplete
  refine ⟨fun s k m rest plan i e hmarks hplan hacts hrun hentry => ?marks, fun s k i plan e hplan he hrunning => ?passes,
    fun s k f rest hrecords => ?records, fun s hrun hhasPlan hdone hpending hown hdigest hsolo => ?steps⟩
  case marks =>
    intro st
    have hexec := exec_markWrite hmarks hplan hacts hrun
    obtain ⟨u, hu⟩ : ∃ u, u = s.modStack k.val (fun x => { x with marks := rest }) := ⟨_, rfl⟩
    have hstack : u.stack k.val = { s.stack k.val with marks := rest } := by rw [hu, State.stack_modStack]
    have hst : (u.stack k.val).entry plan i = st := by rw [hstack]; rfl
    have hall : u.allMarked k.val plan e st.t rest = s.allMarked k.val plan e st.t rest := by rw [hu]; rfl
    have hurun : u.run = s.run := by rw [hu]; rfl
    have hutiles : u.tiles = s.tiles := by rw [hu]; rfl
    rw [← hu] at hexec
    refine ⟨fun hold => ?_, fun hahead => ?_, fun hstep hidle hmarked => ?_, fun hstep hidle hmarked => ?_⟩
    · rw [actMark_ignored hentry (by rw [hst]; exact hold)] at hexec
      refine ⟨_, hexec, ?_, ?_, ?_, hurun⟩
      · rw [State.stack_modStack, hstack]
      · rw [State.stack_modStack, ← hst]; rfl
      · rw [State.stack_modStack, hstack]
    · rw [actMark_skew hentry (by rw [hst]; exact hahead)] at hexec
      obtain ⟨hstate, hfaults⟩ := raiseHw_ends u hwStepSkew (srcOf 7 k.val) m.value
        (BitVec.ofNat 64 (k.val + 2 ^ 16 * i + 2 ^ 32 * m.line)) []
      rw [hurun] at hfaults
      exact ⟨_, _, hexec, hstate, hfaults (by rw [State.runActive, hurun]; exact hrun), rfl, rfl⟩
    · rw [actMark_current hentry (by rw [hst]; exact hstep) (by rw [hst]; exact hidle), hst, if_pos (hall.trans hmarked)] at hexec
      have hnew : ((u.modStack k.val (fun x => { x with
          entries := mset x.entries i { st with running := true, deadline := passDeadline e m } })).stack k.val).entry plan i =
          { st with running := true, deadline := passDeadline e m } := by
        rw [State.stack_modStack, Stack.entry_setEntries]
      refine ⟨_, hexec, ?_, ?_, ?_, ?_, ?_, hurun, hutiles⟩
      · rw [State.stack_modStack, hstack]
      · rw [hnew]
      · rw [hnew]
      · rw [hnew]
      · rw [hnew]; rfl
    · rw [actMark_current hentry (by rw [hst]; exact hstep) (by rw [hst]; exact hidle), hst,
        if_neg (by rw [hall, hmarked]; decide)] at hexec
      exact ⟨_, hexec, by rw [hstack], hst⟩
  case passes =>
    intro st
    have hpass : ∀ r, (match s.passPoison k.val e st.t with
        | some cw => (.next (s.raiseHbm k.val cw) : Res)
        | none => .next ((s.completePass k.val i).judgeGates k.val)) = r → exec (.updatePassComplete k i) s = r := by
      intro r hr
      change execUpdatePassComplete k i s = _
      simp only [execUpdatePassComplete, hplan, he, hrunning, if_true]
      exact hr
    refine ⟨fun hclean hheld => ?_, fun cw hcw => ?_⟩
    · rw [hclean] at hpass
      have hexec := hpass _ rfl
      obtain ⟨v, hv⟩ : ∃ v, v = s.passBody k.val e st.t := ⟨_, rfl⟩
      have hgates : (v.stack k.val).gates = (s.stack k.val).gates := hv ▸ passBody_gates s k.val e st.t
      have hheldGates : (v.stack k.val).heldGates = (s.stack k.val).heldGates := congrArg (·.2.2) hgates
      have hbody : Only [.hbm, .stackMap] s v := hv ▸ (Only.refl _ s).passBody k.val e st.t
      obtain ⟨u, hu⟩ : ∃ u, u = v.modStack k.val
        (fun x => { x with entries := mset x.entries i st.passed }) := ⟨_, rfl⟩
      have hdone : s.completePass k.val i = u := by rw [completePass_of_running hplan he hrunning, hu, hv]
      have hstack : u.stack k.val = { v.stack k.val with entries := mset (v.stack k.val).entries i st.passed } := by
        rw [hu, State.stack_modStack]
      rw [hdone] at hexec
      have hjudged : GatesJudged k.val u (u.judgeGates k.val) :=
        judgeGates_judged (fun g hg => hheld g (by rw [hstack] at hg; exact hheldGates ▸ hg))
      refine ⟨_, hexec, ?_, fun hzero => ?_, ?_, fun j => ?_⟩
      · have hentry := congrArg (fun l => mget (EntryState.start plan) l i) hjudged.entries
        refine hentry.trans ?_
        rw [hstack]
        exact mget_mset_same _ _ _ _
      · rw [hjudged.hbm, hu]
        change v.mem.hbm = _
        rw [hv, hzero]
        rfl
      · rw [hjudged.run, hu]
        exact hbody.run
      · rw [hjudged.regs, hu]
        exact congrArg Tile.regs (hbody.tile j)
    · rw [hcw] at hpass
      exact ⟨_, hpass _ rfl, State.endRun_state _ _⟩
  case records =>
    change ∃ t, execFingerprintRecord k s = .next t ∧ _
    simp only [execFingerprintRecord, hrecords]
    refine ⟨_, rfl, rfl, ?_, rfl, rfl⟩
    exact congrArg Stack.fingerprints (State.stack_modStack
      { s with mem := { s.mem with records := s.mem.records ++ [f] } } k.val _)
  case steps =>
    obtain ⟨u, hu⟩ : ∃ u, u = s.addStep s.currentStep.toNat := ⟨_, rfl⟩
    have hadded : Only [.tiles, .replies, .run, .log] s u := hu ▸ addStep_keeps s _
    obtain ⟨hmode, hdigests⟩ := hadded.pairMode
    have hreported := reportStep_solo (t := s.currentStep.toNat) (hmode.trans hsolo)
    have hnone : mfind (u.reportStep s.currentStep.toNat).pair.ownDigests s.currentStep.toNat = none := by
      rw [hreported.pairMode.2, hdigests]
      exact hown
    have hexec : exec (.stepDigestFormed s.currentStep) s = .next (u.reportStep s.currentStep.toNat) := by
      change execStepDigestFormed s.currentStep s = _
      rw [execStepDigestFormed, if_pos ⟨hrun, rfl, hhasPlan, hdone, hpending, hdigest⟩, ← hu, compareClosure_of_none hnone]
    have hrunRec : (u.reportStep s.currentStep.toNat).run =
        { s.run with steps := s.run.steps ++ [s.mkStepEntry s.currentStep.toNat], heldMark := s.heldTotal } := by
      rw [hreported.run, hu, addStep_run]
    refine ⟨_, s.mkStepEntry s.currentStep.toNat, hexec, ?_, (BitVec.ofNat_toNat _ _).trans (BitVec.setWidth_eq _), rfl, rfl, rfl, ?_, ?_⟩
    · rw [hrunRec]
    · rw [hrunRec]
    · exact hreported.hbm.trans hadded.hbm

end Sys2Proof.Machine
end

section
/-!
PROOFS. The last tie port that fails lets a withheld step barrier go, and the release of that barrier brings a change of
membership into force, which binds the send endpoints of the tiles again (R397, R445, R463; LinksComplete, O48).
-/

namespace Sys2Proof.Machine

set_option Elab.async false

/-- The step barrier of a job whose domain is this module alone. -/
def soloBarrier : BarrierDecl := { id := 0, scope := .domain, participants := [0], isStepBarrier := true }

/-- A body that declares the step barrier and nothing else. -/
def soloBody : ImageBody :=
  { verifierAccepts := true, imports := [], codeLines := 1, regions := [], holdKiB := 128, sems := [], signallers := [],
    pInit := [], masks := [], groups := [], channels := [], combs := [], barriers := [soloBarrier], watches := [],
    contexts := [], sections := [], contractions := [], programs := [], plans := [], parcelSize := 1, parcels := 1,
    contributions := 1, gradFormat := 1, stateGrain := 0, inputs := [] }

/-- An image of tile 0 with that body. -/
def soloImage : Image :=
  { jobId := 0, ltId := 0x00B0, flags := 0, eciVersion := 0x0300, tiles := [0], imageDigest := 0, eciDigest := 0,
    signerKey := 0, signatureVerified := false, head := [], placeBase := 0, sectionBases := [], body := soloBody }

/-- A change of the membership at step 2, whose state transfer has been reported. -/
def soloChange : Change :=
  { membership := { epoch := 1, shape := [1], members := [0] }, epochs := [], tE := 2, forced := false, transferred := true }

/-- Module 0 in a mirror pair in a run: tie port 16 is the one that is up, round 2 of the step barrier is withheld for its
closure, the change of membership is due with it, and tile 0 has a send endpoint to module 5 that is not bound yet. -/
def lastTieState : State :=
  { State.reset with
    run := { RunRec.reset with state := .running, withheld := some (0, 2) }
    host := { State.reset.host with images := [(0, soloImage)] }
    pair := { State.reset.pair with mode := .mirror }
    domain := { State.reset.domain with
      moduleId := some 0, change := some soloChange, transferReports := [0]
      ports := [(16, { Port.reset with state := .eightLanes })] }
    tiles := [(0, { Tile.reset with
      logical := some 0, sends := [(0, { SendEp.reset with declared := true, dest := .port (.moduleId 5) 0 0 })] })] }

/-- The failure of all lanes of tie port 16. -/
theorem lastTieState_linkDown : exec (.linkDown 16 .bothHalves) lastTieState =
    .next ((lastTieState.setPort 16 { lastTieState.port 16 with failed := 3 }).portDown 16) := rfl

theorem lastTieState_binds : ((((lastTieState.setPort 16 { lastTieState.port 16 with failed := 3 }).portDown 16).tile 0).send
    0).farModule = 5 := by decide

/-- Refutes O48: with the failure of the last tie port of `lastTieState` tile 0 has its send endpoint bound to module 5. -/
theorem not_linksComplete : ¬ Obligations.LinksComplete := by
  unfold Obligations.LinksComplete
  intro hall
  obtain ⟨-, -, -, hdown, -⟩ := hall.1 lastTieState 16
  obtain ⟨t, hexec, -, htiles, -⟩ := hdown .bothHalves (by decide)
  have ht : t.tile 0 = lastTieState.tile 0 := congrArg (fun m => mget Tile.reset m 0) htiles
  rw [← Host.Outcome.next.inj (lastTieState_linkDown.symm.trans hexec)] at ht
  have hbound := (congrArg (fun x : Tile => (x.send 0).farModule) ht).symm.trans lastTieState_binds
  exact absurd hbound (by decide)

end Sys2Proof.Machine
end

section
/-!
PROOFS. Packets of port channels and of barriers (R309 to R311, R388, R389, R398, R401, R412, R454; ChainTrafficCompletes,
O49).
-/

namespace Sys2Proof.Machine

set_option Elab.async false

/-- A packet that a port hands over leaves the port alone changed. -/
theorem takePacket_only {s s1 : State} {p n : Nat} {k : Packet} (h : s.takePacket p n = some (k, s1)) :
    Only [.ports] s s1 := by
  rw [State.takePacket] at h
  split at h
  · cases h
    exact (Only.refl _ s).modPort p _
  · cases h

/-- A module's run and its image are those of another state with the same run and host. -/
theorem runJob_of_only {P : List Part} {s t : State} (h : Only P s t)
    (hp : (Part.host ∉ P ∧ Part.sessions ∉ P ∧ Part.replies ∉ P ∧ Part.jobs ∉ P) ∧ Part.run ∉ P ∧ Part.faults ∉ P := by decide) :
    t.runJob = s.runJob := by
  rw [State.runJob, State.runJob, h.run hp.2, h.host hp.1]

/-! Data. -/

theorem deliver_plain {s : State} {t : TileNo} {e : Nat} (m : Msg) (hkind : ((s.tile t.val).recv e).kind ≠ .filtered) :
    s.deliver t e m = s.modTile t.val (fun x =>
      x.setRecv e { x.recv e with msgs := putMsg { m with cycle := s.runCycle.toNat } (x.recv e).msgs }) := by
  rw [State.deliver]
  dsimp only
  split
  case h_1 hfiltered => exact absurd hfiltered hkind
  case h_2 => rfl

/-- The message that a DATA packet becomes. -/
def State.dataMsg (s : State) (p : PortNo) (k : Packet) : Msg :=
  { origin := .port p k.srcModule (fieldTile k.srcEp) (fieldEp k.srcEp),
    slot := arrivalSlot ((s.tile (fieldTile k.dstEp).val).recv (fieldEp k.dstEp).val) k, data := k.payload, used := 0,
    accepted := false, sentBy := (slotNone, 0), cycle := s.runCycle.toNat }

theorem noteGather_keeps (s : State) (context : Nat) (c : DWord) (data : Bytes) :
    (s.noteGather context c data).tiles = s.tiles ∧ (s.noteGather context c data).runCycle = s.runCycle := by
  rw [State.noteGather]
  split <;> exact ⟨rfl, rfl⟩

/-- A DATA packet that is taken enters its endpoint, which expects the next one of the channel. -/
theorem takeData_enters {s : State} {p : PortNo} {k : Packet}
    (hkind : ((s.tile (fieldTile k.dstEp).val).recv (fieldEp k.dstEp).val).kind ≠ .filtered) :
    let q := fieldTile k.dstEp
    let e := fieldEp k.dstEp
    let r := (s.tile q.val).recv e.val
    (s.takeData p k).tile q.val = ((s.tile q.val).setRecv e.val { r with cseq := mset r.cseq (chanKey k) (k.cseq + 1) }).setRecv
        e.val { r with cseq := mset r.cseq (chanKey k) (k.cseq + 1), msgs := putMsg (s.dataMsg p k) r.msgs } ∧
      ∀ j, j ≠ q.val → (s.takeData p k).tile j = s.tile j := by
  intro q e r
  obtain ⟨u, hu⟩ : ∃ u, u = s.modTile q.val (fun x =>
    x.setRecv e { x.recv e with cseq := mset (x.recv e).cseq (chanKey k) (k.cseq + 1) }) := ⟨_, rfl⟩
  obtain ⟨v, hv⟩ : ∃ v, v = u.noteGather (k.jobId.toNat % 64) k.contrib k.payload := ⟨_, rfl⟩
  obtain ⟨hvtiles, hvcycle⟩ := noteGather_keeps u (k.jobId.toNat % 64) k.contrib k.payload
  rw [← hv] at hvtiles hvcycle
  have hvtile : ∀ j, v.tile j = u.tile j := fun j => congrArg (fun m => mget Tile.reset m j) hvtiles
  have hcycle : v.runCycle = s.runCycle := hvcycle.trans (by rw [hu]; rfl)
  have hrecv : (v.tile q.val).recv e.val = { r with cseq := mset r.cseq (chanKey k) (k.cseq + 1) } := by
    rw [hvtile, hu, State.modTile_same, Tile.recv_setRecv]
  obtain ⟨m, hm⟩ : ∃ m : Msg, m = { s.dataMsg p k with cycle := 0 } := ⟨_, rfl⟩
  have htake : s.takeData p k = v.deliver q e.val m := by rw [hv, hu, hm]; rfl
  have hmsg : { m with cycle := v.runCycle.toNat } = s.dataMsg p k := by rw [hm, hcycle]; rfl
  rw [htake, deliver_plain m (by rw [hrecv]; exact hkind)]
  refine ⟨?_, fun j hj => ?_⟩
  · rw [State.modTile_same, hrecv, hmsg, hvtile, hu, State.modTile_same]
  · rw [State.modTile_other _ _ _ _ hj, hvtile, hu, State.modTile_other _ _ _ _ hj]

/-- Where a DATA packet of the running job goes: to NOENDPOINT, to a CLOSED endpoint, or to an open one. -/
theorem exec_data {s s1 : State} {p : PortNo} {k : Packet} (h : s.takePacket p.val 1 = some (k, s1))
    (hgoes : s.dataGoes p k = true) (hrun : s.runActive = true) (hjob : s.runJob.map (·.tag.toNat) = some (k.jobId.toNat / 64))
    (htag : k.jobId.toNat / 64 ≠ 0) :
    let q := fieldTile k.dstEp
    let e := fieldEp k.dstEp
    let r := (s.tile q.val).recv e.val
    exec (.data p) s = .next (
      if s.pair.role = .fenced ∨ r.declared = false then s1.rejectData p k
      else if r.closed = true then
        (s1.modTile q.val (fun x => x.setRecv e.val { x.recv e.val with discards := (x.recv e.val).discards + 1 })).rejectData p k
      else if k.cseq = mget 0 r.cseq (chanKey k) then s1.takeData p k
      else s1.discardCseq p.val) := by
  intro q e r
  have honly := takePacket_only h
  have htile : s1.tile q.val = s.tile q.val := honly.tile _
  have hactive : s1.runActive = true := honly.runActive.trans hrun
  have hrole : s1.pair.role = s.pair.role := congrArg PairState.role honly.pair
  have hjob1 : s1.runJob.map (·.tag.toNat) = some (k.jobId.toNat / 64) := (congrArg _ (runJob_of_only honly)).trans hjob
  have hr : r = (s1.tile q.val).recv e.val := by rw [htile]
  change execData p s = _
  simp only [execData, h, hgoes, hjob1, hactive, hrole]
  rw [if_neg (by decide), if_neg (by simp [htag]), if_neg (by simp), hr]
  by_cases hreject : s.pair.role = .fenced ∨ ((s1.tile q.val).recv e.val).declared = false
  · rw [if_pos hreject, if_pos (by simpa using hreject)]
  · rw [if_neg hreject, if_neg (by simpa using hreject)]
    by_cases hclosed : ((s1.tile q.val).recv e.val).closed = true
    · rw [if_pos hclosed, if_pos hclosed]
    · rw [if_neg hclosed, if_neg hclosed]
      by_cases hseq : k.cseq = mget 0 ((s1.tile q.val).recv e.val).cseq (chanKey k)
      · rw [if_pos hseq, if_neg (not_not_intro hseq)]
      · rw [if_neg hseq, if_pos hseq]

/-! Credits and notices. -/

theorem Tile.send_setSend_other (x : Tile) {e n : Nat} (c : SendEp) (h : n ≠ e) : (x.setSend e c).send n = x.send n :=
  mget_mset_other _ _ _ _ _ h

/-- The credits that the entries of a CREDIT packet return to one endpoint. -/
def creditOf (j n : Nat) (ws : List Nat) : Nat :=
  ((ws.filter (fun w => w % 128 == j && w / 128 % 64 == n)).map (· / 8192)).sum

theorem returnCredits_credit (j n : Nat) (ws : List Nat) : ∀ s : State,
    (((s.returnCredits ws).tile j).send n).credit = ((s.tile j).send n).credit + creditOf j n ws := by
  induction ws with
  | nil => exact fun _ => rfl
  | cons w r ih =>
    intro s
    rw [State.returnCredits, ih]
    by_cases hj : w % 128 = j
    · by_cases hn : w / 128 % 64 = n
      · rw [← hj, ← hn, State.modTile_same, Tile.send_setSend]
        simp [creditOf, Nat.add_assoc]
      · rw [← hj, State.modTile_same, Tile.send_setSend_other _ _ (fun h => hn h.symm)]
        simp [creditOf, hn]
    · rw [State.modTile_other _ _ _ _ (fun h => hj h.symm)]
      simp [creditOf, hj]

/-- An entry that returns no credit may be left out. -/
theorem creditOf_filter (j n : Nat) (ws : List Nat) : creditOf j n (ws.filter (fun w => decide (8192 ≤ w))) = creditOf j n ws := by
  induction ws with
  | nil => rfl
  | cons w r ih =>
    by_cases hw : 8192 ≤ w
    · rw [List.filter_cons_of_pos (by simpa using hw)]
      simp only [creditOf, List.filter_cons] at ih ⊢
      split
      · simpa using ih
      · exact ih
    · have hzero : w / 8192 = 0 := Nat.div_eq_of_lt (Nat.not_le.mp hw)
      rw [List.filter_cons_of_neg (by simpa using hw), ih]
      simp only [creditOf, List.filter_cons]
      split <;> simp [hzero]

theorem exec_close {s s1 : State} {p : PortNo} {k : Packet} (h : s.takePacket p.val 3 = some (k, s1)) : exec (.close p) s =
    .next (s1.modTile (fieldTile k.dstEp).val
      (fun x => x.setSend (fieldEp k.dstEp).val { x.send (fieldEp k.dstEp).val with closed := true })) := by
  change execClose p s = _
  simp only [execClose, h]

theorem exec_openNotice {s s1 : State} {p : PortNo} {k : Packet} (h : s.takePacket p.val 4 = some (k, s1)) :
    exec (.openNotice p) s = .next (s1.modTile (fieldTile k.dstEp).val
      (fun x => x.setSend (fieldEp k.dstEp).val (x.send (fieldEp k.dstEp).val).reopen)) := by
  change execOpenNotice p s = _
  simp only [execOpenNotice, h]

/-- A contract fault leaves the endpoints of a tile. -/
theorem contractFault_sends (s : State) (t : Nat) (code : BitVec 16) (slot : Byte) (bundle : Word) (offending detail : DWord) :
    ((s.contractFault t code slot bundle offending detail).tile t).sends = (s.tile t).sends := by
  rw [State.contractFault, State.raiseContract]
  dsimp only
  split
  · split
    · rfl
    · change ((s.modTile t (fun x => { x with faulted := true })).tile t).sends = _
      rw [State.modTile_same]
  · rfl

theorem exec_noEndpoint {s s1 : State} {p : PortNo} {k : Packet} (h : s.takePacket p.val 5 = some (k, s1)) :
    let q := fieldTile k.dstEp
    let e := (fieldEp k.dstEp).val
    let u := s1.modTile q.val (fun x => x.setSend e { x.send e with closed := true })
    ((u.tile q.val).send e = { (s.tile q.val).send e with closed := true }) ∧ u.run = s.run ∧
      (u.tile q.val).faulted = (s.tile q.val).faulted ∧
      ∃ slot bundle, exec (.noEndpoint p) s =
        .next (if ((s.tile q.val).send e).tolerant then u else u.closedFault q e slot bundle) := by
  intro q e u
  have honly := takePacket_only h
  have htile : u.tile q.val = (s.tile q.val).setSend e { (s.tile q.val).send e with closed := true } := by
    rw [State.modTile_same, honly.tile]
  have hsend : (u.tile q.val).send e = { (s.tile q.val).send e with closed := true } := by rw [htile, Tile.send_setSend]
  refine ⟨hsend, honly.run, by rw [htile]; rfl, ((u.tile q.val).rejectedSend e k).1,
    ((u.tile q.val).rejectedSend e k).2, ?_⟩
  change execNoEndpoint p s = _
  simp only [execNoEndpoint, h]
  have htolerant : ((u.tile q.val).send e).tolerant = ((s.tile q.val).send e).tolerant := by rw [hsend]
  change (if ((u.tile q.val).send e).tolerant = true then _ else _) = _
  rw [htolerant]
  split <;> rfl

/-! Barriers. -/

theorem exec_barrierArrive {s s1 : State} {p : PortNo} {k : Packet} (h : s.takePacket p.val 6 = some (k, s1)) :
    ∃ t, exec (.barrierArrive p) s = .next t ∧
      Only [.tiles, .net, .ports, .domain, .held, .pair, .replies, .run, .log] s1 t := by
  change ∃ t, execBarrierArrive p s = .next t ∧ _
  simp only [execBarrierArrive, h]
  split
  · exact ⟨_, rfl, Only.refl _ _⟩
  · split
    · split
      · exact ⟨_, rfl, (Only.refl _ _).pairCount _ _ _⟩
      · exact ⟨_, rfl, Only.refl _ _⟩
    · split
      · exact ⟨_, rfl, (Only.refl _ _).countAt _ _ _ _ _⟩
      · exact ⟨_, rfl, Only.refl _ _⟩

/-- Settles O49. -/
theorem chainTrafficCompletes : Obligations.ChainTrafficCompletes := by
  unfold Obligations.ChainTrafficCompletes
  intro s p k s1 q e
  refine ⟨fun h hstays => ?waits, fun h hgoes hrun hjob htag => ⟨fun hrole hdeclared hopen hkind hseq => ?enters,
    fun hrole hdeclared hclosed => ?closed, fun hundeclared => ?undeclared⟩, fun h => ?credit, fun h => ?close, fun h => ?opens,
    fun h => ?noEndpoint, fun h => ⟨fun hidle => ?arrivesIdle, ?arrives⟩, fun h => ⟨fun hidle => ?releasesIdle,
    fun hrun hport hbarrier hchange => ?releases⟩⟩
  case waits =>
    change execData p s = _
    simp only [execData, h, hstays, if_true]
  case enters =>
    have honly := takePacket_only h
    have htile := honly.tile q.val
    have hexec := exec_data h hgoes hrun hjob htag
    dsimp only at hexec
    rw [if_neg (by rw [hdeclared]; simpa using hrole), if_neg (by rw [hopen]; decide), if_pos hseq] at hexec
    obtain ⟨hself, hothers⟩ := takeData_enters (s := s1) (p := p) (k := k) (by rw [htile]; exact hkind)
    rw [htile] at hself
    have hcycle : s1.runCycle = s.runCycle := by rw [State.runCycle, State.runCycle, State.region, State.region, honly.run, honly.clock]
    refine ⟨_, s1.dataMsg p k, hexec, ?_, rfl, congrArg BitVec.toNat hcycle, rfl, ?_, ?_, fun j hj => ?_⟩
    · rw [hself, Tile.recv_setRecv]
    · rw [hself, Tile.recv_setRecv]
      exact mget_mset_same _ _ _ _
    · rw [hself]; rfl
    · exact (hothers j hj).trans (honly.tile j)
  case closed =>
    have honly := takePacket_only h
    have hexec := exec_data h hgoes hrun hjob htag
    dsimp only at hexec
    rw [if_neg (by rw [hdeclared]; simpa using hrole), if_pos hclosed] at hexec
    refine ⟨_, hexec, ?_⟩
    rw [((Only.refl [.ports, .held] _).rejectData p k).tile, State.modTile_same, Tile.recv_setRecv, honly.tile]
    exact ⟨rfl, rfl⟩
  case undeclared =>
    have hexec := exec_data h hgoes hrun hjob htag
    dsimp only at hexec
    rw [if_pos (.inr hundeclared)] at hexec
    exact ⟨_, hexec, (((takePacket_only h).mono (by decide)).trans ((Only.refl [.ports, .held] s1).rejectData p k)).tiles⟩
  case credit =>
    have honly := takePacket_only h
    have hkept := (Only.refl [.tiles] s1).returnCredits ((wordsOf k.payload).filter (fun w => decide (8192 ≤ w)))
    change ∃ t, execCredit p s = .next t ∧ _
    simp only [execCredit, h]
    refine ⟨_, rfl, fun j n => ?_, hkept.mem.trans honly.mem, hkept.run.trans honly.run⟩
    rw [returnCredits_credit, creditOf_filter, honly.tile]
    rfl
  case close =>
    have honly := takePacket_only h
    refine ⟨_, exec_close h, ?_, fun n hn => ?_, fun j hj => ?_⟩
    · rw [State.modTile_same, Tile.send_setSend, honly.tile]
    · rw [State.modTile_same, Tile.send_setSend_other _ _ hn, honly.tile]
    · rw [State.modTile_other _ _ _ _ hj, honly.tile]
  case opens =>
    have honly := takePacket_only h
    refine ⟨_, exec_openNotice h, ?_, fun j hj => ?_⟩
    · rw [State.modTile_same, Tile.send_setSend, honly.tile]
      rfl
    · rw [State.modTile_other _ _ _ _ hj, honly.tile]
  case noEndpoint =>
    obtain ⟨hsend, hrun, hfaulted, slot, bundle, hexec⟩ := exec_noEndpoint h
    generalize s1.modTile (fieldTile k.dstEp).val (fun x => x.setSend (fieldEp k.dstEp).val
      { x.send (fieldEp k.dstEp).val with closed := true }) = u at hsend hrun hfaulted hexec
    cases htolerant : ((s.tile q.val).send e.val).tolerant with
    | true =>
      rw [if_pos htolerant] at hexec
      exact ⟨_, hexec, by rw [hsend], fun _ => hrun, fun hfalse => absurd hfalse (by decide)⟩
    | false =>
      rw [if_neg (by rw [htolerant]; decide)] at hexec
      refine ⟨_, hexec, ?_, fun htrue => absurd htrue (by decide), fun _ hactive hclear => ?_⟩
      · have hsends := contractFault_sends u q.val cfClosedEndpoint slot bundle (BitVec.ofNat 64 e.val)
          (closedDetail ((u.tile q.val).send e.val))
        exact (congrArg (fun l => (mget SendEp.reset l e.val).closed) hsends).trans (congrArg SendEp.closed hsend)
      · obtain ⟨hstop, f, hf, hcode, -⟩ := State.contractFault_records u q.val cfClosedEndpoint slot bundle (BitVec.ofNat 64 e.val)
          (closedDetail ((u.tile q.val).send e.val)) (by rw [State.runActive, hrun]; exact hactive) (hfaulted.trans hclear)
        exact ⟨hstop, f, hrun ▸ hf, hcode⟩
  case arrivesIdle =>
    have hidle1 : s1.runActive = false := (takePacket_only h).runActive.trans hidle
    change execBarrierArrive p s = _
    simp only [execBarrierArrive, h, hidle1, Bool.not_false, Bool.true_or, if_true]
  case arrives =>
    obtain ⟨t, hexec, hkept⟩ := exec_barrierArrive h
    exact ⟨t, hexec, hkept.mem.trans (takePacket_only h).mem⟩
  case releasesIdle =>
    have hidle1 : s1.runActive = false := (takePacket_only h).runActive.trans hidle
    change execBarrierRelease p s = _
    simp only [execBarrierRelease, h, hidle1, Bool.not_false, Bool.true_or, if_true]
  case releases =>
    have honly := takePacket_only h
    have hactive : s1.runActive = true := honly.runActive.trans hrun
    have hnone : s1.domain.change = none := by
      have hrest := honly .domain (by decide)
      exact (congrArg DomainState.change hrest :).trans hchange
    have hplain (b : Fin 16) (round : Word) : s1.moduleRelease b round = s1.sendRelease b round := by
      have hno : s1.changeAt b round = none := by
        rw [State.changeAt, hnone]
        split
        case h_1 heq => cases heq
        case h_2 => rfl
      rw [State.moduleRelease, hno]
    have hexec : exec (.barrierRelease p) s =
        .next (s1.sendRelease (Fin.ofNat 16 (fieldAt k.payload 0 2)) (BitVec.ofNat 32 (fieldAt k.payload 4 4))) := by
      change execBarrierRelease p s = _
      simp only [execBarrierRelease, h, barrierFields, hactive, hplain]
      refine (if_neg (fun hbad => ?_)).trans (if_pos hport)
      obtain hfalse | hlarge := (Bool.or_eq_true _ _).mp hbad
      · exact absurd hfalse (by decide)
      · exact absurd (of_decide_eq_true hlarge) (Nat.not_le.mpr hbarrier)
    refine ⟨_, hexec, honly.tiles, ?_⟩
    exact congrArg (fun n : NetState => n.barrierDown ++ _) honly.net

end Sys2Proof.Machine
end

section
/-!
PROOFS. The synchronisation of the meridian and the management packets (R393, R403 to R406, R470, R482, R506;
SynchronisationCompletes, O50). The layout of a SYNC payload is the model's choice (log entry 20).
-/

namespace Sys2Proof.Machine

set_option Elab.async false

theorem stepTrim_near (cur want : Int) : (stepTrim cur want - cur).natAbs ≤ 1 := by
  unfold stepTrim
  split
  · omega
  · split <;> omega

/-! Exchanges. -/

/-- A timer of a module that has a parent starts the next exchange. -/
theorem exec_syncExchangeTimer (s : State) : ∃ u t : State,
    u = { s with
      clock := { s.clock with trim := stepTrim s.clock.trim s.clock.wantTrim }
      domain := { s.domain with exchangeNo := if s.domain.moduleId.isSome ∧ syncParent s.ownRank ≠ none
        then s.domain.exchangeNo + 1 else s.domain.exchangeNo } } ∧
      exec .syncExchangeTimer s = .next t ∧ Only [.ports, .held] u t ∧ (syncParent s.ownRank = none → t = u) := by
  change ∃ u t : State, _ ∧ execSyncExchangeTimer s = .next t ∧ _
  rw [execSyncExchangeTimer]
  cases hid : s.domain.moduleId with
  | none => exact ⟨_, _, rfl, rfl, by simpa using Only.refl _ _, fun _ => by simp⟩
  | some m =>
    cases hparent : syncParent s.ownRank with
    | none => exact ⟨_, _, rfl, rfl, by simpa using Only.refl _ _, fun _ => by simp⟩
    | some r => exact ⟨_, _, rfl, rfl, by simpa using (Only.refl [.ports, .held] _).sendOn _ _, fun h => by cases h⟩

/-- What watching the agreement changes: the lock and its count, with an event. -/
theorem watchLock_keeps (s : State) (off : Int) :
    (s.watchLock off).clock = s.clock ∧ (s.watchLock off).tiles = s.tiles ∧ (s.watchLock off).runActive = s.runActive ∧
      (off.natAbs ≤ 16 → (s.watchLock off).domain.meridianLocked = true ∧ (s.watchLock off).domain.unlockedRun = 0) := by
  rw [State.watchLock]
  dsimp only
  split
  case isTrue hfar => split <;> exact ⟨rfl, rfl, rfl, fun hnear => absurd hfar (Nat.not_lt.mpr hnear)⟩
  case isFalse => split <;> exact ⟨rfl, rfl, rfl, fun _ => ⟨rfl, rfl⟩⟩

/-- Outside a run an offset beyond 1 µs is corrected at once: forward by a step, backward by holding the meridian. -/
theorem correctMeridian_steps {s : State} {off : Int} (hidle : s.runActive = false) :
    (400 < off → (s.correctMeridian off).clock.meridian = s.clock.meridian + BitVec.ofNat 64 off.natAbs ∧
      (s.correctMeridian off).domain.exchanges = []) ∧
    (off < -400 → (s.correctMeridian off).clock.meridian = s.clock.meridian ∧
      (s.correctMeridian off).clock.holdTicks = off.natAbs) := by
  rw [State.correctMeridian]
  refine ⟨fun hahead => ?_, fun hbehind => ?_⟩
  · rw [if_pos ⟨hidle, by omega⟩]
    dsimp only
    rw [if_pos (by omega)]
    exact ⟨rfl, rfl⟩
  · rw [if_pos ⟨hidle, by omega⟩]
    dsimp only
    rw [if_neg (by omega)]
    exact ⟨rfl, rfl⟩

/-- In a run, and within 1 µs, the trim is set, within 20 ppm. -/
theorem correctMeridian_trims {s : State} {off : Int} (h : s.runActive = true ∨ off.natAbs ≤ 400) :
    s.correctMeridian off =
      { s with clock := { s.clock with wantTrim := max (-80) (min 80 (Config.trimFor off)) } } := by
  rw [State.correctMeridian, if_neg]
  rintro ⟨hidle, hfar⟩
  obtain hrun | hnear := h
  · exact absurd (hrun.symm.trans hidle) (by decide)
  · omega

theorem correctMeridian_keeps (s : State) (off : Int) : (s.correctMeridian off).tiles = s.tiles ∧
    (s.correctMeridian off).domain.meridianLocked = s.domain.meridianLocked ∧
    (s.correctMeridian off).domain.unlockedRun = s.domain.unlockedRun := by
  rw [State.correctMeridian]
  split
  · dsimp only
    split <;> exact ⟨rfl, rfl, rfl⟩
  · exact ⟨rfl, rfl, rfl⟩

/-- The offset of the reply to the exchange under way, and its excess (R404). -/
def replyExchange (k : Packet) (ingress : DWord) : Int × Int :=
  let at8 (o : Nat) : DWord := BitVec.ofNat 64 (fieldAt k.payload o 8)
  ((stampDiff (at8 16) (at8 8) - stampDiff ingress (at8 24)) / 2, stampDiff ingress (at8 8) - stampDiff (at8 24) (at8 16))

/-- The reply to the exchange under way. -/
theorem exec_sync_reply {s s1 : State} {p : PortNo} {k : Packet} {ingress : DWord} (h : s.takePacket p.val 8 = some (k, s1))
    (hreply : fieldAt k.payload 4 4 ≠ 1) (hno : BitVec.ofNat 32 (fieldAt k.payload 0 4) = s.domain.exchangeNo) :
    ∃ u : State, u.clock = s.clock ∧ u.tiles = s.tiles ∧ u.runActive = s.runActive ∧ exec (.sync p ingress) s = .next
      ((u.watchLock (bestExchange ((replyExchange k ingress :: s.domain.exchanges).take 16)).1).correctMeridian
        (bestExchange ((replyExchange k ingress :: s.domain.exchanges).take 16)).1) := by
  have honly := takePacket_only h
  have hexchanges : s1.domain.exchanges = s.domain.exchanges := (congrArg DomainState.exchanges honly.domainRest :)
  refine ⟨{ s1 with domain := { s1.domain with exchanges := (replyExchange k ingress :: s.domain.exchanges).take 16 } },
    honly.clock, honly.tiles, honly.runActive, ?_⟩
  change execSync p ingress s = _
  simp only [execSync, h, hreply, hno, if_true, if_false, hexchanges]
  rfl

/-! Management packets. -/

/-- The entry of a pair depends on the domain but for its ports, and on the pair's own epoch. -/
theorem Only.epochEntry {P : List Part} {s t : State} (h : Only P s t) (pair : Nat)
    (hp : Part.domain ∉ P ∧ Part.pair ∉ P := by decide) : t.epochEntry pair = s.epochEntry pair := by
  have hd := h.domainRest hp.1
  have hm : t.domain.membership = s.domain.membership := (congrArg DomainState.membership hd :)
  have he : t.domain.epochs = s.domain.epochs := (congrArg DomainState.epochs hd :)
  have hid : t.domain.moduleId = s.domain.moduleId := (congrArg DomainState.moduleId hd :)
  have hrest : t.pair.rest = s.pair.rest := h .pair hp.2
  have hepoch : t.pair.epoch = s.pair.epoch := (congrArg PairState.epoch hrest :)
  rw [State.epochEntry, State.epochEntry, State.moduleIdNat, State.moduleIdNat, hm, he, hid, hepoch]

/-- An epoch notice of another pair raises the pair's entry. -/
theorem noticeEpoch_other {s : State} {pair : Nat} {e x : Word} (hother : pair ≠ s.moduleIdNat / 2)
    (hentry : s.epochEntry pair = some x) :
    (s.noticeEpoch pair e).epochEntry pair = some (if x < e then e else x) ∧ Only [.domain] s (s.noticeEpoch pair e) := by
  have hnotice : s.noticeEpoch pair e = if x < e then s.raiseEpoch pair e else s := by
    simp only [State.noticeEpoch, hentry]
    exact if_neg (fun h => hother h.1)
  rw [hnotice]
  split
  · refine ⟨?_, (Only.refl _ s).raiseEpoch pair e⟩
    rw [State.epochEntry] at hentry
    cases hm : s.domain.membership with
    | none => simp [hm, hother] at hentry
    | some m =>
      simp only [State.epochEntry, State.raiseEpoch, hm]
      exact mfind_mset_same _ _ _
  · exact ⟨hentry, Only.refl _ s⟩

/-- Settles O50. -/
theorem synchronisationCompletes : Obligations.SynchronisationCompletes := by
  unfold Obligations.SynchronisationCompletes
  refine ⟨fun s => ?timer, fun s p k s1 ingress h => ⟨fun hrequest => ?request, fun hreply hother => ?stale,
    fun hreply hno => ?reply⟩, fun s p k s1 h => ⟨fun m => ?mgmt, fun pair e x hother hentry => ?notice,
    fun id tiles => ?table, fun hchain r => ?lease⟩⟩
  case timer =>
    obtain ⟨u, t, hu, hexec, hkept, hsame⟩ := exec_syncExchangeTimer s
    have hclock : t.clock = { s.clock with trim := stepTrim s.clock.trim s.clock.wantTrim } := by rw [hkept.clock, hu]
    refine ⟨t, hexec, hclock, ?_, by rw [hkept.tiles, hu], fun hid hparent => ?_, fun hnone => ?_⟩
    · rw [hclock]
      exact stepTrim_near _ _
    · have hno : t.domain.exchangeNo = u.domain.exchangeNo := (congrArg DomainState.exchangeNo hkept.domainRest :)
      rw [hno, hu]
      exact if_pos ⟨hid, hparent⟩
    · rw [hsame hnone, hu]
      simp [hnone]
  case request =>
    have honly := takePacket_only h
    change ∃ t, execSync p ingress s = .next t ∧ _
    simp only [execSync, h, hrequest, if_true]
    have hkept := honly.mono (Q := [.ports, .held]) (by decide) |>.sendOn p
      (s1.mkPacket p.val 8 k.srcModule.toNat 0 0 (syncPayload (BitVec.ofNat 32 (fieldAt k.payload 0 4))
        [BitVec.ofNat 64 (fieldAt k.payload 8 8), ingress, s.clock.meridian]))
    exact ⟨_, rfl, hkept.clock, hkept.tiles, (congrArg DomainState.exchanges hkept.domainRest :)⟩
  case stale =>
    change execSync p ingress s = _
    simp only [execSync, h, hreply, hother, if_false]
  case reply =>
    intro at8 off excess best
    obtain ⟨u, huclock, hutiles, huactive, hexec⟩ := exec_sync_reply h hreply hno
    have hbest : (bestExchange ((replyExchange k ingress :: s.domain.exchanges).take 16)).1 = best := rfl
    rw [hbest] at hexec
    clear_value best
    obtain ⟨hwclock, hwtiles, hwactive, hlock⟩ := watchLock_keeps u best
    generalize u.watchLock best = w at hexec hwclock hwtiles hwactive hlock
    obtain ⟨htiles, hlocked, hunlocked⟩ := correctMeridian_keeps w best
    have hactive : w.runActive = s.runActive := hwactive.trans huactive
    have hclock : w.clock = s.clock := hwclock.trans huclock
    refine ⟨_, hexec, htiles.trans (hwtiles.trans hutiles), fun hidle hahead => ?_, fun hidle hbehind => ?_, fun htrims => ?_,
      fun hnear => ?_⟩
    · rw [← hclock]
      exact (correctMeridian_steps (hactive.trans hidle)).1 hahead
    · rw [← hclock]
      exact (correctMeridian_steps (hactive.trans hidle)).2 hbehind
    · rw [correctMeridian_trims (by rw [hactive]; exact htrims), ← hclock]
      exact ⟨rfl, le_max_left _ _, max_le (by decide) (min_le_left _ _)⟩
    · rw [hlocked, hunlocked]
      exact hlock hnear
  case mgmt =>
    change ∃ t, execMgmt p m s = .next t
    simp only [execMgmt, h]
    cases m with
    | leaseReply r => dsimp only; split <;> exact ⟨_, rfl⟩
    | epochNotice pair e => exact ⟨_, rfl⟩
    | fingerprints step recs => exact ⟨_, rfl⟩
    | leaseRequest msg => exact ⟨_, rfl⟩
    | transferComplete rank => exact ⟨_, rfl⟩
    | tileTable id tiles => exact ⟨_, rfl⟩
  case notice =>
    have honly := takePacket_only h
    have hid : s1.moduleIdNat = s.moduleIdNat := 
      (congrArg (fun d : DomainState => (d.moduleId.map (·.toNat)).getD 0) honly.domainRest :)
    obtain ⟨hentry1, hkept⟩ := noticeEpoch_other (s := s1) (pair := pair.toNat) (e := e) (x := x) (by rw [hid]; exact hother)
      ((honly.epochEntry _).trans hentry)
    refine ⟨s1.noticeEpoch pair.toNat e, ?_, hentry1, hkept.run.trans honly.run, hkept.tiles.trans honly.tiles⟩
    change execMgmt p (.epochNotice pair e) s = _
    simp only [execMgmt, h]
  case table =>
    have honly := takePacket_only h
    obtain ⟨u, hu⟩ : ∃ u, u = { s1 with domain := { s1.domain with tileTables := mset s1.domain.tileTables id.toNat tiles } } :=
      ⟨_, rfl⟩
    have hkept := (Only.refl [.tiles] u).bindAll (u.tiles.map (·.1))
    refine ⟨u.bindAll (u.tiles.map (·.1)), ?_, ?_, ?_, ?_⟩
    · change execMgmt p (.tileTable id tiles) s = _
      rw [hu]
      simp only [execMgmt, h]
    · rw [congrArg DomainState.tileTables hkept.domain, hu]
      exact mget_mset_same _ _ _ _
    · rw [hkept.mem, hu]
      exact honly.mem
    · rw [hkept.run, hu]
      exact honly.run
  case lease =>
    change execMgmt p (.leaseReply r) s = _
    simp only [execMgmt, h, hchain]
    rfl

end Sys2Proof.Machine
end

section
/-!
PROOFS. What the end of a run leaves of the pair: the epoch and the last heartbeat, and a closure check that failed stays
failed.
-/

namespace Sys2Proof.Machine

set_option Elab.async false

/-- What the end of a run leaves of the pair's state. -/
structure TwinKept (s t : State) : Prop where
  epoch : t.pair.epoch = s.pair.epoch
  lastHb : t.pair.lastHb = s.pair.lastHb
  lastHbAt : t.pair.lastHbAt = s.pair.lastHbAt
  twinLost : t.pair.twinLost = s.pair.twinLost
  failed : s.pair.closureFailed = true → t.pair.closureFailed = true

theorem TwinKept.trans {s t u : State} (h : TwinKept s t) (h' : TwinKept t u) : TwinKept s u :=
  ⟨h'.epoch.trans h.epoch, h'.lastHb.trans h.lastHb, h'.lastHbAt.trans h.lastHbAt, h'.twinLost.trans h.twinLost,
    fun hf => h'.failed (h.failed hf)⟩

theorem TwinKept.refl (s : State) : TwinKept s s := ⟨rfl, rfl, rfl, rfl, id⟩

/-- What leaves the pair, but for its held packets, keeps this. -/
theorem Only.twinKept {P : List Part} {s t : State} (h : Only P s t) (hp : .pair ∉ P := by decide) : TwinKept s t := by
  have hrest : t.pair.rest = s.pair.rest := h .pair hp
  exact ⟨(congrArg PairState.epoch hrest :), (congrArg PairState.lastHb hrest :), (congrArg PairState.lastHbAt hrest :),
    (congrArg PairState.twinLost hrest :), fun hf => (congrArg PairState.closureFailed hrest :).trans hf⟩

/-! Changes and releases. -/

theorem soloAfter_twinKept (s : State) (c : Change) : TwinKept s (s.soloAfter c) := by
  rw [State.soloAfter]
  dsimp only
  split <;> exact ⟨rfl, rfl, rfl, rfl, id⟩

theorem applyChange_twinKept (s : State) (c : Change) : TwinKept s (s.applyChange c) := by
  obtain ⟨u, hu⟩ : ∃ u, u = { s with domain := { s.domain with
      past := (c.tE.toNat, { epoch := s.memberEpoch, shape := s.shape, members := s.members }) :: s.domain.past } } := ⟨_, rfl⟩
  have hpast : TwinKept s u := hu ▸ ⟨rfl, rfl, rfl, rfl, id⟩
  refine hpast.trans ((soloAfter_twinKept u c).trans (Only.twinKept (P := [.tiles, .net, .ports, .domain, .held, .replies, .run,
    .log]) ?_))
  rw [State.applyChange, ← hu]
  exact (((((((Only.refl _ (u.soloAfter c)).adoptMembership c.membership c.epochs).assignParcels).bindAll _).resetLost
    _).sendTileTable).event _ _ _)

theorem moduleRelease_twinKept (s : State) (b : Fin 16) (round : Word) : TwinKept s (s.moduleRelease b round) := by
  rw [State.moduleRelease]
  split
  · exact (applyChange_twinKept s _).trans ((Only.refl [.net] _).sendRelease b round).twinKept
  · exact ((Only.refl [.net] s).sendRelease b round).twinKept

theorem releaseDown_twinKept (b : Fin 16) (round : Word) (level : Nat) :
    ∀ s : State, TwinKept s (State.releaseDown b round level s) := by
  induction level with
  | zero => exact fun s => moduleRelease_twinKept s b round
  | succ level ih =>
    intro s
    rw [State.releaseDown]
    exact ((Only.refl [.ports, .held] s).releaseChildren b round _ _ _ _).twinKept.trans (ih _)

theorem releaseTop_twinKept (s : State) (b : Fin 16) (round : Word) (level : Nat) :
    TwinKept s (s.releaseTop b round level) := by
  rw [State.releaseTop]
  split
  · split
    · exact releaseDown_twinKept b round level s
    · exact ⟨rfl, rfl, rfl, rfl, id⟩
  · exact releaseDown_twinKept b round level s

theorem countAt_twinKept (b : Fin 16) (round : Word) (fuel : Nat) : ∀ (level n : Nat) (s : State),
    TwinKept s (State.countAt b round fuel level n s) := by
  induction fuel with
  | zero => exact fun _ _ s => TwinKept.refl s
  | succ fuel ih =>
    intro level n s
    rw [State.countAt]
    dsimp only
    split
    · exact ⟨rfl, rfl, rfl, rfl, id⟩
    · obtain ⟨u, hu⟩ : ∃ u, u = { s with domain := { s.domain with
          banks := mset s.domain.banks (bankKey level b.val (round.toNat % 2)) 0 } } := ⟨_, rfl⟩
      have hbank : TwinKept s u := hu ▸ ⟨rfl, rfl, rfl, rfl, id⟩
      rw [← hu]
      refine hbank.trans ?_
      split
      · exact releaseTop_twinKept u b round level
      · split
        · exact ih _ _ u
        · exact ((Only.refl [.ports, .held] u).sendBarrier _ _ b round _ _).twinKept

theorem domainArrive_twinKept (s : State) (b : Fin 16) (round : Word) : TwinKept s (s.domainArrive b round) := by
  rw [State.domainArrive]
  dsimp only
  split
  · exact releaseTop_twinKept s b round 0
  · split
    · exact countAt_twinKept b round 6 1 1 s
    · exact ((Only.refl [.ports, .held] s).sendBarrier _ _ b round _ _).twinKept

theorem releaseWithheld_twinKept (s : State) : TwinKept s s.releaseWithheld := by
  rw [State.releaseWithheld]
  split
  · split
    · split
      · exact TwinKept.refl s
      · exact TwinKept.trans (t := { s with run := { s.run with withheld := none } }) ⟨rfl, rfl, rfl, rfl, id⟩
          (domainArrive_twinKept _ _ _)
    · exact TwinKept.refl s
  · exact TwinKept.refl s

/-! Closure checks. -/

theorem closePassed_twinKept (s : State) (t : Nat) : TwinKept s (s.closePassed t) := by
  rw [State.closePassed]
  refine TwinKept.trans ?_ (releaseWithheld_twinKept _)
  split <;> exact ⟨rfl, rfl, rfl, rfl, id⟩

theorem skipClosure_twinKept (s : State) (t : Nat) : TwinKept s (s.skipClosure t) := by
  rw [State.skipClosure]
  refine TwinKept.trans ?_ (releaseWithheld_twinKept _)
  split <;> exact ⟨rfl, rfl, rfl, rfl, id⟩

/-- A closure check that fails keeps this, and is noted. -/
theorem closureDiffers_twinKept (s : State) (t : Nat) (own twin : Digest) :
    TwinKept s (s.closureDiffers t own twin) ∧ (s.closureDiffers t own twin).pair.closureFailed = true := by
  obtain ⟨u, hu⟩ : ∃ u : State, u = { s with pair := { s.pair with closureFailed := true } } := ⟨_, rfl⟩
  have hset : TwinKept s u := hu ▸ ⟨rfl, rfl, rfl, rfl, fun _ => rfl⟩
  have hrest : TwinKept u (s.closureDiffers t own twin) := by
    rw [State.closureDiffers, ← hu]
    exact (((Only.refl [.ports, .held, .replies, .log] u).event _ _ _).sendRecords t).twinKept
  exact ⟨hset.trans hrest, hrest.failed (by rw [hu])⟩

theorem takeClosure_twinKept {s s1 : State} {t : Nat} {a b : Digest} (h : s.takeClosure t = some (a, b, s1)) :
    TwinKept s s1 := by
  rw [State.takeClosure] at h
  split at h
  · cases h
    exact ⟨rfl, rfl, rfl, rfl, id⟩
  · cases h

theorem settleClosure_twinKept (s : State) (t : Nat) : TwinKept s (s.settleClosure t) := by
  rw [State.settleClosure]
  split
  case h_1 a b s1 htake =>
    refine (takeClosure_twinKept htake).trans ?_
    split
    · exact closePassed_twinKept s1 t
    · exact (closureDiffers_twinKept s1 t a b).1
  case h_2 => exact TwinKept.refl s

theorem sendClosure_twinKept (s : State) (t : Nat) : TwinKept s (s.sendClosure t) := by
  rw [State.sendClosure]
  split
  · exact TwinKept.refl s
  · dsimp only
    obtain ⟨u, hu⟩ : ∃ u : State, u = { s with pair := { s.pair with
        ownDigests := mset s.pair.ownDigests t (if s.pair.mode = .mirror then s.mirrorDigest t else s.contribDigest t)
        contribs := s.pair.contribs.filter (fun c => decide (c.1 ≠ t % 2 ^ 24)) } } := ⟨_, rfl⟩
    have hown : TwinKept s u := hu ▸ ⟨rfl, rfl, rfl, rfl, id⟩
    rw [← hu]
    refine hown.trans ?_
    split
    · exact skipClosure_twinKept u t
    · exact ((Only.refl [.ports, .held] u).sendOn _ _).twinKept

theorem reportStep_twinKept (s : State) (t : Nat) : TwinKept s (s.reportStep t) := by
  rw [State.reportStep]
  refine TwinKept.trans ?_ (sendClosure_twinKept _ t)
  split
  · exact TwinKept.refl s
  · exact ((Only.refl [.ports, .held] s).sendFingerprints t).twinKept

theorem addSteps_twinKept (n : Nat) : ∀ s : State, TwinKept s (s.addSteps n) := by
  induction n with
  | zero => exact TwinKept.refl
  | succ n ih =>
    intro s
    rw [State.addSteps]
    split
    · exact ((addStep_keeps s _).twinKept.trans (reportStep_twinKept _ _)).trans
        ((settleClosure_twinKept _ _).trans (ih _))
    · exact TwinKept.refl s

/-! The end of a run. -/

theorem endRun_twinKept (s : State) (c : EndCause) : TwinKept s (s.endRun c) := by
  rw [State.endRun]
  split
  case isFalse => exact TwinKept.refl s
  case isTrue =>
    extract_lets s1 s2 s2' record body s3 s4 s4'
    have hs2 : TwinKept s s2 := ((((Only.refl [.hbm, .stackMap, .mem, .replies, .log, .freeCtr] s).logFaults
      s.contractFaults).settleEngines c).flushRecords _).twinKept
    have hs2' : TwinKept s2 s2' := addSteps_twinKept _ s2
    have hs3 : TwinKept s2' s3 := ((((Only.refl [.tiles, .net, .ports, .held, .jobs, .blocks] s2').keepRecord
      record).resetEndpoints _).setRunEn false).twinKept
    have hs4 : TwinKept s3 s4 := by
      unfold s4
      clear_value s3 body
      split
      · exact ((Only.refl [.replies, .jobs] s3).postRunEnd _ c body).twinKept
      · exact TwinKept.refl s3
    have hs4' : TwinKept s4 s4' := ((Only.refl [.tiles, .replies, .log] s4).flushChecks _).twinKept
    clear_value s4'
    exact (((hs2.trans hs2').trans hs3).trans (hs4.trans hs4')).trans ⟨rfl, rfl, rfl, rfl, id⟩

theorem raiseHw_twinKept (s : State) (code source : BitVec 16) (offending detail : DWord) (payload : Bytes) :
    TwinKept s (s.raiseHw code source offending detail payload) := by
  rw [State.raiseHw]
  refine TwinKept.trans ?_ (endRun_twinKept _ .fault)
  split <;> exact ⟨rfl, rfl, rfl, rfl, id⟩

end Sys2Proof.Machine
end

section
/-!
PROOFS. Heartbeats, the loss of the twin and the lease (R455, R456, R464 to R468, R470, R472 to R474; PairRowsComplete, O51).
That a suspended module asks for the lease at the renewal timer is the model's reading (log entry 21).
-/

namespace Sys2Proof.Machine

set_option Elab.async false

/-! Heartbeats that leave. -/

/-- A port holds a heartbeat with a payload: it waits there, or is sent and not acknowledged yet. -/
def Port.holdsHeartbeat (x : Port) (payload : Bytes) : Prop :=
  ∃ k : Packet, (k ∈ x.egress ∨ ∃ n, (k, n) ∈ x.unacked) ∧ k.ptype = 10 ∧ k.payload = payload

/-- An element of a list is at a place, or stays when that place is removed. -/
theorem mem_eraseIdx_or {α : Type} {l : List α} {i : Nat} {a b : α} (ha : a ∈ l) (hb : l[i]? = some b) :
    a = b ∨ a ∈ l.eraseIdx i := by
  obtain ⟨j, hj⟩ := List.mem_iff_getElem?.mp ha
  by_cases hji : j = i
  · exact .inl (Option.some.inj (hj.symm.trans (hji ▸ hb)))
  · refine .inr (List.mem_iff_getElem?.mpr ?_)
    obtain hlt | hgt := Nat.lt_or_gt_of_ne hji
    · exact ⟨j, by rw [List.getElem?_eraseIdx_of_lt hlt]; exact hj⟩
    · refine ⟨j - 1, ?_⟩
      rw [List.getElem?_eraseIdx_of_ge (by omega), Nat.sub_add_cancel (by omega)]
      exact hj

/-- Sending what a port can send leaves its heartbeats in its lists. -/
theorem pump_holdsHeartbeat (carries : Nat → Bool) (payload : Bytes) (fuel : Nat) :
    ∀ x : Port, x.holdsHeartbeat payload → (x.pump carries fuel).holdsHeartbeat payload := by
  induction fuel with
  | zero => exact fun _ h => h
  | succ fuel ih =>
    rintro x ⟨k, hk, htype, hpayload⟩
    rw [Port.pump]
    split
    · exact ⟨k, hk, htype, hpayload⟩
    · split
      · exact ⟨k, hk, htype, hpayload⟩
      · rename_i i _ k' hplace
        refine ih _ ?_
        obtain hk | ⟨n, hn⟩ := hk
        · obtain rfl | hstays := mem_eraseIdx_or hk hplace
          · exact ⟨{ k with lseq := x.txSeq }, .inr ⟨1, List.mem_append_right _ (List.mem_singleton_self _)⟩, htype, hpayload⟩
          · exact ⟨k, .inl hstays, htype, hpayload⟩
        · exact ⟨k, .inr ⟨n, List.mem_append_left _ hn⟩, htype, hpayload⟩

theorem State.port_modPort (s : State) (p : Nat) (f : Port → Port) : (s.modPort p f).port p = f (s.port p) :=
  mget_mset_same _ _ _ _

theorem State.port_modPort_other (s : State) {p q : Nat} (f : Port → Port) (h : q ≠ p) : (s.modPort p f).port q = s.port q :=
  mget_mset_other _ _ _ _ _ h

/-- A heartbeat is sent even by a module that is suspended or fenced. -/
theorem sendOn_heartbeat {s : State} (p : Fin 20) {k : Packet} (hid : s.domain.moduleId.isSome = true) (htype : k.ptype = 10) :
    s.sendOn p k = (s.modPort p.val (fun x => { x with egress := x.egress ++ [k] })).pumpPort p.val := by
  have hnone : ¬ s.domain.moduleId.isNone = true := by simpa [Option.isSome_iff_ne_none] using hid
  rw [State.sendOn, if_neg hnone, htype, if_neg (by simp [heldType]), if_neg (by simp [freeType])]

/-- Sending on a port leaves the other ports. -/
theorem sendOn_port_other (s : State) {p : Fin 20} {q : Nat} (k : Packet) (h : q ≠ p.val) : (s.sendOn p k).port q = s.port q := by
  rw [State.sendOn]
  split
  · rfl
  · split
    · rfl
    · split
      · rfl
      · rw [State.pumpPort, State.port_modPort_other _ _ h, State.port_modPort_other _ _ h]

theorem sendOn_holdsHeartbeat {s : State} (p : Fin 20) {k : Packet} (hid : s.domain.moduleId.isSome = true)
    (htype : k.ptype = 10) : ((s.sendOn p k).port p.val).holdsHeartbeat k.payload := by
  rw [sendOn_heartbeat p hid htype, State.pumpPort, State.port_modPort]
  refine pump_holdsHeartbeat _ _ _ _ ⟨k, .inl ?_, htype, rfl⟩
  rw [State.port_modPort]
  exact List.mem_append_right _ (List.mem_singleton_self _)

theorem Only.moduleId {P : List Part} {s t : State} (h : Only P s t) (hp : .domain ∉ P := by decide) :
    t.domain.moduleId = s.domain.moduleId := (congrArg DomainState.moduleId (h.domainRest hp) :)

/-- One heartbeat for each of a list of ports. -/
def State.sendHeartbeats (s : State) (payload : Bytes) (l : List Nat) : State :=
  l.foldl (fun s p => s.sendOn (portNo p) (s.mkPacket p 10 s.twinId 0 0 payload)) s

theorem sendHeartbeats_only (payload : Bytes) (l : List Nat) : ∀ s : State,
    Only [.ports, .held] s (s.sendHeartbeats payload l) := by
  induction l with
  | nil => exact fun s => Only.refl _ s
  | cons p r ih => exact fun s => ((Only.refl _ s).sendOn _ _).trans (ih _)

theorem sendHeartbeats_heldPackets (payload : Bytes) (l : List Nat) : ∀ s : State,
    (s.sendHeartbeats payload l).pair = s.pair := by
  induction l with
  | nil => exact fun _ => rfl
  | cons p r ih =>
    intro s
    refine (ih _).trans ?_
    change (s.sendOn (portNo p) (s.mkPacket p 10 s.twinId 0 0 payload)).pair = s.pair
    generalize hk : s.mkPacket p 10 s.twinId 0 0 payload = k
    have htype : k.ptype = 10 := hk ▸ rfl
    cases hid : s.domain.moduleId.isSome with
    | true => rw [sendOn_heartbeat _ hid htype]; rfl
    | false => rw [State.sendOn, if_pos (by simpa using hid)]

theorem sendHeartbeats_other (payload : Bytes) (q : Nat) (l : List Nat) (hl : ∀ p ∈ l, p < 20) : ∀ s : State, q ∉ l →
    (s.sendHeartbeats payload l).port q = s.port q := by
  induction l with
  | nil => exact fun _ _ => rfl
  | cons p r ih =>
    intro s hq
    obtain ⟨hp, hr⟩ := not_or.mp (fun h => hq (List.mem_cons.mpr h))
    refine (ih (fun p hp => hl p (List.mem_cons_of_mem _ hp)) _ hr).trans (sendOn_port_other s _ ?_)
    have hlt := hl p List.mem_cons_self
    simpa [portNo, Fin.ofNat, Nat.mod_eq_of_lt hlt] using hp

theorem sendHeartbeats_holds (payload : Bytes) (q : Nat) (l : List Nat) (hl : ∀ p ∈ l, p < 20) (hnodup : l.Nodup) :
    ∀ s : State, q ∈ l → s.domain.moduleId.isSome = true → ((s.sendHeartbeats payload l).port q).holdsHeartbeat payload := by
  induction l with
  | nil => exact fun _ hq => absurd hq List.not_mem_nil
  | cons p r ih =>
    intro s hq hid
    obtain ⟨hp, hr⟩ := List.nodup_cons.mp hnodup
    have hlr : ∀ p ∈ r, p < 20 := fun p hp => hl p (List.mem_cons_of_mem _ hp)
    obtain rfl | hqr := List.mem_cons.mp hq
    · have hlt := hl q List.mem_cons_self
      have hport : (portNo q).val = q := Nat.mod_eq_of_lt hlt
      have hsent := sendOn_holdsHeartbeat (portNo q) (k := s.mkPacket q 10 s.twinId 0 0 payload) hid rfl
      rw [hport] at hsent
      change (((s.sendOn (portNo q) (s.mkPacket q 10 s.twinId 0 0 payload)).sendHeartbeats payload r).port q).holdsHeartbeat
        payload
      rw [sendHeartbeats_other payload q r hlr _ hp]
      exact hsent
    · refine ih hlr hr _ hqr ?_
      rw [((Only.refl [.ports, .held] s).sendOn _ _).moduleId]
      exact hid

theorem upTie_bounds (s : State) : (∀ p ∈ s.upTie, p < 20) ∧ s.upTie.Nodup := by
  refine ⟨fun p hp => ?_, List.Nodup.filter _ (by decide)⟩
  obtain ⟨hp, -⟩ := List.mem_filter.mp hp
  obtain ⟨i, hi, rfl⟩ := List.mem_map.mp hp
  have := List.mem_range.mp hi
  omega

/-! Roles. -/

/-- A module that learns of a higher epoch of its pair is fenced, and its run ends. -/
theorem learnEpoch_fences {s : State} {e : Word} (h : s.pair.epoch < e) : (s.learnEpoch e).pair.role = .fenced ∧
    (s.learnEpoch e).run.state = if s.pair.role = .fenced then s.run.state else .idle := by
  rw [State.learnEpoch]
  by_cases hrole : s.pair.role = .fenced
  · rw [if_neg (fun hh => hh.2 hrole), if_pos hrole]
    exact ⟨hrole, rfl⟩
  · rw [if_pos ⟨h, hrole⟩, if_neg hrole]
    refine ⟨rfl, ?_⟩
    dsimp only
    split
    · exact State.endRun_state _ _
    case isFalse hidle =>
      have hend : s.endRun .fault = s := if_neg hidle
      exact hend ▸ State.endRun_state s .fault

theorem learnEpoch_of_le {s : State} {e : Word} (h : e ≤ s.pair.epoch) : s.learnEpoch e = s :=
  if_neg (fun hh => absurd hh.1 (BitVec.not_lt.mpr h))

theorem learnEpoch_twinKept (s : State) (e : Word) : TwinKept s (s.learnEpoch e) := by
  rw [State.learnEpoch]
  split
  · dsimp only
    split
    · exact (raiseHw_twinKept s _ _ _ _ _).trans ⟨rfl, rfl, rfl, rfl, id⟩
    · exact ⟨rfl, rfl, rfl, rfl, id⟩
  · exact TwinKept.refl s

theorem Only.dropHeld {P : List Part} {s0 s : State} (hk : Only P s0 s) (hHeld : .held ∈ P := by decide) :
    Only P s0 { s with pair := { s.pair with heldPackets := [] } } := by
  grind only [← Only.put, PairState.rest]

/-- A role with authority: the run of a suspended module goes on. -/
theorem resumeAs_takes (s : State) (r : Role) : ∃ u : State,
    u = { s with
      pair := { s.pair with role := r }
      run := { s.run with state := if s.run.state = .suspended then .running else s.run.state } } ∧
    Only [.ports, .held] u (s.resumeAs r) := by
  obtain ⟨u, hu⟩ : ∃ u : State, u = { s with
      pair := { s.pair with role := r }
      run := { s.run with state := if s.run.state = .suspended then .running else s.run.state } } := ⟨_, rfl⟩
  refine ⟨u, hu, ?_⟩
  rw [State.resumeAs, ← hu]
  dsimp only
  split
  · exact ((Only.refl _ u).dropHeld).sendHeld _
  · exact Only.refl _ u

theorem resumeAs_keeps (s : State) (r : Role) : (s.resumeAs r).pair.rest = { s.pair.rest with role := r } ∧
    (s.resumeAs r).mem = s.mem ∧ (s.run.state = .suspended → (s.resumeAs r).run.state = .running) := by
  obtain ⟨u, hu, hkept⟩ := resumeAs_takes s r
  have hpair : (s.resumeAs r).pair.rest = u.pair.rest := hkept .pair (by decide)
  refine ⟨by rw [hpair, hu]; rfl, by rw [hkept.mem, hu], fun hsuspended => ?_⟩
  rw [hkept.run, hu]
  exact if_pos hsuspended

/-- A heartbeat is kept before it is judged. -/
theorem exec_heartbeat {s s1 : State} {p : PortNo} {k : Packet} (h : s.takePacket p.val 10 = some (k, s1)) : ∃ u : State,
    u.pair.lastHb = some (heartbeatOf k.payload) ∧ u.pair.lastHbAt = s.clock.meridian ∧ u.pair.twinLost = false ∧
      u.pair.epoch = s.pair.epoch ∧ u.pair.role = s.pair.role ∧ u.mem = s.mem ∧ u.run = s.run ∧
      exec (.heartbeat p) s = .next (
        if s.pair.epoch < (heartbeatOf k.payload).pairEpoch then u.learnEpoch (heartbeatOf k.payload).pairEpoch
        else if s.pair.role ≠ .fenced ∧ s.pair.role ≠ .holder ∧ s.namesHolder (heartbeatOf k.payload) = true then
          ({ u with pair := { u.pair with authorityEnd := (heartbeatOf k.payload).leaseEnd } }).resumeAs .secondary
        else u) := by
  have honly := takePacket_only h
  generalize hmsg : heartbeatOf k.payload = m
  obtain ⟨v, hv⟩ : ∃ v, v = s1.modPort p.val (fun x => { x with lastHb := m.hbSeq }) := ⟨_, rfl⟩
  have hvkept : Only [.ports] s v := hv ▸ honly.modPort p.val _
  obtain ⟨w, hw⟩ : ∃ w : State, w = { v with pair :=
    { v.pair with lastHb := some m, lastHbAt := s.clock.meridian, twinLost := false } } := ⟨_, rfl⟩
  have hu : (w.compareModes m).pair = { w.pair with modeMismatch := decide (m.mode.toNat ≠ modeCode w.pair.mode) } ∧
      (w.compareModes m).mem = w.mem ∧ (w.compareModes m).run = w.run := by
    rw [State.compareModes]
    dsimp only
    split <;> exact ⟨rfl, rfl, rfl⟩
  obtain ⟨hpair, hmem, hrun⟩ := hu
  have hexec : exec (.heartbeat p) s = .next (
      if s.pair.epoch < m.pairEpoch then (w.compareModes m).learnEpoch m.pairEpoch
      else if s.pair.role ≠ .fenced ∧ s.pair.role ≠ .holder ∧ s.namesHolder m = true then
        ({ w.compareModes m with pair := { (w.compareModes m).pair with authorityEnd := m.leaseEnd } }).resumeAs .secondary
      else w.compareModes m) := by
    change execHeartbeat p s = _
    simp only [execHeartbeat, h, hmsg, ← hv, ← hw]
    split
    · rfl
    · split <;> rfl
  refine ⟨w.compareModes m, ?_, ?_, ?_, ?_, ?_, ?_, ?_, hexec⟩
  · rw [hpair, hw]
  · rw [hpair, hw]
  · rw [hpair, hw]
  · rw [hpair, hw]; exact (congrArg PairState.epoch hvkept.pair :)
  · rw [hpair, hw]; exact (congrArg PairState.role hvkept.pair :)
  · rw [hmem, hw]; exact hvkept.mem
  · rw [hrun, hw]; exact hvkept.run

/-! The witness. -/

/-- A request to the witness is noted with its nonce, and leaves on the paths that are configured. -/
theorem askWitness_asks (s : State) (kind : Byte) : Only [.ports, .held, .replies, .freeCtr]
    { s with pair := { s.pair with asked := s.pair.asked ++ [(kind, Config.freeDWord s.freeCtr, s.clock.meridian)] } }
    (s.askWitness kind) := by
  obtain ⟨u, hu⟩ : ∃ u : State, u = { s with pair := { s.pair with
    asked := s.pair.asked ++ [(kind, Config.freeDWord s.freeCtr, s.clock.meridian)] } } := ⟨_, rfl⟩
  rw [State.askWitness, ← hu]
  have hdrawn : Only [.ports, .held, .replies, .freeCtr] u (u.drawn 1) := (Only.refl _ u).drawn 1
  have hposted : Only [.ports, .held, .replies, .freeCtr] u
      (if s.domain.witnessHost then (u.drawn 1).postOwner 0x8480 (s.leaseBytes kind (Config.freeDWord s.freeCtr)) else u.drawn 1) := by
    split
    · exact hdrawn.postOwner _ _
    · exact hdrawn
  split
  · exact hposted.sendMgmt _ _
  · exact hposted

/-- A grant of the epoch in force, within its term, extends the lease and makes the module the holder. -/
theorem granted_extends {s : State} {kind : Byte} {sent : DWord} {r : LeaseReplyMsg} (hrole : s.pair.role ≠ .fenced)
    (hepoch : r.epoch = s.pair.epoch) (hkind : kind ≠ 4) (hterm : s.clock.meridian < sent + 800000000) :
    s.granted kind sent r = ({ s with pair := { s.pair with
      leaseEnd := if s.pair.leaseEnd < sent + 800000000 then sent + 800000000 else s.pair.leaseEnd } }).resumeAs .holder := by
  have hno : ¬ (s.pair.role = .fenced ∨ sent + 800000000 ≤ s.clock.meridian ∨ kind = 4 ∨ r.epoch < s.pair.epoch) := by
    rintro (hfenced | hpast | hfour | hold)
    · exact hrole hfenced
    · exact absurd hpast (BitVec.not_le.mpr hterm)
    · exact hkind hfour
    · exact absurd hold (hepoch ▸ BitVec.lt_irrefl _)
  rw [State.granted]
  exact (if_neg hno).trans (if_pos hepoch)

/-- A grant to a fenced module, past its term, for a release or of an older epoch does nothing. -/
theorem granted_none {s : State} {kind : Byte} {sent : DWord} {r : LeaseReplyMsg}
    (h : s.pair.role = .fenced ∨ sent + 800000000 ≤ s.clock.meridian ∨ kind = 4 ∨ r.epoch < s.pair.epoch) :
    s.granted kind sent r = s := by
  rw [State.granted]
  exact if_pos h

/-- A grant that shows no higher epoch leaves memory. -/
theorem granted_mem {s : State} {kind : Byte} {sent : DWord} {r : LeaseReplyMsg} (hepoch : r.epoch ≤ s.pair.epoch) :
    (s.granted kind sent r).mem = s.mem := by
  by_cases hstop : s.pair.role = .fenced ∨ sent + 800000000 ≤ s.clock.meridian ∨ kind = 4 ∨ r.epoch < s.pair.epoch
  · rw [granted_none hstop]
  · simp only [not_or, BitVec.not_le, BitVec.not_lt] at hstop
    obtain ⟨hrole, hterm, hkind, hge⟩ := hstop
    rw [granted_extends hrole (BitVec.le_antisymm hepoch hge) hkind hterm, (resumeAs_keeps _ _).2.1]

/-- A reply that verifies and echoes a request. -/
theorem takeLeaseReply_verified {s : State} {r : LeaseReplyMsg} {a : Byte × DWord × DWord}
    (hasked : s.pair.asked.find? (fun a => a.2.1 == r.nonce) = some a) (hpair : r.pairId.toNat = s.moduleIdNat / 2)
    (hverified : ed25519Verify s.domain.witnessKey (leaseSigned r) r.signature = true) : s.takeLeaseReply r =
      let u := { s with pair := { s.pair with asked := s.pair.asked.filter (fun x => x.2.1 != r.nonce) } }
      if r.result = 0 ∧ r.holder.toNat = s.moduleIdNat then u.granted a.1 a.2.2 r else u.learnEpoch r.epoch := by
  simp only [State.takeLeaseReply, hasked]
  exact if_pos ⟨hpair, hverified⟩

/-! The adoption of an epoch. -/

theorem adoptEpoch_adopts (s : State) (e : Word) : (s.adoptEpoch e).pair.epoch = e ∧ (s.adoptEpoch e).pair.nextEpoch = none ∧
    (s.adoptEpoch e).pair.role = s.pair.role ∧ (s.adoptEpoch e).epochEntry (s.moduleIdNat / 2) = some e ∧
    (s.adoptEpoch e).run = s.run := by
  obtain ⟨u, hu⟩ : ∃ u, u = ({ s with pair := { s.pair with epoch := e, nextEpoch := none } }).raiseEpoch (s.moduleIdNat / 2) e :=
    ⟨_, rfl⟩
  have hkept : Only [.ports, .held] u (s.adoptEpoch e) := by
    rw [State.adoptEpoch, ← hu]
    exact (Only.refl _ u).epochNotices
  have hrest : (s.adoptEpoch e).pair.rest = u.pair.rest := hkept .pair (by decide)
  refine ⟨(congrArg PairState.epoch hrest :).trans (by rw [hu]; rfl), (congrArg PairState.nextEpoch hrest :).trans (by rw [hu]; rfl),
    (congrArg PairState.role hrest :).trans (by rw [hu]; rfl), ?_, hkept.run.trans (by rw [hu]; rfl)⟩
  rw [hkept.epochEntry, hu]
  obtain ⟨v, hv⟩ : ∃ v : State, v = { s with pair := { s.pair with epoch := e, nextEpoch := none } } := ⟨_, rfl⟩
  have hid : (v.raiseEpoch (s.moduleIdNat / 2) e).moduleIdNat = s.moduleIdNat := by rw [hv]; rfl
  rw [← hv, State.epochEntry, hid, if_pos rfl]
  change (match v.domain.membership with
    | some _ => mfind (mset v.domain.epochs (s.moduleIdNat / 2) e) (s.moduleIdNat / 2)
    | none => some (mget v.pair.epoch (mset v.domain.epochs (s.moduleIdNat / 2) e) (s.moduleIdNat / 2))) = some e
  rw [mfind_mset_same, mget_mset_same]
  cases v.domain.membership <;> rfl

/-- Settles O51. -/
theorem pairRowsComplete : Obligations.PairRowsComplete := by
  unfold Obligations.PairRowsComplete
  refine ⟨⟨fun s => ?beats, fun s p k s1 h => ?beat, fun s hlost hlate => ?lost⟩, fun s => ⟨fun hsolo => ?renewSolo,
    fun kind hmode hkind => ?renew⟩, fun s r => ⟨fun hnone => ?unasked, fun a hasked => ⟨fun hbad => ?unsigned,
    fun hpair hverified => ?reply⟩⟩, fun s => ⟨fun hends => ?ends, fun hholder hterm => ?lasts⟩, fun s e nb hnext =>
    ⟨fun hdue => ?switches, fun hearly => ?early⟩⟩
  case beats =>
    obtain ⟨u, hu⟩ : ∃ u : State, u = { s with pair := { s.pair with hbSeq := s.pair.hbSeq + 1 } } := ⟨_, rfl⟩
    have htie : u.upTie = s.upTie := by rw [hu]; rfl
    have hexec : exec .heartbeatTimer s = .next (u.sendHeartbeats u.heartbeatPayload u.upTie) := by rw [hu]; rfl
    have hkept := sendHeartbeats_only u.heartbeatPayload u.upTie u
    obtain ⟨hbound, hnodup⟩ := upTie_bounds u
    refine ⟨_, hexec, ?_, ?_, ?_, fun hid p hp => ?_⟩
    · rw [sendHeartbeats_heldPackets, hu]
    · rw [hkept.tiles, hu]
    · rw [hkept.run, hu]
    · obtain ⟨k, hk, htype, hpayload⟩ :=
        sendHeartbeats_holds u.heartbeatPayload p u.upTie hbound hnodup u (htie ▸ hp) (by rw [hu]; exact hid)
      exact ⟨k, hk, htype, hpayload.trans (by rw [hu])⟩
  case beat =>
    intro m
    obtain ⟨u, hlast, hat, hlost, hepoch, hrole, hmem, hrun, hexec⟩ := exec_heartbeat h
    have hm : heartbeatOf k.payload = m := rfl
    rw [hm] at hlast hexec
    clear_value m
    by_cases hbehind : s.pair.epoch < m.pairEpoch
    · rw [if_pos hbehind] at hexec
      have hkept := learnEpoch_twinKept u m.pairEpoch
      obtain ⟨hfenced, hstate⟩ := learnEpoch_fences (s := u) (e := m.pairEpoch) (by rw [hepoch]; exact hbehind)
      have hne : m.pairEpoch ≠ s.pair.epoch := fun heq => absurd hbehind (heq ▸ BitVec.lt_irrefl _)
      refine ⟨_, hexec, hkept.lastHb.trans hlast, hkept.lastHbAt.trans hat, hkept.twinLost.trans hlost, hkept.epoch.trans hepoch,
        fun hle => absurd hbehind (BitVec.not_lt.mpr hle), fun _ => ⟨hfenced, ?_⟩, fun heq => absurd heq hne,
        fun heq => absurd heq hne⟩
      rw [hstate, hrole, hrun]
    · rw [if_neg hbehind] at hexec
      by_cases hnames : s.pair.role ≠ .fenced ∧ s.pair.role ≠ .holder ∧ s.namesHolder m = true
      · rw [if_pos hnames] at hexec
        obtain ⟨v, hv⟩ : ∃ v : State, v = { u with pair := { u.pair with authorityEnd := m.leaseEnd } } := ⟨_, rfl⟩
        rw [← hv] at hexec
        obtain ⟨hpair, hvmem, hresumes⟩ := resumeAs_keeps v .secondary
        have hfields : (v.resumeAs .secondary).pair.lastHb = some m ∧ (v.resumeAs .secondary).pair.lastHbAt = s.clock.meridian ∧
            (v.resumeAs .secondary).pair.twinLost = false ∧ (v.resumeAs .secondary).pair.epoch = s.pair.epoch ∧
            (v.resumeAs .secondary).pair.role = .secondary ∧ (v.resumeAs .secondary).pair.authorityEnd = m.leaseEnd := by
          refine ⟨(congrArg PairState.lastHb hpair :).trans ?_, (congrArg PairState.lastHbAt hpair :).trans ?_,
            (congrArg PairState.twinLost hpair :).trans ?_, (congrArg PairState.epoch hpair :).trans ?_,
            (congrArg PairState.role hpair :), (congrArg PairState.authorityEnd hpair :).trans ?_⟩
          · rw [hv]; exact hlast
          · rw [hv]; exact hat
          · rw [hv]; exact hlost
          · rw [hv]; exact hepoch
          · rw [hv]; rfl
        obtain ⟨hlast', hat', hlost', hepoch', hrole', hauthority⟩ := hfields
        refine ⟨_, hexec, hlast', hat', hlost', hepoch', fun _ => ?_, fun hlt => absurd hlt hbehind, fun _ _ _ _ _ =>
          ⟨hrole', hauthority, fun hsuspended => hresumes ?_⟩, fun _ hother => ?_⟩
        · rw [hvmem, hv]; exact hmem
        · rw [hv]; exact (congrArg RunRec.state hrun).trans hsuspended
        · obtain hholder | hfenced := hother
          · exact absurd hholder hnames.2.1
          · exact absurd hfenced hnames.1
      · rw [if_neg hnames] at hexec
        refine ⟨_, hexec, hlast, hat, hlost, hepoch, fun _ => hmem, fun hlt => absurd hlt hbehind,
          fun heq hsuspended hmode htwin hlive => absurd ⟨?_, ?_, ?_⟩ hnames, fun _ _ => hrole⟩
        · rw [hsuspended]; decide
        · rw [hsuspended]; decide
        · simp [State.namesHolder, hmode, htwin, heq, hlive]
  case lost =>
    obtain ⟨u, hu⟩ : ∃ u, u = ({ s with pair := { s.pair with twinLost := true } }).event evTwinLost srcMcb (leBytes 4 s.twinId) :=
      ⟨_, rfl⟩
    have hpair : u.pair = { s.pair with twinLost := true } := by rw [hu]; rfl
    have hclock : u.clock = s.clock := by rw [hu]; rfl
    have hrun : u.run = s.run := by rw [hu]; rfl
    change ∃ t, execTwinLost s = .next t ∧ _
    rw [execTwinLost, if_pos ⟨hlost, hlate⟩, ← hu]
    dsimp only
    by_cases halone : s.pair.mode = .solo ∨ s.pair.role = .fenced
    · rw [if_pos halone]
      refine ⟨_, rfl, by rw [hpair], by rw [hpair], hrun, fun _ => by rw [hpair], fun hmode hrole => ?_⟩
      exact absurd halone (not_or.mpr ⟨hmode, hrole⟩)
    · rw [if_neg halone]
      have hkept := askWitness_asks u (if s.pair.role = .holder then 3 else 1)
      have hrest := hkept .pair (by decide)
      refine ⟨_, rfl, (congrArg PairState.twinLost hrest :).trans ?_, (congrArg PairState.role hrest :).trans ?_,
        hkept.run.trans hrun, fun hother => absurd hother halone,
        fun _ _ => ⟨Config.freeDWord u.freeCtr, (congrArg PairState.asked hrest :).trans ?_⟩⟩
      · exact (congrArg PairState.twinLost hpair :)
      · exact (congrArg PairState.role hpair :)
      · rw [← hclock]
        exact (congrArg (fun x : PairState => x.asked ++ [((if s.pair.role = .holder then 3 else 1 : Byte), Config.freeDWord u.freeCtr,
          u.clock.meridian)]) hpair :)
  case renewSolo => exact if_pos hsolo
  case renew =>
    have hexec : exec .leaseRenewTimer s = .next (s.askWitness kind) := by
      change execLeaseRenewTimer s = _
      rw [execLeaseRenewTimer, if_neg hmode]
      obtain ⟨hrole, rfl⟩ | ⟨hrole, rfl⟩ := hkind <;> rw [hrole]
    have hkept := askWitness_asks s kind
    have hrest := hkept .pair (by decide)
    refine ⟨_, Config.freeDWord s.freeCtr, hexec, ?_, hkept.run, hkept.tiles⟩
    exact (congrArg (fun x : PairState => { x with heldPackets := (s.askWitness kind).pair.heldPackets }) hrest :)
  case unasked =>
    change Host.Outcome.next (s.takeLeaseReply r) = _
    rw [State.takeLeaseReply, hnone]
  case unsigned =>
    change Host.Outcome.next (s.takeLeaseReply r) = _
    rw [State.takeLeaseReply, hasked]
    exact congrArg Host.Outcome.next (if_neg (fun h => absurd (h.2.symm.trans hbad) (by decide)))
  case reply =>
    obtain ⟨u, hu⟩ : ∃ u : State, u = { s with pair :=
      { s.pair with asked := s.pair.asked.filter (fun x => x.2.1 != r.nonce) } } := ⟨_, rfl⟩
    have htake := takeLeaseReply_verified hasked hpair hverified
    dsimp only at htake
    rw [← hu] at htake
    have huepoch : u.pair.epoch = s.pair.epoch := by rw [hu]
    have humem : u.mem = s.mem := by rw [hu]
    refine ⟨s.takeLeaseReply r, rfl, fun hold => ?_, fun hok hholder hrole hepoch hkind hterm => ?_, fun hno hnew => ?_⟩
    · rw [htake]
      split
      · exact (granted_mem (huepoch.symm ▸ hold)).trans humem
      · rw [learnEpoch_of_le (huepoch.symm ▸ hold), humem]
    · rw [if_pos ⟨hok, hholder⟩, granted_extends (s := u) (by rw [hu]; exact hrole) (hepoch.trans huepoch.symm) hkind
        (by rw [hu]; exact hterm)] at htake
      obtain ⟨fin, hfin⟩ : ∃ fin : DWord, fin = a.2.2 + 800000000 := ⟨_, rfl⟩
      rw [← hfin] at htake ⊢
      obtain ⟨hrest, -, hresumes⟩ := resumeAs_keeps
        { u with pair := { u.pair with leaseEnd := if u.pair.leaseEnd < fin then fin else u.pair.leaseEnd } } .holder
      rw [← htake] at hrest hresumes
      have hend : (s.takeLeaseReply r).pair.leaseEnd = if s.pair.leaseEnd < fin then fin else s.pair.leaseEnd :=
        (congrArg PairState.leaseEnd hrest :).trans (by rw [hu]; rfl)
      refine ⟨(congrArg PairState.role hrest :), ?_, ?_, fun hsuspended _ => hresumes ?_⟩
      · rw [hend]
        split
        case isTrue hlt => exact BitVec.le_of_lt hlt
        case isFalse => exact BitVec.le_refl _
      · rw [hend]
        split
        case isTrue => exact BitVec.le_refl _
        case isFalse hge => exact BitVec.not_lt.mp hge
      · rw [hu]; exact hsuspended
    · rw [htake, if_neg (fun h => hno h.1)]
      exact (learnEpoch_fences (s := u) (by rw [huepoch]; exact hnew)).1
  case ends =>
    have hexec : exec .leaseTermEnd s = .next s.suspend := by
      change execLeaseTermEnd s = _
      rw [execLeaseTermEnd.eq_def]
      obtain ⟨hrole, hterm⟩ | ⟨hrole, hterm⟩ := hends
      · simp only [hrole]; exact if_pos hterm
      · simp only [hrole]; exact if_pos hterm
    exact ⟨_, hexec, rfl, rfl, rfl⟩
  case lasts =>
    change execLeaseTermEnd s = _
    simp only [execLeaseTermEnd, hholder]
    exact if_neg (BitVec.not_le.mpr hterm)
  case switches =>
    have hexec : exec .epochSwitch s = .next (s.adoptEpoch e) := by
      change execEpochSwitch s = _
      simp only [execEpochSwitch, hnext]
      exact if_pos hdue
    exact ⟨_, hexec, adoptEpoch_adopts s e⟩
  case early =>
    change execEpochSwitch s = _
    simp only [execEpochSwitch, hnext]
    exact if_neg (BitVec.not_le.mpr hearly)

end Sys2Proof.Machine
end

section
/-!
PROOFS. Closure checks and the transfer of state at a membership change (R377, R444, R446, R460 to R463;
ClosureAndTransferComplete, O52).
-/

namespace Sys2Proof.Machine

set_option Elab.async false

/-! Closure checks. -/

/-- A digest of the twin for a step is kept. -/
def State.keepTwinDigest (s : State) (t : Nat) (x : Byte × Digest) : State :=
  { s with pair := { s.pair with twinDigests := mset s.pair.twinDigests t x } }

/-- A digest of the twin is kept, and compared with the own one. -/
theorem exec_closure {s s1 : State} {p : PortNo} {k : Packet} (h : s.takePacket p.val 11 = some (k, s1))
    (hkind : BitVec.ofNat 8 (fieldAt k.payload 4 1) ≠ (3 : Byte)) : exec (.closure p) s =
      .next ((s1.keepTwinDigest (fieldAt k.payload 0 4) (BitVec.ofNat 8 (fieldAt k.payload 4 1),
        BitVec.ofNat 512 (beNat (slice k.payload 8 64)))).compareClosure (fieldAt k.payload 0 4)) := by
  change execClosure p s = _
  simp only [execClosure, h]
  exact if_neg hkind

theorem compareClosure_of_both {s : State} {t : Nat} {own : Digest} {twin : Byte × Digest}
    (hown : mfind s.pair.ownDigests t = some own) (htwin : mfind s.pair.twinDigests t = some twin) : ∃ u : State,
    u = { s with pair := { s.pair with
      ownDigests := merase s.pair.ownDigests t, twinDigests := merase s.pair.twinDigests t } } ∧
    s.compareClosure t = if own = twin.2 then u.closePassed t else u.closeFailed t own twin.2 := by
  obtain ⟨kind, d⟩ := twin
  refine ⟨_, rfl, ?_⟩
  simp only [State.compareClosure, State.takeClosure, hown, htwin]

/-- A step that passes its check is closed; where no barrier waits for it the run stays. -/
theorem closePassed_closes {s : State} {t : Nat} (hnone : s.run.withheld = none) : (s.closePassed t).run = s.run ∧
    (stepBehind s.pair.closedStep t = true → (s.closePassed t).pair.closedStep = BitVec.ofNat 32 t) := by
  have hrelease (u : State) (hu : u.run.withheld = none) : u.releaseWithheld = u := by
    rw [State.releaseWithheld, hu]
  rw [State.closePassed]
  split
  · rw [hrelease { s with pair := { s.pair with closedStep := BitVec.ofNat 32 t } } hnone]
    exact ⟨rfl, fun _ => rfl⟩
  case isFalse hahead =>
    rw [hrelease _ hnone]
    exact ⟨rfl, fun hbehind => absurd hbehind hahead⟩

/-- A check that fails is noted, and under STOP ends the run with CLOSURE_MISMATCH. -/
theorem closeFailed_fails (s : State) (t : Nat) (own twin : Digest) : (s.closeFailed t own twin).pair.closureFailed = true ∧
    (s.runActive = true → (s.runJob.map (·.closureContinue)).getD false = false →
      (s.closeFailed t own twin).run.state = .idle ∧ ∃ f, (s.closeFailed t own twin).run.faults = s.run.faults ++ [f] ∧
        f.code = 0x0109 ∧ f.offending = BitVec.ofNat 64 t) := by
  obtain ⟨u, hu⟩ : ∃ u, u = s.closureDiffers t own twin := ⟨_, rfl⟩
  have hnoted : u.pair.closureFailed = true := hu ▸ (closureDiffers_twinKept s t own twin).2
  have hkept : Only [.ports, .held, .pair, .replies, .log] s u := hu ▸ (Only.refl _ s).closureDiffers t own twin
  obtain ⟨hidle, hfaults⟩ := raiseHw_ends u hwClosure srcMcb (BitVec.ofNat 64 t) 0 []
  rw [State.closeFailed, ← hu]
  refine ⟨?_, fun hrun hstop => ?_⟩
  · split
    · exact (raiseHw_twinKept u _ _ _ _ _).failed hnoted
    · exact hnoted
  · rw [if_pos ⟨hstop, hrun⟩]
    exact ⟨hidle, _, hkept.run ▸ hfaults (hkept.runActive.trans hrun), rfl, rfl⟩

/-! The transfer of state. -/

/-- The plans of a transfer, put in their stacks one after the other. -/
def State.putPlans (s : State) (plans : List (StackNo × UpdatePlan)) : State :=
  plans.foldl (fun s x => s.replacePlan x.1.val x.2) s

theorem putPlans_only (plans : List (StackNo × UpdatePlan)) : ∀ s : State, Only [.stackMap] s (s.putPlans plans) := by
  induction plans with
  | nil => exact fun s => Only.refl _ s
  | cons x r ih => exact fun s => ((Only.refl _ s).replacePlan x.1.val x.2).trans (ih _)

theorem putPlans_other (k : StackNo) (plans : List (StackNo × UpdatePlan)) : ∀ s : State, k ∉ plans.map (·.1) →
    (s.putPlans plans).stack k.val = s.stack k.val := by
  induction plans with
  | nil => exact fun _ _ => rfl
  | cons x r ih =>
    intro s hk
    obtain ⟨hx, hr⟩ := not_or.mp (fun h => hk (List.mem_cons.mpr h))
    exact (ih _ hr).trans (State.stack_modStack_other s _ (fun h => hx (Fin.ext h)))

theorem putPlans_named (k : StackNo) (plan : UpdatePlan) (plans : List (StackNo × UpdatePlan)) : ∀ s : State,
    (plans.map (·.1)).Nodup → (k, plan) ∈ plans →
      ((s.putPlans plans).stack k.val).plan = some plan ∧ ((s.putPlans plans).stack k.val).entries = [] := by
  induction plans with
  | nil => exact fun _ _ h => absurd h List.not_mem_nil
  | cons x r ih =>
    intro s hnodup hmem
    obtain ⟨hx, hr⟩ := List.nodup_cons.mp hnodup
    obtain rfl | hmem := List.mem_cons.mp hmem
    · change (((s.replacePlan k.val plan).putPlans r).stack k.val).plan = some plan ∧
        (((s.replacePlan k.val plan).putPlans r).stack k.val).entries = []
      rw [putPlans_other k r _ hx, State.replacePlan, State.stack_modStack]
      exact ⟨rfl, rfl⟩
    · exact ih _ hr hmem

theorem writeMoved_only (moved : List (StackNo × Nat × Bytes)) : ∀ s : State,
    Only [.hbm] s (moved.foldl (fun s x => s.writeStack x.1.val x.2.1 x.2.2) s) := by
  induction moved with
  | nil => exact fun s => Only.refl _ s
  | cons x r ih => exact fun s => ((Only.refl _ s).writeStack _ _ _).trans (ih _)

/-- The record module finds a digest other than that of the step before the change. -/
def State.transferDiffers (s : State) (c : Change) (d : Digest) : Bool :=
  s.isRecordModule (c.tE.toNat - 1) && (match s.recordedDigest (c.tE.toNat - 1) with
    | some e => e != d
    | none => false)

/-- A transfer that is due: the state that moves, the plans, and the change that has been transferred. -/
theorem exec_stateTransfer {s : State} (plans : List (StackNo × UpdatePlan)) (moved : List (StackNo × Nat × Bytes)) (d : Digest)
    {c : Change} (hchange : s.domain.change = some c) (hfirst : c.transferred = false) (hstep : 0 < c.tE.toNat)
    (hdone : s.hasPlan = true → s.stepDone (c.tE.toNat - 1) = true) : ∃ u v : State,
    Only [.ports, .held, .hbm] s u ∧
      v = { (u.putPlans plans).keepPlans plans with
        domain := { ((u.putPlans plans).keepPlans plans).domain with change := some { c with transferred := true } } } ∧
      exec (.stateTransfer plans moved d) s = .next (
        if s.transferDiffers c d then v.raiseHw hwMigration srcMcb (c.tE.setWidth 64) 0 (digestBytes d)
        else v.reportTransfer c) := by
  refine ⟨moved.foldl (fun s x => s.writeStack x.1.val x.2.1 x.2.2) (s.moveState c), _,
    ((Only.refl [.ports, .held, .hbm] s).moveState c).trans ((writeMoved_only moved _).mono (by decide)), rfl, ?_⟩
  change execStateTransfer plans moved d s = _
  simp only [execStateTransfer, hchange]
  refine (if_pos ⟨hfirst, hstep, hdone⟩).trans ?_
  change (if s.transferDiffers c d = true then _ else _) = _
  split <;> rfl

/-- What the plans and the change leave of the state after the move. -/
theorem transferred_keeps {s u v : State} {plans : List (StackNo × UpdatePlan)} {c : Change} (hu : Only [.ports, .held, .hbm] s u)
    (hv : v = { (u.putPlans plans).keepPlans plans with
      domain := { ((u.putPlans plans).keepPlans plans).domain with change := some { c with transferred := true } } }) :
    v.run = s.run ∧ v.tiles = s.tiles ∧ v.moduleIdNat = s.moduleIdNat ∧ v.domain.change = some { c with transferred := true } ∧
      ∀ k, v.stack k = (u.putPlans plans).stack k := by
  obtain ⟨w, hw⟩ : ∃ w, w = (u.putPlans plans).keepPlans plans := ⟨_, rfl⟩
  have hput := (hu.mono (Q := [.ports, .held, .hbm, .stackMap, .host, .sessions, .replies, .jobs]) (by decide)).trans
    ((putPlans_only plans u).mono (by decide))
  have hkept : Only [.ports, .held, .hbm, .stackMap, .host, .sessions, .replies, .jobs] s w := hw ▸ hput.keepPlans plans
  have hstacks : ∀ k, w.stack k = (u.putPlans plans).stack k :=
    fun k => hw ▸ ((Only.refl [.host] (u.putPlans plans)).keepPlans plans).stack k
  rw [← hw] at hv
  refine ⟨by rw [hv]; exact hkept.run, by rw [hv]; exact hkept.tiles, ?_, by rw [hv], fun k => ?_⟩
  · rw [hv]
    exact congrArg (fun x : Option (BitVec 20) => (x.map (·.toNat)).getD 0) hkept.moduleId
  · rw [hv]
    exact hstacks k

/-- Settles O52. -/
theorem closureAndTransferComplete : Obligations.ClosureAndTransferComplete := by
  unfold Obligations.ClosureAndTransferComplete
  refine ⟨fun s p k s1 h => ?closure, fun s plans moved d c hchange hfirst hstep hdone => ⟨fun e hrecord hdigest hdiffers =>
    ?differs, fun hother htop hnodup => ?transfers⟩, fun s plans moved d hnone => ?none⟩
  case closure =>
    intro n d kind
    have honly := takePacket_only h
    by_cases hkind : kind = 3
    · have hexec : exec (.closure p) s = .next (s1.judgeRecords n (chunks 32 127 (k.payload.drop 32))) := by
        change execClosure p s = _
        simp only [execClosure, h]
        exact if_pos hkind
      exact ⟨_, hexec, fun hne => absurd hkind hne, fun hne => absurd hkind hne, fun _ hne => absurd hkind hne⟩
    · have hexec := exec_closure h hkind
      obtain ⟨u, hu⟩ : ∃ u : State, u = s1.keepTwinDigest n (kind, d) := ⟨_, rfl⟩
      have hexec' : exec (.closure p) s = .next (u.compareClosure n) := by rw [hu]; exact hexec
      have hown : mfind u.pair.ownDigests n = mfind s.pair.ownDigests n := by
        rw [hu]
        exact (congrArg (fun x : PairState => mfind x.ownDigests n) honly.pair :)
      have htwin : mfind u.pair.twinDigests n = some (kind, d) := by rw [hu]; exact mfind_mset_same _ _ _
      have hurun : u.run = s.run := by rw [hu]; exact honly.run
      have hujob : u.runJob = s.runJob := by
        rw [hu]
        exact (runJob_of_only honly :)
      have hclosed : u.pair.closedStep = s.pair.closedStep := by
        rw [hu]
        exact (congrArg PairState.closedStep honly.pair :)
      clear_value n d kind
      refine ⟨_, hexec', fun _ hnone => ?_, fun _ hsame hfree => ?_, fun own _ hsome hdiffers => ?_⟩
      · rw [compareClosure_of_none (hown.trans hnone)]
        exact ⟨htwin, hurun⟩
      · obtain ⟨w, hw, hcompare⟩ := compareClosure_of_both (hown.trans hsame) htwin
        rw [hcompare, if_pos rfl]
        obtain ⟨hrun, hstep⟩ := closePassed_closes (s := w) (t := n) (by rw [hw]; exact (congrArg RunRec.withheld hurun).trans hfree)
        refine ⟨hrun.trans (by rw [hw]; exact hurun), fun hbehind => hstep ?_⟩
        rw [hw]
        change stepBehind u.pair.closedStep n = true
        rw [hclosed, stepBehind]
        simpa using hbehind
      · obtain ⟨w, hw, hcompare⟩ := compareClosure_of_both (hown.trans hsome) htwin
        have hwrun : w.run = s.run := by rw [hw]; exact hurun
        have hwjob : w.runJob = s.runJob := by rw [hw]; exact hujob
        rw [hcompare, if_neg hdiffers]
        obtain ⟨hfailed, hends⟩ := closeFailed_fails w n own d
        rw [hwrun, hwjob, State.runActive, hwrun] at hends
        exact ⟨hfailed, hends⟩
  case differs =>
    obtain ⟨u, v, hu, hv, hexec⟩ := exec_stateTransfer plans moved d hchange hfirst hstep hdone
    obtain ⟨hrun, -⟩ := transferred_keeps hu hv
    rw [if_pos (by simpa [State.transferDiffers, hrecord, hdigest] using hdiffers)] at hexec
    obtain ⟨hidle, hfaults⟩ := raiseHw_ends v hwMigration srcMcb (c.tE.setWidth 64) 0 (digestBytes d)
    rw [hrun, State.runActive, hrun] at hfaults
    exact ⟨_, hexec, hidle, fun hactive => ⟨_, hfaults hactive, rfl⟩⟩
  case transfers =>
    obtain ⟨u, v, hu, hv, hexec⟩ := exec_stateTransfer plans moved d hchange hfirst hstep hdone
    obtain ⟨hrun, htiles, hid, hdone', hstacks⟩ := transferred_keeps hu hv
    have hreport : v.reportTransfer c = v.sendMgmt (c.membership.members.headD v.moduleIdNat) (.transferComplete v.ownRank) := by
      rw [State.reportTransfer]
      exact if_neg (by rw [hid]; exact htop)
    have hkept : Only [.ports, .held] v (v.reportTransfer c) := hreport ▸ (Only.refl _ v).sendMgmt _ _
    rw [if_neg (by simp [State.transferDiffers, hother])] at hexec
    refine ⟨_, hexec, ?_, hkept.tiles.trans htiles, hkept.run.trans hrun, fun k plan hplan => ?_⟩
    · exact (congrArg DomainState.change hkept.domainRest :).trans hdone'
    · rw [hkept.stack, hstacks]
      exact putPlans_named k plan plans u hnodup hplan
  case none =>
    change execStateTransfer plans moved d s = _
    simp only [execStateTransfer, hnone]

end Sys2Proof.Machine
end

section
/-!
PROOFS. Stretches, the target frequency, the datum pulse and the margin policy (R487 to R493, R500 to R503;
TimingRowsComplete, O53).
-/

namespace Sys2Proof.Machine

set_option Elab.async false

theorem State.region_modRegion (s : State) (r : Nat) (f : RegionState → RegionState) :
    (s.modRegion r f).region r = f (s.region r) := mget_mset_same _ _ _ _

theorem State.region_modRegion_other (s : State) {r q : Nat} (f : RegionState → RegionState) (h : q ≠ r) :
    (s.modRegion r f).region q = s.region q := mget_mset_other _ _ _ _ _ h

/-! Stretches. -/

theorem stretchNow_stretch (x : RegionState) (n : Nat) : (x.stretchNow n).stretch = max x.stretch n ∧
    (x.stretchNow n).count = x.count ∧ (x.stretchNow n).deferred = x.deferred := by
  rw [RegionState.stretchNow]
  split
  case isTrue hlt => exact ⟨(max_eq_right hlt.le).symm, rfl, rfl⟩
  case isFalse hge => exact ⟨(max_eq_left (Nat.not_lt.mp hge)).symm, rfl, rfl⟩

theorem stretchOf_le (critical code : Nat) : stretchOf critical code ≤ 4 := by
  rw [stretchOf]
  split
  · exact Nat.zero_le _
  · exact min_le_left _ _

/-- The other regions, of the ten. -/
theorem otherRegions_length : ∀ r : Region, ((List.range 10).filter (fun q => q != r.val)).length = 9 := by decide

/-- A margin code at or below the critical one. -/
theorem exec_replicaMarginStretch {s : State} {r : Region} {codes : List (Fin 64)} {n : Nat} (hclocks : s.clocksRun = true)
    (hn : n = stretchOf s.clock.criticalCode (codes.foldl (fun m c => min m c.val) 63)) (hpos : 0 < n) : ∃ u : State,
    u = s.modRegion r.val (fun x => x.stretchNow n) ∧
      exec (.replicaMarginStretch r codes) s = .next { u with clock := { u.clock with
        tokens := u.clock.tokens ++ ((List.range 10).filter (fun q => q != r.val)).map
          (fun q => (q, (s.region r.val).count.toNat % 16, n)) } } := by
  subst hn
  refine ⟨_, rfl, ?_⟩
  exact if_pos ⟨hclocks, hpos⟩

/-- A token at its region: the period that runs, one to come, or one that is past. -/
theorem takeToken_takes (x : RegionState) (period n : Nat) :
    let lead := (period + 16 - x.count.toNat % 16) % 16
    (lead = 0 → (x.takeToken period n).stretch = max x.stretch n ∧ (x.takeToken period n).deferred = x.deferred) ∧
      (1 ≤ lead → lead ≤ 7 → (x.takeToken period n).stretch = x.stretch ∧
        mget 0 (x.takeToken period n).ahead period = max (mget 0 x.ahead period) n) ∧
      (7 < lead → (x.takeToken period n).stretch = max x.stretch n ∧ (x.takeToken period n).deferred = satInc x.deferred) := by
  intro lead
  obtain ⟨hstretch, -, hdeferred⟩ := stretchNow_stretch x n
  refine ⟨fun hnow => ?_, fun hahead hnear => ?_, fun hpast => ?_⟩
  · rw [RegionState.takeToken]
    exact (if_pos (c := lead = 0) hnow) ▸ ⟨hstretch, hdeferred⟩
  · have htake : x.takeToken period n = x.stretchAhead period n :=
      (if_neg (c := lead = 0) (by omega)).trans (if_pos (c := lead ≤ 7) hnear)
    rw [htake]
    exact ⟨rfl, mget_mset_same _ _ _ _⟩
  · have htake : x.takeToken period n = { x.stretchNow n with deferred := satInc x.deferred } :=
      (if_neg (c := lead = 0) (by omega)).trans (if_neg (c := lead ≤ 7) (by omega))
    rw [htake]
    exact ⟨hstretch, rfl⟩

/-! The datum. -/

/-- A region that starts period 0. -/
def RegionState.restart (x : RegionState) : RegionState := { x with count := 0, stretch := 0, ahead := [] }

theorem region_restart (r : Nat) (regions : SMap RegionState) :
    (mget RegionState.reset (regions.map (fun e => (e.1, e.2.restart))) r).count = 0 ∧
      (mget RegionState.reset (regions.map (fun e => (e.1, e.2.restart))) r).stretch = 0 := by
  rw [mget, mfind_map RegionState.restart regions r]
  cases mfind regions r <;> exact ⟨rfl, rfl⟩

/-! The margin policy. -/

/-- A rail at another voltage. -/
def State.setRail (s : State) (d v : Nat) : State := { s with clock := { s.clock with rails := mset s.clock.rails d v } }

theorem State.rail_setRail (s : State) (d v : Nat) : (s.setRail d v).rail d = v := mget_mset_same _ _ _ _

theorem State.rail_setRail_other (s : State) {d e : Nat} (v : Nat) (h : e ≠ d) : (s.setRail d v).rail e = s.rail e :=
  mget_mset_other _ _ _ _ _ h

/-- States that differ in the voltages of the rails alone. -/
def SameButRails (s t : State) : Prop := t = { s with clock := { s.clock with rails := t.clock.rails } }

theorem SameButRails.refl (s : State) : SameButRails s s := rfl

theorem SameButRails.setRail {s t : State} {d v : Nat} (h : SameButRails (s.setRail d v) t) : SameButRails s t := h

/-- A rail is short and may still be raised. -/
def State.mayRaise (s : State) (r : MarginReading) (d : Nat) : Prop :=
  railShort r d = true ∧ s.rail d < Config.railMax s.mgp.calStore d s.clock.base

theorem raiseRails_raises (r : MarginReading) (l : List Nat) : ∀ s : State, l.Nodup →
    SameButRails s (s.raiseRails r l).1 ∧ (∀ d, d ∉ l → (s.raiseRails r l).1.rail d = s.rail d) ∧
      (∀ d, d ∈ l → s.mayRaise r d → (s.raiseRails r l).1.rail d = s.rail d + 1) ∧
      ∀ d, ¬ s.mayRaise r d → (s.raiseRails r l).1.rail d = s.rail d := by
  induction l with
  | nil => exact fun s _ => ⟨SameButRails.refl s, fun _ _ => rfl, fun _ h => absurd h List.not_mem_nil, fun _ _ => rfl⟩
  | cons e rest ih =>
    intro s hnodup
    obtain ⟨he, hrest⟩ := List.nodup_cons.mp hnodup
    by_cases hmay : s.mayRaise r e
    · have hstep : s.raiseRails r (e :: rest) = (s.setRail e (s.rail e + 1)).raiseRails r rest := by
        rw [State.raiseRails, if_pos hmay.1, if_pos hmay.2]
        rfl
      obtain ⟨hsame, hout, hin, hnot⟩ := ih (s.setRail e (s.rail e + 1)) hrest
      have hsetOther : ∀ d, d ≠ e → ((s.setRail e (s.rail e + 1)).mayRaise r d ↔ s.mayRaise r d) := fun d hd => by
        rw [State.mayRaise, State.mayRaise, State.rail_setRail_other s _ hd]
        rfl
      rw [hstep]
      refine ⟨hsame.setRail, fun d hd => ?_, fun d hd hmayd => ?_, fun d hmayd => ?_⟩
      · obtain ⟨hde, hdr⟩ := not_or.mp (fun h => hd (List.mem_cons.mpr h))
        rw [hout d hdr, State.rail_setRail_other s _ hde]
      · obtain rfl | hdr := List.mem_cons.mp hd
        · rw [hout d he, State.rail_setRail]
        · have hde : d ≠ e := fun h => he (h ▸ hdr)
          rw [hin d hdr ((hsetOther d hde).mpr hmayd), State.rail_setRail_other s _ hde]
      · have hde : d ≠ e := fun h => hmayd (h ▸ hmay)
        rw [hnot d (fun h => hmayd ((hsetOther d hde).mp h)), State.rail_setRail_other s _ hde]
    · have hstep : (s.raiseRails r (e :: rest)).1 = (s.raiseRails r rest).1 := by
        rw [State.raiseRails]
        split
        case isTrue hshort => rw [if_neg (fun hlt => hmay ⟨hshort, hlt⟩)]
        case isFalse => rfl
      obtain ⟨hsame, hout, hin, hnot⟩ := ih s hrest
      rw [hstep]
      refine ⟨hsame, fun d hd => hout d (fun h => hd (List.mem_cons_of_mem _ h)), fun d hd hmayd => ?_, hnot⟩
      obtain rfl | hdr := List.mem_cons.mp hd
      · exact absurd hmayd hmay
      · exact hin d hdr hmayd

/-- Where no rail is short none is raised. -/
theorem raiseRails_none {r : MarginReading} {l : List Nat} (h : ∀ d ∈ l, railShort r d = false) (s : State) :
    s.raiseRails r l = (s, false) := by
  induction l with
  | nil => rfl
  | cons e rest ih =>
    rw [State.raiseRails, if_neg (by rw [h e List.mem_cons_self]; decide)]
    exact ih (fun d hd => h d (List.mem_cons_of_mem _ hd))

theorem lowerRails_lowers (l : List Nat) : ∀ s : State, l.Nodup → SameButRails s (s.lowerRails l) ∧
    (∀ d, d ∉ l → (s.lowerRails l).rail d = s.rail d) ∧
      ∀ d, d ∈ l → (s.lowerRails l).rail d =
        if Config.railMin s.mgp.calStore d s.clock.base < s.rail d then s.rail d - 1 else s.rail d := by
  induction l with
  | nil => exact fun s _ => ⟨SameButRails.refl s, fun _ _ => rfl, fun _ h => absurd h List.not_mem_nil⟩
  | cons e rest ih =>
    intro s hnodup
    obtain ⟨he, hrest⟩ := List.nodup_cons.mp hnodup
    obtain ⟨u, hu⟩ : ∃ u, u = if Config.railMin s.mgp.calStore e s.clock.base < s.rail e then s.setRail e (s.rail e - 1) else s :=
      ⟨_, rfl⟩
    have hstep : s.lowerRails (e :: rest) = u.lowerRails rest := by rw [hu]; rfl
    obtain ⟨hsame, hout, hin⟩ := ih u hrest
    have husame : ∃ l, u = { s with clock := { s.clock with rails := l } } := by
      rw [hu]
      split
      · exact ⟨_, rfl⟩
      · exact ⟨s.clock.rails, rfl⟩
    have huself : u.rail e = if Config.railMin s.mgp.calStore e s.clock.base < s.rail e then s.rail e - 1 else s.rail e := by
      rw [hu]
      split
      · exact State.rail_setRail _ _ _
      · rfl
    have huother : ∀ d, d ≠ e → u.rail d = s.rail d := fun d hd => by
      rw [hu]
      split
      · exact State.rail_setRail_other s _ hd
      · rfl
    obtain ⟨v, hv⟩ := husame
    rw [hstep]
    refine ⟨?_, fun d hd => ?_, fun d hd => ?_⟩
    · rw [SameButRails, hv] at hsame
      exact hv ▸ hsame
    · obtain ⟨hde, hdr⟩ := not_or.mp (fun h => hd (List.mem_cons.mpr h))
      rw [hout d hdr, huother d hde]
    · obtain rfl | hdr := List.mem_cons.mp hd
      · rw [hout d he, huself]
      · have hde : d ≠ e := fun h => he (h ▸ hdr)
        rw [hin d hdr, huother d hde, hv]

/-- A request for a higher base leaves the rails, and the base that is coming is no lower. -/
theorem raiseBase_raises (s : State) : (∀ d, s.raiseBase.rail d = s.rail d) ∧ s.comingBase ≤ s.raiseBase.comingBase ∧
    s.raiseBase.tiles = s.tiles ∧ s.raiseBase.run = s.run ∧ s.raiseBase.mgp = s.mgp := by
  rw [State.raiseBase]
  split
  · exact ⟨fun _ => rfl, le_refl _, rfl, rfl, rfl⟩
  · exact ⟨fun _ => rfl, le_max_left _ _, rfl, rfl, rfl⟩

/-- The margin policy's request leaves the rails, and the base that is coming is no lower. -/
theorem marginRaise_raises (s : State) : (∀ d, s.marginRaise.rail d = s.rail d) ∧ s.comingBase ≤ s.marginRaise.comingBase ∧
    s.marginRaise.tiles = s.tiles ∧ s.marginRaise.run = s.run ∧ s.marginRaise.mgp.marginRing = s.mgp.marginRing := by
  rw [State.marginRaise]
  split
  · obtain ⟨u, hu⟩ : ∃ u : State, u = { s with clock := { s.clock with marginCapped := false } } := ⟨_, rfl⟩
    have hkept : (∀ d, u.rail d = s.rail d) ∧ u.comingBase = s.comingBase ∧ u.tiles = s.tiles ∧ u.run = s.run ∧ u.mgp = s.mgp := by
      rw [hu]
      exact ⟨fun _ => rfl, rfl, rfl, rfl, rfl⟩
    obtain ⟨hurail, hubase, hutiles, hurun, humgp⟩ := hkept
    obtain ⟨hrail, hbase, htiles, hrun, hmgp⟩ := raiseBase_raises u
    rw [← hu]
    exact ⟨fun d => (hrail d).trans (hurail d), hubase ▸ hbase, htiles.trans hutiles, hrun.trans hurun,
      (congrArg MgpState.marginRing hmgp).trans (congrArg MgpState.marginRing humgp)⟩
  · split
    · exact ⟨fun _ => rfl, le_refl _, rfl, rfl, rfl⟩
    · obtain ⟨u, hu⟩ : ∃ u : State, u = { s with clock := { s.clock with marginCapped := true } } := ⟨_, rfl⟩
      have hevent : Only [.replies, .log] u (u.event evMarginCapped srcClk (leBytes 1 s.clock.base)) := (Only.refl _ u).event _ _ _
      have hmgp := hevent .mgp (by decide)
      rw [← hu]
      refine ⟨fun d => ?_, ?_, hevent.tiles.trans (by rw [hu]), hevent.run.trans (by rw [hu]),
        (congrArg MgpState.marginRing hmgp :).trans (by rw [hu]; rfl)⟩
      · exact (congrArg (fun c : ClockState => mget 0 c.rails d) hevent.clock).trans (by rw [hu]; rfl)
      · refine le_of_eq (Eq.symm ?_)
        exact (congrArg (fun c : ClockState => ((c.nextBase).map (·.1)).getD c.base) hevent.clock).trans (by rw [hu])

/-- The state with another count of quiet windows and another ring of them. -/
def State.withWindows (s : State) (quiet : Nat) (ring : List Bytes) : State :=
  { s with
    clock := { s.clock with quietWindows := quiet }
    mgp := { s.mgp with marginRing := ring } }

/-- A window of the margin policy is noted before the rails are judged. -/
def State.noteWindow (s : State) (r : MarginReading) : State :=
  s.withWindows (if r.stretched.all (fun n => n == 0) then s.clock.quietWindows + 1 else 0)
    (ringPush s.mgp.marginRing (s.marginEntry r))

/-- A window of a module whose firmware has started. -/
theorem exec_marginPolicy {s : State} {r : MarginReading} (hclocks : s.clocksRun = true) (hbooted : s.sec.booted = true) :
    ∃ u : State, u = { ((s.noteWindow r).raiseRails r (List.range 9)).1 with
        clock := { ((s.noteWindow r).raiseRails r (List.range 9)).1.clock with marginCapped := false } } ∧
      exec (.marginPolicy r) s =
        if ((s.noteWindow r).raiseRails r (List.range 9)).2 then
          .next ((s.noteWindow r).raiseRails r (List.range 9)).1.marginRaise
        else if (List.range 9).any (railShort r) then .next u
        else if (r.codes.take 32).all (fun c => decide (20 ≤ c.val)) ∧
            1000 ≤ (if r.stretched.all (fun n => n == 0) then s.clock.quietWindows + 1 else 0) then
          if u.clock.target < u.clock.base then .next (if u.overCap then u else u.lowerBase)
          else .next (u.lowerRails (List.range 9))
        else .next u := by
  refine ⟨_, rfl, ?_⟩
  change execMarginPolicy r s = _
  rw [execMarginPolicy, if_neg (by simp [hclocks, hbooted])]
  rfl

/-- A window changes, but for the rails, the base that is coming and the ring, nothing of what a program sees. -/
structure WindowTaken (s : State) (r : MarginReading) (t : State) : Prop where
  ring : t.mgp.marginRing = ringPush s.mgp.marginRing (s.marginEntry r)
  tiles : t.tiles = s.tiles
  run : t.run = s.run

/-- What raising the rails leaves once a window is noted. -/
theorem withWindows_sameButRails {s u : State} {quiet : Nat} {ring : List Bytes} (h : SameButRails (s.withWindows quiet ring) u) :
    (u.mgp.marginRing = ring ∧ u.tiles = s.tiles ∧ u.run = s.run) ∧
      u.comingBase = s.comingBase ∧ u.clock.target = s.clock.target ∧ u.clock.base = s.clock.base ∧
      u.mgp.calStore = s.mgp.calStore := by
  obtain ⟨l, rfl⟩ : ∃ l, u = { s.withWindows quiet ring with clock := { (s.withWindows quiet ring).clock with rails := l } } :=
    ⟨_, h⟩
  exact ⟨⟨rfl, rfl, rfl⟩, rfl, rfl, rfl, rfl⟩

theorem withWindows_mayRaise (s : State) (r : MarginReading) (quiet : Nat) (ring : List Bytes) (d : Nat) :
    (s.withWindows quiet ring).mayRaise r d ↔ s.mayRaise r d := Iff.rfl

/-- What a rail may be raised by does not change with the note of a window. -/
theorem noteWindow_mayRaise (s : State) (r : MarginReading) (d : Nat) : (s.noteWindow r).mayRaise r d ↔ s.mayRaise r d :=
  withWindows_mayRaise s r _ _ d

/-- What raising the rails after a window leaves. -/
theorem raisedWindow {s u : State} {r : MarginReading} (h : SameButRails (s.noteWindow r) u) :
    WindowTaken s r u ∧ u.comingBase = s.comingBase ∧ u.clock.target = s.clock.target ∧ u.clock.base = s.clock.base ∧
      u.mgp.calStore = s.mgp.calStore := by
  obtain ⟨⟨hring, htiles, hrun⟩, hrest⟩ := withWindows_sameButRails h
  exact ⟨⟨hring, htiles, hrun⟩, hrest⟩

/-- A request for a lower base leaves the ring, the tiles and the run. -/
theorem lowerBase_keeps (s : State) : s.lowerBase.mgp = s.mgp ∧ s.lowerBase.tiles = s.tiles ∧ s.lowerBase.run = s.run := by
  rw [State.lowerBase]
  split <;> exact ⟨rfl, rfl, rfl⟩

/-- The margin policy. -/
theorem marginPolicy_completes (s : State) (r : MarginReading) (hclocks : s.clocksRun = true) (hbooted : s.sec.booted = true) :
    ∃ t, exec (.marginPolicy r) s = .next t ∧ WindowTaken s r t ∧
      ((∃ d, d < 9 ∧ railShort r d = true) → s.comingBase ≤ t.comingBase ∧
        ∀ d, t.rail d = ((s.noteWindow r).raiseRails r (List.range 9)).1.rail d) ∧
      ((∀ d, d < 9 → railShort r d = false) → (∀ c ∈ r.codes.take 32, 20 ≤ c.val) → (∀ n ∈ r.stretched, n = 0) →
        999 ≤ s.clock.quietWindows → s.clock.base ≤ s.clock.target → ∀ d, d < 9 →
        t.rail d = (if Config.railMin s.mgp.calStore d s.clock.base < s.rail d then s.rail d - 1 else s.rail d)) := by
  obtain ⟨u, hu, hexec⟩ := exec_marginPolicy (r := r) hclocks hbooted
  have hnone : (∀ d, d < 9 → railShort r d = false) →
      (s.noteWindow r).raiseRails r (List.range 9) = (s.noteWindow r, false) :=
    fun h => raiseRails_none (fun d hd => h d (List.mem_range.mp hd)) _
  obtain ⟨hsame, -⟩ := raiseRails_raises r (List.range 9) (s.noteWindow r) List.nodup_range
  generalize (s.noteWindow r).raiseRails r (List.range 9) = p at hu hexec hnone hsame ⊢
  obtain ⟨v, full⟩ := p
  obtain ⟨⟨hring, htiles, hrun⟩, hcoming, htarget, hbase, hcal⟩ := raisedWindow hsame
  change u = { v with clock := { v.clock with marginCapped := false } } at hu
  have hutaken : WindowTaken s r u := ⟨by rw [hu]; exact hring, by rw [hu]; exact htiles, by rw [hu]; exact hrun⟩
  have hucoming : u.comingBase = s.comingBase := by rw [hu]; exact hcoming
  have hurail : ∀ d, u.rail d = v.rail d := fun d => by rw [hu]; rfl
  have hutarget : u.clock.target = s.clock.target := by rw [hu]; exact htarget
  have hubase : u.clock.base = s.clock.base := by rw [hu]; exact hbase
  have hucal : u.mgp.calStore = s.mgp.calStore := by rw [hu]; exact hcal
  cases full with
  | true =>
    obtain ⟨hrail, hraise, hmtiles, hmrun, hmring⟩ := marginRaise_raises v
    refine ⟨_, hexec, ⟨hmring.trans hring, hmtiles.trans htiles, hmrun.trans hrun⟩,
      fun _ => ⟨hcoming ▸ hraise, hrail⟩, fun h => ?_⟩
    exact absurd (show true = false from congrArg Prod.snd (hnone h)) (by decide)
  | false =>
    rw [if_neg (show ¬ (false = true) by decide)] at hexec
    by_cases hshort : (List.range 9).any (railShort r) = true
    · rw [if_pos hshort] at hexec
      refine ⟨u, hexec, hutaken, fun _ => ⟨hucoming.ge, hurail⟩, fun h => ?_⟩
      obtain ⟨d, hd, hshortd⟩ := List.any_eq_true.mp hshort
      exact absurd (hshortd.symm.trans (h d (List.mem_range.mp hd))) (by decide)
    · rw [if_neg hshort] at hexec
      have hno : ¬ ∃ d, d < 9 ∧ railShort r d = true :=
        fun ⟨d, hd, hshortd⟩ => hshort (List.any_eq_true.mpr ⟨d, List.mem_range.mpr hd, hshortd⟩)
      by_cases hwide : (r.codes.take 32).all (fun c => decide (20 ≤ c.val)) = true ∧
          1000 ≤ (if r.stretched.all (fun n => n == 0) then s.clock.quietWindows + 1 else 0)
      · rw [if_pos hwide] at hexec
        by_cases hlower : u.clock.target < u.clock.base
        · rw [if_pos hlower] at hexec
          refine ⟨_, hexec, ?_, fun h => absurd h hno, fun _ _ _ _ hle => absurd hlower (by omega)⟩
          obtain ⟨hlmgp, hltiles, hlrun⟩ := lowerBase_keeps u
          split
          · exact hutaken
          · exact ⟨(congrArg MgpState.marginRing hlmgp).trans hutaken.ring, hltiles.trans hutaken.tiles, hlrun.trans hutaken.run⟩
        · rw [if_neg hlower] at hexec
          obtain ⟨hsameL, -, hlowers⟩ := lowerRails_lowers (List.range 9) u List.nodup_range
          refine ⟨_, hexec, ?_, fun h => absurd h hno, fun hquiet _ _ _ _ d hd => ?_⟩
          · obtain ⟨l, hl⟩ : ∃ l, u.lowerRails (List.range 9) = { u with clock := { u.clock with rails := l } } := ⟨_, hsameL⟩
            rw [hl]
            exact ⟨hutaken.ring, hutaken.tiles, hutaken.run⟩
          · have hsrail : u.rail d = s.rail d := by
              rw [hurail, show v = s.noteWindow r from congrArg Prod.fst (hnone hquiet)]
              rfl
            rw [hlowers d (List.mem_range.mpr hd), hucal, hubase, hsrail]
      · rw [if_neg hwide] at hexec
        refine ⟨u, hexec, hutaken, fun h => absurd h hno, fun _ hcodes hstretched hwindows _ => absurd ⟨?_, ?_⟩ hwide⟩
        · exact List.all_eq_true.mpr (fun c hc => decide_eq_true (hcodes c hc))
        · rw [if_pos (List.all_eq_true.mpr (fun n hn => by simp [hstretched n hn]))]
          omega

/-- Settles O53. -/
theorem timingRowsComplete : Obligations.TimingRowsComplete := by
  unfold Obligations.TimingRowsComplete
  refine ⟨fun s hclocks => ⟨fun r codes => ?stretch, fun r period n hmem => ?token⟩, fun s => ⟨fun b first hclocks hlow hhigh hlead =>
    ?target, fun b first hnext hclocks hdue => ?base, fun hreset href hunlocked hneeds => ?lock, fun hneeds => ?unlocked,
    fun hclocks hreq hidle => ?datum, fun r hclocks hbooted => ?margin⟩⟩
  case stretch =>
    intro n
    refine ⟨fun hzero => ?_, fun hpos => ⟨stretchOf_le _ _, ?_⟩⟩
    · exact if_neg (fun h => absurd h.2 (by change ¬ 0 < n; omega))
    · obtain ⟨u, hu, hexec⟩ := exec_replicaMarginStretch (n := n) hclocks rfl hpos
      have hlen : ((List.range 10).filter (fun q => q != r.val)).length = 9 := otherRegions_length r
      have hutokens : u.clock.tokens = s.clock.tokens := by rw [hu]; rfl
      obtain ⟨hstretch, hcount, -⟩ := stretchNow_stretch (s.region r.val) n
      refine ⟨_, hexec, ?_, ?_, fun q hq => ⟨?_, ?_⟩, ?_, by rw [hu]; rfl, by rw [hu]; rfl⟩
      · change (u.region r.val).stretch = _
        rw [hu, State.region_modRegion, hstretch]
      · change (u.region r.val).count = _
        rw [hu, State.region_modRegion, hcount]
      · change u.region q.val = _
        rw [hu, State.region_modRegion_other _ _ (fun h => hq (Fin.ext h))]
      · refine List.mem_append_right _ (List.mem_map.mpr ⟨q.val, List.mem_filter.mpr ⟨List.mem_range.mpr q.isLt, ?_⟩, rfl⟩)
        exact bne_iff_ne.mpr (fun h => hq (Fin.ext h))
      · rw [List.length_append, List.length_map, hlen, hutokens]
  case token =>
    intro x lead
    obtain ⟨u, hu⟩ : ∃ u : State, u = { s with clock :=
      { s.clock with tokens := s.clock.tokens.erase (r.val, period.val, n.val) } } := ⟨_, rfl⟩
    have hexec : exec (.stretchToken r period n) s = .next (u.modRegion r.val (fun x => x.takeToken period.val n.val)) := by
      rw [hu]
      exact if_pos ⟨hclocks, hmem⟩
    have hregion : ∀ q, u.region q = s.region q := fun q => by rw [hu]; rfl
    obtain ⟨hnow, hahead, hpast⟩ := takeToken_takes x period.val n.val
    refine ⟨_, hexec, by rw [hu]; rfl, fun q hq => ?_, by rw [hu]; rfl, ?_⟩
    · rw [State.region_modRegion_other _ _ (fun h => hq (Fin.ext h)), hregion]
    · rw [State.region_modRegion, hregion]
      exact ⟨hnow, hahead, hpast⟩
  case target => exact if_pos ⟨hclocks, hlow, hhigh, hlead⟩
  case base =>
    have hturn : s.turnBase = { s with clock := { s.clock with base := b, nextBase := none } } := by
      simp only [State.turnBase, hnext]
      exact if_pos hdue
    exact (if_pos hclocks).trans (congrArg Host.Outcome.next hturn)
  case lock => exact if_pos ⟨hreset, href, hunlocked, hneeds⟩
  case unlocked => exact if_neg (fun h => absurd (h.2.2.2.symm.trans hneeds) (by decide))
  case datum =>
    refine ⟨_, if_pos ⟨hclocks, hreq, hidle⟩, rfl, fun r => region_restart r.val s.clock.regions, rfl, rfl, rfl, rfl, rfl,
      fun hfresh => if_pos hfresh, fun hold => if_neg (by rw [hold]; decide)⟩
  case margin =>
    obtain ⟨t, hexec, ⟨hring, htiles, hrun⟩, hshort, hlower⟩ := marginPolicy_completes s r hclocks hbooted
    obtain ⟨-, -, hraised, hkept⟩ := raiseRails_raises r (List.range 9) (s.noteWindow r) List.nodup_range
    refine ⟨t, hexec, hring, htiles, hrun, fun d hd hshortd hbelow => ?_, fun d hd hshortd hfull => ?_, hlower⟩
    · rw [(hshort ⟨d, hd, hshortd⟩).2 d]
      exact hraised d (List.mem_range.mpr hd) ((noteWindow_mayRaise s r d).mpr ⟨hshortd, hbelow⟩)
    · obtain ⟨hcoming, hrail⟩ := hshort ⟨d, hd, hshortd⟩
      exact ⟨(hrail d).trans (hkept d (fun hmay => absurd ((noteWindow_mayRaise s r d).mp hmay).2 (Nat.not_lt.mpr hfull))), hcoming⟩

end Sys2Proof.Machine
end

section
/-!
PROOFS. Temperature, input power, the supply and the log (R562, R563, R573, R578 to R580; PoliciesComplete, O54).
-/

namespace Sys2Proof.Machine

set_option Elab.async false

/-! The temperature policy. -/

/-- The state with the readings of a window, and another ring of them. -/
def State.withReadings (s : State) (r : ThermalReading) (ring : List Bytes) : State :=
  { s with
    power := { s.power with tileMax := r.tileMax, hbmMax := r.stackMax }
    mgp := { s.mgp with powerRing := ring } }

/-- A window of the temperature policy, by what firmware is in and what it reads. -/
theorem exec_thermalPolicy {s : State} (hup : s.fwUp = true) (r : ThermalReading) : ∃ (ring : List Bytes) (u : State),
    u = s.withReadings r ring ∧ exec (.thermalPolicy r) s =
      if s.mgp.thermalOff then
        if thermalSafe r then .next ({ u with mgp := { u.mgp with thermalOff := false } }).railsOn else .next u
      else if thermalOver r then .next (u.overheat r)
      else if thermalHot r then .next (u.throttle r)
      else if thermalCool r then .next (u.release r)
      else .next { u with mgp := { u.mgp with coolWindows := 0 } } := by
  refine ⟨ringPush s.mgp.powerRing (s.powerEntry r), _, rfl, ?_⟩
  exact if_pos hup

/-- Ending a run, if one is active, with a hardware fault. -/
theorem stopRun_stops (s : State) (code : BitVec 16) (detail : Nat) :
    (s.stopRun code detail).run.state = .idle ∧
      (s.runActive = true → ∃ f, (s.stopRun code detail).run.faults = s.run.faults ++ [f] ∧ f.code = code) := by
  rw [State.stopRun]
  by_cases hrun : s.runActive = true
  · obtain ⟨hidle, hfaults⟩ := raiseHw_ends s code srcPwr 0 (BitVec.ofNat 64 detail) []
    rw [if_pos hrun]
    exact ⟨hidle, fun h => ⟨_, hfaults h, rfl⟩⟩
  · rw [if_neg hrun]
    refine ⟨?_, fun h => absurd h hrun⟩
    cases hstate : s.run.state
    case idle => rfl
    all_goals exact absurd (by rw [State.runActive, hstate]; rfl) hrun

/-- Over the limit the run ends with a fault, and the rails go off. -/
theorem overheat_stops (s : State) (r : ThermalReading) : (s.overheat r).mgp.thermalOff = true ∧
    (s.overheat r).power.computeDies = false ∧ (s.overheat r).power.hbmRails = false ∧ (s.overheat r).run.state = .idle ∧
    (s.runActive = true → ∃ f, (s.overheat r).run.faults = s.run.faults ++ [f] ∧ f.code = 0x010D) := by
  obtain ⟨hidle, hfaults⟩ := stopRun_stops s hwTemp (leNat (thermalPayload r))
  exact ⟨rfl, rfl, rfl, hidle, hfaults⟩

/-- A request for a higher base where none is under way. -/
theorem raiseBase_asks {s : State} (hnone : s.clock.nextBase = none) (hlow : s.clock.base < 12) :
    s.raiseBase = s.askBase (s.clock.base + 1) := by
  have hcoming : s.comingBase = s.clock.base := by rw [State.comingBase, hnone]; rfl
  have hmax : max s.clock.base (min 12 (s.clock.base + 1)) = s.clock.base + 1 := by omega
  rw [State.raiseBase, hcoming, hmax]
  exact if_neg (by omega)

/-- The highest count is that of the regions. -/
theorem highestCount_of_regions {s t : State} (h : t.clock.regions = s.clock.regions) : t.highestCount = s.highestCount := by
  have hregion : ∀ r, t.region r = s.region r := fun r => congrArg (fun m => mget RegionState.reset m r) h
  simp only [State.highestCount, hregion]

/-- A module that is hot throttles. -/
theorem throttle_throttles (s : State) (r : ThermalReading) : Only [.clock, .replies, .log, .mgp] s (s.throttle r) ∧
    (s.throttle r).mgp.throttling = true ∧
    (s.clock.nextBase = none → s.clock.base < 12 →
      (s.throttle r).clock.nextBase = some (s.clock.base + 1, BitVec.ofNat 64 (s.highestCount + 64))) := by
  have honly : Only [.clock, .replies, .log, .mgp] s (s.throttle r) := (Only.refl _ s).throttle r
  refine ⟨honly, ?_⟩
  obtain ⟨u, hu⟩ : ∃ u, u = if s.mgp.throttling then s else s.event evThermalThrottle srcPwr (thermalPayload r) := ⟨_, rfl⟩
  have huclock : u.clock = s.clock := by
    rw [hu]
    split
    · rfl
    · exact ((Only.refl [.replies, .log] s).event _ _ _).clock
  obtain ⟨v, hv⟩ : ∃ v : State, v = { u with mgp := { u.mgp with throttling := true, releasing := false, coolWindows := 0 } } :=
    ⟨_, rfl⟩
  have hthrottle : s.throttle r = v.raiseBase := by rw [hv, hu]; rfl
  have hvclock : v.clock = s.clock := by rw [hv]; exact huclock
  rw [hthrottle]
  refine ⟨?_, fun hnone hlow => ?_⟩
  · rw [(raiseBase_raises v).2.2.2.2, hv]
  · rw [raiseBase_asks (hvclock ▸ hnone) (hvclock ▸ hlow), State.askBase,
      highestCount_of_regions (congrArg ClockState.regions hvclock), hvclock]

/-- A module that has cooled releases its throttling. -/
theorem release_releases (s : State) (r : ThermalReading) (hthrottling : s.mgp.throttling = true) :
    (s.release r).mgp.throttling = false ∧ (s.release r).run = s.run ∧ (s.release r).clock = s.clock := by
  obtain ⟨v, hv⟩ : ∃ v : State, v = { s with mgp := { s.mgp with throttling := false, releasing := true, coolWindows := 0 } } :=
    ⟨_, rfl⟩
  obtain ⟨u, hu⟩ : ∃ u, u = v.event evThermalRelease srcPwr (thermalPayload r) := ⟨_, rfl⟩
  have honly : Only [.replies, .log] v u := hu ▸ (Only.refl _ v).event _ _ _
  have hrest := honly.mgpRest
  have hrun : u.run = s.run := honly.run.trans (by rw [hv])
  have hclock : u.clock = s.clock := honly.clock.trans (by rw [hv])
  have hnot : u.mgp.throttling = false := (congrArg MgpState.throttling hrest :).trans (by rw [hv]; rfl)
  have hreleasing : u.mgp.releasing = true := (congrArg MgpState.releasing hrest :).trans (by rw [hv]; rfl)
  have hcool : u.mgp.coolWindows = 0 := (congrArg MgpState.coolWindows hrest :).trans (by rw [hv]; rfl)
  have hrelease : s.release r =
      if u.clock.base ≤ u.clock.target then { u with mgp := { u.mgp with releasing := false, coolWindows := 0 } }
      else { u with mgp := { u.mgp with coolWindows := u.mgp.coolWindows + 1 } } := by
    rw [State.release, if_pos hthrottling, ← hv, ← hu]
    dsimp only
    rw [if_pos hreleasing, hcool]
    rfl
  rw [hrelease]
  split <;> exact ⟨hnot, hrun, hclock⟩

/-- The rails come up again, where they were off. -/
theorem railsOn_on {s : State} (hcool : s.mgp.thermalOff = false) (hsupply : s.power.supply ≠ .halting) :
    s.railsOn.mgp = s.mgp ∧
      (s.power.computeDies = false → s.railsOn.power.computeDies = true ∧ s.railsOn.power.hbmRails = true) := by
  refine ⟨((Only.refl [.hbm, .stackMap, .power] s).railsOn).mgp, fun hoff => ?_⟩
  rw [State.railsOn, if_pos ⟨hcool, hsupply, .inl hoff⟩]
  obtain ⟨u, hu⟩ : ∃ u : State, u = { s with power := { s.power with computeDies := true, hbmRails := true } } := ⟨_, rfl⟩
  have hpower := ((Only.refl [.hbm, .stackMap] u).trainStacks).power
  rw [← hu, hpower, hu]
  exact ⟨rfl, rfl⟩

/-- The temperature policy in each of its cases. -/
theorem thermalPolicy_completes {s : State} (hup : s.fwUp = true) (r : ThermalReading) :
    (s.mgp.thermalOff = false → 1680 ≤ r.tileMax ∨ 1520 ≤ r.stackMax →
      ∃ t, exec (.thermalPolicy r) s = .next t ∧ t.mgp.thermalOff = true ∧ t.power.computeDies = false ∧
        t.power.hbmRails = false ∧ t.run.state = .idle ∧
        (s.runActive = true → ∃ f, t.run.faults = s.run.faults ++ [f] ∧ f.code = 0x010D)) ∧
    (s.mgp.thermalOff = false → r.tileMax < 1680 → r.stackMax < 1520 →
      (1520 ≤ r.tileMax ∨ 1440 ≤ r.stackMax) → ∃ t, exec (.thermalPolicy r) s = .next t ∧ t.mgp.throttling = true ∧
        t.power.tileMax = r.tileMax ∧ t.power.hbmMax = r.stackMax ∧ t.run = s.run ∧ t.mem = s.mem ∧
        (s.clock.nextBase = none → s.clock.base < 12 →
          t.clock.nextBase = some (s.clock.base + 1, BitVec.ofNat 64 (s.highestCount + 64)))) ∧
    (s.mgp.thermalOff = false → r.tileMax < 1440 → r.stackMax < 1360 → s.mgp.throttling = true →
      ∃ t, exec (.thermalPolicy r) s = .next t ∧ t.mgp.throttling = false ∧ t.run = s.run ∧ t.clock = s.clock) ∧
    (s.mgp.thermalOff = true → r.tileMax < 1360 → r.stackMax < 1280 → s.power.supply ≠ .halting →
      ∃ t, exec (.thermalPolicy r) s = .next t ∧ t.mgp.thermalOff = false ∧
        (s.power.computeDies = false → t.power.computeDies = true ∧ t.power.hbmRails = true)) := by
  obtain ⟨ring, u, hu, hexec⟩ := exec_thermalPolicy hup r
  have hoverIff : thermalOver r = true ↔ 1680 ≤ r.tileMax ∨ 1520 ≤ r.stackMax := by simp [thermalOver]
  have hhotIff : thermalHot r = true ↔ 1520 ≤ r.tileMax ∨ 1440 ≤ r.stackMax := by simp [thermalHot]
  have hcoolIff : thermalCool r = true ↔ r.tileMax < 1440 ∧ r.stackMax < 1360 := by simp [thermalCool]
  have hsafeIff : thermalSafe r = true ↔ r.tileMax < 1360 ∧ r.stackMax < 1280 := by simp [thermalSafe]
  refine ⟨fun hon hover => ?_, fun hon htile hstack hhot => ?_, fun hon htile hstack hthrottling => ?_,
    fun hoff htile hstack hsupply => ?_⟩
  · rw [if_neg (by rw [hon]; decide), if_pos (hoverIff.mpr hover)] at hexec
    have hstops := overheat_stops u r
    rw [hu] at hstops
    exact ⟨_, hexec, hu ▸ hstops⟩
  · rw [if_neg (by rw [hon]; decide), if_neg (fun h => by have := hoverIff.mp h; omega), if_pos (hhotIff.mpr hhot)] at hexec
    obtain ⟨honly, hthrottling, hbase⟩ := throttle_throttles u r
    refine ⟨_, hexec, hthrottling, ?_, ?_, honly.run.trans (by rw [hu]; rfl), honly.mem.trans (by rw [hu]; rfl), ?_⟩
    · exact (congrArg PowerState.tileMax honly.power :).trans (by rw [hu]; rfl)
    · exact (congrArg PowerState.hbmMax honly.power :).trans (by rw [hu]; rfl)
    · have hclock : u.clock = s.clock := by rw [hu]; rfl
      rw [hclock, highestCount_of_regions (congrArg ClockState.regions hclock)] at hbase
      exact hbase
  · rw [if_neg (by rw [hon]; decide), if_neg (fun h => by have := hoverIff.mp h; omega),
      if_neg (fun h => by have := hhotIff.mp h; omega), if_pos (hcoolIff.mpr ⟨htile, hstack⟩)] at hexec
    obtain ⟨hnot, hrun, hclock⟩ := release_releases u r (by rw [hu]; exact hthrottling)
    exact ⟨_, hexec, hnot, hrun.trans (by rw [hu]; rfl), hclock.trans (by rw [hu]; rfl)⟩
  · rw [if_pos hoff, if_pos (hsafeIff.mpr ⟨htile, hstack⟩)] at hexec
    obtain ⟨v, hv⟩ : ∃ v : State, v = { u with mgp := { u.mgp with thermalOff := false } } := ⟨_, rfl⟩
    rw [← hv] at hexec
    have hpower : v.power.supply = s.power.supply ∧ v.power.computeDies = s.power.computeDies := by
      rw [hv, hu]
      exact ⟨rfl, rfl⟩
    have hcool : v.mgp.thermalOff = false := by rw [hv]
    obtain ⟨hmgp, hon⟩ := railsOn_on hcool (hpower.1 ▸ hsupply)
    exact ⟨_, hexec, hmgp ▸ hcool, fun h => hon (hpower.2 ▸ h)⟩

/-! The input power. -/

/-- A window of the input power is noted, and keeps what the program sees. -/
structure PowerTaken (s : State) (w : Nat) (t : State) : Prop where
  pin : t.power.pin = w
  run : t.run = s.run
  mem : t.mem = s.mem
  tiles : t.tiles = s.tiles

/-- A window above the limit asks for a higher base. -/
theorem inputPowerWindow_above {s : State} (hup : s.fwUp = true) {w : Nat} (habove : s.power.inputLimit < w) :
    ∃ t, exec (.inputPowerWindow w) s = .next t ∧ PowerTaken s w t ∧ t.mgp.powerLimited = true ∧ t.mgp.underLimit = 0 ∧
      (s.clock.nextBase = none → s.clock.base < 12 → t.comingBase = s.clock.base + 1) := by
  obtain ⟨p, hp⟩ : ∃ p : State, p = { s with power := { s.power with pin := w } } := ⟨_, rfl⟩
  obtain ⟨u, hu⟩ : ∃ u, u = if p.mgp.powerLimited then p
      else p.event evPowerLimit srcPwr (leBytes 4 w ++ leBytes 4 s.power.inputLimit) := ⟨_, rfl⟩
  have honly : Only [.replies, .log] p u := by
    rw [hu]
    split
    · exact Only.refl _ p
    · exact (Only.refl _ p).event _ _ _
  obtain ⟨v, hv⟩ : ∃ v : State, v = { u with mgp := { u.mgp with powerLimited := true, underLimit := 0 } } := ⟨_, rfl⟩
  have hexec : exec (.inputPowerWindow w) s = .next v.raiseBase := by
    rw [hv, hu, hp]
    exact (if_pos hup).trans (if_pos habove)
  have hraise : Only [.clock] v v.raiseBase := (Only.refl _ v).raiseBase
  have hclock : v.clock = s.clock := by
    rw [hv]
    exact honly.clock.trans (by rw [hp])
  refine ⟨_, hexec, ⟨?_, ?_, ?_, ?_⟩, ?_, ?_, fun hnone hlow => ?_⟩
  · have hpower : v.power = p.power := by rw [hv]; exact honly.power
    rw [hraise.power, hpower, hp]
  · exact hraise.run.trans (by rw [hv]; exact honly.run.trans (by rw [hp]))
  · exact hraise.mem.trans (by rw [hv]; exact honly.mem.trans (by rw [hp]))
  · exact hraise.tiles.trans (by rw [hv]; exact honly.tiles.trans (by rw [hp]))
  · exact (congrArg MgpState.powerLimited hraise.mgp).trans (by rw [hv])
  · exact (congrArg MgpState.underLimit hraise.mgp).trans (by rw [hv])
  · rw [raiseBase_asks (hclock ▸ hnone) (hclock ▸ hlow), hclock]
    rfl

/-- A window below 95 % of the limit is counted. -/
theorem inputPowerWindow_below {s : State} (hup : s.fwUp = true) {w : Nat} (hbelow : w * 100 < s.power.inputLimit * 95) :
    ∃ t, exec (.inputPowerWindow w) s = .next t ∧ PowerTaken s w t ∧ t.mgp.underLimit = s.mgp.underLimit + 1 := by
  have hnot : ¬ s.power.inputLimit < w := by omega
  obtain ⟨u, hu⟩ : ∃ u : State, u = { s with
    power := { s.power with pin := w }
    mgp := { s.mgp with underLimit := s.mgp.underLimit + 1 } } := ⟨_, rfl⟩
  have hexec : exec (.inputPowerWindow w) s =
      if u.mgp.powerLimited ∧ 100 ≤ u.mgp.underLimit then
        if u.clock.base ≤ u.clock.target then .next { u with mgp := { u.mgp with powerLimited := false } }
        else .next u.lowerBase
      else .next u := by
    rw [hu]
    exact (if_pos hup).trans ((if_neg hnot).trans (if_pos hbelow))
  have htaken : PowerTaken s w u ∧ u.mgp.underLimit = s.mgp.underLimit + 1 := by
    rw [hu]
    exact ⟨⟨rfl, rfl, rfl, rfl⟩, rfl⟩
  obtain ⟨⟨hpin, hrun, hmem, htiles⟩, hcount⟩ := htaken
  rw [hexec]
  split
  · split
    · exact ⟨_, rfl, ⟨hpin, hrun, hmem, htiles⟩, hcount⟩
    · have hlower : Only [.clock] u u.lowerBase := (Only.refl _ u).lowerBase
      exact ⟨_, rfl, ⟨hlower.power ▸ hpin, hlower.run.trans hrun, hlower.mem.trans hmem, hlower.tiles.trans htiles⟩,
        hlower.mgp ▸ hcount⟩
  · exact ⟨_, rfl, ⟨hpin, hrun, hmem, htiles⟩, hcount⟩

/-- A window between the two bounds only clears the count. -/
theorem inputPowerWindow_between {s : State} (hup : s.fwUp = true) {w : Nat} (habove : ¬ s.power.inputLimit < w)
    (hbelow : ¬ w * 100 < s.power.inputLimit * 95) : ∃ t, exec (.inputPowerWindow w) s = .next t ∧ PowerTaken s w t :=
  ⟨_, (if_pos hup).trans ((if_neg habove).trans (if_neg hbelow)), ⟨rfl, rfl, rfl, rfl⟩⟩

/-- The input power in each of its cases. -/
theorem inputPowerWindow_completes {s : State} (hup : s.fwUp = true) (w : Nat) :
    ∃ t, exec (.inputPowerWindow w) s = .next t ∧ t.power.pin = w ∧ t.run = s.run ∧ t.mem = s.mem ∧ t.tiles = s.tiles ∧
      (s.power.inputLimit < w → t.mgp.powerLimited = true ∧ t.mgp.underLimit = 0 ∧
        (s.clock.nextBase = none → s.clock.base < 12 → t.comingBase = s.clock.base + 1)) ∧
      (w * 100 < s.power.inputLimit * 95 → t.mgp.underLimit = s.mgp.underLimit + 1) := by
  by_cases habove : s.power.inputLimit < w
  · obtain ⟨t, hexec, ⟨hpin, hrun, hmem, htiles⟩, hraised⟩ := inputPowerWindow_above hup habove
    exact ⟨t, hexec, hpin, hrun, hmem, htiles, fun _ => hraised, fun hbelow => absurd habove (by omega)⟩
  · by_cases hbelow : w * 100 < s.power.inputLimit * 95
    · obtain ⟨t, hexec, ⟨hpin, hrun, hmem, htiles⟩, hcount⟩ := inputPowerWindow_below hup hbelow
      exact ⟨t, hexec, hpin, hrun, hmem, htiles, fun h => absurd h habove, fun _ => hcount⟩
    · obtain ⟨t, hexec, hpin, hrun, hmem, htiles⟩ := inputPowerWindow_between hup habove hbelow
      exact ⟨t, hexec, hpin, hrun, hmem, htiles, fun h => absurd h habove, fun h => absurd h hbelow⟩

/-! Writes that wait for the supply. -/

/-- The writes that wait, and whether they are being carried out, are as before. -/
def DrainKept (s t : State) : Prop := t.mgp.deferred = s.mgp.deferred ∧ t.mgp.restoring = s.mgp.restoring

theorem DrainKept.trans {s t u : State} (h : DrainKept s t) (h' : DrainKept t u) : DrainKept s u :=
  ⟨h'.1.trans h.1, h'.2.trans h.2⟩

/-- What leaves the management processor, but for the ring of its log, leaves the writes that wait. -/
theorem Only.drainKept {P : List Part} {s t : State} (h : Only P s t) (hp : .mgp ∉ P := by decide) : DrainKept s t :=
  ⟨(congrArg MgpState.deferred (h.mgpRest hp) :), (congrArg MgpState.restoring (h.mgpRest hp) :)⟩

theorem nvReply_drainKept (s : State) (h : Option Hdr) (w : NvWrite) (status : BitVec 16) (reason : Nat) :
    DrainKept s (s.nvReply h w status reason) := ((Only.refl [.replies] s).nvReply h w status reason).drainKept

theorem writeCal_drainKept (s : State) (m : Memory) (scopes : Word) : DrainKept s (s.writeCal m scopes) := by
  obtain ⟨u, hu⟩ : ∃ u : State, u = { s with
    mgp := { s.mgp with calStore := m, calStaging := [], calValid := true }
    clock := { s.clock with criticalCode := (Config.criticalCode m).val } } := ⟨_, rfl⟩
  have hkept : DrainKept s u := by rw [hu]; exact ⟨rfl, rfl⟩
  have hwrite : s.writeCal m scopes = u.event evCalWritten (srcOf 0x0B 0) (leBytes 4 scopes.toNat) := by rw [hu]; rfl
  exact hwrite ▸ hkept.trans ((Only.refl [.replies, .log] u).event _ _ _).drainKept

/-- A chunk of a calibration store leaves the writes that wait. -/
theorem importDo_drainKept (s : State) (h : Option Hdr) (offset total : Nat) (chunk : Bytes) :
    DrainKept s (s.importDo h offset total chunk) := by
  unfold State.importDo
  extract_lets w mgp set buf store sig m
  have hset (b : Bytes) (st : BitVec 16) : DrainKept s ((set b).nvReply h w st 0) :=
    DrainKept.trans ⟨rfl, rfl⟩ (nvReply_drainKept _ _ _ _ _)
  split
  case isTrue => exact nvReply_drainKept _ _ _ _ _
  split
  case isTrue => exact hset _ _
  split
  case isTrue => exact hset _ _
  split
  case isFalse => exact hset _ _
  refine DrainKept.trans ⟨rfl, rfl⟩ (DrainKept.trans (writeCal_drainKept (set []) _ _) (nvReply_drainKept _ _ _ _ _))

/-- Carrying out a write leaves those that wait. -/
theorem nvDo_drainKept (s : State) (h : Option Hdr) (w : NvWrite) : DrainKept s (s.nvDo h w) := by
  have hkey (x : NvWrite) : DrainKept s (s.keyRun h x) :=
    ((Only.refl [.replies, .log, .sec, .fwFault] s).keyRun h x).drainKept
  cases w with
  | calSet m scopes => exact (writeCal_drainKept s m scopes).trans (nvReply_drainKept _ _ _ _ _)
  | calChunk o t c => exact importDo_drainKept s h o t c
  | enrol i k => exact hkey _
  | revoke i => exact hkey _
  | enforce on => exact hkey _
  | fwChunk o d => exact DrainKept.trans ⟨rfl, rfl⟩ (nvReply_drainKept _ _ _ _ _)
  | fwActivate d => exact ((Only.refl [.replies, .log, .sec] s).activateDo h d).drainKept
  | rollback n =>
    change DrainKept s (if s.sec.rollback < n then
      ({ s with sec := { s.sec with rollback := n } }).event (10, 2) srcSec (leBytes 1 n) else s)
    split
    · exact DrainKept.trans ⟨rfl, rfl⟩ ((Only.refl [.replies, .log] _).event _ _ _).drainKept
    · exact ⟨rfl, rfl⟩

theorem nvDrain_drainKept (l : List (Option Hdr × NvWrite)) (s : State) : DrainKept s (s.nvDrain l) := by
  induction l generalizing s with
  | nil => exact ⟨rfl, rfl⟩
  | cons x l ih => exact (nvDo_drainKept s x.1 x.2).trans (ih _)

/-- When the supply is restored nothing waits, and the log is committed. -/
theorem restoreSupply_restores (s : State) : s.restoreSupply.mgp.deferred = [] ∧ s.restoreSupply.mgp.restoring = false ∧
    s.restoreSupply.mgp.logRing = [] ∧ s.restoreSupply.run = s.run ∧ s.restoreSupply.power = s.power := by
  obtain ⟨u, hu⟩ : ∃ u : State, u = { s with mgp := { s.mgp with deferred := [], deferredBytes := 0, restoring := false } } :=
    ⟨_, rfl⟩
  obtain ⟨v, hv⟩ : ∃ v, v = (u.nvDrain s.mgp.deferred).event evSupplyRestored srcPwr (leBytes 2 s.power.vin) := ⟨_, rfl⟩
  have hrestore : s.restoreSupply = v.commitLog true := by rw [hv, hu]; rfl
  have hkept : DrainKept u v := hv ▸ (nvDrain_drainKept _ u).trans ((Only.refl [.replies, .log] _).event _ _ _).drainKept
  obtain ⟨hdeferred, hrestoring⟩ := hkept
  have honly := (Only.refl [.clock, .replies, .log, .mgp, .sec] s).restoreSupply
  refine ⟨?_, ?_, ?_, honly.run, honly.power⟩
  · exact hrestore ▸ hdeferred.trans (by rw [hu])
  · exact hrestore ▸ hrestoring.trans (by rw [hu])
  · rw [hrestore]
    rfl

/-! The supply. -/

/-- The state with a sample of the supply, its counts of low samples, and the meridian retained. -/
def State.withSample (s : State) (r : SupplyReading) (n485 n460 : Nat) : State :=
  { s with
    power := { s.power with vin := r.millivolt, low485 := n485, low460 := n460 }
    mgp := { s.mgp with retainedMeridian := s.clock.meridian } }

/-- A sample of the supply, once firmware is up. -/
theorem exec_supplySample {s : State} (hreset : s.power.inReset = false) (hbooted : s.sec.booted = true) (r : SupplyReading)
    {n485 n460 : Nat} (h485 : n485 = if r.millivolt < 48500 then s.power.low485 + 1 else 0)
    (h460 : n460 = if r.millivolt < 46000 then s.power.low460 + 1 else 0) : ∃ u : State, u = s.withSample r n485 n460 ∧
    exec (.supplySample r) s =
      if 3 ≤ n460 ∧ s.power.supply ≠ .halting then .next (u.sag true)
      else if 3 ≤ n485 ∧ s.power.supply = .normal then .next (u.sag false)
      else if s.power.supply ≠ .normal ∧ r.above100ms = true ∧ 49500 < r.millivolt then .next u.recover
      else .next u := by
  subst h485 h460
  refine ⟨_, rfl, ?_⟩
  exact (if_neg (by rw [hreset]; decide)).trans (if_pos hbooted)

/-- The state of a sag before it halts or defers: the event is entered, and no write is being carried out. -/
theorem sag_begins (s : State) : ∃ u : State, Only [.replies, .log, .mgp] s u ∧
    s.sag true = ({ u.stopRun hwSupply u.power.vin with
      power := { (u.stopRun hwSupply u.power.vin).power with supply := .halting } }).railsOff ∧
    s.sag false = { u with power := { u.power with supply := .deferring } } := by
  obtain ⟨v, hv⟩ : ∃ v, v = if s.power.supply = .normal then s.event evSupplyLow srcPwr (leBytes 2 s.power.vin) else s := ⟨_, rfl⟩
  have honly : Only [.replies, .log, .mgp] s v := by
    rw [hv]
    split
    · exact (Only.refl _ s).event _ _ _
    · exact Only.refl _ s
  refine ⟨{ v with mgp := { v.mgp with restoring := false } }, honly.putMgp _ rfl, ?_, ?_⟩
  · rw [hv]
    rfl
  · rw [hv]
    rfl

/-- A halt ends the run and turns the rails off. -/
theorem sag_halts (s : State) : (s.sag true).power.supply = .halting ∧ (s.sag true).power.computeDies = false ∧
    (s.sag true).power.hbmRails = false ∧ (s.sag true).run.state = .idle ∧ (s.sag true).power.vin = s.power.vin ∧
    (s.runActive = true → ∃ f, (s.sag true).run.faults = s.run.faults ++ [f] ∧ f.code = 0x010C) := by
  obtain ⟨u, honly, hsag, -⟩ := sag_begins s
  obtain ⟨hidle, hfaults⟩ := stopRun_stops u hwSupply u.power.vin
  have hpower : (u.stopRun hwSupply u.power.vin).power = u.power :=
    ((Only.refl [.tiles, .net, .hbm, .stackMap, .mem, .ports, .domain, .held, .pair, .datum, .replies, .jobs, .faults, .run,
      .blocks, .log, .fwFault, .freeCtr] u).stopRun _ _).power
  have hrun := honly.run
  rw [hsag]
  generalize u.stopRun hwSupply u.power.vin = v at hidle hfaults hpower ⊢
  refine ⟨rfl, rfl, rfl, hidle, ?_, fun hactive => ?_⟩
  · exact (congrArg PowerState.vin (hpower.trans honly.power) :)
  · exact hrun ▸ hfaults (by rw [State.runActive, hrun]; exact hactive)

/-- A sag defers. -/
theorem sag_defers (s : State) : (s.sag false).power.supply = .deferring ∧ (s.sag false).run = s.run ∧
    (s.sag false).mem = s.mem ∧ (s.sag false).tiles = s.tiles := by
  obtain ⟨u, honly, -, hsag⟩ := sag_begins s
  rw [hsag]
  exact ⟨rfl, honly.run, honly.mem, honly.tiles⟩

/-- Recovery from deferral with the flash memory free. -/
theorem recover_restores {s : State} (hdeferring : s.power.supply = .deferring) (hfree : s.mgp.flashBusy = false) :
    s.recover.power.supply = .normal ∧ s.recover.mgp.deferred = [] ∧ s.recover.mgp.logRing = [] ∧ s.recover.run = s.run := by
  obtain ⟨u, hu⟩ : ∃ u : State, u = { s with power := { s.power with supply := .normal } } := ⟨_, rfl⟩
  have hhalted : ¬ (s.power.supply == .halting) = true := by rw [hdeferring]; decide
  have hbusy : ¬ u.mgp.flashBusy = true := by rw [hu, hfree]; decide
  have hrecover : s.recover = u.restoreSupply := by
    rw [State.recover, ← hu]
    dsimp only
    rw [if_neg hhalted, if_neg hbusy]
  obtain ⟨hdeferred, -, hring, hrun, hpower⟩ := restoreSupply_restores u
  rw [hrecover]
  exact ⟨hpower ▸ (by rw [hu]), hdeferred, hring, hrun.trans (by rw [hu])⟩

/-- The supply in each of its cases. -/
theorem supplySample_completes (s : State) (r : SupplyReading) (hreset : s.power.inReset = false) (hbooted : s.sec.booted = true) :
    (r.millivolt < 46000 → s.power.low460 = 2 → s.power.supply ≠ .halting → ∃ t, exec (.supplySample r) s = .next t ∧
      t.power.supply = .halting ∧ t.power.computeDies = false ∧ t.power.hbmRails = false ∧ t.run.state = .idle ∧
      t.power.vin = r.millivolt ∧
      (s.runActive = true → ∃ f, t.run.faults = s.run.faults ++ [f] ∧ f.code = 0x010C)) ∧
    (46000 ≤ r.millivolt → r.millivolt < 48500 → s.power.low485 = 2 → s.power.supply = .normal →
      ∃ t, exec (.supplySample r) s = .next t ∧ t.power.supply = .deferring ∧ t.run = s.run ∧ t.mem = s.mem ∧
        t.tiles = s.tiles) ∧
    (49500 < r.millivolt → r.above100ms = true → s.power.supply = .deferring → s.mgp.flashBusy = false →
      ∃ t, exec (.supplySample r) s = .next t ∧ t.power.supply = .normal ∧ t.mgp.deferred = [] ∧ t.mgp.logRing = [] ∧
        t.run = s.run) ∧
    (48500 ≤ r.millivolt → s.power.supply = .normal → ∃ t, exec (.supplySample r) s = .next t ∧
      t.power = { s.power with vin := r.millivolt, low485 := 0, low460 := 0 } ∧ t.run = s.run ∧ t.tiles = s.tiles ∧
      t.mem = s.mem) := by
  obtain ⟨n485, h485⟩ : ∃ n, n = if r.millivolt < 48500 then s.power.low485 + 1 else 0 := ⟨_, rfl⟩
  obtain ⟨n460, h460⟩ : ∃ n, n = if r.millivolt < 46000 then s.power.low460 + 1 else 0 := ⟨_, rfl⟩
  obtain ⟨u, hu, hexec⟩ := exec_supplySample hreset hbooted r h485 h460
  refine ⟨fun hlow htwo hsupply => ?_, fun hhigh hlow htwo hnormal => ?_, fun hhigh habove hdeferring hfree => ?_,
    fun hhigh hnormal => ?_⟩
  · rw [if_pos hlow] at h460
    rw [if_pos ⟨by omega, hsupply⟩] at hexec
    obtain ⟨hhalting, hdies, hrails, hidle, hvin, hfaults⟩ := sag_halts u
    exact ⟨_, hexec, hhalting, hdies, hrails, hidle, hvin.trans (by rw [hu]; rfl), by rw [hu] at hfaults ⊢; exact hfaults⟩
  · rw [if_neg (by omega)] at h460
    rw [if_pos hlow] at h485
    rw [if_neg (fun h => absurd h.1 (by omega)), if_pos ⟨by omega, hnormal⟩] at hexec
    obtain ⟨hdefers, hrun, hmem, htiles⟩ := sag_defers u
    exact ⟨_, hexec, hdefers, hrun.trans (by rw [hu]; rfl), hmem.trans (by rw [hu]; rfl), htiles.trans (by rw [hu]; rfl)⟩
  · rw [if_neg (by omega)] at h460 h485
    rw [if_neg (fun h => absurd h.1 (by omega)), if_neg (fun h => absurd h.1 (by omega)),
      if_pos ⟨by rw [hdeferring]; decide, habove, hhigh⟩] at hexec
    obtain ⟨hnormal, hdeferred, hring, hrun⟩ := recover_restores (s := u) (by rw [hu]; exact hdeferring) (by rw [hu]; exact hfree)
    exact ⟨_, hexec, hnormal, hdeferred, hring, hrun.trans (by rw [hu]; rfl)⟩
  · rw [if_neg (by omega)] at h460 h485
    rw [if_neg (fun h => absurd h.1 (by omega)), if_neg (fun h => absurd h.1 (by omega)),
      if_neg (fun h => h.1 hnormal), hu, h485, h460] at hexec
    exact ⟨_, hexec, rfl, rfl, rfl, rfl⟩

/-! The log. -/

/-- A commit that fits. -/
theorem fitLog_of_fits {room : Nat} {es : List LogEntry} (h : es.length ≤ room) : fitLog room es = es := by
  rw [fitLog, Nat.sub_eq_zero_of_le h]
  rfl

/-- A commit that is due and succeeds. -/
theorem logCommit_commits {s : State} (hup : s.fwUp = true) (hnormal : s.power.supply = .normal)
    (hidle : s.mgp.restoring = false) (hdue : s.commitDue = true)
    (hroom : s.mgp.committed.length + s.mgp.logRing.length ≤ s.mgp.logRoom) :
    ∃ t, exec (.logCommit true) s = .next t ∧ t.mgp.logRing = [] ∧ t.mgp.flashBusy = true ∧
      t.mgp.committed = s.mgp.committed ++ s.mgp.logRing.map (fun e => { e with deferred := false }) ∧
      t.mgp.lastCommit = s.clock.meridian ∧ t.run = s.run ∧ t.tiles = s.tiles := by
  refine ⟨_, if_pos ⟨hup, hnormal, hidle, hdue⟩, rfl, rfl, ?_, rfl, rfl, rfl⟩
  exact fitLog_of_fits (by rw [List.length_append, List.length_map]; exact hroom)

/-- A commit that is due and fails retires a sector. -/
theorem logCommit_retires {s : State} (hup : s.fwUp = true) (hnormal : s.power.supply = .normal)
    (hidle : s.mgp.restoring = false) (hdue : s.commitDue = true) :
    ∃ t, exec (.logCommit false) s = .next t ∧ t.mgp.retired = s.mgp.retired + 1 := by
  obtain ⟨u, hu⟩ : ∃ u : State, u = { ({ s with mgp := { s.mgp with retired := s.mgp.retired + 1 } }).commitLog false with
    mgp := { (({ s with mgp := { s.mgp with retired := s.mgp.retired + 1 } }).commitLog false).mgp with flashBusy := true } } :=
    ⟨_, rfl⟩
  have hretired : u.mgp.retired = s.mgp.retired + 1 := by rw [hu]; rfl
  have hexec : exec (.logCommit false) s = .next (u.event evLogSectorRetired (srcOf 0x0B 0) (leBytes 2 u.mgp.retired)) := by
    rw [hu]
    exact if_pos ⟨hup, hnormal, hidle, hdue⟩
  have hrest := ((Only.refl [.replies, .log] u).event evLogSectorRetired (srcOf 0x0B 0) (leBytes 2 u.mgp.retired)).mgpRest
  exact ⟨_, hexec, (congrArg MgpState.retired hrest :).trans hretired⟩

/-- The end of a flash operation. -/
theorem flashOperationDone_completes {s : State} (op : FlashOp) (hbusy : s.mgp.flashBusy = true) (hreset : s.power.inReset = false) :
    (s.mgp.restoring = false →
      exec (.flashOperationDone op) s = .next { s with mgp := { s.mgp with flashBusy := false } }) ∧
    (s.mgp.restoring = true → s.power.supply = .normal → ∃ t, exec (.flashOperationDone op) s = .next t ∧
      t.mgp.deferred = [] ∧ t.mgp.restoring = false ∧ t.run = s.run) := by
  obtain ⟨u, hu⟩ : ∃ u : State, u = { s with mgp := { s.mgp with flashBusy := false } } := ⟨_, rfl⟩
  have hexec : exec (.flashOperationDone op) s =
      .next (if u.mgp.restoring && u.power.supply == .normal then u.restoreSupply else u) := by
    rw [hu]
    exact if_pos ⟨hbusy, hreset⟩
  refine ⟨fun hidle => ?_, fun hrestoring hnormal => ?_⟩
  · rw [hexec, ← hu, if_neg]
    rw [hu, hidle]
    exact Bool.false_ne_true
  · have hgo : (u.mgp.restoring && u.power.supply == .normal) = true := by
      rw [hu]
      simp [hrestoring, hnormal]
    obtain ⟨hdeferred, hdone, -, hrun, -⟩ := restoreSupply_restores u
    rw [if_pos hgo] at hexec
    exact ⟨_, hexec, hdeferred, hdone, hrun.trans (by rw [hu])⟩

/-- Settles O54, from what each policy does in each of its cases. -/
theorem policiesComplete : Obligations.PoliciesComplete := by
  unfold Obligations.PoliciesComplete
  refine ⟨fun s hup => ?_, supplySample_completes, fun s hup hnormal hidle hdue hroom =>
    logCommit_commits hup hnormal hidle hdue hroom, fun s hup hnormal hidle hdue => logCommit_retires hup hnormal hidle hdue,
    fun s op hbusy hreset => flashOperationDone_completes op hbusy hreset⟩
  exact ⟨fun r => (thermalPolicy_completes hup r).1, fun r => (thermalPolicy_completes hup r).2.1,
    fun r => (thermalPolicy_completes hup r).2.2.1, fun r => (thermalPolicy_completes hup r).2.2.2,
    inputPowerWindow_completes hup⟩

end Sys2Proof.Machine
end

section
/-!
PROOFS. Resets, the rails, PCIe, I3C, the boot chain and the ROLLBACK fuses (R503, R509, R525, R545, R581, R586 to R590, R603 to
R609; ResetsAndBootComplete, O55).
-/

namespace Sys2Proof.Machine

set_option Elab.async false

/-! Resets. -/

/-- What a reset of the module leaves, whatever asked for it (R545, R609). -/
structure Clean (s t : State) : Prop where
  fixed : t.fixed = s.fixed
  run : t.run = State.reset.run
  tiles : t.tiles = []
  pcie : t.host.pcie = none
  mctp : t.host.mctp = none
  images : t.host.images = []
  blocks : t.blocks = []
  hostLock : t.hostLock = false
  domain : t.domain = State.reset.domain
  pair : t.pair = State.reset.pair
  net : t.net = State.reset.net
  inReset : t.power.inReset = true
  meridianRuns : t.clock.meridianRuns = false
  rootLocked : t.clock.rootLocked = false
  committed : t.mgp.committed = s.mgp.committed
  calStore : t.mgp.calStore = s.mgp.calStore
  rollback : t.sec.rollback = s.sec.rollback
  keys : t.sec.keys = s.sec.keys
  enforce : t.sec.enforce = s.sec.enforce
  imageA : t.sec.imageA = s.sec.imageA
  imageB : t.sec.imageB = s.sec.imageB
  booted : t.sec.booted = false
  pending : t.pending = s.pending

theorem internalReset_clean (s : State) : Clean s s.internalReset :=
  ⟨rfl, rfl, rfl, rfl, rfl, rfl, rfl, rfl, rfl, rfl, rfl, rfl, rfl, rfl, rfl, rfl, rfl, rfl, rfl, rfl, rfl, rfl, rfl⟩

/-- What a source of the reset adds leaves it clean, where it keeps the flash and the rest of what a reset holds. -/
theorem Clean.put {s t : State} (h : Clean s t) {c : ClockState} {m : MgpState} {p : PowerState}
    (hclock : c.meridianRuns = t.clock.meridianRuns ∧ c.rootLocked = t.clock.rootLocked)
    (hmgp : m.committed = t.mgp.committed ∧ m.calStore = t.mgp.calStore) (hpower : p.inReset = t.power.inReset) :
    Clean s { t with clock := c, mgp := m, power := p } :=
  { h with
    inReset := hpower.trans h.inReset
    meridianRuns := hclock.1.trans h.meridianRuns
    rootLocked := hclock.2.trans h.rootLocked
    committed := hmgp.1.trans h.committed
    calStore := hmgp.2.trans h.calStore }

/-- MRST_N resets the module and holds the meridian. -/
theorem exec_mrst (s : State) : ∃ t, exec .mrst s = .next t ∧ Clean s t ∧ t.clock.meridian = s.clock.meridian ∧
    t.power.mrstN = false :=
  ⟨_, rfl, (internalReset_clean s).put ⟨rfl, rfl⟩ ⟨rfl, rfl⟩ rfl, rfl, rfl⟩

/-- A power fail resets the module, holds the meridian and turns the rails of the compute dies and HBM off. -/
theorem exec_powerFailReset {s : State} (halive : s.power.keepAlive = true) : ∃ t, exec .powerFailReset s = .next t ∧ Clean s t ∧
    t.clock.meridian = s.clock.meridian ∧ t.mgp.powerFailed = true ∧ t.power.computeDies = false ∧ t.power.hbmRails = false :=
  ⟨_, if_pos halive, (internalReset_clean s).put ⟨rfl, rfl⟩ ⟨rfl, rfl⟩ rfl, rfl, rfl, rfl, rfl⟩

/-- A loss of the input resets the module and clears the meridian, and every rail goes off. -/
theorem exec_inputLoss (s : State) : ∃ t, exec .inputLoss s = .next t ∧ Clean s t ∧ t.clock.meridian = 0 ∧
    t.clock.meridianFresh = true ∧ t.power.keepAlive = false ∧ t.power.pwrgd = false ∧ t.power.computeDies = false ∧
    t.power.hbmRails = false :=
  ⟨_, rfl, (internalReset_clean s).put ⟨rfl, rfl⟩ ⟨rfl, rfl⟩ rfl, rfl, rfl, rfl, rfl, rfl, rfl⟩

/-- The rails come up while the module is in reset. -/
theorem exec_powerUp {s : State} (hreset : s.power.inReset = true) (hdown : s.power.railsUp = false)
    (hrails : s.power.portDies = true ∨ s.power.keepAlive = false) : ∃ t, exec .powerUp s = .next t ∧
    t = { s with power := t.power } ∧ t.power.railsUp = true ∧ t.power.pwrgd = true ∧ t.power.inReset = true := by
  have hmissing : s.power.keepAlive = false ∨ s.power.computeDies = false ∨ s.power.hbmRails = false := by
    by_contra h
    obtain ⟨halive, hdies, hhbm⟩ : s.power.keepAlive = true ∧ s.power.computeDies = true ∧ s.power.hbmRails = true := by
      simpa using h
    rw [halive] at hrails
    have hport : s.power.portDies = true := hrails.resolve_right (by decide)
    rw [PowerState.railsUp, halive, hport, hdies, hhbm] at hdown
    exact absurd hdown (by decide)
  exact ⟨_, if_pos ⟨hreset, hmissing⟩, rfl, rfl, rfl, hreset⟩

/-- With its rails up the module leaves reset and asks for a datum pulse. -/
theorem exec_resetRelease {s : State} (hreset : s.power.inReset = true) (hup : s.power.railsUp = true) :
    ∃ t, exec .resetRelease s = .next t ∧ t.power.inReset = false ∧ t.clock.datumReq = true ∧
      t = { s with power := t.power, clock := t.clock } ∧ t.clock.meridian = s.clock.meridian :=
  ⟨_, if_pos ⟨hreset, hup⟩, rfl, rfl, rfl, rfl⟩

/-! PCIe and I3C. -/

/-- The end of a session changes the host interface alone. -/
theorem Only.endedSession (s : State) (p : Path) : Only [.sessions, .replies, .jobs, .host] s (s.endSession p) :=
  (Only.refl _ s).endSession p

/-- A reset of PCIe ends the session of that path alone. -/
theorem pcieReset_ends (s : State) : Only [.sessions, .replies, .jobs, .host] s s.pcieReset ∧ s.pcieReset.host.pcie = none ∧
    s.pcieReset.host.mctp = s.host.mctp :=
  ⟨(Only.refl _ s).pcieReset, State.endSession_session_same s .pcie, State.endSession_session_other s .pcie⟩

/-- PERST_N. -/
theorem exec_perst (s : State) : ∃ t, exec .perst s = .next t ∧ t.host.pcie = none ∧ t.host.linkWidth = 0 ∧
    t.host.mctp = s.host.mctp ∧ t.tiles = s.tiles ∧ t.run = s.run ∧ t.mem = s.mem ∧
    t.power = { s.power with perstN := false } ∧ t.clock = s.clock := by
  obtain ⟨honly, hpcie, hmctp⟩ := pcieReset_ends s
  refine ⟨_, rfl, hpcie, rfl, hmctp, honly.tiles, honly.run, honly.mem, ?_, honly.clock⟩
  exact congrArg (fun p : PowerState => { p with perstN := false }) honly.power

/-- A function-level reset. -/
theorem exec_flr {s : State} (hreset : s.power.inReset = false) : ∃ t, exec .flr s = .next t ∧ t.host.pcie = none ∧
    t.host.mctp = s.host.mctp ∧ t.tiles = s.tiles ∧ t.run = s.run ∧ t.mem = s.mem ∧ t.power = s.power := by
  obtain ⟨honly, hpcie, hmctp⟩ := pcieReset_ends s
  exact ⟨_, if_neg (by rw [hreset]; decide), hpcie, hmctp, honly.tiles, honly.run, honly.mem, honly.power⟩

/-- The loss of I3C. -/
theorem exec_i3cLoss (s : State) : ∃ t, exec .i3cLoss s = .next t ∧ t.host.mctp = none ∧ t.host.pcie = s.host.pcie ∧
    t.run = s.run ∧ t.tiles = s.tiles :=
  ⟨_, rfl, State.endSession_session_same s .mctp, State.endSession_session_other s .mctp, (Only.endedSession s .mctp).run,
    (Only.endedSession s .mctp).tiles⟩

/-- What an event enters in the log does not depend on the host interface or the power. -/
theorem event_mgp_putHostPower (s : State) (h : HostState) (p : PowerState) (e : Event) (source : BitVec 16) (payload : Bytes) :
    (({ s with host := h, power := p } : State).event e source payload).mgp = (s.event e source payload).mgp := rfl

/-- The training of the PCIe link, and the event where it is degraded. -/
theorem exec_pcieLinkTraining {s : State} (hreset : s.power.inReset = false) (rate width : Nat) :
    ∃ t, exec (.pcieLinkTraining rate width) s = .next t ∧ t.host.linkRate = rate ∧ t.host.linkWidth = width ∧
      t.power = { s.power with perstN := true } ∧ t.run = s.run ∧ (32 ≤ rate → 4 ≤ width → t.mgp = s.mgp) ∧
      (rate < 32 ∨ width < 4 →
        t.mgp = (s.event evPcieDegraded (srcOf 0x0A 0) (leBytes 1 rate ++ leBytes 1 width)).mgp) := by
  have hgo : ¬ s.power.inReset = true := by rw [hreset]; decide
  obtain ⟨u, hu⟩ : ∃ u : State, u = { s with
    host := { s.host with linkRate := rate, linkWidth := width }
    power := { s.power with perstN := true } } := ⟨_, rfl⟩
  have hfields : u.host.linkRate = rate ∧ u.host.linkWidth = width ∧ u.power = { s.power with perstN := true } ∧
      u.run = s.run ∧ u.mgp = s.mgp := by
    rw [hu]
    exact ⟨rfl, rfl, rfl, rfl, rfl⟩
  obtain ⟨hrate, hwidth, hpower, hrun, hmgp⟩ := hfields
  by_cases hdegraded : rate < 32 ∨ width < 4
  · have honly := (Only.refl [.replies, .log] u).event evPcieDegraded (srcOf 0x0A 0) (leBytes 1 rate ++ leBytes 1 width)
    have hexec : exec (.pcieLinkTraining rate width) s =
        .next (u.event evPcieDegraded (srcOf 0x0A 0) (leBytes 1 rate ++ leBytes 1 width)) := by
      rw [hu]
      exact (if_neg hgo).trans (if_pos hdegraded)
    have hhost := honly.hostRest
    refine ⟨_, hexec, (congrArg HostState.linkRate hhost :).trans hrate, (congrArg HostState.linkWidth hhost :).trans hwidth,
      honly.power.trans hpower, honly.run.trans hrun, fun h1 h2 => absurd hdegraded (by omega), fun _ => ?_⟩
    rw [hu]
    exact event_mgp_putHostPower s _ _ _ _ _
  · have hexec : exec (.pcieLinkTraining rate width) s = .next u := by
      rw [hu]
      exact (if_neg hgo).trans (if_neg hdegraded)
    exact ⟨u, hexec, hrate, hwidth, hpower, hrun, fun _ _ => hmgp, fun h => absurd h hdegraded⟩

/-! The boot chain. -/

/-- The image of the two that an index names. -/
def SecState.image (x : SecState) (b : Bool) : FwImage := if b then x.imageB else x.imageA

/-- A boot that finds a valid image starts it. -/
theorem boot_starts {s : State} (hreset : s.power.inReset = false) (hbooted : s.sec.booted = false)
    (hrecovery : s.sec.recovery = false) (hlife : s.sec.lifecycle = 0b0011) {isB second : Bool}
    (hchoice : s.sec.choice = some (isB, second)) : ∃ t, exec .boot s = .next t ∧
      t.sec = s.sec.start isB second s.clock.meridian := by
  obtain ⟨u, hu⟩ : ∃ u, u = ({ s with sec := s.sec.start isB second s.clock.meridian }).loadLibrary := ⟨_, rfl⟩
  obtain ⟨v, hv⟩ : ∃ v, v = if second then u.event (10, 1) srcSec (leBytes 1 (if isB then 1 else 0)) else u := ⟨_, rfl⟩
  obtain ⟨w, hw⟩ : ∃ w, w = v.checkCal.reportPowerFail.trainStacks := ⟨_, rfl⟩
  have honly : Only [.replies, .log] u v := by
    rw [hv]
    split
    · exact (Only.refl _ u).event _ _ _
    · exact Only.refl _ u
  have hwonly : Only [.clock, .replies, .log, .mgp, .hbm, .stackMap] v w := by
    rw [hw]
    exact (Only.checkCal (Only.refl _ v)).reportPowerFail.trainStacks
  have hexec : exec .boot s =
      .next { w with host := { w.host with ringState := if w.host.pcie.isSome then 2 else 1 } } := by
    change execBoot s = _
    rw [execBoot, if_pos ⟨hreset, hbooted, hrecovery, hlife⟩, hchoice, hw, hv, hu]
  exact ⟨_, hexec, hwonly.sec.trans (honly.sec.trans (by rw [hu]; rfl))⟩

/-- A boot that finds no valid image goes to recovery. -/
theorem boot_recovers {s : State} (hreset : s.power.inReset = false) (hbooted : s.sec.booted = false)
    (hrecovery : s.sec.recovery = false) (hlife : s.sec.lifecycle = 0b0011) (hchoice : s.sec.choice = none) :
    exec .boot s = .next { s with sec := { s.sec with recovery := true }, host := { s.host with ringState := 3 } } := by
  change execBoot s = _
  rw [execBoot, if_pos ⟨hreset, hbooted, hrecovery, hlife⟩, hchoice]

theorem choice_eq (x : SecState) : x.choice =
    if x.imageValid (x.image x.firstIsB) then some (x.firstIsB, false)
    else if x.imageValid (x.image (!x.firstIsB)) then some (!x.firstIsB, true)
    else none := rfl

/-- The choice of the boot chain: the image of higher ACTIVATION, else the other, else none. -/
theorem choice_chooses (x : SecState) :
    (x.imageValid (x.image x.firstIsB) = true → x.choice = some (x.firstIsB, false)) ∧
    (x.imageValid (x.image x.firstIsB) = false → x.imageValid (x.image (!x.firstIsB)) = true →
      x.choice = some (!x.firstIsB, true)) ∧
    (x.imageValid (x.image x.firstIsB) = false → x.imageValid (x.image (!x.firstIsB)) = false → x.choice = none) := by
  rw [choice_eq]
  generalize x.imageValid (x.image x.firstIsB) = first
  generalize x.imageValid (x.image (!x.firstIsB)) = other
  refine ⟨fun h => ?_, fun h1 h2 => ?_, fun h1 h2 => ?_⟩
  · rw [if_pos h]
  · rw [h1, if_neg Bool.false_ne_true, if_pos h2]
  · rw [h1, h2, if_neg Bool.false_ne_true, if_neg Bool.false_ne_true]

/-- A boot keeps what manufacture fixed and the queue. -/
theorem boot_kept {s t : State} (h : exec .boot s = .next t) : Kept s t :=
  (h ▸ (Goes.execBoot (Kept.refl s)).keeps : Keeps s (.next t)).of_next

/-- What a start of firmware leaves of the security block. -/
theorem start_starts (x : SecState) (isB second : Bool) (now : DWord) :
    (x.start isB second now).rollback = x.rollback ∧ (x.start isB second now).booted = true ∧
      (x.start isB second now).runningB = isB ∧ (x.start isB second now).fallback = second ∧
      (x.start isB second now).latched = (x.image isB).digest ∧ (x.start isB second now).bootedAt = now :=
  ⟨rfl, rfl, rfl, rfl, rfl, rfl⟩

/-- The boot chain. -/
theorem boot_completes {s : State} (hreset : s.power.inReset = false) (hbooted : s.sec.booted = false)
    (hrecovery : s.sec.recovery = false) (hlife : s.sec.lifecycle = 0b0011) {b : Bool} (hb : b = s.sec.firstIsB) :
    ∃ t, exec .boot s = .next t ∧ t.sec.rollback = s.sec.rollback ∧ t.fixed = s.fixed ∧ t.pending = s.pending ∧
      (s.sec.imageValid (s.sec.image b) = true → t.sec.booted = true ∧ t.sec.runningB = b ∧ t.sec.fallback = false ∧
        t.sec.latched = (s.sec.image b).digest ∧ t.sec.bootedAt = s.clock.meridian) ∧
      (s.sec.imageValid (s.sec.image b) = false → s.sec.imageValid (s.sec.image (!b)) = true → t.sec.booted = true ∧
        t.sec.runningB = !b ∧ t.sec.fallback = true ∧ t.sec.latched = (s.sec.image (!b)).digest) ∧
      (s.sec.imageValid (s.sec.image b) = false → s.sec.imageValid (s.sec.image (!b)) = false → t.sec.booted = false ∧
        t.sec.recovery = true ∧ t.host.ringState = 3) := by
  obtain ⟨hfirst, hother, hneither⟩ := choice_chooses s.sec
  rw [← hb] at hfirst hother hneither
  generalize s.sec.imageValid (s.sec.image b) = first at hfirst hother hneither ⊢
  generalize s.sec.imageValid (s.sec.image (!b)) = other at hfirst hother hneither ⊢
  cases first with
  | true =>
    obtain ⟨t, hexec, hsec⟩ := boot_starts hreset hbooted hrecovery hlife (hfirst rfl)
    obtain ⟨hrollback, hstarted, hrunning, hfallback, hlatched, hat⟩ := start_starts s.sec b false s.clock.meridian
    rw [← hsec] at hrollback hstarted hrunning hfallback hlatched hat
    exact ⟨t, hexec, hrollback, (boot_kept hexec).fixed, (boot_kept hexec).pending,
      fun _ => ⟨hstarted, hrunning, hfallback, hlatched, hat⟩, (fun h => by cases h), (fun h => by cases h)⟩
  | false =>
    cases other with
    | true =>
      obtain ⟨t, hexec, hsec⟩ := boot_starts hreset hbooted hrecovery hlife (hother rfl rfl)
      obtain ⟨hrollback, hstarted, hrunning, hfallback, hlatched, -⟩ := start_starts s.sec (!b) true s.clock.meridian
      rw [← hsec] at hrollback hstarted hrunning hfallback hlatched
      exact ⟨t, hexec, hrollback, (boot_kept hexec).fixed, (boot_kept hexec).pending, (fun h => by cases h),
        fun _ _ => ⟨hstarted, hrunning, hfallback, hlatched⟩, (fun _ h => by cases h)⟩
    | false =>
      have hexec := boot_recovers hreset hbooted hrecovery hlife (hneither rfl rfl)
      exact ⟨_, hexec, rfl, (boot_kept hexec).fixed, (boot_kept hexec).pending, (fun h => by cases h), (fun _ h => by cases h),
        fun _ _ => ⟨hbooted, rfl, rfl⟩⟩

/-- The ROLLBACK fuses advance to the count of the running image. -/
theorem exec_rollbackAdvance {s : State} (hup : s.fwUp = true) (hfault : s.sec.fwFault = false)
    (hlong : s.sec.bootedAt.toNat + 240000000000 ≤ s.clock.meridian.toNat) (hbehind : s.sec.rollback < s.sec.ownRollback)
    (hwaits : s.mgp.burnWaits = false) (hnormal : s.power.supply = .normal) (hrestored : s.mgp.restoring = false) :
    ∃ t, exec .rollbackAdvance s = .next t ∧ t.sec = { s.sec with rollback := s.sec.ownRollback } ∧ t.run = s.run := by
  obtain ⟨n, hn⟩ : ∃ n, n = s.sec.ownRollback := ⟨_, rfl⟩
  rw [← hn] at hbehind ⊢
  obtain ⟨u, hu⟩ : ∃ u : State, u = { s with sec := { s.sec with rollback := n } } := ⟨_, rfl⟩
  have honly := (Only.refl [.replies, .log] u).event (10, 2) srcSec (leBytes 1 n)
  have hexec : exec .rollbackAdvance s = .next (u.event (10, 2) srcSec (leBytes 1 n)) := by
    change execRollbackAdvance s = _
    rw [execRollbackAdvance, ← hn]
    rw [if_pos ⟨hup, hfault, hlong, hbehind, hwaits⟩, if_pos ⟨hnormal, hrestored⟩, State.nvDo, if_pos hbehind, hu]
  exact ⟨_, hexec, honly.sec.trans (by rw [hu]), honly.run.trans (by rw [hu])⟩

/-- Settles O55, from what each reset leaves and what the boot chain chooses. -/
theorem resetsAndBootComplete : Obligations.ResetsAndBootComplete := by
  unfold Obligations.ResetsAndBootComplete
  have hclean : ∀ {s t : State}, Clean s t → t.fixed = s.fixed ∧ t.run = State.reset.run ∧ t.tiles = [] ∧ t.host.pcie = none ∧
      t.host.mctp = none ∧ t.host.images = [] ∧ t.blocks = [] ∧ t.hostLock = false ∧ t.domain = State.reset.domain ∧
      t.pair = State.reset.pair ∧ t.net = State.reset.net ∧ t.power.inReset = true ∧ t.clock.meridianRuns = false ∧
      t.clock.rootLocked = false ∧ t.mgp.committed = s.mgp.committed ∧ t.mgp.calStore = s.mgp.calStore ∧
      t.sec.rollback = s.sec.rollback ∧ t.sec.keys = s.sec.keys ∧ t.sec.enforce = s.sec.enforce ∧
      t.sec.imageA = s.sec.imageA ∧ t.sec.imageB = s.sec.imageB ∧ t.sec.booted = false ∧ t.pending = s.pending :=
    fun h => ⟨h.fixed, h.run, h.tiles, h.pcie, h.mctp, h.images, h.blocks, h.hostLock, h.domain, h.pair, h.net, h.inReset,
      h.meridianRuns, h.rootLocked, h.committed, h.calStore, h.rollback, h.keys, h.enforce, h.imageA, h.imageB, h.booted,
      h.pending⟩
  refine ⟨fun s => ⟨?_, fun halive => ?_, ?_, exec_powerUp, exec_resetRelease⟩, fun s => ⟨exec_perst s, exec_flr, exec_i3cLoss s,
    fun rate width hreset => exec_pcieLinkTraining hreset rate width,
    fun hreset hbooted hrecovery hlife => boot_completes hreset hbooted hrecovery hlife rfl, exec_rollbackAdvance⟩⟩
  · obtain ⟨t, hexec, h, hrest⟩ := exec_mrst s
    exact ⟨t, hexec, hclean h, hrest⟩
  · obtain ⟨t, hexec, h, hrest⟩ := exec_powerFailReset halive
    exact ⟨t, hexec, hclean h, hrest⟩
  · obtain ⟨t, hexec, h, hrest⟩ := exec_inputLoss s
    exact ⟨t, hexec, hclean h, hrest⟩

end Sys2Proof.Machine
end
